-- ==== Sys2Proof/Syntax.lean ====
section
/-! DEFINITION. Syntax.lean: the commands the block takes, one constructor per row of the opcode table, and the types
of their operands. -/

namespace Sys2Proof

/-- The level an access is made at (Pretan: levels U, S and M; R359). -/
inductive Level where
  | u | s | m
  deriving DecidableEq, Repr

/-- The level as a record names it: 0b01 S, 0b10 M (R536). -/
def Level.num : Level → Nat
  | .u => 0
  | .s => 1
  | .m => 2

/-- Who makes an access: requester number (Table 11-8) and level. -/
structure Who where
  rq  : Fin 16
  lvl : Level
  deriving DecidableEq, Repr

/-- What the ECC of the word read finds. -/
inductive Ecc where
  | clean | single | double
  deriving DecidableEq, Repr

/-- A fault that has taken one half of the permission monitor: which half, what it says (none: grant;
else a cause), and whether its snapshot differs from the other half's. -/
structure HalfFault where
  half : Fin 2
  tells : Option (Fin 16)
  snap : Bool
  deriving DecidableEq, Repr

/-- The three registers R87 clamps. -/
inductive DwellReg where
  | pwrcap | dwellwin | dwelllim
  deriving DecidableEq, Repr

/-- How a stop request reaches RAD.STOPREQ (Permission to move: Stop requests): a register write, SCH's strait (SQ16) or
CTL's (SQ17). -/
inductive StopVia where
  | reg | sch | ctl
  deriving DecidableEq, Repr

/-- A frame at a network port: the port, the destination and the sender's MAC, the EtherType and the bytes after it. -/
structure PortFrame where
  port : Fin 2
  dst  : BitVec 48
  src  : BitVec 48
  etype : BitVec 16
  body : List Byte
  deriving DecidableEq, Repr

/-- An ordinary frame received: its port, the tag by which its descriptor knows it (R57, Table 13-4), and its bytes from the
destination address on, without the FCS. -/
structure OrdFrame where
  port  : Fin 2
  tag   : Byte
  bytes : List Byte
  deriving DecidableEq, Repr

/-- What a channel's loops hold at the sample of an epoch (R173): code phase in 2^-32 ms, carrier phase in 2^-16 cycles,
Doppler in mHz and C/N0 in 0.1 dB-Hz. -/
structure Meas where
  code : W32
  acp  : W64
  dop  : W32
  cn0  : BitVec 16
  deriving DecidableEq, Repr

/-- The element types of Table 12-5. -/
inductive VTy where
  | i8 | i16 | i32 | i64 | f32 | f64
  deriving DecidableEq, Repr

/-- What FCVT converts: between the formats, or between binary64 or binary32 and a signed 64-bit integer. -/
inductive FCvt where
  | sToD | dToS | sToInt | dToInt | intToS | intToD
  deriving DecidableEq, Repr

/-- A register number. -/
abbrev RegNo := Fin 32

/-- A core. -/
abbrev CoreNo := Fin 8


/-- The commands of the block: one constructor per row of the opcode table, with what the row takes. -/
inductive Instr where
  /-- REGISTER_WRITE (R4). -/
  | registerWrite (a : BitVec 40) (v : W32) (w : Who)
  /-- RC_READ (R4). -/
  | rcRead (a : BitVec 40) (w : Who)
  /-- PAIR_LOW_READ (R9). -/
  | pairLowRead (a : BitVec 40) (w : Who)
  /-- PAIR_LOW_WRITE (R10). -/
  | pairLowWrite (a : BitVec 40) (v : W32) (w : Who)
  /-- PAIR_HIGH_WRITE (R10). -/
  | pairHighWrite (a : BitVec 40) (v : W32) (w : Who)
  /-- POWER_GOOD (R475). -/
  | powerGood (a : Fin 5) (b : Fin 5)
  /-- POWER_GRANT_LOW (R23). -/
  | powerGrantLow (a : Fin 5) (b : Fin 5)
  /-- PORT_POWER_LOSS (R24). -/
  | portPowerLoss (a : Fin 5) (b : Fin 5)
  /-- RESTORE (R22). -/
  | restore (w : Who)
  /-- BROWN_OUT (R488). -/
  | brownOut (rail : Bool)
  /-- J6_FILTER_CHANGE (R27). -/
  | j6FilterChange (chB : Bool) (closed : Bool)
  /-- TEST_WINDOW_CHECK (R29). -/
  | testWindowCheck (chB : Bool) (own : Bool) (other : Bool) (before : Bool) (after : Bool)
  /-- STOP_DISCREPANCY (R30). -/
  | stopDiscrepancy
  /-- PERMIT_STUCK (R33). -/
  | permitStuck
  /-- PERMIT_OVLD (R34). -/
  | permitOvld
  /-- TPULSE_OVLD (R34). -/
  | tpulseOvld
  /-- POVCLR (R34). -/
  | povclr (w : Who)
  /-- TPOVCLR (R34). -/
  | tpovclr (w : Who)
  /-- TPEN (R35). -/
  | tpen (v : Bool) (w : Who)
  /-- ANT_FAULT (R36). -/
  | antFault (cur : Byte)
  /-- BIAS_RETRY (R36). -/
  | biasRetry (cur : Byte)
  /-- TSNAP (R45). -/
  | tsnap
  /-- RARM (R46). -/
  | rarm (onWall : Bool)
  /-- RATE_CHANGE (R46). -/
  | rateChange (onWall : Bool)
  /-- WALL_CORRECTION (R53). -/
  | wallCorrection (src : Fin 4) (fw : Bool) (amt : W64)
  /-- SLEW_END (R51). -/
  | slewEnd
  /-- STEPACC (R53). -/
  | stepacc
  /-- WALL_HOLDOVER (R54). -/
  | wallHoldover
  /-- SRC_CHANGE (R54). -/
  | srcChange (src : Fin 4)
  /-- CYCLE_FOLLOW (R59). -/
  | cycleFollow
  /-- STEPEN_WRITE (R60). -/
  | stepenWrite (v : Bool)
  /-- COFF_WRITE (R61). -/
  | coffWrite (v : W64)
  /-- TRIGCTL_WRITE (R65). -/
  | trigctlWrite (n : Fin 16) (v : W32)
  /-- TRIGGER_FIRE (R67). -/
  | triggerFire (n : Fin 16)
  /-- TPULSE_RISE (R72). -/
  | tpulseRise
  /-- TPULSE_FALL (R70). -/
  | tpulseFall
  /-- SUPERFRAME_START (R79). -/
  | superframeStart (skew : Bool)
  /-- CONNECTION_EVENT (R92). -/
  | connectionEvent (c : Fin 144)
  /-- FRAME_RECEIVE (R102). -/
  | frameReceive (c : Fin 144) (frame : List Byte) (acc : Fin 33) (pair : Bool) (rssi : Byte) (off : W32)
  /-- TX_PACKET (R120). -/
  | txPacket
  /-- TXPWR_WRITE (R75). -/
  | txpwrWrite (l : Fin 4) (bcn : Bool) (v : W32)
  /-- DWELL_LIMIT_WRITE (R87). -/
  | dwellLimitWrite (r : DwellReg) (v : W32)
  /-- REJOINCH_WRITE (R84). -/
  | rejoinchWrite (v : W32)
  /-- MAPCTL_ARM (R85). -/
  | mapctlArm
  /-- ARM (R96). -/
  | arm (c : Fin 144) (term : Bool)
  /-- UPDARM (R94). -/
  | updarm (c : Fin 144)
  /-- TERM (R121). -/
  | term (c : Fin 144)
  /-- UPDATE_INSTANT (R94). -/
  | updateInstant (c : Fin 144)
  /-- LINK_LOST (R98). -/
  | linkLost (c : Fin 144)
  /-- JOINING_TIMEOUT (R109). -/
  | joiningTimeout (c : Fin 144)
  /-- JOIN_EVENT (R106). -/
  | joinEvent (l : Fin 4)
  /-- JOIN_REQ (R108). -/
  | joinReq (l : Fin 4) (frame : List Byte) (ctr : W32) (pair : Bool) (rssi : Byte)
  /-- FENCE (R117). -/
  | fence (l : Fin 4) (v : Bool)
  /-- LOOPBACK_CHECK (R562). -/
  | loopbackCheck (r0 : Option Byte) (r1 : Option Byte) (r2 : Option Byte) (r3 : Option Byte)
  /-- DECISION_INSTANT (R129). -/
  | decisionInstant (flt : Option HalfFault)
  /-- GRANT_EVAL (R127). -/
  | grantEval (flt : Option HalfFault)
  /-- TOKEN_DELIVERY (R130). -/
  | tokenDelivery (e : Ecc)
  /-- WITHDRAWAL (R131). -/
  | withdrawal (toCtl : Bool) (e : Ecc)
  /-- DECISION_SNAPSHOT (R306). -/
  | decisionSnapshot (e : Ecc)
  /-- GLOBAL_STOP_REQUEST (R133). -/
  | globalStopRequest (cause : Byte) (via : StopVia)
  /-- ZONE_STOP (R133). -/
  | zoneStop (z : Fin 64) (via : StopVia)
  /-- SINGLE_MEMBER (R133). -/
  | singleMember (m : BitVec 10) (z : Fin 64) (via : StopVia)
  /-- FORWARDED_STOP (R134). -/
  | forwardedStop (toCtl : Bool) (e : Ecc)
  /-- APP_HEARTBEAT (R128). -/
  | appHeartbeat (v : W32) (w : Who)
  /-- SCH_HEARTBEAT (R128). -/
  | schHeartbeat (e : Ecc)
  /-- ZGRANT_WRITE (R135). -/
  | zgrantWrite (v : W64) (w : Who)
  /-- UNSINGLE (R135). -/
  | unsingle (m : BitVec 10) (w : Who)
  /-- PMCTL_GSTOP (R142). -/
  | pmctlGstop (cause : Byte) (w : Who)
  /-- RESUME (R144). -/
  | resume
  /-- NETWORK_RESUME (R145). -/
  | networkResume
  /-- FULL (R148). -/
  | full (w : Who)
  /-- GRACEREQ (R149). -/
  | gracereq (w : Who)
  /-- GRACE_LAPSE (R149). -/
  | graceLapse
  /-- GRACE_TIMEOUT (R149). -/
  | graceTimeout
  /-- BKEY (R126). -/
  | bkey (c : Fin 144) (nxt : Bool)
  /-- BASEBAND_ENABLE (R160). -/
  | basebandEnable (v : W32) (w : Who)
  /-- ACQ_DWELL (R158). -/
  | acqDwell (peak : W32) (noise : W32) (lane : Fin 64)
  /-- CHANNEL_PIN (R159). -/
  | channelPin (c : Fin 24) (prn : BitVec 6) (w : Who)
  /-- CHANNEL_RELEASE (R159). -/
  | channelRelease (c : Fin 24) (rel : Bool) (w : Who)
  /-- PLL_HANDOVER (R164). -/
  | pllHandover (c : Fin 24)
  /-- PULLIN_TIMEOUT (R164). -/
  | pullinTimeout (c : Fin 24)
  /-- BIT_SYNC (R165). -/
  | bitSync (c : Fin 24)
  /-- FRAME_SYNC (R166). -/
  | frameSync (c : Fin 24)
  /-- CARRIER_LOSS (R168). -/
  | carrierLoss (c : Fin 24)
  /-- CODE_LOSS (R168). -/
  | codeLoss (c : Fin 24)
  /-- REACQ_TIMEOUT (R168). -/
  | reacqTimeout (c : Fin 24)
  /-- NAV_WORD (R169). -/
  | navWord (c : Fin 24) (word : BitVec 30)
  /-- IONO_VALID (R171). -/
  | ionoValid (v : Bool) (w : Who)
  /-- BASE_POSITION_VALID (R177). -/
  | basePositionValid (v : Bool) (w : Who)
  /-- MEAS_LATCH (R173). -/
  | measLatch (m : List Meas)
  /-- EPOCH_RECORD_COMPLETE (R175). -/
  | epochRecordComplete
  /-- TIME_CORRECTION (R178). -/
  | timeCorrection
  /-- FIXQ_REPORT (R179). -/
  | fixqReport (e : Ecc)
  /-- KEEP_UPDATE (R182). -/
  | keepUpdate
  /-- RECORD_IN (R185). -/
  | recordIn
  /-- RECORD_DISPATCH (R191). -/
  | recordDispatch
  /-- RECORD_WAIT_END (R192). -/
  | recordWaitEnd
  /-- SOLVE_DONE (R187). -/
  | solveDone (p : Fin 4)
  /-- ROVER_ENABLE (R216). -/
  | roverEnable (g : Fin 4) (v : W32) (w : Who)
  /-- ROVRST (R216). -/
  | rovrst (r : Fin 128) (w : Who)
  /-- SITE_VALID (R217). -/
  | siteValid (v : Bool) (w : Who)
  /-- SOLVER_ENABLE (R225). -/
  | solverEnable (v : Bool) (w : Who)
  /-- PERMIT (R234). -/
  | permit
  /-- CANCEL (R240). -/
  | cancel
  /-- PASS (R238). -/
  | pass
  /-- CUTACK (R244). -/
  | cutack
  /-- REGISTER (R231). -/
  | register
  /-- DEREGISTER (R231). -/
  | deregister
  /-- QUERY (R257). -/
  | query
  /-- SOLIN (R251). -/
  | solin
  /-- UNFREEZE (R247). -/
  | unfreeze
  /-- TRACK_COMMAND_BAD (R233). -/
  | trackCommandBad
  /-- TRACK_EVAL (R242). -/
  | trackEval (e : Ecc)
  /-- CUTACK_TIMEOUT (R244). -/
  | cutackTimeout (k : Fin 128)
  /-- SOLUTION_ITEM (R249). -/
  | solutionItem
  /-- NOFIX_TIMEOUT (R250). -/
  | nofixTimeout (k : Fin 128)
  /-- MEMBER_LOST (R246). -/
  | memberLost
  /-- OPERATOR_RELEASE (R248). -/
  | operatorRelease (sch : Bool)
  /-- HOLD (R252). -/
  | hold
  /-- HOLD_OK (R252). -/
  | holdOk
  /-- HOLD_REF (R253). -/
  | holdRef
  /-- COMMIT (R252). -/
  | commit
  /-- COMMIT_OK (R252). -/
  | commitOk
  /-- COMMIT_LATE (R253). -/
  | commitLate
  /-- ABORT (R253). -/
  | abort
  /-- RELEASE (R254). -/
  | release
  /-- PEER_CUT (R254). -/
  | peerCut
  /-- SINGLE (R254). -/
  | single
  /-- PEER_HB (R256). -/
  | peerHb
  /-- PEER_HB_SEND (R256). -/
  | peerHbSend
  /-- HOLD_EXPIRY (R253). -/
  | holdExpiry
  /-- PEER_LOST (R256). -/
  | peerLost (b : Fin 8)
  /-- PEER_PACKET_BAD (R255). -/
  | peerPacketBad
  /-- REPORT_QUEUE_ROOM (R262). -/
  | reportQueueRoom
  /-- TRKCTL_EN (R263). -/
  | trkctlEn (v : Bool) (w : Who)
  /-- GRAPH_WRITE (R230). -/
  | graphWrite (off : BitVec 20) (v : W32) (w : Who)
  /-- AUCTION_START (R260). -/
  | auctionStart (w : Who)
  /-- AUCTION_ABORT (R261). -/
  | auctionAbort (w : Who)
  /-- AUCTION_DONE (R260). -/
  | auctionDone (asg : List (BitVec 16)) (prices : List W64)
  /-- AUCTION_TIMEOUT (R261). -/
  | auctionTimeout (phases : BitVec 8) (asg : List (BitVec 16)) (prices : List W64)
  /-- RING_CYCLE_START (R274). -/
  | ringCycleStart (rtt : Option W32)
  /-- TEST_DEADLINE (R269). -/
  | testDeadline (aPass : Bool) (bPass : Bool)
  /-- PORT_LINK_CHANGE (R269). -/
  | portLinkChange (port : Fin 2) (link : Fin 3)
  /-- INPUT_FRAME (R282). -/
  | inputFrame (f : PortFrame) (fcs : Bool)
  /-- INPUT_DEADLINE (R276). -/
  | inputDeadline
  /-- CYCEN_WRITE (R273). -/
  | cycenWrite (v : Bool) (w : Who)
  /-- RINGEN_WRITE (R288). -/
  | ringenWrite (v : Bool) (w : Who)
  /-- HOLD_FRAME (R288). -/
  | holdFrame
  /-- ORDINARY_FRAME (R291). -/
  | ordinaryFrame (f : Option OrdFrame)
  /-- ADDRESS (R289). -/
  | address
  /-- ANNOUNCE (R290). -/
  | announce (f : PortFrame)
  /-- INPUT_HANDOFF (R332). -/
  | inputHandoff
  /-- PROGRAM_START (R332). -/
  | programStart (e : Ecc)
  /-- CYCLE_DEADLINE (R334). -/
  | cycleDeadline
  /-- PROGTAB_WRITE (R338). -/
  | progtabWrite (p : Fin 16) (v : W32) (e : Ecc) (w : Who)
  /-- PMEM_WRITE (R339). -/
  | pmemWrite (x : Fin 4096) (v : W32) (w : Who)
  /-- CTLCTL_EN (R356). -/
  | ctlctlEn (v : Bool) (w : Who)
  /-- LBCFG_RESET (R336). -/
  | lbcfgReset (b : Fin 64) (w : Who)
  /-- MODEREQ (R353). -/
  | modereq (a : Fin 48) (m : Fin 4) (w : Who)
  /-- CTL_END (R333). -/
  | ctlEnd (d : Fin 64) (a : Fin 64) (b : Fin 64)
  /-- CTL_MOV (R341). -/
  | ctlMov (d : Fin 64) (a : Fin 64) (b : Fin 64)
  /-- CTL_LDK (R341). -/
  | ctlLdk (d : Fin 64) (imm : BitVec 20)
  /-- CTL_LD (R342). -/
  | ctlLd (d : Fin 64) (cell : BitVec 12) (e : Ecc)
  /-- CTL_ST (R341). -/
  | ctlSt (d : Fin 64) (cell : BitVec 12)
  /-- CTL_IN (R344). -/
  | ctlIn (d : Fin 64) (m : Fin 64) (off : Fin 64) (ty : Fin 8) (bt : Fin 32)
  /-- CTL_OUT (R345). -/
  | ctlOut (d : Fin 64) (m : Fin 64) (off : Fin 64) (ty : Fin 8) (bt : Fin 32)
  /-- CTL_ADD (R342). -/
  | ctlAdd (d : Fin 64) (a : Fin 64) (b : Fin 64)
  /-- CTL_SUB (R342). -/
  | ctlSub (d : Fin 64) (a : Fin 64) (b : Fin 64)
  /-- CTL_MUL (R342). -/
  | ctlMul (d : Fin 64) (a : Fin 64) (b : Fin 64)
  /-- CTL_MAD (R342). -/
  | ctlMad (d : Fin 64) (a : Fin 64) (b : Fin 64)
  /-- CTL_DIV (R342). -/
  | ctlDiv (d : Fin 64) (a : Fin 64) (b : Fin 64)
  /-- CTL_SQRT (R342). -/
  | ctlSqrt (d : Fin 64) (a : Fin 64) (b : Fin 64)
  /-- CTL_MIN (R341). -/
  | ctlMin (d : Fin 64) (a : Fin 64) (b : Fin 64)
  /-- CTL_MAX (R341). -/
  | ctlMax (d : Fin 64) (a : Fin 64) (b : Fin 64)
  /-- CTL_ABS (R341). -/
  | ctlAbs (d : Fin 64) (a : Fin 64) (b : Fin 64)
  /-- CTL_NEG (R341). -/
  | ctlNeg (d : Fin 64) (a : Fin 64) (b : Fin 64)
  /-- CTL_CLT (R341). -/
  | ctlClt (d : Fin 64) (a : Fin 64) (b : Fin 64)
  /-- CTL_CLE (R341). -/
  | ctlCle (d : Fin 64) (a : Fin 64) (b : Fin 64)
  /-- CTL_CEQ (R341). -/
  | ctlCeq (d : Fin 64) (a : Fin 64) (b : Fin 64)
  /-- CTL_SEL (R341). -/
  | ctlSel (d : Fin 64) (a : Fin 64) (b : Fin 64)
  /-- CTL_SKZ (R343). -/
  | ctlSkz (a : Fin 64) (n : Fin 64)
  /-- CTL_SKNZ (R343). -/
  | ctlSknz (a : Fin 64) (n : Fin 64)
  /-- CTL_EVERY (R343). -/
  | ctlEvery (k : Fin 64) (ph : Fin 64) (n : Fin 64)
  /-- CTL_PIDSTEP (R346). -/
  | ctlPidstep (d : Fin 64) (a : Fin 64) (b : Fin 64) (u : Fin 64) (h : Bool) (e : Ecc)
  /-- CTL_FILT2 (R349). -/
  | ctlFilt2 (d : Fin 64) (a : Fin 64) (b : Fin 64) (u : Fin 64) (e : Ecc)
  /-- CTL_LIMIT (R341). -/
  | ctlLimit (d : Fin 64) (a : Fin 64) (b : Fin 64)
  /-- CTL_FFAPPLY (R348). -/
  | ctlFfapply (d : Fin 64) (a : Fin 64) (b : Fin 64) (u : Fin 64) (e : Ecc)
  /-- CTL_PROFILE (R295). -/
  | ctlProfile (d : Fin 64) (a : Fin 64) (b : Fin 64) (u : Fin 48)
  /-- CTL_LOADANG (R319). -/
  | ctlLoadang (d : Fin 64) (a : Fin 64) (b : Fin 64) (u : Fin 48)
  /-- CTL_MODESW (R313). -/
  | ctlModesw (d : Fin 64) (a : Fin 64) (b : Fin 64) (u : Fin 48)
  /-- ENABLE (R317). -/
  | enable (a : Fin 48) (w : Who)
  /-- DISABLE (R305). -/
  | disable (a : Fin 48) (w : Who)
  /-- MOVE (R299). -/
  | move (a : Fin 48) (w : Who)
  /-- JOG (R299). -/
  | jog (a : Fin 48) (w : Who)
  /-- STOP (R308). -/
  | stop (a : Fin 48) (w : Who)
  /-- HOME (R323). -/
  | home (a : Fin 48) (w : Who)
  /-- FRST (R311). -/
  | frst (a : Fin 48) (w : Who)
  /-- IDLE_POWERDOWN (R315). -/
  | idlePowerdown (a : Fin 48)
  /-- QUEUE_PUSH (R369). -/
  | queuePush (q : Fin 48) (hi : W32) (w : Who)
  /-- PACKET_PRESENTABLE (R365). -/
  | packetPresentable (q : Fin 48) (e : Ecc)
  /-- QUEUE_POP (R374). -/
  | queuePop (q : Fin 48) (e : Ecc) (w : Who)
  /-- MARK (R367). -/
  | mark (q : Fin 48) (w : Who)
  /-- REWIND (R367). -/
  | rewind (q : Fin 48) (w : Who)
  /-- QUEUE_RELEASE (R368). -/
  | queueRelease (q : Fin 48) (w : Who)
  /-- LOCK_READ (R376). -/
  | lockRead (n : Fin 128) (rqs : List Who)
  /-- LOCK_WRITE (R377). -/
  | lockWrite (n : Fin 128) (v : Fin 16) (w : Who)
  /-- LOCKFREE (R379). -/
  | lockfree (n : Fin 128) (w : Who)
  /-- FERRY_WRITE (R381). -/
  | ferryWrite (f : Fin 16) (j : Fin 16) (v : W64) (w : Who)
  /-- SEND (R381). -/
  | send (f : Fin 16) (hdr : W32) (w : Who)
  /-- TAKE (R382). -/
  | take (f : Fin 16) (w : Who)
  /-- DBMASK_WRITE (R385). -/
  | dbmaskWrite (r : Fin 12) (m : W32) (w : Who)
  /-- DOORBELL (R383). -/
  | doorbell (r : Fin 12)
  /-- REGISTER_BATCH (R384). -/
  | registerBatch (f : Fin 16)
  /-- ADD (R389). -/
  | add (n : CoreNo) (rd : RegNo) (rs : RegNo) (rt : RegNo)
  /-- SUB (R389). -/
  | sub (n : CoreNo) (rd : RegNo) (rs : RegNo) (rt : RegNo)
  /-- AND (R389). -/
  | and (n : CoreNo) (rd : RegNo) (rs : RegNo) (rt : RegNo)
  /-- OR (R389). -/
  | or (n : CoreNo) (rd : RegNo) (rs : RegNo) (rt : RegNo)
  /-- XOR (R389). -/
  | xor (n : CoreNo) (rd : RegNo) (rs : RegNo) (rt : RegNo)
  /-- NOR (R389). -/
  | nor (n : CoreNo) (rd : RegNo) (rs : RegNo) (rt : RegNo)
  /-- SLL (R389). -/
  | sll (n : CoreNo) (rd : RegNo) (rs : RegNo) (rt : RegNo)
  /-- SRL (R389). -/
  | srl (n : CoreNo) (rd : RegNo) (rs : RegNo) (rt : RegNo)
  /-- SRA (R389). -/
  | sra (n : CoreNo) (rd : RegNo) (rs : RegNo) (rt : RegNo)
  /-- MUL (R389). -/
  | mul (n : CoreNo) (rd : RegNo) (rs : RegNo) (rt : RegNo)
  /-- MULHS (R389). -/
  | mulhs (n : CoreNo) (rd : RegNo) (rs : RegNo) (rt : RegNo)
  /-- MULHU (R389). -/
  | mulhu (n : CoreNo) (rd : RegNo) (rs : RegNo) (rt : RegNo)
  /-- DIV (R389). -/
  | div (n : CoreNo) (rd : RegNo) (rs : RegNo) (rt : RegNo)
  /-- DIVU (R389). -/
  | divu (n : CoreNo) (rd : RegNo) (rs : RegNo) (rt : RegNo)
  /-- REM (R389). -/
  | rem (n : CoreNo) (rd : RegNo) (rs : RegNo) (rt : RegNo)
  /-- REMU (R389). -/
  | remu (n : CoreNo) (rd : RegNo) (rs : RegNo) (rt : RegNo)
  /-- MIN (R389). -/
  | min (n : CoreNo) (rd : RegNo) (rs : RegNo) (rt : RegNo)
  /-- MAX (R389). -/
  | max (n : CoreNo) (rd : RegNo) (rs : RegNo) (rt : RegNo)
  /-- MINU (R389). -/
  | minu (n : CoreNo) (rd : RegNo) (rs : RegNo) (rt : RegNo)
  /-- MAXU (R389). -/
  | maxu (n : CoreNo) (rd : RegNo) (rs : RegNo) (rt : RegNo)
  /-- ADDI (R389). -/
  | addi (n : CoreNo) (rd : RegNo) (rs : RegNo) (imm : BitVec 16)
  /-- ANDI (R389). -/
  | andi (n : CoreNo) (rd : RegNo) (rs : RegNo) (imm : BitVec 16)
  /-- ORI (R389). -/
  | ori (n : CoreNo) (rd : RegNo) (rs : RegNo) (imm : BitVec 16)
  /-- XORI (R389). -/
  | xori (n : CoreNo) (rd : RegNo) (rs : RegNo) (imm : BitVec 16)
  /-- LUI (R389). -/
  | lui (n : CoreNo) (rd : RegNo) (imm : BitVec 16)
  /-- SLLI (R389). -/
  | slli (n : CoreNo) (rd : RegNo) (rs : RegNo) (amt : Fin 64)
  /-- SRLI (R389). -/
  | srli (n : CoreNo) (rd : RegNo) (rs : RegNo) (amt : Fin 64)
  /-- SRAI (R389). -/
  | srai (n : CoreNo) (rd : RegNo) (rs : RegNo) (amt : Fin 64)
  /-- CMPEQ (R386). -/
  | cmpeq (n : CoreNo) (pd : Fin 8) (rs : RegNo) (rt : RegNo)
  /-- CMPNE (R386). -/
  | cmpne (n : CoreNo) (pd : Fin 8) (rs : RegNo) (rt : RegNo)
  /-- CMPLT (R386). -/
  | cmplt (n : CoreNo) (pd : Fin 8) (rs : RegNo) (rt : RegNo)
  /-- CMPGE (R386). -/
  | cmpge (n : CoreNo) (pd : Fin 8) (rs : RegNo) (rt : RegNo)
  /-- CMPLTU (R386). -/
  | cmpltu (n : CoreNo) (pd : Fin 8) (rs : RegNo) (rt : RegNo)
  /-- CMPGEU (R386). -/
  | cmpgeu (n : CoreNo) (pd : Fin 8) (rs : RegNo) (rt : RegNo)
  /-- CMPI (R386). -/
  | cmpi (n : CoreNo) (pd : Fin 8) (rs : RegNo) (cond : Fin 8) (imm : BitVec 13)
  /-- PAND (R386). -/
  | pand (n : CoreNo) (pd : Fin 8) (ps : Fin 8) (pt : Fin 8)
  /-- POR (R386). -/
  | por (n : CoreNo) (pd : Fin 8) (ps : Fin 8) (pt : Fin 8)
  /-- PXOR (R386). -/
  | pxor (n : CoreNo) (pd : Fin 8) (ps : Fin 8) (pt : Fin 8)
  /-- PNOT (R386). -/
  | pnot (n : CoreNo) (pd : Fin 8) (ps : Fin 8)
  /-- PMOV (R386). -/
  | pmov (n : CoreNo) (pd : Fin 8) (ps : Fin 8)
  /-- SEL (R389). -/
  | sel (n : CoreNo) (rd : RegNo) (rs : RegNo) (rt : RegNo) (p : Fin 8)
  /-- LB (R388). -/
  | lb (n : CoreNo) (rd : RegNo) (base : RegNo) (off : BitVec 12) (e : Ecc)
  /-- LBU (R388). -/
  | lbu (n : CoreNo) (rd : RegNo) (base : RegNo) (off : BitVec 12) (e : Ecc)
  /-- LH (R388). -/
  | lh (n : CoreNo) (rd : RegNo) (base : RegNo) (off : BitVec 12) (e : Ecc)
  /-- LHU (R388). -/
  | lhu (n : CoreNo) (rd : RegNo) (base : RegNo) (off : BitVec 12) (e : Ecc)
  /-- LW (R388). -/
  | lw (n : CoreNo) (rd : RegNo) (base : RegNo) (off : BitVec 12) (e : Ecc)
  /-- LWU (R388). -/
  | lwu (n : CoreNo) (rd : RegNo) (base : RegNo) (off : BitVec 12) (e : Ecc)
  /-- LD (R388). -/
  | ld (n : CoreNo) (rd : RegNo) (base : RegNo) (off : BitVec 12) (e : Ecc)
  /-- SB (R388). -/
  | sb (n : CoreNo) (rd : RegNo) (base : RegNo) (off : BitVec 12) (e : Ecc)
  /-- SH (R388). -/
  | sh (n : CoreNo) (rd : RegNo) (base : RegNo) (off : BitVec 12) (e : Ecc)
  /-- SW (R388). -/
  | sw (n : CoreNo) (rd : RegNo) (base : RegNo) (off : BitVec 12) (e : Ecc)
  /-- SD (R447). -/
  | sd (n : CoreNo) (rd : RegNo) (base : RegNo) (off : BitVec 12) (e : Ecc)
  /-- AADD (R391). -/
  | aadd (n : CoreNo) (rd : RegNo) (rs : RegNo) (rt : RegNo) (dbl : Bool) (acq : Bool) (rel : Bool) (e : Ecc)
  /-- ASWP (R391). -/
  | aswp (n : CoreNo) (rd : RegNo) (rs : RegNo) (rt : RegNo) (dbl : Bool) (acq : Bool) (rel : Bool) (e : Ecc)
  /-- ACAS (R391). -/
  | acas (n : CoreNo) (rd : RegNo) (rs : RegNo) (rt : RegNo) (dbl : Bool) (acq : Bool) (rel : Bool) (e : Ecc)
  /-- PREF (R389). -/
  | pref (n : CoreNo) (base : RegNo) (off : BitVec 12)
  /-- CLEAN (R389). -/
  | clean (n : CoreNo) (base : RegNo) (off : BitVec 12)
  /-- CINVAL (R389). -/
  | cinval (n : CoreNo) (base : RegNo) (off : BitVec 12)
  /-- VLD (R388). -/
  | vld (n : CoreNo) (vd : RegNo) (base : RegNo) (off : BitVec 12) (e : Ecc)
  /-- VST (R388). -/
  | vst (n : CoreNo) (vd : RegNo) (base : RegNo) (off : BitVec 12) (e : Ecc)
  /-- FENCE_M (R390). -/
  | fenceM (n : CoreNo)
  /-- FENCE_IO (R390). -/
  | fenceIo (n : CoreNo)
  /-- FENCE_I (R390). -/
  | fenceI (n : CoreNo)
  /-- BR (R389). -/
  | br (n : CoreNo) (off : BitVec 21)
  /-- CALL (R389). -/
  | call (n : CoreNo) (off : BitVec 21)
  /-- BP (R389). -/
  | bp (n : CoreNo) (p : Fin 8) (sense : Bool) (off : BitVec 21)
  /-- CBZ (R389). -/
  | cbz (n : CoreNo) (rs : RegNo) (off : BitVec 21)
  /-- CBNZ (R389). -/
  | cbnz (n : CoreNo) (rs : RegNo) (off : BitVec 21)
  /-- JR (R389). -/
  | jr (n : CoreNo) (rs : RegNo)
  /-- JALR (R389). -/
  | jalr (n : CoreNo) (rd : RegNo) (rs : RegNo)
  /-- VADD (R386). -/
  | vadd (n : CoreNo) (vd : RegNo) (va : RegNo) (vb : RegNo) (pm : Fin 8) (ty : VTy)
  /-- VSUB (R386). -/
  | vsub (n : CoreNo) (vd : RegNo) (va : RegNo) (vb : RegNo) (pm : Fin 8) (ty : VTy)
  /-- VMUL (R386). -/
  | vmul (n : CoreNo) (vd : RegNo) (va : RegNo) (vb : RegNo) (pm : Fin 8) (ty : VTy)
  /-- VFMA (R386). -/
  | vfma (n : CoreNo) (vd : RegNo) (va : RegNo) (vb : RegNo) (pm : Fin 8) (ty : VTy)
  /-- VDIV (R386). -/
  | vdiv (n : CoreNo) (vd : RegNo) (va : RegNo) (vb : RegNo) (pm : Fin 8) (ty : VTy)
  /-- VSQRT (R386). -/
  | vsqrt (n : CoreNo) (vd : RegNo) (va : RegNo) (pm : Fin 8) (ty : VTy)
  /-- VMIN (R386). -/
  | vmin (n : CoreNo) (vd : RegNo) (va : RegNo) (vb : RegNo) (pm : Fin 8) (ty : VTy)
  /-- VMAX (R386). -/
  | vmax (n : CoreNo) (vd : RegNo) (va : RegNo) (vb : RegNo) (pm : Fin 8) (ty : VTy)
  /-- VIADD (R386). -/
  | viadd (n : CoreNo) (vd : RegNo) (va : RegNo) (vb : RegNo) (pm : Fin 8) (ty : VTy)
  /-- VISUB (R386). -/
  | visub (n : CoreNo) (vd : RegNo) (va : RegNo) (vb : RegNo) (pm : Fin 8) (ty : VTy)
  /-- VIMUL (R386). -/
  | vimul (n : CoreNo) (vd : RegNo) (va : RegNo) (vb : RegNo) (pm : Fin 8) (ty : VTy)
  /-- VAND (R386). -/
  | vand (n : CoreNo) (vd : RegNo) (va : RegNo) (vb : RegNo) (pm : Fin 8) (ty : VTy)
  /-- VOR (R386). -/
  | vor (n : CoreNo) (vd : RegNo) (va : RegNo) (vb : RegNo) (pm : Fin 8) (ty : VTy)
  /-- VXOR (R386). -/
  | vxor (n : CoreNo) (vd : RegNo) (va : RegNo) (vb : RegNo) (pm : Fin 8) (ty : VTy)
  /-- VSHL (R386). -/
  | vshl (n : CoreNo) (vd : RegNo) (va : RegNo) (vb : RegNo) (pm : Fin 8) (ty : VTy)
  /-- VSHR (R386). -/
  | vshr (n : CoreNo) (vd : RegNo) (va : RegNo) (vb : RegNo) (pm : Fin 8) (ty : VTy)
  /-- VCMPEQ (R386). -/
  | vcmpeq (n : CoreNo) (pd : Fin 8) (va : RegNo) (vb : RegNo) (pm : Fin 8) (ty : VTy)
  /-- VCMPLT (R386). -/
  | vcmplt (n : CoreNo) (pd : Fin 8) (va : RegNo) (vb : RegNo) (pm : Fin 8) (ty : VTy)
  /-- VCMPLE (R386). -/
  | vcmple (n : CoreNo) (pd : Fin 8) (va : RegNo) (vb : RegNo) (pm : Fin 8) (ty : VTy)
  /-- VBCAST (R386). -/
  | vbcast (n : CoreNo) (vd : RegNo) (ra : RegNo) (pm : Fin 8) (ty : VTy)
  /-- VPERM (R386). -/
  | vperm (n : CoreNo) (vd : RegNo) (va : RegNo) (vb : RegNo) (pm : Fin 8) (ty : VTy)
  /-- VEXT (R386). -/
  | vext (n : CoreNo) (rd : RegNo) (va : RegNo) (rb : RegNo) (ty : VTy)
  /-- VINS (R386). -/
  | vins (n : CoreNo) (vd : RegNo) (ra : RegNo) (rb : RegNo) (pm : Fin 8) (ty : VTy)
  /-- VRED (R386). -/
  | vred (n : CoreNo) (rd : RegNo) (va : RegNo) (pm : Fin 8) (ty : VTy)
  /-- VCVT (R386). -/
  | vcvt (n : CoreNo) (vd : RegNo) (va : RegNo) (pm : Fin 8) (ty : VTy) (toI : Bool)
  /-- VSCPY (R401). -/
  | vscpy (n : CoreNo) (vd : RegNo) (va : RegNo) (vb : RegNo) (ty : VTy) (count : Nat) (e : Ecc)
  /-- VSFILL (R401). -/
  | vsfill (n : CoreNo) (vd : RegNo) (vb : RegNo) (ty : VTy) (count : Nat) (e : Ecc)
  /-- VSAXPY (R401). -/
  | vsaxpy (n : CoreNo) (vd : RegNo) (va : RegNo) (vb : RegNo) (ty : VTy) (count : Nat) (e : Ecc)
  /-- VSSCAL (R401). -/
  | vsscal (n : CoreNo) (vd : RegNo) (vb : RegNo) (ty : VTy) (count : Nat) (e : Ecc)
  /-- VSDOT (R401). -/
  | vsdot (n : CoreNo) (vd : RegNo) (va : RegNo) (vb : RegNo) (ty : VTy) (count : Nat) (e : Ecc)
  /-- FADD (R389). -/
  | fadd (n : CoreNo) (rd : RegNo) (rs : RegNo) (rt : RegNo) (dbl : Bool)
  /-- FSUB (R389). -/
  | fsub (n : CoreNo) (rd : RegNo) (rs : RegNo) (rt : RegNo) (dbl : Bool)
  /-- FMUL (R389). -/
  | fmul (n : CoreNo) (rd : RegNo) (rs : RegNo) (rt : RegNo) (dbl : Bool)
  /-- FDIV (R389). -/
  | fdiv (n : CoreNo) (rd : RegNo) (rs : RegNo) (rt : RegNo) (dbl : Bool)
  /-- FSQRT (R389). -/
  | fsqrt (n : CoreNo) (rd : RegNo) (rs : RegNo) (dbl : Bool)
  /-- FMA (R389). -/
  | fma (n : CoreNo) (rd : RegNo) (rs : RegNo) (rt : RegNo) (dbl : Bool)
  /-- FMIN (R389). -/
  | fmin (n : CoreNo) (rd : RegNo) (rs : RegNo) (rt : RegNo) (dbl : Bool)
  /-- FMAX (R389). -/
  | fmax (n : CoreNo) (rd : RegNo) (rs : RegNo) (rt : RegNo) (dbl : Bool)
  /-- FCVT (R389). -/
  | fcvt (n : CoreNo) (rd : RegNo) (rs : RegNo) (k : FCvt)
  /-- FCMPEQ (R386). -/
  | fcmpeq (n : CoreNo) (pd : Fin 8) (rs : RegNo) (rt : RegNo) (dbl : Bool)
  /-- FCMPLT (R386). -/
  | fcmplt (n : CoreNo) (pd : Fin 8) (rs : RegNo) (rt : RegNo) (dbl : Bool)
  /-- FCMPLE (R386). -/
  | fcmple (n : CoreNo) (pd : Fin 8) (rs : RegNo) (rt : RegNo) (dbl : Bool)
  /-- TIMERD (R393). -/
  | timerd (n : CoreNo) (rd : RegNo) (sel : Fin 4)
  /-- RAWRD (R393). -/
  | rawrd (n : CoreNo) (rd : RegNo)
  /-- LKTRY (R395). -/
  | lktry (n : CoreNo) (rd : RegNo) (rs : RegNo) (imm : BitVec 12)
  /-- LKREL (R396). -/
  | lkrel (n : CoreNo) (rd : RegNo) (rs : RegNo) (imm : BitVec 12)
  /-- PGREL (R398). -/
  | pgrel (n : CoreNo) (rd : RegNo) (rs : RegNo) (rt : RegNo) (count : Nat)
  /-- PGPIN (R399). -/
  | pgpin (n : CoreNo) (rd : RegNo) (rs : RegNo) (rt : RegNo) (count : Nat)
  /-- PGUNPIN (R399). -/
  | pgunpin (n : CoreNo) (rd : RegNo) (rs : RegNo) (rt : RegNo) (count : Nat)
  /-- DFREADY (R403). -/
  | dfready (n : CoreNo) (rd : RegNo) (rs : RegNo)
  /-- DFPOST (R403). -/
  | dfpost (n : CoreNo) (rd : RegNo) (rs : RegNo) (slot : Fin 16)
  /-- DFCANCEL (R439). -/
  | dfcancel (n : CoreNo) (rd : RegNo) (rs : RegNo)
  /-- DFDONE (R436). -/
  | dfdone (n : CoreNo) (rs : RegNo)
  /-- DFYIELD (R406). -/
  | dfyield (n : CoreNo)
  /-- NPB (R416). -/
  | npb (n : CoreNo)
  /-- NPE (R416). -/
  | npe (n : CoreNo)
  /-- NPTIME (R417). -/
  | nptime (n : CoreNo)
  /-- MFS (R418). -/
  | mfs (n : CoreNo) (rd : RegNo) (rs : RegNo) (imm : BitVec 12)
  /-- MTS (R418). -/
  | mts (n : CoreNo) (rs : RegNo) (imm : BitVec 12)
  /-- SVC (R409). -/
  | svc (n : CoreNo) (imm : BitVec 12)
  /-- MCALL (R409). -/
  | mcall (n : CoreNo) (imm : BitVec 12)
  /-- BRK (R409). -/
  | brk (n : CoreNo) (imm : BitVec 12)
  /-- ERET (R411). -/
  | eret (n : CoreNo)
  /-- PREEMPTION (R413). -/
  | preemption (n : CoreNo)
  /-- EVENT_TOKEN (R428). -/
  | eventToken (e : Ecc)
  /-- EVCFG_EN (R431). -/
  | evcfgEn (ev : Byte) (v : W32) (w : Who)
  /-- DISPATCH_CHOICE (R432). -/
  | dispatchChoice
  /-- NAP_ENTRY (R433). -/
  | napEntry (n : CoreNo)
  /-- DF_BUSY_TIMEOUT (R438). -/
  | dfBusyTimeout (n : CoreNo)
  /-- CFENCE_WRITE (R442). -/
  | cfenceWrite (v : Byte) (w : Who)
  /-- DFCTL_EN (R445). -/
  | dfctlEn (v : Bool) (w : Who)
  /-- TLBINV (R453). -/
  | tlbinv (hi : W32) (w : Who)
  /-- POOLEN (R455). -/
  | poolen (v : Bool) (w : Who)
  /-- SWEEP_DONE (R455). -/
  | sweepDone
  /-- POOLTAKE (R456). -/
  | pooltake (w : Who)
  /-- POOLGIVE (R456). -/
  | poolgive (f : BitVec 28) (w : Who)
  /-- MEM_RETIRE (R464). -/
  | memRetire (f : BitVec 28) (w : Who)
  /-- RETCNT_CLEAR (R464). -/
  | retcntClear (w : Who)
  /-- SCRUB (R465). -/
  | scrub (e : Ecc)
  /-- DMA_START (R466). -/
  | dmaStart (c : Fin 32) (level : Fin 4) (w : Who)
  /-- DMA_DESCRIPTOR_DONE (R467). -/
  | dmaDescriptorDone (c : Fin 32)
  /-- DMA_PARK (R469). -/
  | dmaPark (c : Fin 32) (at_ : W32) (emmc : Bool) (wr_ : Bool) (desc : Bool)
  /-- DMA_RESUME (R470). -/
  | dmaResume (c : Fin 32) (w : Who)
  /-- DMA_SKIP (R470). -/
  | dmaSkip (c : Fin 32) (w : Who)
  /-- DMA_ABORT (R470). -/
  | dmaAbort (c : Fin 32) (w : Who)
  /-- AON_START_DONE (R476). -/
  | aonStartDone
  /-- BOOT_SLOT_CHECK (R484). -/
  | bootSlotCheck
  /-- FIRMWARE_ENTRY (R477). -/
  | firmwareEntry
  /-- BOOT_FAIL (R486). -/
  | bootFail
  /-- RECOVERY (R486). -/
  | recovery (f : PortFrame)
  /-- SPORE_READY (R510). -/
  | sporeReady (puf : BitVec 3570)
  /-- SPORE_RETRY (R511). -/
  | sporeRetry (puf : BitVec 3570)
  /-- LEAVE (R480). -/
  | leave (enter : Bool) (w : Who)
  /-- ENTER (R481). -/
  | enter (w : Who)
  /-- WRM (R492). -/
  | wrm (key : Byte) (w : Who)
  /-- ISLGO (R570). -/
  | islgo (isl : Fin 16) (key : Byte) (w : Who)
  /-- ISLAND_RELEASE (R570). -/
  | islandRelease (isl : Fin 9)
  /-- APP_ISLAND_RESET (R565). -/
  | appIslandReset (w : Who)
  /-- TMP (R489). -/
  | tmp
  /-- WDKICK (R490). -/
  | wdkick (v : W32) (w : Who)
  /-- WDCTL_WRITE (R490). -/
  | wdctlWrite (v : W32) (w : Who)
  /-- WATCHDOG_EXPIRY (R499). -/
  | watchdogExpiry
  /-- SEC_WATCHDOG (R491). -/
  | secWatchdog
  /-- STANDBY (R493). -/
  | standby (w : Who)
  /-- HIBERNATE (R496). -/
  | hibernate (w : Who)
  /-- STANDBY_WAKE (R495). -/
  | standbyWake (src : Fin 18) (f : Option PortFrame) (puf : BitVec 3570)
  /-- HIBERNATE_WAKE (R496). -/
  | hibernateWake (src : Fin 18)
  /-- CAPTURE (R499). -/
  | capture (w : Who)
  /-- CAPTURE_DONE (R500). -/
  | captureDone
  /-- DUMP_CLEAR (R502). -/
  | dumpClear (w : Who)
  /-- DERIVE (R515). -/
  | derive
  /-- DISCARD (R518). -/
  | discard
  /-- AES (R520). -/
  | aes
  /-- HMAC (R520). -/
  | hmac
  /-- SHA256 (R524). -/
  | sha256
  /-- VERIFY (R524). -/
  | verify
  /-- RANDOM (R523). -/
  | random
  /-- BEACON_GEN (R517). -/
  | beaconGen
  /-- BEACON_KEY_SWITCH (R517). -/
  | beaconKeySwitch
  /-- SIGNED (R528). -/
  | signed
  /-- SERVICE_ENTER (R506). -/
  | serviceEnter
  /-- SERVICE_EXIT (R506). -/
  | serviceExit
  /-- RETIRE (R508). -/
  | retire
  /-- IMAGEKEY (R528). -/
  | imagekey
  /-- SECVER (R528). -/
  | secver
  /-- TAMPER_CLEAR (R532). -/
  | tamperClear (f : Option PortFrame)
  /-- DEBUG_UNLOCK (R534). -/
  | debugUnlock
  /-- LICHEN_CLEAR (R551). -/
  | lichenClear
  /-- CHALLENGE (R529). -/
  | challenge
  /-- NONCE_EXPIRY (R529). -/
  | nonceExpiry
  /-- SESSION (R521). -/
  | session
  /-- RINGKEY (R521). -/
  | ringkey
  /-- SETOWNER (R571). -/
  | setowner
  /-- SETIMAGEKEY (R571). -/
  | setimagekey
  /-- DEPLOY (R507). -/
  | deploy
  /-- RETIRE_LOCAL (R509). -/
  | retireLocal
  /-- SEC_REQUEST_BAD (R524). -/
  | secRequestBad
  /-- ANSWER_DROP (R524). -/
  | answerDrop
  /-- KEY_MASK_REDRAW (R519). -/
  | keyMaskRedraw
  /-- DRBG_FAIL (R523). -/
  | drbgFail
  /-- TAMPER (R531). -/
  | tamper (src : Fin 5) (keyop : Option Byte)
  /-- TAMPER_INFO (R533). -/
  | tamperInfo
  /-- DEBUG_CLOSED (R534). -/
  | debugClosed
  /-- LICHEN_RECORD (R537). -/
  | lichenRecord
  /-- LICHEN_WRITE_DONE (R538). -/
  | lichenWriteDone
  /-- LICHEN_SCAN (R541). -/
  | lichenScan
  /-- BUCKET_REFILL (R546). -/
  | bucketRefill (b : Option (Fin 256))
  /-- LICHEN_READ (R548). -/
  | lichenRead (idx : BitVec 21) (w : Who)
  /-- DIGEST_READY (R550). -/
  | digestReady
  /-- BLOCK_ERASE_DONE (R552). -/
  | blockEraseDone
  /-- BEACON_REPORT (R560). -/
  | beaconReport (e : Ecc)
  /-- BEACON_REPORT_MISSING (R560). -/
  | beaconReportMissing
  /-- CRITSTAT_CLEAR (R557). -/
  | critstatClear (b : Fin 32) (w : Who)
  /-- SELF_TEST_TURN (R561). -/
  | selfTestTurn
  /-- SELF_TEST_DONE (R561). -/
  | selfTestDone (pass : Bool)
  /-- CLOCK_FAULT (R563). -/
  | clockFault (isl : Fin 9) (bad : Bool)
  /-- RAIL_FAULT (R563). -/
  | railFault (isl : Fin 9) (bad : Bool)
  /-- TCXO_CHECK (R564). -/
  | tcxoCheck (ok_ : Bool)
  /-- RATE_LEARNED (R55). -/
  | rateLearned
  /-- ILLEGAL (R388). -/
  | illegal (n : CoreNo)
  /-- IO_SUPPLY_REGULATION (R32). -/
  | ioSupplyRegulation (inReg : Bool)
  /-- ENROLMENT (R512). -/
  | enrolment (puf : BitVec 3570) (key : Bool)
  deriving DecidableEq, Repr

end Sys2Proof
end

