-- ==== Sys2Proof/Config.lean ====
section
/-! DEFINITION. Config.lean: what the spec leaves open and the model leaves free. Every constant here is opaque:
nothing can be proved about its value, and a claim proved with it holds whatever the value is. -/

namespace Sys2Proof.Config

/-- DESIGN CHOICE (log 3). The n-th free value: what stands wherever the spec states that an instruction or event
gives some value but not which one (a random draw, an undefined result). -/
opaque freeValue : Nat → BitVec 64

/-- DESIGN CHOICE (log 4). A byte of the boot ROM's image, which the spec does not print. -/
opaque bootRom : Nat → BitVec 8

/-- DESIGN CHOICE (log 5). Pretan integer division by zero and the overflowing signed quotient: the spec states no result.
The first argument tells DIV, DIVU, REM and REMU apart. -/
opaque divCorner : Nat → BitVec 64 → BitVec 64 → BitVec 64

/-- DESIGN CHOICE (log 6). The payload of a NaN that a floating operation makes from its operands. -/
opaque nanPayload : Nat → BitVec 64 → BitVec 64 → BitVec 64

/-- DESIGN CHOICE (log 13). The MAC address of a network port, which the spec does not print. -/
opaque portMac : Nat → BitVec 48

/-- DESIGN CHOICE (log 14). SHA-256 of Wilyel's provisioning key, which the boot ROM holds (R528). -/
opaque provKeyHash : BitVec 256

/-- DESIGN CHOICE (log 15). The check value stored with a spore's helper data (R510): the spec does not say how it is made. -/
opaque sporeCheck : BitVec 256 → BitVec 256

/-- DESIGN CHOICE (log 21). Whether underflow is detected after rounding: IEEE 754 leaves it to the implementation. -/
opaque tinyAfter : Bool

/-- DESIGN CHOICE (log 22). A Pretan register shift by 64 or more, or a vector shift by the element's width or more, of
which the spec states no result: which shift, the value and the amount. -/
opaque shiftCorner : Nat → BitVec 64 → BitVec 64 → BitVec 64

/-- DESIGN CHOICE (log 22). Whether VSHR shifts in the sign: the spec does not say. -/
opaque vshrArith : Bool

/-- DESIGN CHOICE (log 23). What VRED gives for floating lanes: the order of its additions is fixed, and not stated. -/
opaque vredSum : Nat → BitVec 256 → BitVec 64

/-- DESIGN CHOICE (log 24). A floating minimum or maximum of a NaN, or of zeros of both signs. -/
opaque minMaxCorner : Nat → BitVec 64 → BitVec 64 → BitVec 64

/-- DESIGN CHOICE (log 24). A conversion to an integer of a value that no integer of the format holds. -/
opaque cvtCorner : Nat → BitVec 64 → BitVec 64

/-- DESIGN CHOICE (log 28). Bits 63:32 of a g register after an instruction that writes a 32-bit element or binary32 value to
it: the spec states bits 31:0 only. -/
opaque upper32 : BitVec 32 → BitVec 32

/-- DESIGN CHOICE (log 42). The page-table root of the address space in which an island reaches DRAM on its own account
(R472, R175, R218, R259): the spec says its registers name one and lists no such register. -/
opaque islandRoot : Nat → BitVec 64

/-- DESIGN CHOICE (log 153). What an ordinary frame's transmit descriptor (SQ30) names: the virtual address and the length of the
frame's bytes, the ports it goes out of (bit 0 A, bit 1 B) and its tag of Table 13-4. The spec does not lay the descriptor out. -/
opaque txDesc : List (BitVec 64) → Nat × Nat × Nat × Nat

/-- DESIGN CHOICE (log 153). The virtual address of the n-th buffer that takes a received ordinary frame (R472): the spec does not
say how firmware gives NET its buffers. -/
opaque rxBuf : Nat → Nat

/-- DESIGN CHOICE (log 133). The tropospheric delay of the standard atmosphere, m, at a height over the ellipsoid in m and a sine of
the elevation, all as multiples of 2^-96: the spec does not print the atmosphere (R178, R196). -/
opaque tropo : Int → Int → Int

/-- DESIGN CHOICE (log 40). How many times the 10-bit week number of a navigation message has run out before the present one. -/
opaque weekEra : Nat

/-- DESIGN CHOICE (log 44). The velocity (m/s) and the velocity variance (m²/s²) of an axis with which a filter starts, as multiples
of 2^-96: R216 gives its position only. -/
opaque startVel : Nat → Int
opaque startVelVar : Nat → Int

/-- DESIGN CHOICE (log 130). Where the Gnodon's own 32-bit join counter starts: R101 only says that no value is repeated. -/
opaque joinBase : BitVec 32

/-- DESIGN CHOICE (log 155). The word of DRAM that a bit error strikes in a raw count, if any, and whether the error is uncorrectable. -/
opaque strike : Nat → Option (Nat × Bool)

/-- DESIGN CHOICE (log 155). What a byte of a word with an uncorrectable error reads as at a raw count, to an island that goes on. -/
opaque lostByte : Nat → Nat → BitVec 8

/-- DESIGN CHOICE (log 76). How many rounds of 64-byte turns the DMA channels have in a raw count. -/
opaque dmaRounds : Nat → Nat

/-- DESIGN CHOICE (log 49). Whether the eMMC becomes ready in a raw count. -/
opaque emmcUp : Nat → Bool

end Sys2Proof.Config
end

