-- ==== Sys2Proof/Machine/Fld.lean ====
section
/-! DEFINITION. Machine/Fld.lean: the shape of a register field and of a row of a register table
(Numbers and units, Registers, R4–R6, R9–R11). -/

namespace Sys2Proof.Machine

/-- Table 00-3: the kinds of a register field (R4). -/
inductive Kind where
  | rw | ro | w1c | wo | rc | rwl
  deriving DecidableEq, Repr

/-- One field of one register: the register's address in the physical map, the field's lowest bit and width,
its kind, its value after POR (R11), the least and greatest value a write may give it (R6; a write outside
leaves the field as it was), whether the register is a 64-bit pair (R9, R10), and whether a write of it has a
command row of its own. -/
structure Fld where
  addr  : Nat
  lo    : Nat
  width : Nat
  kind  : Kind
  rst   : Nat
  vmin  : Nat
  vmax  : Nat
  pair  : Bool
  own   : Bool
  deriving DecidableEq, Repr

/-- The key of a field's cell in the register store. -/
def Fld.key (f : Fld) : Nat := f.addr * 64 + f.lo

/-- A row of a register table: the field's name, the field as a function of its indices, and the stride and
count of each index (1 where there is none). -/
structure RegRow where
  nm  : String
  fld : Nat → Nat → Fld
  st  : Nat
  n   : Nat
  st2 : Nat
  n2  : Nat

/-- The field of a row whose register is at an address, if one is. -/
def RegRow.at (r : RegRow) (a : Nat) : Option Fld :=
  let b := (r.fld 0 0).addr
  if a < b then none
  else
    let i := if r.st = 0 then 0 else (a - b) / r.st
    let rest := a - b - r.st * i
    let j := if r.st2 = 0 then 0 else rest / r.st2
    if i < r.n ∧ j < r.n2 ∧ rest = r.st2 * j then some (r.fld i j) else none

end Sys2Proof.Machine
end

