-- ==== Sys2Proof/Machine/RegsA.lean ====
section
/-! DEFINITION. Machine/RegsA.lean: every field of the register tables of AON, SEC, APP, one definition a field. -/

namespace Sys2Proof.Machine

/-- AON.PWRSTAT.LIMEVT (Table 01-5). -/
def AON.PWRSTAT.LIMEVT : Fld := ⟨0xF000000200, 10, 1, .w1c, 0, 0, 1, false, false⟩
/-- AON.PWRSTAT.FULLAVL (Table 01-5). -/
def AON.PWRSTAT.FULLAVL : Fld := ⟨0xF000000200, 9, 1, .ro, 0, 0, 1, false, false⟩
/-- AON.PWRSTAT.LIMITED (Table 01-5). -/
def AON.PWRSTAT.LIMITED : Fld := ⟨0xF000000200, 8, 1, .ro, 0, 0, 1, false, false⟩
/-- AON.PWRSTAT.BCLASS (Table 01-5). -/
def AON.PWRSTAT.BCLASS : Fld := ⟨0xF000000200, 5, 3, .ro, 0, 0, 7, false, false⟩
/-- AON.PWRSTAT.ACLASS (Table 01-5). -/
def AON.PWRSTAT.ACLASS : Fld := ⟨0xF000000200, 2, 3, .ro, 0, 0, 7, false, false⟩
/-- AON.PWRSTAT.BPG (Table 01-5). -/
def AON.PWRSTAT.BPG : Fld := ⟨0xF000000200, 1, 1, .ro, 0, 0, 1, false, false⟩
/-- AON.PWRSTAT.APG (Table 01-5). -/
def AON.PWRSTAT.APG : Fld := ⟨0xF000000200, 0, 1, .ro, 0, 0, 1, false, false⟩
/-- AON.PWRCTL.RESTORE (Table 01-5). -/
def AON.PWRCTL.RESTORE : Fld := ⟨0xF000000204, 0, 1, .wo, 0, 0, 1, false, true⟩
/-- AON.RAW (Table 02-5). -/
def AON.RAW : Fld := ⟨0xF000001000, 0, 64, .ro, 0, 0, 0xFFFFFFFFFFFFFFFF, true, false⟩
/-- AON.TSNAP.SNAP (Table 02-5). -/
def AON.TSNAP.SNAP : Fld := ⟨0xF000001008, 0, 1, .wo, 0, 0, 1, false, true⟩
/-- AON.SNAPRAW (Table 02-5). -/
def AON.SNAPRAW : Fld := ⟨0xF000001010, 0, 64, .ro, 0, 0, 0xFFFFFFFFFFFFFFFF, true, false⟩
/-- AON.SNAPCYC (Table 02-5). -/
def AON.SNAPCYC : Fld := ⟨0xF000001018, 0, 64, .ro, 0, 0, 0xFFFFFFFFFFFFFFFF, true, false⟩
/-- AON.SNAPWALL (Table 02-5). -/
def AON.SNAPWALL : Fld := ⟨0xF000001020, 0, 64, .ro, 0, 0, 0xFFFFFFFFFFFFFFFF, true, false⟩
/-- AON.CYC (Table 02-5). -/
def AON.CYC : Fld := ⟨0xF000001040, 0, 64, .ro, 0, 0, 0xFFFFFFFFFFFFFFFF, true, false⟩
/-- AON.COFF (Table 02-5). -/
def AON.COFF : Fld := ⟨0xF000001048, 0, 64, .rw, 0, 0, 0xFFFFFFFFFFFFFFFF, true, true⟩
/-- AON.CBASE (Table 02-5). -/
def AON.CBASE : Fld := ⟨0xF000001050, 0, 64, .ro, 0, 0, 0xFFFFFFFFFFFFFFFF, true, false⟩
/-- AON.CRATE (Table 02-5). -/
def AON.CRATE : Fld := ⟨0xF000001058, 0, 32, .ro, 0, 0, 0xFFFFFFFF, false, false⟩
/-- AON.CRATENXT (Table 02-5). -/
def AON.CRATENXT : Fld := ⟨0xF00000105C, 0, 32, .rw, 0, 0, 0xFFFFFFFF, false, false⟩
/-- AON.CRATEAT (Table 02-5). -/
def AON.CRATEAT : Fld := ⟨0xF000001060, 0, 64, .rw, 0, 0, 0xFFFFFFFFFFFFFFFF, true, false⟩
/-- AON.CCTL.RATELATE (Table 02-5). -/
def AON.CCTL.RATELATE : Fld := ⟨0xF000001068, 6, 1, .w1c, 0, 0, 1, false, false⟩
/-- AON.CCTL.RATECLAMP (Table 02-5). -/
def AON.CCTL.RATECLAMP : Fld := ⟨0xF000001068, 5, 1, .w1c, 0, 0, 1, false, false⟩
/-- AON.CCTL.DIVEVT (Table 02-5). -/
def AON.CCTL.DIVEVT : Fld := ⟨0xF000001068, 4, 1, .w1c, 0, 0, 1, false, false⟩
/-- AON.CCTL.DIVERGED (Table 02-5). -/
def AON.CCTL.DIVERGED : Fld := ⟨0xF000001068, 3, 1, .ro, 0, 0, 1, false, false⟩
/-- AON.CCTL.RARM (Table 02-5). -/
def AON.CCTL.RARM : Fld := ⟨0xF000001068, 2, 1, .wo, 0, 0, 1, false, true⟩
/-- AON.CCTL.STEPEN (Table 02-5). -/
def AON.CCTL.STEPEN : Fld := ⟨0xF000001068, 1, 1, .rw, 0, 0, 1, false, true⟩
/-- AON.CCTL.FOLLOW (Table 02-5). -/
def AON.CCTL.FOLLOW : Fld := ⟨0xF000001068, 0, 1, .rw, 0, 0, 1, false, false⟩
/-- AON.CEPOCH (Table 02-5). -/
def AON.CEPOCH : Fld := ⟨0xF000001070, 0, 64, .rw, 0, 0, 0xFFFFFFFFFFFFFFFF, true, false⟩
/-- AON.CALIGN (Table 02-5). -/
def AON.CALIGN : Fld := ⟨0xF000001078, 0, 32, .ro, 0, 0, 0xFFFFFFFF, false, false⟩
/-- AON.CFOLMAX (Table 02-5). -/
def AON.CFOLMAX : Fld := ⟨0xF00000107C, 0, 32, .rw, 0x186A0, 0, 0xFFFFFFFF, false, false⟩
/-- AON.WALL (Table 02-5). -/
def AON.WALL : Fld := ⟨0xF000001080, 0, 64, .ro, 0, 0, 0xFFFFFFFFFFFFFFFF, true, false⟩
/-- AON.WOFF (Table 02-5). -/
def AON.WOFF : Fld := ⟨0xF000001088, 0, 64, .ro, 0, 0, 0xFFFFFFFFFFFFFFFF, true, false⟩
/-- AON.WBASE (Table 02-5). -/
def AON.WBASE : Fld := ⟨0xF000001090, 0, 64, .ro, 0, 0, 0xFFFFFFFFFFFFFFFF, true, false⟩
/-- AON.WRATE (Table 02-5). -/
def AON.WRATE : Fld := ⟨0xF000001098, 0, 32, .ro, 0, 0, 0xFFFFFFFF, false, false⟩
/-- AON.WRATENXT (Table 02-5). -/
def AON.WRATENXT : Fld := ⟨0xF00000109C, 0, 32, .rw, 0, 0, 0xFFFFFFFF, false, false⟩
/-- AON.WRATEAT (Table 02-5). -/
def AON.WRATEAT : Fld := ⟨0xF0000010A0, 0, 64, .rw, 0, 0, 0xFFFFFFFFFFFFFFFF, true, false⟩
/-- AON.WCTL.HOLDTO (Table 02-5). -/
def AON.WCTL.HOLDTO : Fld := ⟨0xF0000010A8, 4, 4, .rw, 2, 1, 0xF, false, false⟩
/-- AON.WCTL.RARM (Table 02-5). -/
def AON.WCTL.RARM : Fld := ⟨0xF0000010A8, 3, 1, .wo, 0, 0, 1, false, true⟩
/-- AON.WCTL.STEPACC (Table 02-5). -/
def AON.WCTL.STEPACC : Fld := ⟨0xF0000010A8, 2, 1, .wo, 0, 0, 1, false, true⟩
/-- AON.WCTL.SRC (Table 02-5). -/
def AON.WCTL.SRC : Fld := ⟨0xF0000010A8, 0, 2, .rw, 0, 0, 3, false, true⟩
/-- AON.WSTAT.FOREIGN (Table 02-5). -/
def AON.WSTAT.FOREIGN : Fld := ⟨0xF0000010AC, 16, 16, .rc, 0, 0, 0xFFFF, false, false⟩
/-- AON.WSTAT.ACCNONE (Table 02-5). -/
def AON.WSTAT.ACCNONE : Fld := ⟨0xF0000010AC, 8, 1, .w1c, 0, 0, 1, false, false⟩
/-- AON.WSTAT.RATELATE (Table 02-5). -/
def AON.WSTAT.RATELATE : Fld := ⟨0xF0000010AC, 7, 1, .w1c, 0, 0, 1, false, false⟩
/-- AON.WSTAT.RATELRN (Table 02-5). -/
def AON.WSTAT.RATELRN : Fld := ⟨0xF0000010AC, 6, 1, .ro, 0, 0, 1, false, false⟩
/-- AON.WSTAT.STEPREF (Table 02-5). -/
def AON.WSTAT.STEPREF : Fld := ⟨0xF0000010AC, 5, 1, .w1c, 0, 0, 1, false, false⟩
/-- AON.WSTAT.STEPPEND (Table 02-5). -/
def AON.WSTAT.STEPPEND : Fld := ⟨0xF0000010AC, 4, 1, .ro, 0, 0, 1, false, false⟩
/-- AON.WSTAT.SLEWING (Table 02-5). -/
def AON.WSTAT.SLEWING : Fld := ⟨0xF0000010AC, 3, 1, .ro, 0, 0, 1, false, false⟩
/-- AON.WSTAT.HOLDOVER (Table 02-5). -/
def AON.WSTAT.HOLDOVER : Fld := ⟨0xF0000010AC, 2, 1, .ro, 0, 0, 1, false, false⟩
/-- AON.WSTAT.LOCKED (Table 02-5). -/
def AON.WSTAT.LOCKED : Fld := ⟨0xF0000010AC, 1, 1, .ro, 0, 0, 1, false, false⟩
/-- AON.WSTAT.VALID (Table 02-5). -/
def AON.WSTAT.VALID : Fld := ⟨0xF0000010AC, 0, 1, .ro, 0, 0, 1, false, false⟩
/-- AON.WCORR (Table 02-5). -/
def AON.WCORR : Fld := ⟨0xF0000010B0, 0, 64, .wo, 0, 0, 0xFFFFFFFFFFFFFFFF, true, true⟩
/-- AON.WSTEPAMT (Table 02-5). -/
def AON.WSTEPAMT : Fld := ⟨0xF0000010B8, 0, 64, .ro, 0, 0, 0xFFFFFFFFFFFFFFFF, true, false⟩
/-- AON.WJUMPTHR (Table 02-5). -/
def AON.WJUMPTHR : Fld := ⟨0xF0000010C0, 0, 32, .rw, 0xF4240, 0, 0xFFFFFFFF, false, false⟩
/-- AON.WSLEWMAX (Table 02-5). -/
def AON.WSLEWMAX : Fld := ⟨0xF0000010C4, 0, 32, .rw, 0xD1B7176, 0x10C6F8, 0xD1B7176, false, false⟩
/-- AON.WUNC (Table 02-5). -/
def AON.WUNC : Fld := ⟨0xF0000010C8, 0, 32, .ro, 0xFFFFFFFF, 0, 0xFFFFFFFF, false, false⟩
/-- AON.UTCOFF (Table 02-5). -/
def AON.UTCOFF : Fld := ⟨0xF0000010CC, 0, 32, .rw, 0, 0, 0xFFFFFFFF, false, false⟩
/-- AON.WCSRC (Table 02-5). -/
def AON.WCSRC : Fld := ⟨0xF0000010D0, 0, 2, .wo, 0, 0, 3, false, false⟩
/-- AON.WUNCFW (Table 02-5). -/
def AON.WUNCFW : Fld := ⟨0xF0000010D4, 0, 32, .rw, 0xFFFFFFFF, 0, 0xFFFFFFFF, false, false⟩
/-- AON.TPSTAT.PULSECNT (Table 02-5). -/
def AON.TPSTAT.PULSECNT : Fld := ⟨0xF000001100, 16, 16, .ro, 0, 0, 0xFFFF, false, false⟩
/-- AON.TPSTAT.LEVEL (Table 02-5). -/
def AON.TPSTAT.LEVEL : Fld := ⟨0xF000001100, 1, 1, .ro, 0, 0, 1, false, false⟩
/-- AON.TPSTAT.SUPPR (Table 02-5). -/
def AON.TPSTAT.SUPPR : Fld := ⟨0xF000001100, 0, 1, .w1c, 0, 0, 1, false, false⟩
/-- AON.TRIGCTL[i].STEPCAN (Table 02-5). -/
def AON.TRIGCTL.STEPCAN (i : Nat) : Fld := ⟨0xF000002000 + 0x20 * i, 17, 1, .w1c, 0, 0, 1, false, true⟩
/-- AON.TRIGCTL[i].FIRED (Table 02-5). -/
def AON.TRIGCTL.FIRED (i : Nat) : Fld := ⟨0xF000002000 + 0x20 * i, 16, 1, .w1c, 0, 0, 1, false, true⟩
/-- AON.TRIGCTL[i].DARG (Table 02-5). -/
def AON.TRIGCTL.DARG (i : Nat) : Fld := ⟨0xF000002000 + 0x20 * i, 8, 8, .rw, 0, 0, 0xFF, false, true⟩
/-- AON.TRIGCTL[i].DEST (Table 02-5). -/
def AON.TRIGCTL.DEST (i : Nat) : Fld := ⟨0xF000002000 + 0x20 * i, 3, 4, .rw, 0, 0, 4, false, true⟩
/-- AON.TRIGCTL[i].TSEL (Table 02-5). -/
def AON.TRIGCTL.TSEL (i : Nat) : Fld := ⟨0xF000002000 + 0x20 * i, 2, 1, .rw, 0, 0, 1, false, true⟩
/-- AON.TRIGCTL[i].PER (Table 02-5). -/
def AON.TRIGCTL.PER (i : Nat) : Fld := ⟨0xF000002000 + 0x20 * i, 1, 1, .rw, 0, 0, 1, false, true⟩
/-- AON.TRIGCTL[i].EN (Table 02-5). -/
def AON.TRIGCTL.EN (i : Nat) : Fld := ⟨0xF000002000 + 0x20 * i, 0, 1, .rw, 0, 0, 1, false, true⟩
/-- AON.TRIGTGT[i] (Table 02-5). -/
def AON.TRIGTGT (i : Nat) : Fld := ⟨0xF000002004 + 0x20 * i, 0, 32, .rw, 0, 0, 0xFFFFFFFF, false, true⟩
/-- AON.TRIGPER[i] (Table 02-5). -/
def AON.TRIGPER (i : Nat) : Fld := ⟨0xF000002008 + 0x20 * i, 0, 32, .rw, 0xF4240, 0x3E8, 0xFFFFFFFF, false, false⟩
/-- AON.FIRECNT[i] (Table 02-5). -/
def AON.FIRECNT (i : Nat) : Fld := ⟨0xF00000200C + 0x20 * i, 0, 32, .ro, 0, 0, 0xFFFFFFFF, false, false⟩
/-- AON.MISSCNT[i] (Table 02-5). -/
def AON.MISSCNT (i : Nat) : Fld := ⟨0xF000002010 + 0x20 * i, 0, 32, .rc, 0, 0, 0xFFFFFFFF, false, false⟩
/-- AON.DROPCNT[i] (Table 02-5). -/
def AON.DROPCNT (i : Nat) : Fld := ⟨0xF000002014 + 0x20 * i, 0, 32, .rc, 0, 0, 0xFFFFFFFF, false, false⟩
/-- AON.RSTCAUSE.HIBWAKE (Table 15-13). -/
def AON.RSTCAUSE.HIBWAKE : Fld := ⟨0xF000000300, 17, 1, .rc, 0, 0, 1, false, false⟩
/-- AON.RSTCAUSE.WDCAP (Table 15-13). -/
def AON.RSTCAUSE.WDCAP : Fld := ⟨0xF000000300, 16, 1, .rc, 0, 0, 1, false, false⟩
/-- AON.RSTCAUSE.ISLMASK (Table 15-13). -/
def AON.RSTCAUSE.ISLMASK : Fld := ⟨0xF000000300, 7, 9, .rc, 0, 0, 0x1FF, false, false⟩
/-- AON.RSTCAUSE.SECWD (Table 15-13). -/
def AON.RSTCAUSE.SECWD : Fld := ⟨0xF000000300, 5, 1, .rc, 0, 0, 1, false, false⟩
/-- AON.RSTCAUSE.TMP (Table 15-13). -/
def AON.RSTCAUSE.TMP : Fld := ⟨0xF000000300, 4, 1, .rc, 0, 0, 1, false, false⟩
/-- AON.RSTCAUSE.WRM (Table 15-13). -/
def AON.RSTCAUSE.WRM : Fld := ⟨0xF000000300, 3, 1, .rc, 0, 0, 1, false, false⟩
/-- AON.RSTCAUSE.WDR (Table 15-13). -/
def AON.RSTCAUSE.WDR : Fld := ⟨0xF000000300, 2, 1, .rc, 0, 0, 1, false, false⟩
/-- AON.RSTCAUSE.BOR (Table 15-13). -/
def AON.RSTCAUSE.BOR : Fld := ⟨0xF000000300, 1, 1, .rc, 0, 0, 1, false, false⟩
/-- AON.RSTCAUSE.POR (Table 15-13). -/
def AON.RSTCAUSE.POR : Fld := ⟨0xF000000300, 0, 1, .rc, 1, 0, 1, false, false⟩
/-- AON.RSTCTL.ISL (Table 15-13). -/
def AON.RSTCTL.ISL : Fld := ⟨0xF000000304, 0, 4, .wo, 0, 0, 0xF, false, true⟩
/-- AON.RSTCTL.ISLGO (Table 15-13). -/
def AON.RSTCTL.ISLGO : Fld := ⟨0xF000000304, 4, 1, .wo, 0, 0, 1, false, true⟩
/-- AON.RSTCTL.WRM (Table 15-13). -/
def AON.RSTCTL.WRM : Fld := ⟨0xF000000304, 8, 1, .wo, 0, 0, 1, false, true⟩
/-- AON.RSTCTL.KEY (Table 15-13). -/
def AON.RSTCTL.KEY : Fld := ⟨0xF000000304, 24, 8, .wo, 0, 0, 0xFF, false, true⟩
/-- AON.WDCTL.PERIOD (Table 15-13). -/
def AON.WDCTL.PERIOD : Fld := ⟨0xF000000308, 0, 16, .rwl, 0x3E8, 0xA, 0x2710, false, true⟩
/-- AON.WDCTL.EN (Table 15-13). -/
def AON.WDCTL.EN : Fld := ⟨0xF000000308, 16, 1, .rwl, 0, 0, 1, false, true⟩
/-- AON.WDCTL.CAPEN (Table 15-13). -/
def AON.WDCTL.CAPEN : Fld := ⟨0xF000000308, 17, 1, .rwl, 0, 0, 1, false, true⟩
/-- AON.WDCTL.LOCK (Table 15-13). -/
def AON.WDCTL.LOCK : Fld := ⟨0xF000000308, 18, 1, .rwl, 0, 0, 1, false, true⟩
/-- AON.WDKICK (Table 15-13). -/
def AON.WDKICK : Fld := ⟨0xF00000030C, 0, 32, .wo, 0, 0, 0xFFFFFFFF, false, true⟩
/-- AON.WDLEFT (Table 15-13). -/
def AON.WDLEFT : Fld := ⟨0xF000000310, 0, 32, .ro, 0, 0, 0xFFFFFFFF, false, false⟩
/-- AON.LPCTL.REQ (Table 15-13). -/
def AON.LPCTL.REQ : Fld := ⟨0xF000000314, 0, 2, .wo, 0, 0, 3, false, true⟩
/-- AON.LPSTAT.WAKESRC (Table 15-13). -/
def AON.LPSTAT.WAKESRC : Fld := ⟨0xF000000318, 8, 8, .ro, 0xFF, 0, 0xFF, false, false⟩
/-- AON.LPSTAT.REFWHY (Table 15-13). -/
def AON.LPSTAT.REFWHY : Fld := ⟨0xF000000318, 4, 4, .ro, 0, 0, 0xF, false, false⟩
/-- AON.LPSTAT.REFUSED (Table 15-13). -/
def AON.LPSTAT.REFUSED : Fld := ⟨0xF000000318, 1, 1, .w1c, 0, 0, 1, false, false⟩
/-- AON.LPSTAT.BUSY (Table 15-13). -/
def AON.LPSTAT.BUSY : Fld := ⟨0xF000000318, 0, 1, .ro, 0, 0, 1, false, false⟩
/-- AON.WAKEMASK (Table 15-13). -/
def AON.WAKEMASK : Fld := ⟨0xF00000031C, 0, 18, .rw, 0x20000, 0, 0x3FFFF, false, false⟩
/-- AON.BOOTSTAT.FAILSTEP (Table 15-13). -/
def AON.BOOTSTAT.FAILSTEP : Fld := ⟨0xF000000320, 4, 4, .ro, 0, 0, 0xF, false, false⟩
/-- AON.BOOTSTAT.FALLBACK (Table 15-13). -/
def AON.BOOTSTAT.FALLBACK : Fld := ⟨0xF000000320, 3, 1, .ro, 0, 0, 1, false, false⟩
/-- AON.BOOTSTAT.TRIAL (Table 15-13). -/
def AON.BOOTSTAT.TRIAL : Fld := ⟨0xF000000320, 2, 1, .ro, 0, 0, 1, false, false⟩
/-- AON.BOOTSTAT.SLOT (Table 15-13). -/
def AON.BOOTSTAT.SLOT : Fld := ⟨0xF000000320, 0, 2, .ro, 0, 0, 3, false, false⟩
/-- AON.DUMPCTL.ABORTED (Table 15-13). -/
def AON.DUMPCTL.ABORTED : Fld := ⟨0xF000000324, 5, 1, .w1c, 0, 0, 1, false, true⟩
/-- AON.DUMPCTL.NOBASE (Table 15-13). -/
def AON.DUMPCTL.NOBASE : Fld := ⟨0xF000000324, 4, 1, .w1c, 0, 0, 1, false, true⟩
/-- AON.DUMPCTL.CAUSE (Table 15-13). -/
def AON.DUMPCTL.CAUSE : Fld := ⟨0xF000000324, 2, 2, .ro, 0, 0, 3, false, true⟩
/-- AON.DUMPCTL.BUSY (Table 15-13). -/
def AON.DUMPCTL.BUSY : Fld := ⟨0xF000000324, 1, 1, .ro, 0, 0, 1, false, true⟩
/-- AON.DUMPCTL.VALID (Table 15-13). -/
def AON.DUMPCTL.VALID : Fld := ⟨0xF000000324, 0, 1, .w1c, 0, 0, 1, false, true⟩
/-- AON.DUMPBASE (Table 15-13). -/
def AON.DUMPBASE : Fld := ⟨0xF000000328, 0, 64, .rw, 0, 0, 0xFFFFFFFFFFFFFFFF, true, false⟩
/-- AON.STARTCNT (Table 15-13). -/
def AON.STARTCNT : Fld := ⟨0xF000000330, 0, 32, .ro, 0, 0, 0xFFFFFFFF, false, false⟩
/-- AON.SKBASE (Table 15-13). -/
def AON.SKBASE : Fld := ⟨0xF000000338, 0, 64, .rw, 0, 0, 0xFFFFFFFFFFFFFFFF, true, false⟩
/-- AON.LSTAT.SCAN (Table 17-4). -/
def AON.LSTAT.SCAN : Fld := ⟨0xF000006000, 0, 1, .ro, 0, 0, 1, false, false⟩
/-- AON.LSTAT.FULL (Table 17-4). -/
def AON.LSTAT.FULL : Fld := ⟨0xF000006000, 1, 1, .ro, 0, 0, 1, false, false⟩
/-- AON.LSTAT.ERASING (Table 17-4). -/
def AON.LSTAT.ERASING : Fld := ⟨0xF000006000, 2, 1, .ro, 0, 0, 1, false, false⟩
/-- AON.LSTAT.DIGOK (Table 17-4). -/
def AON.LSTAT.DIGOK : Fld := ⟨0xF000006000, 3, 1, .ro, 0, 0, 1, false, false⟩
/-- AON.LSTAT.CLRPEND (Table 17-4). -/
def AON.LSTAT.CLRPEND : Fld := ⟨0xF000006000, 4, 1, .ro, 0, 0, 1, false, false⟩
/-- AON.LSTAT.EPOCH (Table 17-4). -/
def AON.LSTAT.EPOCH : Fld := ⟨0xF000006000, 8, 3, .ro, 0, 0, 7, false, false⟩
/-- AON.LWRIDX (Table 17-4). -/
def AON.LWRIDX : Fld := ⟨0xF000006004, 0, 32, .ro, 0, 0, 0xFFFFFFFF, false, false⟩
/-- AON.LERASE (Table 17-4). -/
def AON.LERASE : Fld := ⟨0xF000006008, 0, 32, .ro, 0x3E0, 0, 0xFFFFFFFF, false, false⟩
/-- AON.LRECCNT (Table 17-4). -/
def AON.LRECCNT : Fld := ⟨0xF00000600C, 0, 32, .ro, 0, 0, 0xFFFFFFFF, false, false⟩
/-- AON.LTORN (Table 17-4). -/
def AON.LTORN : Fld := ⟨0xF000006010, 0, 32, .ro, 0, 0, 0xFFFFFFFF, false, false⟩
/-- AON.LDROP (Table 17-4). -/
def AON.LDROP : Fld := ⟨0xF000006014, 0, 32, .rc, 0, 0, 0xFFFFFFFF, false, false⟩
/-- AON.LGAP (Table 17-4). -/
def AON.LGAP : Fld := ⟨0xF000006018, 0, 32, .rc, 0, 0, 0xFFFFFFFF, false, false⟩
/-- AON.LSUPP (Table 17-4). -/
def AON.LSUPP : Fld := ⟨0xF00000601C, 0, 32, .rc, 0, 0, 0xFFFFFFFF, false, false⟩
/-- AON.LFWBAD (Table 17-4). -/
def AON.LFWBAD : Fld := ⟨0xF000006020, 0, 32, .rc, 0, 0, 0xFFFFFFFF, false, false⟩
/-- AON.LRDIDX (Table 17-4). -/
def AON.LRDIDX : Fld := ⟨0xF000006028, 0, 21, .rw, 0, 0, 0x1FFFFF, false, true⟩
/-- AON.LRDSTAT.READY (Table 17-4). -/
def AON.LRDSTAT.READY : Fld := ⟨0xF00000602C, 0, 1, .ro, 0, 0, 1, false, false⟩
/-- AON.LRDSTAT.STATE (Table 17-4). -/
def AON.LRDSTAT.STATE : Fld := ⟨0xF00000602C, 1, 3, .ro, 0, 0, 7, false, false⟩
/-- AON.LRDDATA[i] (Table 17-4). -/
def AON.LRDDATA (i : Nat) : Fld := ⟨0xF000006030 + 0x4 * i, 0, 32, .ro, 0, 0, 0xFFFFFFFF, false, false⟩
/-- AON.LDIGEST[i] (Table 17-4). -/
def AON.LDIGEST (i : Nat) : Fld := ⟨0xF000006050 + 0x4 * i, 0, 32, .ro, 0, 0, 0xFFFFFFFF, false, false⟩
/-- AON.LDEFBKT.RATE (Table 17-4). -/
def AON.LDEFBKT.RATE : Fld := ⟨0xF000006070, 0, 16, .rw, 0x64, 1, 0xFFFF, false, false⟩
/-- AON.LDEFBKT.BURST (Table 17-4). -/
def AON.LDEFBKT.BURST : Fld := ⟨0xF000006070, 16, 16, .rw, 0x64, 1, 0xFFFF, false, false⟩
/-- AON.LDEFSUP (Table 17-4). -/
def AON.LDEFSUP : Fld := ⟨0xF000006074, 0, 32, .ro, 0, 0, 0xFFFFFFFF, false, false⟩
/-- AON.LBKTC[i].CODE (Table 17-4). -/
def AON.LBKTC.CODE (i : Nat) : Fld := ⟨0xF000007000 + 0x8 * i, 0, 16, .rw, 0, 0, 0xFFFF, false, false⟩
/-- AON.LBKTC[i].VALID (Table 17-4). -/
def AON.LBKTC.VALID (i : Nat) : Fld := ⟨0xF000007000 + 0x8 * i, 31, 1, .rw, 0, 0, 1, false, false⟩
/-- AON.LBKTR[i].RATE (Table 17-4). -/
def AON.LBKTR.RATE (i : Nat) : Fld := ⟨0xF000007004 + 0x8 * i, 0, 16, .rw, 0xA, 1, 0xFFFF, false, false⟩
/-- AON.LBKTR[i].BURST (Table 17-4). -/
def AON.LBKTR.BURST (i : Nat) : Fld := ⟨0xF000007004 + 0x8 * i, 16, 16, .rw, 0xA, 1, 0xFFFF, false, false⟩
/-- AON.LSUPCNT[i] (Table 17-4). -/
def AON.LSUPCNT (i : Nat) : Fld := ⟨0xF000007800 + 0x4 * i, 0, 32, .ro, 0, 0, 0xFFFFFFFF, false, false⟩

/-- SEC.J6STAT.IOLIM (Table 01-7). -/
def SEC.J6STAT.IOLIM : Fld := ⟨0xF000100300, 10, 1, .ro, 0, 0, 1, false, false⟩
/-- SEC.J6STAT.IOSUP (Table 01-7). -/
def SEC.J6STAT.IOSUP : Fld := ⟨0xF000100300, 9, 1, .ro, 0, 0, 1, false, false⟩
/-- SEC.J6STAT.TPOVLD (Table 01-7). -/
def SEC.J6STAT.TPOVLD : Fld := ⟨0xF000100300, 8, 1, .ro, 0, 0, 1, false, false⟩
/-- SEC.J6STAT.POVLD (Table 01-7). -/
def SEC.J6STAT.POVLD : Fld := ⟨0xF000100300, 7, 1, .ro, 0, 0, 1, false, false⟩
/-- SEC.J6STAT.PSTUCK (Table 01-7). -/
def SEC.J6STAT.PSTUCK : Fld := ⟨0xF000100300, 6, 1, .ro, 0, 0, 1, false, false⟩
/-- SEC.J6STAT.PERMITRB (Table 01-7). -/
def SEC.J6STAT.PERMITRB : Fld := ⟨0xF000100300, 5, 1, .ro, 0, 0, 1, false, false⟩
/-- SEC.J6STAT.TFAULTB (Table 01-7). -/
def SEC.J6STAT.TFAULTB : Fld := ⟨0xF000100300, 4, 1, .ro, 0, 0, 1, false, false⟩
/-- SEC.J6STAT.TFAULTA (Table 01-7). -/
def SEC.J6STAT.TFAULTA : Fld := ⟨0xF000100300, 3, 1, .ro, 0, 0, 1, false, false⟩
/-- SEC.J6STAT.DISCREP (Table 01-7). -/
def SEC.J6STAT.DISCREP : Fld := ⟨0xF000100300, 2, 1, .ro, 0, 0, 1, false, false⟩
/-- SEC.J6STAT.BCLOSED (Table 01-7). -/
def SEC.J6STAT.BCLOSED : Fld := ⟨0xF000100300, 1, 1, .ro, 0, 0, 1, false, false⟩
/-- SEC.J6STAT.ACLOSED (Table 01-7). -/
def SEC.J6STAT.ACLOSED : Fld := ⟨0xF000100300, 0, 1, .ro, 0, 0, 1, false, false⟩
/-- SEC.J6CTL.POVCLR (Table 01-7). -/
def SEC.J6CTL.POVCLR : Fld := ⟨0xF000100304, 0, 1, .wo, 0, 0, 1, false, true⟩
/-- SEC.J6CTL.TPOVCLR (Table 01-7). -/
def SEC.J6CTL.TPOVCLR : Fld := ⟨0xF000100304, 1, 1, .wo, 0, 0, 1, false, true⟩
/-- SEC.J6CTL.TPEN (Table 01-7). -/
def SEC.J6CTL.TPEN : Fld := ⟨0xF000100304, 2, 1, .rw, 0, 0, 1, false, true⟩
/-- SEC.PMSTAT.CAUSE (Table 04-10). -/
def SEC.PMSTAT.CAUSE : Fld := ⟨0xF000100400, 16, 8, .ro, 4, 0, 0xFF, false, false⟩
/-- SEC.PMSTAT.GRACEARM (Table 04-10). -/
def SEC.PMSTAT.GRACEARM : Fld := ⟨0xF000100400, 12, 1, .ro, 0, 0, 1, false, false⟩
/-- SEC.PMSTAT.FALLEVT (Table 04-10). -/
def SEC.PMSTAT.FALLEVT : Fld := ⟨0xF000100400, 11, 1, .w1c, 0, 0, 1, false, false⟩
/-- SEC.PMSTAT.RESREF (Table 04-10). -/
def SEC.PMSTAT.RESREF : Fld := ⟨0xF000100400, 10, 1, .w1c, 0, 0, 1, false, false⟩
/-- SEC.PMSTAT.SGLOVF (Table 04-10). -/
def SEC.PMSTAT.SGLOVF : Fld := ⟨0xF000100400, 9, 1, .w1c, 0, 0, 1, false, false⟩
/-- SEC.PMSTAT.LATCH (Table 04-10). -/
def SEC.PMSTAT.LATCH : Fld := ⟨0xF000100400, 8, 1, .ro, 0, 0, 1, false, false⟩
/-- SEC.PMSTAT.GRACE (Table 04-10). -/
def SEC.PMSTAT.GRACE : Fld := ⟨0xF000100400, 7, 1, .ro, 0, 0, 1, false, false⟩
/-- SEC.PMSTAT.CRAWL (Table 04-10). -/
def SEC.PMSTAT.CRAWL : Fld := ⟨0xF000100400, 6, 1, .ro, 0, 0, 1, false, false⟩
/-- SEC.PMSTAT.MOSS (Table 04-10). -/
def SEC.PMSTAT.MOSS : Fld := ⟨0xF000100400, 5, 1, .ro, 1, 0, 1, false, false⟩
/-- SEC.PMSTAT.NOCRIT (Table 04-10). -/
def SEC.PMSTAT.NOCRIT : Fld := ⟨0xF000100400, 4, 1, .ro, 0, 0, 1, false, false⟩
/-- SEC.PMSTAT.SCHHB (Table 04-10). -/
def SEC.PMSTAT.SCHHB : Fld := ⟨0xF000100400, 3, 1, .ro, 0, 0, 1, false, false⟩
/-- SEC.PMSTAT.APPHBOK (Table 04-10). -/
def SEC.PMSTAT.APPHBOK : Fld := ⟨0xF000100400, 2, 1, .ro, 0, 0, 1, false, false⟩
/-- SEC.PMSTAT.J6OK (Table 04-10). -/
def SEC.PMSTAT.J6OK : Fld := ⟨0xF000100400, 1, 1, .ro, 0, 0, 1, false, false⟩
/-- SEC.PMSTAT.GRANT (Table 04-10). -/
def SEC.PMSTAT.GRANT : Fld := ⟨0xF000100400, 0, 1, .ro, 0, 0, 1, false, false⟩
/-- SEC.PMCTL.GCAUSE (Table 04-10). -/
def SEC.PMCTL.GCAUSE : Fld := ⟨0xF000100404, 8, 8, .wo, 0, 0, 0xFF, false, true⟩
/-- SEC.PMCTL.FULL (Table 04-10). -/
def SEC.PMCTL.FULL : Fld := ⟨0xF000100404, 2, 1, .wo, 0, 0, 1, false, true⟩
/-- SEC.PMCTL.GRACEREQ (Table 04-10). -/
def SEC.PMCTL.GRACEREQ : Fld := ⟨0xF000100404, 1, 1, .wo, 0, 0, 1, false, true⟩
/-- SEC.PMCTL.GSTOP (Table 04-10). -/
def SEC.PMCTL.GSTOP : Fld := ⟨0xF000100404, 0, 1, .wo, 0, 0, 1, false, true⟩
/-- SEC.APPHB (Table 04-10). -/
def SEC.APPHB : Fld := ⟨0xF000100408, 0, 32, .wo, 0, 0, 0xFFFFFFFF, false, true⟩
/-- SEC.EPOCH (Table 04-10). -/
def SEC.EPOCH : Fld := ⟨0xF00010040C, 0, 16, .ro, 0, 0, 0xFFFF, false, false⟩
/-- SEC.ZGRANT (Table 04-10). -/
def SEC.ZGRANT : Fld := ⟨0xF000100410, 0, 64, .rw, 0, 0, 0xFFFFFFFFFFFFFFFF, true, true⟩
/-- SEC.ZTOKEN (Table 04-10). -/
def SEC.ZTOKEN : Fld := ⟨0xF000100418, 0, 64, .ro, 0, 0, 0xFFFFFFFFFFFFFFFF, true, false⟩
/-- SEC.SPEEDCAP (Table 04-10). -/
def SEC.SPEEDCAP : Fld := ⟨0xF000100420, 0, 16, .rw, 0xFFFF, 0, 0xFFFF, false, false⟩
/-- SEC.MOSSCAP (Table 04-10). -/
def SEC.MOSSCAP : Fld := ⟨0xF000100424, 0, 16, .rw, 0xC8, 0, 0xFFFF, false, false⟩
/-- SEC.STOPSEQ (Table 04-10). -/
def SEC.STOPSEQ : Fld := ⟨0xF000100428, 0, 32, .ro, 0, 0, 0xFFFFFFFF, false, false⟩
/-- SEC.UNSINGLE (Table 04-10). -/
def SEC.UNSINGLE : Fld := ⟨0xF00010042C, 0, 10, .wo, 0, 0, 0x3FF, false, true⟩
/-- SEC.SGL[i].VALID (Table 04-10). -/
def SEC.SGL.VALID (i : Nat) : Fld := ⟨0xF000100430 + 0x4 * i, 31, 1, .ro, 0, 0, 1, false, false⟩
/-- SEC.SGL[i].ZONE (Table 04-10). -/
def SEC.SGL.ZONE (i : Nat) : Fld := ⟨0xF000100430 + 0x4 * i, 16, 6, .ro, 0, 0, 0x3F, false, false⟩
/-- SEC.SGL[i].MEMBER (Table 04-10). -/
def SEC.SGL.MEMBER (i : Nat) : Fld := ⟨0xF000100430 + 0x4 * i, 0, 10, .ro, 0, 0, 0x3FF, false, false⟩
/-- SEC.TOKMISS (Table 04-10). -/
def SEC.TOKMISS : Fld := ⟨0xF000100450, 0, 32, .rc, 0, 0, 0xFFFFFFFF, false, false⟩
/-- SEC.HBERR (Table 04-10). -/
def SEC.HBERR : Fld := ⟨0xF000100454, 0, 32, .rc, 0, 0, 0xFFFFFFFF, false, false⟩
/-- SEC.GRACECNT (Table 04-10). -/
def SEC.GRACECNT : Fld := ⟨0xF000100458, 0, 32, .rc, 0, 0, 0xFFFFFFFF, false, false⟩
/-- SEC.LASTDEC (Table 04-10). -/
def SEC.LASTDEC : Fld := ⟨0xF00010045C, 0, 32, .ro, 0, 0, 0xFFFFFFFF, false, false⟩
/-- SEC.MOSSCTL.REFWHY (Table 15-13). -/
def SEC.MOSSCTL.REFWHY : Fld := ⟨0xF000100500, 12, 4, .ro, 0, 0, 0xF, false, false⟩
/-- SEC.MOSSCTL.REFUSED (Table 15-13). -/
def SEC.MOSSCTL.REFUSED : Fld := ⟨0xF000100500, 8, 1, .w1c, 0, 0, 1, false, false⟩
/-- SEC.MOSSCTL.ENTER (Table 15-13). -/
def SEC.MOSSCTL.ENTER : Fld := ⟨0xF000100500, 1, 1, .wo, 0, 0, 1, false, true⟩
/-- SEC.MOSSCTL.LEAVE (Table 15-13). -/
def SEC.MOSSCTL.LEAVE : Fld := ⟨0xF000100500, 0, 1, .wo, 0, 0, 1, false, true⟩
/-- SEC.LCSTAT.IMGSLOT (Table 16-14). -/
def SEC.LCSTAT.IMGSLOT : Fld := ⟨0xF000100600, 24, 2, .ro, 0, 0, 3, false, false⟩
/-- SEC.LCSTAT.IMGSET (Table 16-14). -/
def SEC.LCSTAT.IMGSET : Fld := ⟨0xF000100600, 23, 1, .ro, 0, 0, 1, false, false⟩
/-- SEC.LCSTAT.OWNERSET (Table 16-14). -/
def SEC.LCSTAT.OWNERSET : Fld := ⟨0xF000100600, 22, 1, .ro, 0, 0, 1, false, false⟩
/-- SEC.LCSTAT.SETTINGS (Table 16-14). -/
def SEC.LCSTAT.SETTINGS : Fld := ⟨0xF000100600, 21, 1, .ro, 0, 0, 1, false, false⟩
/-- SEC.LCSTAT.SEEDOK (Table 16-14). -/
def SEC.LCSTAT.SEEDOK : Fld := ⟨0xF000100600, 20, 1, .ro, 0, 0, 1, false, false⟩
/-- SEC.LCSTAT.SVCCNT (Table 16-14). -/
def SEC.LCSTAT.SVCCNT : Fld := ⟨0xF000100600, 8, 8, .ro, 0, 0, 0xFF, false, false⟩
/-- SEC.LCSTAT.STATE (Table 16-14). -/
def SEC.LCSTAT.STATE : Fld := ⟨0xF000100600, 0, 3, .ro, 0, 0, 7, false, false⟩
/-- SEC.SECVER (Table 16-14). -/
def SEC.SECVER : Fld := ⟨0xF000100604, 0, 7, .ro, 0, 0, 0x7F, false, false⟩
/-- SEC.DEVID (Table 16-14). -/
def SEC.DEVID : Fld := ⟨0xF000100608, 0, 64, .ro, 0, 0, 0xFFFFFFFFFFFFFFFF, true, false⟩
/-- SEC.SPORESTAT.CORR (Table 16-14). -/
def SEC.SPORESTAT.CORR : Fld := ⟨0xF000100610, 16, 16, .ro, 0, 0, 0xFFFF, false, false⟩
/-- SEC.SPORESTAT.TRIES (Table 16-14). -/
def SEC.SPORESTAT.TRIES : Fld := ⟨0xF000100610, 2, 2, .ro, 0, 0, 3, false, false⟩
/-- SEC.SPORESTAT.FAIL (Table 16-14). -/
def SEC.SPORESTAT.FAIL : Fld := ⟨0xF000100610, 1, 1, .ro, 0, 0, 1, false, false⟩
/-- SEC.SPORESTAT.READY (Table 16-14). -/
def SEC.SPORESTAT.READY : Fld := ⟨0xF000100610, 0, 1, .ro, 0, 0, 1, false, false⟩
/-- SEC.TAMPSTAT.HOLD (Table 16-14). -/
def SEC.TAMPSTAT.HOLD : Fld := ⟨0xF000100614, 13, 1, .ro, 0, 0, 1, false, false⟩
/-- SEC.TAMPSTAT.LATCHED (Table 16-14). -/
def SEC.TAMPSTAT.LATCHED : Fld := ⟨0xF000100614, 8, 5, .ro, 0, 0, 0x1F, false, false⟩
/-- SEC.TAMPSTAT.LIVE (Table 16-14). -/
def SEC.TAMPSTAT.LIVE : Fld := ⟨0xF000100614, 0, 5, .ro, 0, 0, 0x1F, false, false⟩
/-- SEC.KEYSTAT (Table 16-14). -/
def SEC.KEYSTAT : Fld := ⟨0xF000100618, 0, 64, .ro, 0, 0, 0xFFFFFFFFFFFFFFFF, true, false⟩
/-- SEC.BKGEN.CUR (Table 16-14). -/
def SEC.BKGEN.CUR : Fld := ⟨0xF000100620, 0, 8, .ro, 0, 0, 0xFF, false, false⟩
/-- SEC.BKGEN.NEXT (Table 16-14). -/
def SEC.BKGEN.NEXT : Fld := ⟨0xF000100620, 8, 8, .ro, 0, 0, 0xFF, false, false⟩
/-- SEC.BKGEN.NEXTPEND (Table 16-14). -/
def SEC.BKGEN.NEXTPEND : Fld := ⟨0xF000100620, 16, 1, .ro, 0, 0, 1, false, false⟩
/-- SEC.BKFIRST (Table 16-14). -/
def SEC.BKFIRST : Fld := ⟨0xF000100624, 0, 32, .ro, 0, 0, 0xFFFFFFFF, false, false⟩
/-- SEC.NSRES.STATUS (Table 16-14). -/
def SEC.NSRES.STATUS : Fld := ⟨0xF000100628, 0, 8, .ro, 0, 0, 0xFF, false, false⟩
/-- SEC.NSRES.CODE (Table 16-14). -/
def SEC.NSRES.CODE : Fld := ⟨0xF000100628, 8, 8, .ro, 0, 0, 0xFF, false, false⟩
/-- SEC.REQCNT (Table 16-14). -/
def SEC.REQCNT : Fld := ⟨0xF00010062C, 0, 32, .rc, 0, 0, 0xFFFFFFFF, false, false⟩
/-- SEC.REQREF (Table 16-14). -/
def SEC.REQREF : Fld := ⟨0xF000100630, 0, 32, .rc, 0, 0, 0xFFFFFFFF, false, false⟩
/-- SEC.AUTHFAIL (Table 16-14). -/
def SEC.AUTHFAIL : Fld := ⟨0xF000100634, 0, 32, .rc, 0, 0, 0xFFFFFFFF, false, false⟩
/-- SEC.ANSDROP (Table 16-14). -/
def SEC.ANSDROP : Fld := ⟨0xF000100638, 0, 32, .rc, 0, 0, 0xFFFFFFFF, false, false⟩
/-- SEC.CMDCTR (Table 16-14). -/
def SEC.CMDCTR : Fld := ⟨0xF00010063C, 0, 32, .ro, 0, 0, 0xFFFFFFFF, false, false⟩
/-- SEC.DBGSTAT.LEFT (Table 16-14). -/
def SEC.DBGSTAT.LEFT : Fld := ⟨0xF000100640, 16, 16, .ro, 0, 0, 0xFFFF, false, false⟩
/-- SEC.DBGSTAT.SCOPE (Table 16-14). -/
def SEC.DBGSTAT.SCOPE : Fld := ⟨0xF000100640, 0, 2, .ro, 0, 0, 3, false, false⟩
/-- SEC.DIETEMP (Table 16-14). -/
def SEC.DIETEMP : Fld := ⟨0xF000100644, 0, 16, .ro, 0, 0, 0xFFFF, false, false⟩
/-- SEC.DRBGSTAT.OK (Table 16-14). -/
def SEC.DRBGSTAT.OK : Fld := ⟨0xF000100648, 0, 1, .ro, 0, 0, 1, false, false⟩
/-- SEC.DRBGSTAT.FAIL (Table 16-14). -/
def SEC.DRBGSTAT.FAIL : Fld := ⟨0xF000100648, 1, 1, .ro, 0, 0, 1, false, false⟩
/-- SEC.DRBGSTAT.RESEEDS (Table 16-14). -/
def SEC.DRBGSTAT.RESEEDS : Fld := ⟨0xF000100648, 16, 16, .ro, 0, 0, 0xFFFF, false, false⟩
/-- SEC.CRITSTAT.RAILISL (Table 18-5). -/
def SEC.CRITSTAT.RAILISL : Fld := ⟨0xF000100700, 24, 4, .ro, 0, 0, 0xF, false, true⟩
/-- SEC.CRITSTAT.CLKISL (Table 18-5). -/
def SEC.CRITSTAT.CLKISL : Fld := ⟨0xF000100700, 16, 4, .ro, 0, 0, 0xF, false, true⟩
/-- SEC.CRITSTAT.SQECC (Table 18-5). -/
def SEC.CRITSTAT.SQECC : Fld := ⟨0xF000100700, 9, 1, .w1c, 0, 0, 1, false, true⟩
/-- SEC.CRITSTAT.TCXO (Table 18-5). -/
def SEC.CRITSTAT.TCXO : Fld := ⟨0xF000100700, 8, 1, .w1c, 0, 0, 1, false, true⟩
/-- SEC.CRITSTAT.RAWCNT (Table 18-5). -/
def SEC.CRITSTAT.RAWCNT : Fld := ⟨0xF000100700, 7, 1, .w1c, 0, 0, 1, false, true⟩
/-- SEC.CRITSTAT.RAIL (Table 18-5). -/
def SEC.CRITSTAT.RAIL : Fld := ⟨0xF000100700, 6, 1, .w1c, 0, 0, 1, false, true⟩
/-- SEC.CRITSTAT.CLOCK (Table 18-5). -/
def SEC.CRITSTAT.CLOCK : Fld := ⟨0xF000100700, 5, 1, .w1c, 0, 0, 1, false, true⟩
/-- SEC.CRITSTAT.BCNCHK (Table 18-5). -/
def SEC.CRITSTAT.BCNCHK : Fld := ⟨0xF000100700, 4, 1, .ro, 0, 0, 1, false, true⟩
/-- SEC.CRITSTAT.DECIDE (Table 18-5). -/
def SEC.CRITSTAT.DECIDE : Fld := ⟨0xF000100700, 3, 1, .ro, 0, 0, 1, false, true⟩
/-- SEC.CRITSTAT.DRBG (Table 18-5). -/
def SEC.CRITSTAT.DRBG : Fld := ⟨0xF000100700, 2, 1, .ro, 0, 0, 1, false, true⟩
/-- SEC.CRITSTAT.PSTUCK (Table 18-5). -/
def SEC.CRITSTAT.PSTUCK : Fld := ⟨0xF000100700, 1, 1, .ro, 0, 0, 1, false, true⟩
/-- SEC.CRITSTAT.J6 (Table 18-5). -/
def SEC.CRITSTAT.J6 : Fld := ⟨0xF000100700, 0, 1, .ro, 0, 0, 1, false, true⟩
/-- SEC.DECMIS (Table 18-5). -/
def SEC.DECMIS : Fld := ⟨0xF000100704, 0, 32, .rc, 0, 0, 0xFFFFFFFF, false, false⟩
/-- SEC.BCNMIS (Table 18-5). -/
def SEC.BCNMIS : Fld := ⟨0xF000100708, 0, 32, .rc, 0, 0, 0xFFFFFFFF, false, false⟩
/-- SEC.CLRREF (Table 18-5). -/
def SEC.CLRREF : Fld := ⟨0xF00010070C, 0, 32, .rc, 0, 0, 0xFFFFFFFF, false, false⟩

/-- APP.STCTL.EN (Table 18-5). -/
def APP.STCTL.EN : Fld := ⟨0xF000200100, 0, 1, .rw, 1, 0, 1, false, true⟩
/-- APP.STCTL.EVN (Table 18-5). -/
def APP.STCTL.EVN : Fld := ⟨0xF000200100, 8, 8, .rw, 0, 0, 0xDF, false, false⟩
/-- APP.STCTL.TOK (Table 18-5). -/
def APP.STCTL.TOK : Fld := ⟨0xF000200100, 16, 1, .rw, 0, 0, 1, false, false⟩
/-- APP.STSTAT.CORE (Table 18-5). -/
def APP.STSTAT.CORE : Fld := ⟨0xF000200104, 0, 3, .ro, 0, 0, 7, false, false⟩
/-- APP.STSTAT.BUSY (Table 18-5). -/
def APP.STSTAT.BUSY : Fld := ⟨0xF000200104, 3, 1, .ro, 0, 0, 1, false, false⟩
/-- APP.STSTAT.FAILED (Table 18-5). -/
def APP.STSTAT.FAILED : Fld := ⟨0xF000200104, 8, 8, .ro, 0, 0, 0xFF, false, false⟩
/-- APP.STSTAT.ROUNDS (Table 18-5). -/
def APP.STSTAT.ROUNDS : Fld := ⟨0xF000200104, 16, 16, .ro, 0, 0, 0xFFFF, false, false⟩
/-- APP.STROUND (Table 18-5). -/
def APP.STROUND : Fld := ⟨0xF000200108, 0, 32, .ro, 0, 0, 0xFFFFFFFF, false, false⟩

def regRowsAON0 : List RegRow := [
  ⟨"AON.PWRSTAT.LIMEVT", fun _ _ => AON.PWRSTAT.LIMEVT, 0x0, 1, 0x0, 1⟩,
  ⟨"AON.PWRSTAT.FULLAVL", fun _ _ => AON.PWRSTAT.FULLAVL, 0x0, 1, 0x0, 1⟩,
  ⟨"AON.PWRSTAT.LIMITED", fun _ _ => AON.PWRSTAT.LIMITED, 0x0, 1, 0x0, 1⟩,
  ⟨"AON.PWRSTAT.BCLASS", fun _ _ => AON.PWRSTAT.BCLASS, 0x0, 1, 0x0, 1⟩,
  ⟨"AON.PWRSTAT.ACLASS", fun _ _ => AON.PWRSTAT.ACLASS, 0x0, 1, 0x0, 1⟩,
  ⟨"AON.PWRSTAT.BPG", fun _ _ => AON.PWRSTAT.BPG, 0x0, 1, 0x0, 1⟩,
  ⟨"AON.PWRSTAT.APG", fun _ _ => AON.PWRSTAT.APG, 0x0, 1, 0x0, 1⟩,
  ⟨"AON.PWRCTL.RESTORE", fun _ _ => AON.PWRCTL.RESTORE, 0x0, 1, 0x0, 1⟩,
  ⟨"AON.RAW", fun _ _ => AON.RAW, 0x0, 1, 0x0, 1⟩,
  ⟨"AON.TSNAP.SNAP", fun _ _ => AON.TSNAP.SNAP, 0x0, 1, 0x0, 1⟩,
  ⟨"AON.SNAPRAW", fun _ _ => AON.SNAPRAW, 0x0, 1, 0x0, 1⟩,
  ⟨"AON.SNAPCYC", fun _ _ => AON.SNAPCYC, 0x0, 1, 0x0, 1⟩,
  ⟨"AON.SNAPWALL", fun _ _ => AON.SNAPWALL, 0x0, 1, 0x0, 1⟩,
  ⟨"AON.CYC", fun _ _ => AON.CYC, 0x0, 1, 0x0, 1⟩,
  ⟨"AON.COFF", fun _ _ => AON.COFF, 0x0, 1, 0x0, 1⟩,
  ⟨"AON.CBASE", fun _ _ => AON.CBASE, 0x0, 1, 0x0, 1⟩,
  ⟨"AON.CRATE", fun _ _ => AON.CRATE, 0x0, 1, 0x0, 1⟩,
  ⟨"AON.CRATENXT", fun _ _ => AON.CRATENXT, 0x0, 1, 0x0, 1⟩,
  ⟨"AON.CRATEAT", fun _ _ => AON.CRATEAT, 0x0, 1, 0x0, 1⟩,
  ⟨"AON.CCTL.RATELATE", fun _ _ => AON.CCTL.RATELATE, 0x0, 1, 0x0, 1⟩,
  ⟨"AON.CCTL.RATECLAMP", fun _ _ => AON.CCTL.RATECLAMP, 0x0, 1, 0x0, 1⟩,
  ⟨"AON.CCTL.DIVEVT", fun _ _ => AON.CCTL.DIVEVT, 0x0, 1, 0x0, 1⟩,
  ⟨"AON.CCTL.DIVERGED", fun _ _ => AON.CCTL.DIVERGED, 0x0, 1, 0x0, 1⟩,
  ⟨"AON.CCTL.RARM", fun _ _ => AON.CCTL.RARM, 0x0, 1, 0x0, 1⟩,
  ⟨"AON.CCTL.STEPEN", fun _ _ => AON.CCTL.STEPEN, 0x0, 1, 0x0, 1⟩,
  ⟨"AON.CCTL.FOLLOW", fun _ _ => AON.CCTL.FOLLOW, 0x0, 1, 0x0, 1⟩,
  ⟨"AON.CEPOCH", fun _ _ => AON.CEPOCH, 0x0, 1, 0x0, 1⟩,
  ⟨"AON.CALIGN", fun _ _ => AON.CALIGN, 0x0, 1, 0x0, 1⟩,
  ⟨"AON.CFOLMAX", fun _ _ => AON.CFOLMAX, 0x0, 1, 0x0, 1⟩,
  ⟨"AON.WALL", fun _ _ => AON.WALL, 0x0, 1, 0x0, 1⟩,
  ⟨"AON.WOFF", fun _ _ => AON.WOFF, 0x0, 1, 0x0, 1⟩,
  ⟨"AON.WBASE", fun _ _ => AON.WBASE, 0x0, 1, 0x0, 1⟩,
  ⟨"AON.WRATE", fun _ _ => AON.WRATE, 0x0, 1, 0x0, 1⟩,
  ⟨"AON.WRATENXT", fun _ _ => AON.WRATENXT, 0x0, 1, 0x0, 1⟩,
  ⟨"AON.WRATEAT", fun _ _ => AON.WRATEAT, 0x0, 1, 0x0, 1⟩,
  ⟨"AON.WCTL.HOLDTO", fun _ _ => AON.WCTL.HOLDTO, 0x0, 1, 0x0, 1⟩,
  ⟨"AON.WCTL.RARM", fun _ _ => AON.WCTL.RARM, 0x0, 1, 0x0, 1⟩,
  ⟨"AON.WCTL.STEPACC", fun _ _ => AON.WCTL.STEPACC, 0x0, 1, 0x0, 1⟩,
  ⟨"AON.WCTL.SRC", fun _ _ => AON.WCTL.SRC, 0x0, 1, 0x0, 1⟩,
  ⟨"AON.WSTAT.FOREIGN", fun _ _ => AON.WSTAT.FOREIGN, 0x0, 1, 0x0, 1⟩]

def regRowsAON1 : List RegRow := [
  ⟨"AON.WSTAT.ACCNONE", fun _ _ => AON.WSTAT.ACCNONE, 0x0, 1, 0x0, 1⟩,
  ⟨"AON.WSTAT.RATELATE", fun _ _ => AON.WSTAT.RATELATE, 0x0, 1, 0x0, 1⟩,
  ⟨"AON.WSTAT.RATELRN", fun _ _ => AON.WSTAT.RATELRN, 0x0, 1, 0x0, 1⟩,
  ⟨"AON.WSTAT.STEPREF", fun _ _ => AON.WSTAT.STEPREF, 0x0, 1, 0x0, 1⟩,
  ⟨"AON.WSTAT.STEPPEND", fun _ _ => AON.WSTAT.STEPPEND, 0x0, 1, 0x0, 1⟩,
  ⟨"AON.WSTAT.SLEWING", fun _ _ => AON.WSTAT.SLEWING, 0x0, 1, 0x0, 1⟩,
  ⟨"AON.WSTAT.HOLDOVER", fun _ _ => AON.WSTAT.HOLDOVER, 0x0, 1, 0x0, 1⟩,
  ⟨"AON.WSTAT.LOCKED", fun _ _ => AON.WSTAT.LOCKED, 0x0, 1, 0x0, 1⟩,
  ⟨"AON.WSTAT.VALID", fun _ _ => AON.WSTAT.VALID, 0x0, 1, 0x0, 1⟩,
  ⟨"AON.WCORR", fun _ _ => AON.WCORR, 0x0, 1, 0x0, 1⟩,
  ⟨"AON.WSTEPAMT", fun _ _ => AON.WSTEPAMT, 0x0, 1, 0x0, 1⟩,
  ⟨"AON.WJUMPTHR", fun _ _ => AON.WJUMPTHR, 0x0, 1, 0x0, 1⟩,
  ⟨"AON.WSLEWMAX", fun _ _ => AON.WSLEWMAX, 0x0, 1, 0x0, 1⟩,
  ⟨"AON.WUNC", fun _ _ => AON.WUNC, 0x0, 1, 0x0, 1⟩,
  ⟨"AON.UTCOFF", fun _ _ => AON.UTCOFF, 0x0, 1, 0x0, 1⟩,
  ⟨"AON.WCSRC", fun _ _ => AON.WCSRC, 0x0, 1, 0x0, 1⟩,
  ⟨"AON.WUNCFW", fun _ _ => AON.WUNCFW, 0x0, 1, 0x0, 1⟩,
  ⟨"AON.TPSTAT.PULSECNT", fun _ _ => AON.TPSTAT.PULSECNT, 0x0, 1, 0x0, 1⟩,
  ⟨"AON.TPSTAT.LEVEL", fun _ _ => AON.TPSTAT.LEVEL, 0x0, 1, 0x0, 1⟩,
  ⟨"AON.TPSTAT.SUPPR", fun _ _ => AON.TPSTAT.SUPPR, 0x0, 1, 0x0, 1⟩,
  ⟨"AON.TRIGCTL.STEPCAN", fun i _ => AON.TRIGCTL.STEPCAN i, 0x20, 16, 0x0, 1⟩,
  ⟨"AON.TRIGCTL.FIRED", fun i _ => AON.TRIGCTL.FIRED i, 0x20, 16, 0x0, 1⟩,
  ⟨"AON.TRIGCTL.DARG", fun i _ => AON.TRIGCTL.DARG i, 0x20, 16, 0x0, 1⟩,
  ⟨"AON.TRIGCTL.DEST", fun i _ => AON.TRIGCTL.DEST i, 0x20, 16, 0x0, 1⟩,
  ⟨"AON.TRIGCTL.TSEL", fun i _ => AON.TRIGCTL.TSEL i, 0x20, 16, 0x0, 1⟩,
  ⟨"AON.TRIGCTL.PER", fun i _ => AON.TRIGCTL.PER i, 0x20, 16, 0x0, 1⟩,
  ⟨"AON.TRIGCTL.EN", fun i _ => AON.TRIGCTL.EN i, 0x20, 16, 0x0, 1⟩,
  ⟨"AON.TRIGTGT", fun i _ => AON.TRIGTGT i, 0x20, 16, 0x0, 1⟩,
  ⟨"AON.TRIGPER", fun i _ => AON.TRIGPER i, 0x20, 16, 0x0, 1⟩,
  ⟨"AON.FIRECNT", fun i _ => AON.FIRECNT i, 0x20, 16, 0x0, 1⟩,
  ⟨"AON.MISSCNT", fun i _ => AON.MISSCNT i, 0x20, 16, 0x0, 1⟩,
  ⟨"AON.DROPCNT", fun i _ => AON.DROPCNT i, 0x20, 16, 0x0, 1⟩,
  ⟨"AON.RSTCAUSE.HIBWAKE", fun _ _ => AON.RSTCAUSE.HIBWAKE, 0x0, 1, 0x0, 1⟩,
  ⟨"AON.RSTCAUSE.WDCAP", fun _ _ => AON.RSTCAUSE.WDCAP, 0x0, 1, 0x0, 1⟩,
  ⟨"AON.RSTCAUSE.ISLMASK", fun _ _ => AON.RSTCAUSE.ISLMASK, 0x0, 1, 0x0, 1⟩,
  ⟨"AON.RSTCAUSE.SECWD", fun _ _ => AON.RSTCAUSE.SECWD, 0x0, 1, 0x0, 1⟩,
  ⟨"AON.RSTCAUSE.TMP", fun _ _ => AON.RSTCAUSE.TMP, 0x0, 1, 0x0, 1⟩,
  ⟨"AON.RSTCAUSE.WRM", fun _ _ => AON.RSTCAUSE.WRM, 0x0, 1, 0x0, 1⟩,
  ⟨"AON.RSTCAUSE.WDR", fun _ _ => AON.RSTCAUSE.WDR, 0x0, 1, 0x0, 1⟩,
  ⟨"AON.RSTCAUSE.BOR", fun _ _ => AON.RSTCAUSE.BOR, 0x0, 1, 0x0, 1⟩]

def regRowsAON2 : List RegRow := [
  ⟨"AON.RSTCAUSE.POR", fun _ _ => AON.RSTCAUSE.POR, 0x0, 1, 0x0, 1⟩,
  ⟨"AON.RSTCTL.ISL", fun _ _ => AON.RSTCTL.ISL, 0x0, 1, 0x0, 1⟩,
  ⟨"AON.RSTCTL.ISLGO", fun _ _ => AON.RSTCTL.ISLGO, 0x0, 1, 0x0, 1⟩,
  ⟨"AON.RSTCTL.WRM", fun _ _ => AON.RSTCTL.WRM, 0x0, 1, 0x0, 1⟩,
  ⟨"AON.RSTCTL.KEY", fun _ _ => AON.RSTCTL.KEY, 0x0, 1, 0x0, 1⟩,
  ⟨"AON.WDCTL.PERIOD", fun _ _ => AON.WDCTL.PERIOD, 0x0, 1, 0x0, 1⟩,
  ⟨"AON.WDCTL.EN", fun _ _ => AON.WDCTL.EN, 0x0, 1, 0x0, 1⟩,
  ⟨"AON.WDCTL.CAPEN", fun _ _ => AON.WDCTL.CAPEN, 0x0, 1, 0x0, 1⟩,
  ⟨"AON.WDCTL.LOCK", fun _ _ => AON.WDCTL.LOCK, 0x0, 1, 0x0, 1⟩,
  ⟨"AON.WDKICK", fun _ _ => AON.WDKICK, 0x0, 1, 0x0, 1⟩,
  ⟨"AON.WDLEFT", fun _ _ => AON.WDLEFT, 0x0, 1, 0x0, 1⟩,
  ⟨"AON.LPCTL.REQ", fun _ _ => AON.LPCTL.REQ, 0x0, 1, 0x0, 1⟩,
  ⟨"AON.LPSTAT.WAKESRC", fun _ _ => AON.LPSTAT.WAKESRC, 0x0, 1, 0x0, 1⟩,
  ⟨"AON.LPSTAT.REFWHY", fun _ _ => AON.LPSTAT.REFWHY, 0x0, 1, 0x0, 1⟩,
  ⟨"AON.LPSTAT.REFUSED", fun _ _ => AON.LPSTAT.REFUSED, 0x0, 1, 0x0, 1⟩,
  ⟨"AON.LPSTAT.BUSY", fun _ _ => AON.LPSTAT.BUSY, 0x0, 1, 0x0, 1⟩,
  ⟨"AON.WAKEMASK", fun _ _ => AON.WAKEMASK, 0x0, 1, 0x0, 1⟩,
  ⟨"AON.BOOTSTAT.FAILSTEP", fun _ _ => AON.BOOTSTAT.FAILSTEP, 0x0, 1, 0x0, 1⟩,
  ⟨"AON.BOOTSTAT.FALLBACK", fun _ _ => AON.BOOTSTAT.FALLBACK, 0x0, 1, 0x0, 1⟩,
  ⟨"AON.BOOTSTAT.TRIAL", fun _ _ => AON.BOOTSTAT.TRIAL, 0x0, 1, 0x0, 1⟩,
  ⟨"AON.BOOTSTAT.SLOT", fun _ _ => AON.BOOTSTAT.SLOT, 0x0, 1, 0x0, 1⟩,
  ⟨"AON.DUMPCTL.ABORTED", fun _ _ => AON.DUMPCTL.ABORTED, 0x0, 1, 0x0, 1⟩,
  ⟨"AON.DUMPCTL.NOBASE", fun _ _ => AON.DUMPCTL.NOBASE, 0x0, 1, 0x0, 1⟩,
  ⟨"AON.DUMPCTL.CAUSE", fun _ _ => AON.DUMPCTL.CAUSE, 0x0, 1, 0x0, 1⟩,
  ⟨"AON.DUMPCTL.BUSY", fun _ _ => AON.DUMPCTL.BUSY, 0x0, 1, 0x0, 1⟩,
  ⟨"AON.DUMPCTL.VALID", fun _ _ => AON.DUMPCTL.VALID, 0x0, 1, 0x0, 1⟩,
  ⟨"AON.DUMPBASE", fun _ _ => AON.DUMPBASE, 0x0, 1, 0x0, 1⟩,
  ⟨"AON.STARTCNT", fun _ _ => AON.STARTCNT, 0x0, 1, 0x0, 1⟩,
  ⟨"AON.SKBASE", fun _ _ => AON.SKBASE, 0x0, 1, 0x0, 1⟩,
  ⟨"AON.LSTAT.SCAN", fun _ _ => AON.LSTAT.SCAN, 0x0, 1, 0x0, 1⟩,
  ⟨"AON.LSTAT.FULL", fun _ _ => AON.LSTAT.FULL, 0x0, 1, 0x0, 1⟩,
  ⟨"AON.LSTAT.ERASING", fun _ _ => AON.LSTAT.ERASING, 0x0, 1, 0x0, 1⟩,
  ⟨"AON.LSTAT.DIGOK", fun _ _ => AON.LSTAT.DIGOK, 0x0, 1, 0x0, 1⟩,
  ⟨"AON.LSTAT.CLRPEND", fun _ _ => AON.LSTAT.CLRPEND, 0x0, 1, 0x0, 1⟩,
  ⟨"AON.LSTAT.EPOCH", fun _ _ => AON.LSTAT.EPOCH, 0x0, 1, 0x0, 1⟩,
  ⟨"AON.LWRIDX", fun _ _ => AON.LWRIDX, 0x0, 1, 0x0, 1⟩,
  ⟨"AON.LERASE", fun _ _ => AON.LERASE, 0x0, 1, 0x0, 1⟩,
  ⟨"AON.LRECCNT", fun _ _ => AON.LRECCNT, 0x0, 1, 0x0, 1⟩,
  ⟨"AON.LTORN", fun _ _ => AON.LTORN, 0x0, 1, 0x0, 1⟩,
  ⟨"AON.LDROP", fun _ _ => AON.LDROP, 0x0, 1, 0x0, 1⟩]

def regRowsAON3 : List RegRow := [
  ⟨"AON.LGAP", fun _ _ => AON.LGAP, 0x0, 1, 0x0, 1⟩,
  ⟨"AON.LSUPP", fun _ _ => AON.LSUPP, 0x0, 1, 0x0, 1⟩,
  ⟨"AON.LFWBAD", fun _ _ => AON.LFWBAD, 0x0, 1, 0x0, 1⟩,
  ⟨"AON.LRDIDX", fun _ _ => AON.LRDIDX, 0x0, 1, 0x0, 1⟩,
  ⟨"AON.LRDSTAT.READY", fun _ _ => AON.LRDSTAT.READY, 0x0, 1, 0x0, 1⟩,
  ⟨"AON.LRDSTAT.STATE", fun _ _ => AON.LRDSTAT.STATE, 0x0, 1, 0x0, 1⟩,
  ⟨"AON.LRDDATA", fun i _ => AON.LRDDATA i, 0x4, 8, 0x0, 1⟩,
  ⟨"AON.LDIGEST", fun i _ => AON.LDIGEST i, 0x4, 8, 0x0, 1⟩,
  ⟨"AON.LDEFBKT.RATE", fun _ _ => AON.LDEFBKT.RATE, 0x0, 1, 0x0, 1⟩,
  ⟨"AON.LDEFBKT.BURST", fun _ _ => AON.LDEFBKT.BURST, 0x0, 1, 0x0, 1⟩,
  ⟨"AON.LDEFSUP", fun _ _ => AON.LDEFSUP, 0x0, 1, 0x0, 1⟩,
  ⟨"AON.LBKTC.CODE", fun i _ => AON.LBKTC.CODE i, 0x8, 256, 0x0, 1⟩,
  ⟨"AON.LBKTC.VALID", fun i _ => AON.LBKTC.VALID i, 0x8, 256, 0x0, 1⟩,
  ⟨"AON.LBKTR.RATE", fun i _ => AON.LBKTR.RATE i, 0x8, 256, 0x0, 1⟩,
  ⟨"AON.LBKTR.BURST", fun i _ => AON.LBKTR.BURST i, 0x8, 256, 0x0, 1⟩,
  ⟨"AON.LSUPCNT", fun i _ => AON.LSUPCNT i, 0x4, 256, 0x0, 1⟩]

/-- The fields of the register tables of AON. -/
def regRowsAON : List RegRow := regRowsAON0 ++ regRowsAON1 ++ regRowsAON2 ++ regRowsAON3

def regRowsSEC0 : List RegRow := [
  ⟨"SEC.J6STAT.IOLIM", fun _ _ => SEC.J6STAT.IOLIM, 0x0, 1, 0x0, 1⟩,
  ⟨"SEC.J6STAT.IOSUP", fun _ _ => SEC.J6STAT.IOSUP, 0x0, 1, 0x0, 1⟩,
  ⟨"SEC.J6STAT.TPOVLD", fun _ _ => SEC.J6STAT.TPOVLD, 0x0, 1, 0x0, 1⟩,
  ⟨"SEC.J6STAT.POVLD", fun _ _ => SEC.J6STAT.POVLD, 0x0, 1, 0x0, 1⟩,
  ⟨"SEC.J6STAT.PSTUCK", fun _ _ => SEC.J6STAT.PSTUCK, 0x0, 1, 0x0, 1⟩,
  ⟨"SEC.J6STAT.PERMITRB", fun _ _ => SEC.J6STAT.PERMITRB, 0x0, 1, 0x0, 1⟩,
  ⟨"SEC.J6STAT.TFAULTB", fun _ _ => SEC.J6STAT.TFAULTB, 0x0, 1, 0x0, 1⟩,
  ⟨"SEC.J6STAT.TFAULTA", fun _ _ => SEC.J6STAT.TFAULTA, 0x0, 1, 0x0, 1⟩,
  ⟨"SEC.J6STAT.DISCREP", fun _ _ => SEC.J6STAT.DISCREP, 0x0, 1, 0x0, 1⟩,
  ⟨"SEC.J6STAT.BCLOSED", fun _ _ => SEC.J6STAT.BCLOSED, 0x0, 1, 0x0, 1⟩,
  ⟨"SEC.J6STAT.ACLOSED", fun _ _ => SEC.J6STAT.ACLOSED, 0x0, 1, 0x0, 1⟩,
  ⟨"SEC.J6CTL.POVCLR", fun _ _ => SEC.J6CTL.POVCLR, 0x0, 1, 0x0, 1⟩,
  ⟨"SEC.J6CTL.TPOVCLR", fun _ _ => SEC.J6CTL.TPOVCLR, 0x0, 1, 0x0, 1⟩,
  ⟨"SEC.J6CTL.TPEN", fun _ _ => SEC.J6CTL.TPEN, 0x0, 1, 0x0, 1⟩,
  ⟨"SEC.PMSTAT.CAUSE", fun _ _ => SEC.PMSTAT.CAUSE, 0x0, 1, 0x0, 1⟩,
  ⟨"SEC.PMSTAT.GRACEARM", fun _ _ => SEC.PMSTAT.GRACEARM, 0x0, 1, 0x0, 1⟩,
  ⟨"SEC.PMSTAT.FALLEVT", fun _ _ => SEC.PMSTAT.FALLEVT, 0x0, 1, 0x0, 1⟩,
  ⟨"SEC.PMSTAT.RESREF", fun _ _ => SEC.PMSTAT.RESREF, 0x0, 1, 0x0, 1⟩,
  ⟨"SEC.PMSTAT.SGLOVF", fun _ _ => SEC.PMSTAT.SGLOVF, 0x0, 1, 0x0, 1⟩,
  ⟨"SEC.PMSTAT.LATCH", fun _ _ => SEC.PMSTAT.LATCH, 0x0, 1, 0x0, 1⟩,
  ⟨"SEC.PMSTAT.GRACE", fun _ _ => SEC.PMSTAT.GRACE, 0x0, 1, 0x0, 1⟩,
  ⟨"SEC.PMSTAT.CRAWL", fun _ _ => SEC.PMSTAT.CRAWL, 0x0, 1, 0x0, 1⟩,
  ⟨"SEC.PMSTAT.MOSS", fun _ _ => SEC.PMSTAT.MOSS, 0x0, 1, 0x0, 1⟩,
  ⟨"SEC.PMSTAT.NOCRIT", fun _ _ => SEC.PMSTAT.NOCRIT, 0x0, 1, 0x0, 1⟩,
  ⟨"SEC.PMSTAT.SCHHB", fun _ _ => SEC.PMSTAT.SCHHB, 0x0, 1, 0x0, 1⟩,
  ⟨"SEC.PMSTAT.APPHBOK", fun _ _ => SEC.PMSTAT.APPHBOK, 0x0, 1, 0x0, 1⟩,
  ⟨"SEC.PMSTAT.J6OK", fun _ _ => SEC.PMSTAT.J6OK, 0x0, 1, 0x0, 1⟩,
  ⟨"SEC.PMSTAT.GRANT", fun _ _ => SEC.PMSTAT.GRANT, 0x0, 1, 0x0, 1⟩,
  ⟨"SEC.PMCTL.GCAUSE", fun _ _ => SEC.PMCTL.GCAUSE, 0x0, 1, 0x0, 1⟩,
  ⟨"SEC.PMCTL.FULL", fun _ _ => SEC.PMCTL.FULL, 0x0, 1, 0x0, 1⟩,
  ⟨"SEC.PMCTL.GRACEREQ", fun _ _ => SEC.PMCTL.GRACEREQ, 0x0, 1, 0x0, 1⟩,
  ⟨"SEC.PMCTL.GSTOP", fun _ _ => SEC.PMCTL.GSTOP, 0x0, 1, 0x0, 1⟩,
  ⟨"SEC.APPHB", fun _ _ => SEC.APPHB, 0x0, 1, 0x0, 1⟩,
  ⟨"SEC.EPOCH", fun _ _ => SEC.EPOCH, 0x0, 1, 0x0, 1⟩,
  ⟨"SEC.ZGRANT", fun _ _ => SEC.ZGRANT, 0x0, 1, 0x0, 1⟩,
  ⟨"SEC.ZTOKEN", fun _ _ => SEC.ZTOKEN, 0x0, 1, 0x0, 1⟩,
  ⟨"SEC.SPEEDCAP", fun _ _ => SEC.SPEEDCAP, 0x0, 1, 0x0, 1⟩,
  ⟨"SEC.MOSSCAP", fun _ _ => SEC.MOSSCAP, 0x0, 1, 0x0, 1⟩,
  ⟨"SEC.STOPSEQ", fun _ _ => SEC.STOPSEQ, 0x0, 1, 0x0, 1⟩,
  ⟨"SEC.UNSINGLE", fun _ _ => SEC.UNSINGLE, 0x0, 1, 0x0, 1⟩]

def regRowsSEC1 : List RegRow := [
  ⟨"SEC.SGL.VALID", fun i _ => SEC.SGL.VALID i, 0x4, 8, 0x0, 1⟩,
  ⟨"SEC.SGL.ZONE", fun i _ => SEC.SGL.ZONE i, 0x4, 8, 0x0, 1⟩,
  ⟨"SEC.SGL.MEMBER", fun i _ => SEC.SGL.MEMBER i, 0x4, 8, 0x0, 1⟩,
  ⟨"SEC.TOKMISS", fun _ _ => SEC.TOKMISS, 0x0, 1, 0x0, 1⟩,
  ⟨"SEC.HBERR", fun _ _ => SEC.HBERR, 0x0, 1, 0x0, 1⟩,
  ⟨"SEC.GRACECNT", fun _ _ => SEC.GRACECNT, 0x0, 1, 0x0, 1⟩,
  ⟨"SEC.LASTDEC", fun _ _ => SEC.LASTDEC, 0x0, 1, 0x0, 1⟩,
  ⟨"SEC.MOSSCTL.REFWHY", fun _ _ => SEC.MOSSCTL.REFWHY, 0x0, 1, 0x0, 1⟩,
  ⟨"SEC.MOSSCTL.REFUSED", fun _ _ => SEC.MOSSCTL.REFUSED, 0x0, 1, 0x0, 1⟩,
  ⟨"SEC.MOSSCTL.ENTER", fun _ _ => SEC.MOSSCTL.ENTER, 0x0, 1, 0x0, 1⟩,
  ⟨"SEC.MOSSCTL.LEAVE", fun _ _ => SEC.MOSSCTL.LEAVE, 0x0, 1, 0x0, 1⟩,
  ⟨"SEC.LCSTAT.IMGSLOT", fun _ _ => SEC.LCSTAT.IMGSLOT, 0x0, 1, 0x0, 1⟩,
  ⟨"SEC.LCSTAT.IMGSET", fun _ _ => SEC.LCSTAT.IMGSET, 0x0, 1, 0x0, 1⟩,
  ⟨"SEC.LCSTAT.OWNERSET", fun _ _ => SEC.LCSTAT.OWNERSET, 0x0, 1, 0x0, 1⟩,
  ⟨"SEC.LCSTAT.SETTINGS", fun _ _ => SEC.LCSTAT.SETTINGS, 0x0, 1, 0x0, 1⟩,
  ⟨"SEC.LCSTAT.SEEDOK", fun _ _ => SEC.LCSTAT.SEEDOK, 0x0, 1, 0x0, 1⟩,
  ⟨"SEC.LCSTAT.SVCCNT", fun _ _ => SEC.LCSTAT.SVCCNT, 0x0, 1, 0x0, 1⟩,
  ⟨"SEC.LCSTAT.STATE", fun _ _ => SEC.LCSTAT.STATE, 0x0, 1, 0x0, 1⟩,
  ⟨"SEC.SECVER", fun _ _ => SEC.SECVER, 0x0, 1, 0x0, 1⟩,
  ⟨"SEC.DEVID", fun _ _ => SEC.DEVID, 0x0, 1, 0x0, 1⟩,
  ⟨"SEC.SPORESTAT.CORR", fun _ _ => SEC.SPORESTAT.CORR, 0x0, 1, 0x0, 1⟩,
  ⟨"SEC.SPORESTAT.TRIES", fun _ _ => SEC.SPORESTAT.TRIES, 0x0, 1, 0x0, 1⟩,
  ⟨"SEC.SPORESTAT.FAIL", fun _ _ => SEC.SPORESTAT.FAIL, 0x0, 1, 0x0, 1⟩,
  ⟨"SEC.SPORESTAT.READY", fun _ _ => SEC.SPORESTAT.READY, 0x0, 1, 0x0, 1⟩,
  ⟨"SEC.TAMPSTAT.HOLD", fun _ _ => SEC.TAMPSTAT.HOLD, 0x0, 1, 0x0, 1⟩,
  ⟨"SEC.TAMPSTAT.LATCHED", fun _ _ => SEC.TAMPSTAT.LATCHED, 0x0, 1, 0x0, 1⟩,
  ⟨"SEC.TAMPSTAT.LIVE", fun _ _ => SEC.TAMPSTAT.LIVE, 0x0, 1, 0x0, 1⟩,
  ⟨"SEC.KEYSTAT", fun _ _ => SEC.KEYSTAT, 0x0, 1, 0x0, 1⟩,
  ⟨"SEC.BKGEN.CUR", fun _ _ => SEC.BKGEN.CUR, 0x0, 1, 0x0, 1⟩,
  ⟨"SEC.BKGEN.NEXT", fun _ _ => SEC.BKGEN.NEXT, 0x0, 1, 0x0, 1⟩,
  ⟨"SEC.BKGEN.NEXTPEND", fun _ _ => SEC.BKGEN.NEXTPEND, 0x0, 1, 0x0, 1⟩,
  ⟨"SEC.BKFIRST", fun _ _ => SEC.BKFIRST, 0x0, 1, 0x0, 1⟩,
  ⟨"SEC.NSRES.STATUS", fun _ _ => SEC.NSRES.STATUS, 0x0, 1, 0x0, 1⟩,
  ⟨"SEC.NSRES.CODE", fun _ _ => SEC.NSRES.CODE, 0x0, 1, 0x0, 1⟩,
  ⟨"SEC.REQCNT", fun _ _ => SEC.REQCNT, 0x0, 1, 0x0, 1⟩,
  ⟨"SEC.REQREF", fun _ _ => SEC.REQREF, 0x0, 1, 0x0, 1⟩,
  ⟨"SEC.AUTHFAIL", fun _ _ => SEC.AUTHFAIL, 0x0, 1, 0x0, 1⟩,
  ⟨"SEC.ANSDROP", fun _ _ => SEC.ANSDROP, 0x0, 1, 0x0, 1⟩,
  ⟨"SEC.CMDCTR", fun _ _ => SEC.CMDCTR, 0x0, 1, 0x0, 1⟩,
  ⟨"SEC.DBGSTAT.LEFT", fun _ _ => SEC.DBGSTAT.LEFT, 0x0, 1, 0x0, 1⟩]

def regRowsSEC2 : List RegRow := [
  ⟨"SEC.DBGSTAT.SCOPE", fun _ _ => SEC.DBGSTAT.SCOPE, 0x0, 1, 0x0, 1⟩,
  ⟨"SEC.DIETEMP", fun _ _ => SEC.DIETEMP, 0x0, 1, 0x0, 1⟩,
  ⟨"SEC.DRBGSTAT.OK", fun _ _ => SEC.DRBGSTAT.OK, 0x0, 1, 0x0, 1⟩,
  ⟨"SEC.DRBGSTAT.FAIL", fun _ _ => SEC.DRBGSTAT.FAIL, 0x0, 1, 0x0, 1⟩,
  ⟨"SEC.DRBGSTAT.RESEEDS", fun _ _ => SEC.DRBGSTAT.RESEEDS, 0x0, 1, 0x0, 1⟩,
  ⟨"SEC.CRITSTAT.RAILISL", fun _ _ => SEC.CRITSTAT.RAILISL, 0x0, 1, 0x0, 1⟩,
  ⟨"SEC.CRITSTAT.CLKISL", fun _ _ => SEC.CRITSTAT.CLKISL, 0x0, 1, 0x0, 1⟩,
  ⟨"SEC.CRITSTAT.SQECC", fun _ _ => SEC.CRITSTAT.SQECC, 0x0, 1, 0x0, 1⟩,
  ⟨"SEC.CRITSTAT.TCXO", fun _ _ => SEC.CRITSTAT.TCXO, 0x0, 1, 0x0, 1⟩,
  ⟨"SEC.CRITSTAT.RAWCNT", fun _ _ => SEC.CRITSTAT.RAWCNT, 0x0, 1, 0x0, 1⟩,
  ⟨"SEC.CRITSTAT.RAIL", fun _ _ => SEC.CRITSTAT.RAIL, 0x0, 1, 0x0, 1⟩,
  ⟨"SEC.CRITSTAT.CLOCK", fun _ _ => SEC.CRITSTAT.CLOCK, 0x0, 1, 0x0, 1⟩,
  ⟨"SEC.CRITSTAT.BCNCHK", fun _ _ => SEC.CRITSTAT.BCNCHK, 0x0, 1, 0x0, 1⟩,
  ⟨"SEC.CRITSTAT.DECIDE", fun _ _ => SEC.CRITSTAT.DECIDE, 0x0, 1, 0x0, 1⟩,
  ⟨"SEC.CRITSTAT.DRBG", fun _ _ => SEC.CRITSTAT.DRBG, 0x0, 1, 0x0, 1⟩,
  ⟨"SEC.CRITSTAT.PSTUCK", fun _ _ => SEC.CRITSTAT.PSTUCK, 0x0, 1, 0x0, 1⟩,
  ⟨"SEC.CRITSTAT.J6", fun _ _ => SEC.CRITSTAT.J6, 0x0, 1, 0x0, 1⟩,
  ⟨"SEC.DECMIS", fun _ _ => SEC.DECMIS, 0x0, 1, 0x0, 1⟩,
  ⟨"SEC.BCNMIS", fun _ _ => SEC.BCNMIS, 0x0, 1, 0x0, 1⟩,
  ⟨"SEC.CLRREF", fun _ _ => SEC.CLRREF, 0x0, 1, 0x0, 1⟩]

/-- The fields of the register tables of SEC. -/
def regRowsSEC : List RegRow := regRowsSEC0 ++ regRowsSEC1 ++ regRowsSEC2

def regRowsAPP0 : List RegRow := [
  ⟨"APP.STCTL.EN", fun _ _ => APP.STCTL.EN, 0x0, 1, 0x0, 1⟩,
  ⟨"APP.STCTL.EVN", fun _ _ => APP.STCTL.EVN, 0x0, 1, 0x0, 1⟩,
  ⟨"APP.STCTL.TOK", fun _ _ => APP.STCTL.TOK, 0x0, 1, 0x0, 1⟩,
  ⟨"APP.STSTAT.CORE", fun _ _ => APP.STSTAT.CORE, 0x0, 1, 0x0, 1⟩,
  ⟨"APP.STSTAT.BUSY", fun _ _ => APP.STSTAT.BUSY, 0x0, 1, 0x0, 1⟩,
  ⟨"APP.STSTAT.FAILED", fun _ _ => APP.STSTAT.FAILED, 0x0, 1, 0x0, 1⟩,
  ⟨"APP.STSTAT.ROUNDS", fun _ _ => APP.STSTAT.ROUNDS, 0x0, 1, 0x0, 1⟩,
  ⟨"APP.STROUND", fun _ _ => APP.STROUND, 0x0, 1, 0x0, 1⟩]

/-- The fields of the register tables of APP. -/
def regRowsAPP : List RegRow := regRowsAPP0

end Sys2Proof.Machine
end

