-- ==== Sys2Proof/Machine/RegsB.lean ====
section
/-! DEFINITION. Machine/RegsB.lean: every field of the register tables of SCH, MEM, CTL, one definition a field. -/

namespace Sys2Proof.Machine

/-- SCH.TRKCTL.EN (Table 07-14). -/
def SCH.TRKCTL.EN : Fld := ⟨0xF000308000, 0, 1, .rw, 0, 0, 1, false, true⟩
/-- SCH.TRKCTL.SUPEN (Table 07-14). -/
def SCH.TRKCTL.SUPEN : Fld := ⟨0xF000308000, 1, 1, .rw, 0, 0, 1, false, false⟩
/-- SCH.TRKCTL.NOFIXEN (Table 07-14). -/
def SCH.TRKCTL.NOFIXEN : Fld := ⟨0xF000308000, 2, 1, .rw, 0, 0, 1, false, false⟩
/-- SCH.TRKSTAT.RUN (Table 07-14). -/
def SCH.TRKSTAT.RUN : Fld := ⟨0xF000308004, 0, 1, .ro, 0, 0, 1, false, false⟩
/-- SCH.TRKSTAT.HBOUT (Table 07-14). -/
def SCH.TRKSTAT.HBOUT : Fld := ⟨0xF000308004, 1, 1, .ro, 0, 0, 1, false, false⟩
/-- SCH.TRKSTAT.GRACE (Table 07-14). -/
def SCH.TRKSTAT.GRACE : Fld := ⟨0xF000308004, 2, 1, .ro, 0, 0, 1, false, false⟩
/-- SCH.TRKSTAT.INCONS (Table 07-14). -/
def SCH.TRKSTAT.INCONS : Fld := ⟨0xF000308004, 3, 1, .ro, 0, 0, 1, false, false⟩
/-- SCH.TRKSTAT.PEERLOST (Table 07-14). -/
def SCH.TRKSTAT.PEERLOST : Fld := ⟨0xF000308004, 8, 8, .ro, 0, 0, 0xFF, false, false⟩
/-- SCH.PEERMASK (Table 07-14). -/
def SCH.PEERMASK : Fld := ⟨0xF000308008, 0, 8, .rw, 0, 0, 0xFF, false, true⟩
/-- SCH.GRAPHVER (Table 07-14). -/
def SCH.GRAPHVER : Fld := ⟨0xF00030800C, 0, 32, .rw, 0, 0, 0xFFFFFFFF, false, false⟩
/-- SCH.GRACESF (Table 07-14). -/
def SCH.GRACESF : Fld := ⟨0xF000308010, 0, 32, .rw, 0x64, 0xA, 0x1770, false, false⟩
/-- SCH.EXTSTEP (Table 07-14). -/
def SCH.EXTSTEP : Fld := ⟨0xF000308014, 0, 32, .rw, 0x12C, 0x32, 0x1770, false, false⟩
/-- SCH.CUTLEAD (Table 07-14). -/
def SCH.CUTLEAD : Fld := ⟨0xF000308018, 0, 32, .rw, 0xC8, 0x64, 0x1770, false, false⟩
/-- SCH.CUTACKLEAD (Table 07-14). -/
def SCH.CUTACKLEAD : Fld := ⟨0xF00030801C, 0, 32, .rw, 0x32, 0xA, 0x3E8, false, false⟩
/-- SCH.HORIZON (Table 07-14). -/
def SCH.HORIZON : Fld := ⟨0xF000308020, 0, 32, .rw, 0xEA60, 0x64, 0x57E40, false, false⟩
/-- SCH.HOLDTO (Table 07-14). -/
def SCH.HOLDTO : Fld := ⟨0xF000308024, 0, 32, .rw, 0x14, 5, 0x64, false, false⟩
/-- SCH.PHBPER (Table 07-14). -/
def SCH.PHBPER : Fld := ⟨0xF000308028, 0, 32, .rw, 0xA, 1, 0x64, false, false⟩
/-- SCH.PHBTO (Table 07-14). -/
def SCH.PHBTO : Fld := ⟨0xF00030802C, 0, 32, .rw, 0x32, 3, 0x3E8, false, false⟩
/-- SCH.NOFIXTO (Table 07-14). -/
def SCH.NOFIXTO : Fld := ⟨0xF000308030, 0, 32, .rw, 0xC8, 0x14, 0x1770, false, false⟩
/-- SCH.QMARGIN (Table 07-14). -/
def SCH.QMARGIN : Fld := ⟨0xF000308034, 0, 32, .rw, 0x14, 0, 0x3E8, false, false⟩
/-- SCH.REGCNT (Table 07-14). -/
def SCH.REGCNT : Fld := ⟨0xF000308038, 0, 32, .ro, 0, 0, 0xFFFFFFFF, false, false⟩
/-- SCH.RESUSED (Table 07-14). -/
def SCH.RESUSED : Fld := ⟨0xF00030803C, 0, 32, .ro, 0, 0, 0xFFFFFFFF, false, false⟩
/-- SCH.RESHWM (Table 07-14). -/
def SCH.RESHWM : Fld := ⟨0xF000308040, 0, 32, .rc, 0, 0, 0xFFFFFFFF, false, false⟩
/-- SCH.PERMREQ (Table 07-14). -/
def SCH.PERMREQ : Fld := ⟨0xF000308044, 0, 32, .rc, 0, 0, 0xFFFFFFFF, false, false⟩
/-- SCH.PERMGRANT (Table 07-14). -/
def SCH.PERMGRANT : Fld := ⟨0xF000308048, 0, 32, .rc, 0, 0, 0xFFFFFFFF, false, false⟩
/-- SCH.PERMREF (Table 07-14). -/
def SCH.PERMREF : Fld := ⟨0xF00030804C, 0, 32, .rc, 0, 0, 0xFFFFFFFF, false, false⟩
/-- SCH.RELCNT (Table 07-14). -/
def SCH.RELCNT : Fld := ⟨0xF000308050, 0, 32, .rc, 0, 0, 0xFFFFFFFF, false, false⟩
/-- SCH.OVRCNT (Table 07-14). -/
def SCH.OVRCNT : Fld := ⟨0xF000308054, 0, 32, .rc, 0, 0, 0xFFFFFFFF, false, false⟩
/-- SCH.CUTCNT (Table 07-14). -/
def SCH.CUTCNT : Fld := ⟨0xF000308058, 0, 32, .rc, 0, 0, 0xFFFFFFFF, false, false⟩
/-- SCH.SGLCNT (Table 07-14). -/
def SCH.SGLCNT : Fld := ⟨0xF00030805C, 0, 32, .rc, 0, 0, 0xFFFFFFFF, false, false⟩
/-- SCH.HOLDEXP (Table 07-14). -/
def SCH.HOLDEXP : Fld := ⟨0xF000308060, 0, 32, .rc, 0, 0, 0xFFFFFFFF, false, false⟩
/-- SCH.SOLIGN (Table 07-14). -/
def SCH.SOLIGN : Fld := ⟨0xF000308064, 0, 32, .rc, 0, 0, 0xFFFFFFFF, false, false⟩
/-- SCH.CMDBAD (Table 07-14). -/
def SCH.CMDBAD : Fld := ⟨0xF000308068, 0, 32, .rc, 0, 0, 0xFFFFFFFF, false, false⟩
/-- SCH.GRWERR (Table 07-14). -/
def SCH.GRWERR : Fld := ⟨0xF00030806C, 0, 32, .rc, 0, 0, 0xFFFFFFFF, false, false⟩
/-- SCH.CHKMAX (Table 07-14). -/
def SCH.CHKMAX : Fld := ⟨0xF000308070, 0, 32, .rc, 0, 0, 0xFFFFFFFF, false, false⟩
/-- SCH.QRYCNT (Table 07-14). -/
def SCH.QRYCNT : Fld := ⟨0xF000308074, 0, 32, .rc, 0, 0, 0xFFFFFFFF, false, false⟩
/-- SCH.AUCTCTL.START (Table 07-14). -/
def SCH.AUCTCTL.START : Fld := ⟨0xF00030A000, 0, 1, .wo, 0, 0, 1, false, true⟩
/-- SCH.AUCTCTL.ABORT (Table 07-14). -/
def SCH.AUCTCTL.ABORT : Fld := ⟨0xF00030A000, 1, 1, .wo, 0, 0, 1, false, true⟩
/-- SCH.AUCTSTAT.BUSY (Table 07-14). -/
def SCH.AUCTSTAT.BUSY : Fld := ⟨0xF00030A004, 0, 1, .ro, 0, 0, 1, false, false⟩
/-- SCH.AUCTSTAT.RESULT (Table 07-14). -/
def SCH.AUCTSTAT.RESULT : Fld := ⟨0xF00030A004, 1, 3, .ro, 0, 0, 7, false, false⟩
/-- SCH.AUCTSTAT.OPT (Table 07-14). -/
def SCH.AUCTSTAT.OPT : Fld := ⟨0xF00030A004, 4, 1, .ro, 0, 0, 1, false, false⟩
/-- SCH.AUCTBASE (Table 07-14). -/
def SCH.AUCTBASE : Fld := ⟨0xF00030A008, 0, 48, .rw, 0, 0, 0xFFFFFFFFFFFF, true, false⟩
/-- SCH.TASKBASE (Table 07-14). -/
def SCH.TASKBASE : Fld := ⟨0xF00030A010, 0, 48, .rw, 0, 0, 0xFFFFFFFFFFFF, true, false⟩
/-- SCH.AUCTEPSF (Table 07-14). -/
def SCH.AUCTEPSF : Fld := ⟨0xF00030A018, 0, 32, .rw, 0x100, 1, 0x10000, false, false⟩
/-- SCH.AUCTTLIM (Table 07-14). -/
def SCH.AUCTTLIM : Fld := ⟨0xF00030A01C, 0, 32, .rw, 0x1388, 0x64, 0xC350, false, false⟩
/-- SCH.AUCTTIME (Table 07-14). -/
def SCH.AUCTTIME : Fld := ⟨0xF00030A020, 0, 32, .ro, 0, 0, 0xFFFFFFFF, false, false⟩
/-- SCH.AUCTEPS (Table 07-14). -/
def SCH.AUCTEPS : Fld := ⟨0xF00030A024, 0, 32, .ro, 0, 0, 0xFFFFFFFF, false, false⟩
/-- SCH.AUCTEVT.EVN (Table 07-14). -/
def SCH.AUCTEVT.EVN : Fld := ⟨0xF00030A028, 0, 8, .rw, 0, 0, 0xFF, false, false⟩
/-- SCH.AUCTEVT.TOK (Table 07-14). -/
def SCH.AUCTEVT.TOK : Fld := ⟨0xF00030A028, 8, 1, .rw, 0, 0, 1, false, false⟩
/-- SCH.AUCTPHASE (Table 07-14). -/
def SCH.AUCTPHASE : Fld := ⟨0xF00030A02C, 0, 32, .ro, 0, 0, 0xFFFFFFFF, false, false⟩
/-- SCH.LOCK[i] (Table 11-9). -/
def SCH.LOCK (i : Nat) : Fld := ⟨0xF000301000 + 0x4 * i, 0, 4, .ro, 0, 0, 0xF, false, true⟩
/-- SCH.LOCKHELD[i] (Table 11-9). -/
def SCH.LOCKHELD (i : Nat) : Fld := ⟨0xF000301200 + 0x4 * i, 0, 32, .ro, 0, 0, 0xFFFFFFFF, false, false⟩
/-- SCH.LOCKERR (Table 11-9). -/
def SCH.LOCKERR : Fld := ⟨0xF000301210, 0, 32, .rc, 0, 0, 0xFFFFFFFF, false, false⟩
/-- SCH.LOCKFREE (Table 11-9). -/
def SCH.LOCKFREE : Fld := ⟨0xF000301214, 0, 7, .wo, 0, 0, 0x7F, false, true⟩
/-- SCH.LOCKHOLD[i] (Table 11-9). -/
def SCH.LOCKHOLD (i : Nat) : Fld := ⟨0xF000301218 + 0x4 * i, 0, 32, .ro, 0, 0, 0xFFFFFFFF, false, false⟩
/-- SCH.DFCTL.EN (Table 13-9). -/
def SCH.DFCTL.EN : Fld := ⟨0xF000300000, 0, 1, .rw, 0, 0, 1, false, true⟩
/-- SCH.DFSTAT.INFLIGHT (Table 13-9). -/
def SCH.DFSTAT.INFLIGHT : Fld := ⟨0xF000300004, 8, 8, .ro, 0, 0, 0xFF, false, false⟩
/-- SCH.DFSTAT.FULL (Table 13-9). -/
def SCH.DFSTAT.FULL : Fld := ⟨0xF000300004, 2, 1, .ro, 0, 0, 1, false, false⟩
/-- SCH.DFSTAT.PAUSED (Table 13-9). -/
def SCH.DFSTAT.PAUSED : Fld := ⟨0xF000300004, 1, 1, .ro, 0, 0, 1, false, false⟩
/-- SCH.DFSTAT.RUN (Table 13-9). -/
def SCH.DFSTAT.RUN : Fld := ⟨0xF000300004, 0, 1, .ro, 0, 0, 1, false, false⟩
/-- SCH.GTBASE (Table 13-9). -/
def SCH.GTBASE : Fld := ⟨0xF000300008, 0, 40, .rw, 0, 0, 0xFFFFFFFFFF, true, false⟩
/-- SCH.GTCNT (Table 13-9). -/
def SCH.GTCNT : Fld := ⟨0xF000300010, 0, 13, .rw, 0, 0, 0x1000, false, false⟩
/-- SCH.DFCTXBASE (Table 13-9). -/
def SCH.DFCTXBASE : Fld := ⟨0xF000300018, 0, 64, .rw, 0, 0, 0xFFFFFFFFFFFFFFFF, true, false⟩
/-- SCH.NAPDLY (Table 13-9). -/
def SCH.NAPDLY : Fld := ⟨0xF000300020, 0, 32, .rw, 0xA, 1, 0x3E8, false, false⟩
/-- SCH.READYCNT (Table 13-9). -/
def SCH.READYCNT : Fld := ⟨0xF000300024, 0, 32, .ro, 0, 0, 0xFFFFFFFF, false, false⟩
/-- SCH.READYMAX (Table 13-9). -/
def SCH.READYMAX : Fld := ⟨0xF000300028, 0, 32, .rc, 0, 0, 0xFFFFFFFF, false, false⟩
/-- SCH.INFMAX (Table 13-9). -/
def SCH.INFMAX : Fld := ⟨0xF00030002C, 0, 32, .rc, 0, 0, 0xFFFFFFFF, false, false⟩
/-- SCH.LVLCNT[i] (Table 13-9). -/
def SCH.LVLCNT (i : Nat) : Fld := ⟨0xF000300030 + 0x4 * i, 0, 32, .ro, 0, 0, 0xFFFFFFFF, false, false⟩
/-- SCH.CORESTAT[i].CENTRY (Table 13-9). -/
def SCH.CORESTAT.CENTRY (i : Nat) : Fld := ⟨0xF000300070 + 0x4 * i, 16, 6, .ro, 0, 0, 0x3F, false, false⟩
/-- SCH.CORESTAT[i].FATAL (Table 13-9). -/
def SCH.CORESTAT.FATAL (i : Nat) : Fld := ⟨0xF000300070 + 0x4 * i, 9, 1, .ro, 0, 0, 1, false, false⟩
/-- SCH.CORESTAT[i].PLFENCE (Table 13-9). -/
def SCH.CORESTAT.PLFENCE (i : Nat) : Fld := ⟨0xF000300070 + 0x4 * i, 8, 1, .ro, 0, 0, 1, false, false⟩
/-- SCH.CORESTAT[i].STFENCE (Table 13-9). -/
def SCH.CORESTAT.STFENCE (i : Nat) : Fld := ⟨0xF000300070 + 0x4 * i, 7, 1, .ro, 0, 0, 1, false, false⟩
/-- SCH.CORESTAT[i].FWFENCE (Table 13-9). -/
def SCH.CORESTAT.FWFENCE (i : Nat) : Fld := ⟨0xF000300070 + 0x4 * i, 6, 1, .ro, 0, 0, 1, false, false⟩
/-- SCH.CORESTAT[i].NAP (Table 13-9). -/
def SCH.CORESTAT.NAP (i : Nat) : Fld := ⟨0xF000300070 + 0x4 * i, 5, 1, .ro, 0, 0, 1, false, false⟩
/-- SCH.CORESTAT[i].BUSY (Table 13-9). -/
def SCH.CORESTAT.BUSY (i : Nat) : Fld := ⟨0xF000300070 + 0x4 * i, 4, 1, .ro, 0, 0, 1, false, false⟩
/-- SCH.CORESTAT[i].PRI (Table 13-9). -/
def SCH.CORESTAT.PRI (i : Nat) : Fld := ⟨0xF000300070 + 0x4 * i, 0, 4, .ro, 0, 0, 0xF, false, false⟩
/-- SCH.CFENCE (Table 13-9). -/
def SCH.CFENCE : Fld := ⟨0xF000300090, 0, 8, .rw, 0, 0, 0xFF, false, true⟩
/-- SCH.DISPCNT (Table 13-9). -/
def SCH.DISPCNT : Fld := ⟨0xF000300094, 0, 32, .rc, 0, 0, 0xFFFFFFFF, false, false⟩
/-- SCH.PREEMPT (Table 13-9). -/
def SCH.PREEMPT : Fld := ⟨0xF000300098, 0, 32, .rc, 0, 0, 0xFFFFFFFF, false, false⟩
/-- SCH.YIELDCNT (Table 13-9). -/
def SCH.YIELDCNT : Fld := ⟨0xF00030009C, 0, 32, .rc, 0, 0, 0xFFFFFFFF, false, false⟩
/-- SCH.DONECNT (Table 13-9). -/
def SCH.DONECNT : Fld := ⟨0xF0003000A0, 0, 32, .rc, 0, 0, 0xFFFFFFFF, false, false⟩
/-- SCH.CANCNT (Table 13-9). -/
def SCH.CANCNT : Fld := ⟨0xF0003000A4, 0, 32, .rc, 0, 0, 0xFFFFFFFF, false, false⟩
/-- SCH.LOSTCNT (Table 13-9). -/
def SCH.LOSTCNT : Fld := ⟨0xF0003000A8, 0, 32, .rc, 0, 0, 0xFFFFFFFF, false, false⟩
/-- SCH.BUSYCNT (Table 13-9). -/
def SCH.BUSYCNT : Fld := ⟨0xF0003000AC, 0, 32, .rc, 0, 0, 0xFFFFFFFF, false, false⟩
/-- SCH.PAUSECNT (Table 13-9). -/
def SCH.PAUSECNT : Fld := ⟨0xF0003000B0, 0, 32, .rc, 0, 0, 0xFFFFFFFF, false, false⟩
/-- SCH.FULLTIME (Table 13-9). -/
def SCH.FULLTIME : Fld := ⟨0xF0003000B4, 0, 32, .rc, 0, 0, 0xFFFFFFFF, false, false⟩
/-- SCH.EVDROP (Table 13-9). -/
def SCH.EVDROP : Fld := ⟨0xF0003000B8, 0, 32, .rc, 0, 0, 0xFFFFFFFF, false, false⟩
/-- SCH.EVOVFCNT (Table 13-9). -/
def SCH.EVOVFCNT : Fld := ⟨0xF0003000BC, 0, 32, .rc, 0, 0, 0xFFFFFFFF, false, false⟩
/-- SCH.EDGEFAIL (Table 13-9). -/
def SCH.EDGEFAIL : Fld := ⟨0xF0003000C0, 0, 32, .rc, 0, 0, 0xFFFFFFFF, false, false⟩
/-- SCH.SINKDROP (Table 13-9). -/
def SCH.SINKDROP : Fld := ⟨0xF0003000C4, 0, 32, .rc, 0, 0, 0xFFFFFFFF, false, false⟩
/-- SCH.DESCERR (Table 13-9). -/
def SCH.DESCERR : Fld := ⟨0xF0003000C8, 0, 32, .rc, 0, 0, 0xFFFFFFFF, false, false⟩
/-- SCH.LAT15MAX (Table 13-9). -/
def SCH.LAT15MAX : Fld := ⟨0xF0003000CC, 0, 32, .rc, 0, 0, 0xFFFFFFFF, false, false⟩
/-- SCH.STSKIP (Table 13-9). -/
def SCH.STSKIP : Fld := ⟨0xF0003000D0, 0, 32, .rc, 0, 0, 0xFFFFFFFF, false, false⟩
/-- SCH.NAPHOLD (Table 13-9). -/
def SCH.NAPHOLD : Fld := ⟨0xF0003000D4, 0, 8, .rw, 0, 0, 0xFF, false, false⟩
/-- SCH.EVH[i] (Table 13-9). -/
def SCH.EVH (i : Nat) : Fld := ⟨0xF000302000 + 0x8 * i, 0, 32, .rw, 0, 0, 0xFFFFFFFF, false, false⟩
/-- SCH.EVCFG[i].OVF (Table 13-9). -/
def SCH.EVCFG.OVF (i : Nat) : Fld := ⟨0xF000302004 + 0x8 * i, 10, 1, .w1c, 0, 0, 1, false, true⟩
/-- SCH.EVCFG[i].FAST (Table 13-9). -/
def SCH.EVCFG.FAST (i : Nat) : Fld := ⟨0xF000302004 + 0x8 * i, 9, 1, .ro, 0, 0, 1, false, true⟩
/-- SCH.EVCFG[i].EN (Table 13-9). -/
def SCH.EVCFG.EN (i : Nat) : Fld := ⟨0xF000302004 + 0x8 * i, 8, 1, .rw, 0, 0, 1, false, true⟩
/-- SCH.EVCFG[i].SLOT (Table 13-9). -/
def SCH.EVCFG.SLOT (i : Nat) : Fld := ⟨0xF000302004 + 0x8 * i, 0, 4, .rw, 0, 0, 0xF, false, true⟩

/-- MEM.MEMCTL.POOLEN (Table 14-7). -/
def MEM.MEMCTL.POOLEN : Fld := ⟨0xF000400000, 0, 1, .rw, 0, 0, 1, false, true⟩
/-- MEM.MEMCTL.SCRUBEN (Table 14-7). -/
def MEM.MEMCTL.SCRUBEN : Fld := ⟨0xF000400000, 1, 1, .rw, 1, 0, 1, false, false⟩
/-- MEM.MEMCTL.RETEN (Table 14-7). -/
def MEM.MEMCTL.RETEN : Fld := ⟨0xF000400000, 2, 1, .rw, 1, 0, 1, false, false⟩
/-- MEM.MEMSTAT.POOLRUN (Table 14-7). -/
def MEM.MEMSTAT.POOLRUN : Fld := ⟨0xF000400004, 0, 1, .ro, 0, 0, 1, false, false⟩
/-- MEM.MEMSTAT.SWEEP (Table 14-7). -/
def MEM.MEMSTAT.SWEEP : Fld := ⟨0xF000400004, 1, 1, .ro, 0, 0, 1, false, false⟩
/-- MEM.MEMSTAT.POOLEMPTY (Table 14-7). -/
def MEM.MEMSTAT.POOLEMPTY : Fld := ⟨0xF000400004, 2, 1, .ro, 0, 0, 1, false, false⟩
/-- MEM.MEMSTAT.RETFULL (Table 14-7). -/
def MEM.MEMSTAT.RETFULL : Fld := ⟨0xF000400004, 3, 1, .ro, 0, 0, 1, false, false⟩
/-- MEM.FTBASE (Table 14-7). -/
def MEM.FTBASE : Fld := ⟨0xF000400008, 0, 40, .rw, 0, 0, 0xFFFFFFFFFF, true, false⟩
/-- MEM.POOLFREE (Table 14-7). -/
def MEM.POOLFREE : Fld := ⟨0xF000400010, 0, 32, .ro, 0, 0, 0xFFFFFFFF, false, false⟩
/-- MEM.POOLTAKE (Table 14-7). -/
def MEM.POOLTAKE : Fld := ⟨0xF000400014, 0, 32, .ro, 0, 0, 0xFFFFFFFF, false, true⟩
/-- MEM.POOLGIVE (Table 14-7). -/
def MEM.POOLGIVE : Fld := ⟨0xF000400018, 0, 28, .wo, 0, 0, 0xFFFFFFF, false, true⟩
/-- MEM.POOLERR (Table 14-7). -/
def MEM.POOLERR : Fld := ⟨0xF00040001C, 0, 32, .rc, 0, 0, 0xFFFFFFFF, false, false⟩
/-- MEM.RETTHR (Table 14-7). -/
def MEM.RETTHR : Fld := ⟨0xF000400020, 0, 32, .rw, 8, 1, 0xFF, false, false⟩
/-- MEM.RETIRE (Table 14-7). -/
def MEM.RETIRE : Fld := ⟨0xF000400024, 0, 28, .wo, 0, 0, 0xFFFFFFF, false, true⟩
/-- MEM.RETCNT (Table 14-7). -/
def MEM.RETCNT : Fld := ⟨0xF000400028, 0, 9, .rw, 0, 0, 0, false, true⟩
/-- MEM.CECNT (Table 14-7). -/
def MEM.CECNT : Fld := ⟨0xF00040002C, 0, 32, .rc, 0, 0, 0xFFFFFFFF, false, false⟩
/-- MEM.UECNT (Table 14-7). -/
def MEM.UECNT : Fld := ⟨0xF000400030, 0, 32, .rc, 0, 0, 0xFFFFFFFF, false, false⟩
/-- MEM.TOUCHCNT (Table 14-7). -/
def MEM.TOUCHCNT : Fld := ⟨0xF000400034, 0, 32, .rc, 0, 0, 0xFFFFFFFF, false, false⟩
/-- MEM.NOFRMCNT (Table 14-7). -/
def MEM.NOFRMCNT : Fld := ⟨0xF000400038, 0, 32, .rc, 0, 0, 0xFFFFFFFF, false, false⟩
/-- MEM.HWRETCNT (Table 14-7). -/
def MEM.HWRETCNT : Fld := ⟨0xF00040003C, 0, 32, .rc, 0, 0, 0xFFFFFFFF, false, false⟩
/-- MEM.TLBINV (Table 14-7). -/
def MEM.TLBINV : Fld := ⟨0xF000400040, 0, 64, .wo, 0, 0, 0xFFFFFFFFFFFFFFFF, true, true⟩
/-- MEM.TLBSTAT.BUSY (Table 14-7). -/
def MEM.TLBSTAT.BUSY : Fld := ⟨0xF000400048, 0, 1, .ro, 0, 0, 1, false, false⟩
/-- MEM.TLBSTAT.OVF (Table 14-7). -/
def MEM.TLBSTAT.OVF : Fld := ⟨0xF000400048, 1, 1, .w1c, 0, 0, 1, false, false⟩
/-- MEM.TLBSTAT.PENDN (Table 14-7). -/
def MEM.TLBSTAT.PENDN : Fld := ⟨0xF000400048, 2, 4, .ro, 0, 0, 0xF, false, false⟩
/-- MEM.SCRUBPER (Table 14-7). -/
def MEM.SCRUBPER : Fld := ⟨0xF000400050, 0, 32, .rw, 0x18, 1, 0x18, false, false⟩
/-- MEM.SCRUBPOS (Table 14-7). -/
def MEM.SCRUBPOS : Fld := ⟨0xF000400054, 0, 32, .ro, 0, 0, 0xFFFFFFFF, false, false⟩
/-- MEM.SCRUBPASS (Table 14-7). -/
def MEM.SCRUBPASS : Fld := ⟨0xF000400058, 0, 32, .rc, 0, 0, 0xFFFFFFFF, false, false⟩
/-- MEM.ECCLAST (Table 14-7). -/
def MEM.ECCLAST : Fld := ⟨0xF000400060, 0, 64, .ro, 0, 0, 0xFFFFFFFFFFFFFFFF, true, false⟩
/-- MEM.EMMCSTAT.READY (Table 14-7). -/
def MEM.EMMCSTAT.READY : Fld := ⟨0xF000400100, 0, 1, .ro, 0, 0, 1, false, false⟩
/-- MEM.EMMCSTAT.BUSY (Table 14-7). -/
def MEM.EMMCSTAT.BUSY : Fld := ⟨0xF000400100, 1, 1, .ro, 0, 0, 1, false, false⟩
/-- MEM.EMMCSTAT.CHAN (Table 14-7). -/
def MEM.EMMCSTAT.CHAN : Fld := ⟨0xF000400100, 4, 4, .ro, 0, 0, 0xF, false, false⟩
/-- MEM.EMMCSECT (Table 14-7). -/
def MEM.EMMCSECT : Fld := ⟨0xF000400104, 0, 32, .ro, 0x2000000, 0, 0xFFFFFFFF, false, false⟩
/-- MEM.EMMCERR (Table 14-7). -/
def MEM.EMMCERR : Fld := ⟨0xF000400108, 0, 32, .rc, 0, 0, 0xFFFFFFFF, false, false⟩
/-- MEM.CHCTL[i].EN (Table 14-8). -/
def MEM.CHCTL.EN (i : Nat) : Fld := ⟨0xF000401000 + 0x40 * i, 0, 1, .rw, 0, 0, 1, false, true⟩
/-- MEM.CHCTL[i].LEVEL (Table 14-8). -/
def MEM.CHCTL.LEVEL (i : Nat) : Fld := ⟨0xF000401000 + 0x40 * i, 1, 2, .rw, 0, 0, 2, false, true⟩
/-- MEM.CHCMD[i] (Table 14-8). -/
def MEM.CHCMD (i : Nat) : Fld := ⟨0xF000401004 + 0x40 * i, 0, 2, .wo, 0, 0, 3, false, true⟩
/-- MEM.CHSTAT[i].STATE (Table 14-8). -/
def MEM.CHSTAT.STATE (i : Nat) : Fld := ⟨0xF000401008 + 0x40 * i, 0, 3, .ro, 0, 0, 7, false, false⟩
/-- MEM.CHSTAT[i].REASON (Table 14-8). -/
def MEM.CHSTAT.REASON (i : Nat) : Fld := ⟨0xF000401008 + 0x40 * i, 8, 4, .ro, 0, 0, 0xF, false, false⟩
/-- MEM.CHASID[i] (Table 14-8). -/
def MEM.CHASID (i : Nat) : Fld := ⟨0xF00040100C + 0x40 * i, 0, 16, .rw, 0, 0, 0xFFFF, false, false⟩
/-- MEM.CHROOT[i] (Table 14-8). -/
def MEM.CHROOT (i : Nat) : Fld := ⟨0xF000401010 + 0x40 * i, 0, 64, .rw, 0, 0, 0xFFFFFFFFFFFFFFFF, true, false⟩
/-- MEM.CHDESC[i] (Table 14-8). -/
def MEM.CHDESC (i : Nat) : Fld := ⟨0xF000401018 + 0x40 * i, 0, 48, .rw, 0, 0, 0xFFFFFFFFFFFF, true, false⟩
/-- MEM.CHCUR[i] (Table 14-8). -/
def MEM.CHCUR (i : Nat) : Fld := ⟨0xF000401020 + 0x40 * i, 0, 64, .ro, 0, 0, 0xFFFFFFFFFFFFFFFF, true, false⟩
/-- MEM.CHDONE[i] (Table 14-8). -/
def MEM.CHDONE (i : Nat) : Fld := ⟨0xF000401028 + 0x40 * i, 0, 32, .ro, 0, 0, 0xFFFFFFFF, false, false⟩
/-- MEM.CHBYTES[i] (Table 14-8). -/
def MEM.CHBYTES (i : Nat) : Fld := ⟨0xF00040102C + 0x40 * i, 0, 32, .rc, 0, 0, 0xFFFFFFFF, false, false⟩
/-- MEM.CHFLT[i] (Table 14-8). -/
def MEM.CHFLT (i : Nat) : Fld := ⟨0xF000401030 + 0x40 * i, 0, 32, .rc, 0, 0, 0xFFFFFFFF, false, false⟩
/-- MEM.CAPCTL.START (Table 15-13). -/
def MEM.CAPCTL.START : Fld := ⟨0xF000400200, 0, 1, .wo, 0, 0, 1, false, true⟩
/-- MEM.CAPSTAT.BUSY (Table 15-13). -/
def MEM.CAPSTAT.BUSY : Fld := ⟨0xF000400204, 0, 1, .ro, 0, 0, 1, false, false⟩
/-- MEM.CAPSTAT.ISL (Table 15-13). -/
def MEM.CAPSTAT.ISL : Fld := ⟨0xF000400204, 1, 4, .ro, 0, 0, 0xF, false, false⟩
/-- MEM.CAPLEN (Table 15-13). -/
def MEM.CAPLEN : Fld := ⟨0xF000400208, 0, 32, .ro, 0, 0, 0xFFFFFFFF, false, false⟩

/-- CTL.AXFLT (Table 09-8). -/
def CTL.AXFLT : Fld := ⟨0xF000500F00, 0, 64, .ro, 0, 0, 0xFFFFFFFFFFFFFFFF, true, false⟩
/-- CTL.AXMOV (Table 09-8). -/
def CTL.AXMOV : Fld := ⟨0xF000500F08, 0, 64, .ro, 0, 0, 0xFFFFFFFFFFFFFFFF, true, false⟩
/-- CTL.ZGMIR (Table 09-8). -/
def CTL.ZGMIR : Fld := ⟨0xF000500F10, 0, 64, .ro, 0, 0, 0xFFFFFFFFFFFFFFFF, true, false⟩
/-- CTL.AXEVT.EVN (Table 09-8). -/
def CTL.AXEVT.EVN : Fld := ⟨0xF000500F18, 0, 8, .rw, 0, 0, 0xFF, false, false⟩
/-- CTL.AXEVT.TOK (Table 09-8). -/
def CTL.AXEVT.TOK : Fld := ⟨0xF000500F18, 8, 1, .rw, 0, 0, 1, false, false⟩
/-- CTL.HOLDALL (Table 09-8). -/
def CTL.HOLDALL : Fld := ⟨0xF000500F1C, 0, 1, .ro, 0, 0, 1, false, false⟩
/-- CTL.AXCMDREF (Table 09-8). -/
def CTL.AXCMDREF : Fld := ⟨0xF000500F20, 0, 32, .rc, 0, 0, 0xFFFFFFFF, false, false⟩
/-- CTL.AXCFG[i].HLEN (Table 09-9). -/
def CTL.AXCFG.HLEN (i : Nat) : Fld := ⟨0xF000510000 + 0x100 * i, 29, 1, .rw, 1, 0, 1, false, false⟩
/-- CTL.AXCFG[i].SLEN (Table 09-9). -/
def CTL.AXCFG.SLEN (i : Nat) : Fld := ⟨0xF000510000 + 0x100 * i, 28, 1, .rw, 0, 0, 1, false, false⟩
/-- CTL.AXCFG[i].CMSEL (Table 09-9). -/
def CTL.AXCFG.CMSEL (i : Nat) : Fld := ⟨0xF000510000 + 0x100 * i, 26, 2, .rw, 0, 0, 2, false, false⟩
/-- CTL.AXCFG[i].PHOFF (Table 09-9). -/
def CTL.AXCFG.PHOFF (i : Nat) : Fld := ⟨0xF000510000 + 0x100 * i, 16, 10, .rw, 0, 0, 0x3FF, false, false⟩
/-- CTL.AXCFG[i].ZONE (Table 09-9). -/
def CTL.AXCFG.ZONE (i : Nat) : Fld := ⟨0xF000510000 + 0x100 * i, 8, 6, .rw, 0, 0, 0x3F, false, false⟩
/-- CTL.AXCFG[i].BOUND (Table 09-9). -/
def CTL.AXCFG.BOUND (i : Nat) : Fld := ⟨0xF000510000 + 0x100 * i, 6, 1, .rw, 0, 0, 1, false, false⟩
/-- CTL.AXCFG[i].MEMBER (Table 09-9). -/
def CTL.AXCFG.MEMBER (i : Nat) : Fld := ⟨0xF000510000 + 0x100 * i, 0, 6, .rw, 0, 1, 0x3F, false, false⟩
/-- CTL.AXCMD[i] (Table 09-9). -/
def CTL.AXCMD (i : Nat) : Fld := ⟨0xF000510004 + 0x100 * i, 0, 4, .wo, 0, 0, 0xF, false, true⟩
/-- CTL.AXSTAT[i].HABORT (Table 09-9). -/
def CTL.AXSTAT.HABORT (i : Nat) : Fld := ⟨0xF000510008 + 0x100 * i, 19, 1, .w1c, 0, 0, 1, false, false⟩
/-- CTL.AXSTAT[i].HOMED (Table 09-9). -/
def CTL.AXSTAT.HOMED (i : Nat) : Fld := ⟨0xF000510008 + 0x100 * i, 18, 1, .w1c, 0, 0, 1, false, false⟩
/-- CTL.AXSTAT[i].ZSTOP (Table 09-9). -/
def CTL.AXSTAT.ZSTOP (i : Nat) : Fld := ⟨0xF000510008 + 0x100 * i, 17, 1, .ro, 0, 0, 1, false, false⟩
/-- CTL.AXSTAT[i].KEEPBAD (Table 09-9). -/
def CTL.AXSTAT.KEEPBAD (i : Nat) : Fld := ⟨0xF000510008 + 0x100 * i, 16, 1, .w1c, 0, 0, 1, false, false⟩
/-- CTL.AXSTAT[i].CMDERR (Table 09-9). -/
def CTL.AXSTAT.CMDERR (i : Nat) : Fld := ⟨0xF000510008 + 0x100 * i, 12, 4, .ro, 0, 0, 0xF, false, false⟩
/-- CTL.AXSTAT[i].KEPT (Table 09-9). -/
def CTL.AXSTAT.KEPT (i : Nat) : Fld := ⟨0xF000510008 + 0x100 * i, 11, 1, .ro, 0, 0, 1, false, false⟩
/-- CTL.AXSTAT[i].TGTCLAMP (Table 09-9). -/
def CTL.AXSTAT.TGTCLAMP (i : Nat) : Fld := ⟨0xF000510008 + 0x100 * i, 10, 1, .w1c, 0, 0, 1, false, false⟩
/-- CTL.AXSTAT[i].DRVOFF (Table 09-9). -/
def CTL.AXSTAT.DRVOFF (i : Nat) : Fld := ⟨0xF000510008 + 0x100 * i, 9, 1, .ro, 0, 0, 1, false, false⟩
/-- CTL.AXSTAT[i].BLIND (Table 09-9). -/
def CTL.AXSTAT.BLIND (i : Nat) : Fld := ⟨0xF000510008 + 0x100 * i, 8, 1, .ro, 1, 0, 1, false, false⟩
/-- CTL.AXSTAT[i].LIMSTOP (Table 09-9). -/
def CTL.AXSTAT.LIMSTOP (i : Nat) : Fld := ⟨0xF000510008 + 0x100 * i, 7, 1, .w1c, 0, 0, 1, false, false⟩
/-- CTL.AXSTAT[i].CMODE (Table 09-9). -/
def CTL.AXSTAT.CMODE (i : Nat) : Fld := ⟨0xF000510008 + 0x100 * i, 6, 1, .ro, 0, 0, 1, false, false⟩
/-- CTL.AXSTAT[i].STANDSTILL (Table 09-9). -/
def CTL.AXSTAT.STANDSTILL (i : Nat) : Fld := ⟨0xF000510008 + 0x100 * i, 5, 1, .ro, 0, 0, 1, false, false⟩
/-- CTL.AXSTAT[i].PVALID (Table 09-9). -/
def CTL.AXSTAT.PVALID (i : Nat) : Fld := ⟨0xF000510008 + 0x100 * i, 4, 1, .ro, 0, 0, 1, false, false⟩
/-- CTL.AXSTAT[i].STATE (Table 09-9). -/
def CTL.AXSTAT.STATE (i : Nat) : Fld := ⟨0xF000510008 + 0x100 * i, 0, 4, .ro, 0, 0, 0xF, false, false⟩
/-- CTL.AXFAULT[i].MORE (Table 09-9). -/
def CTL.AXFAULT.MORE (i : Nat) : Fld := ⟨0xF00051000C + 0x100 * i, 16, 1, .ro, 0, 0, 1, false, false⟩
/-- CTL.AXFAULT[i].NFCODE (Table 09-9). -/
def CTL.AXFAULT.NFCODE (i : Nat) : Fld := ⟨0xF00051000C + 0x100 * i, 8, 8, .ro, 0, 0, 0xFF, false, false⟩
/-- CTL.AXFAULT[i].CODE (Table 09-9). -/
def CTL.AXFAULT.CODE (i : Nat) : Fld := ⟨0xF00051000C + 0x100 * i, 0, 8, .ro, 0, 0, 0xFF, false, false⟩
/-- CTL.CPOS[i] (Table 09-9). -/
def CTL.CPOS (i : Nat) : Fld := ⟨0xF000510010 + 0x100 * i, 0, 64, .ro, 0, 0, 0xFFFFFFFFFFFFFFFF, true, false⟩
/-- CTL.CVEL[i] (Table 09-9). -/
def CTL.CVEL (i : Nat) : Fld := ⟨0xF000510018 + 0x100 * i, 0, 64, .ro, 0, 0, 0xFFFFFFFFFFFFFFFF, true, false⟩
/-- CTL.CACC[i] (Table 09-9). -/
def CTL.CACC (i : Nat) : Fld := ⟨0xF000510020 + 0x100 * i, 0, 32, .ro, 0, 0, 0xFFFFFFFF, false, false⟩
/-- CTL.TGT[i] (Table 09-9). -/
def CTL.TGT (i : Nat) : Fld := ⟨0xF000510024 + 0x100 * i, 0, 64, .rw, 0, 0, 0xFFFFFFFFFFFFFFFF, true, false⟩
/-- CTL.FOLLERR[i] (Table 09-9). -/
def CTL.FOLLERR (i : Nat) : Fld := ⟨0xF00051002C + 0x100 * i, 0, 32, .rw, 0, 0, 0xFFFFFFFF, false, false⟩
/-- CTL.VMAX[i] (Table 09-9). -/
def CTL.VMAX (i : Nat) : Fld := ⟨0xF000510030 + 0x100 * i, 0, 32, .rw, 0, 0, 0xFFFFFFFF, false, false⟩
/-- CTL.AMAX[i] (Table 09-9). -/
def CTL.AMAX (i : Nat) : Fld := ⟨0xF000510034 + 0x100 * i, 0, 32, .rw, 0, 0, 0xFFFFFFFF, false, false⟩
/-- CTL.DMAX[i] (Table 09-9). -/
def CTL.DMAX (i : Nat) : Fld := ⟨0xF000510038 + 0x100 * i, 0, 32, .rw, 0, 0, 0xFFFFFFFF, false, false⟩
/-- CTL.JMAX[i] (Table 09-9). -/
def CTL.JMAX (i : Nat) : Fld := ⟨0xF00051003C + 0x100 * i, 0, 32, .rw, 0, 0, 0xFFFFFFFF, false, false⟩
/-- CTL.QSDEC[i] (Table 09-9). -/
def CTL.QSDEC (i : Nat) : Fld := ⟨0xF000510040 + 0x100 * i, 0, 32, .rw, 0, 0, 0xFFFFFFFF, false, false⟩
/-- CTL.QSJERK[i] (Table 09-9). -/
def CTL.QSJERK (i : Nat) : Fld := ⟨0xF000510044 + 0x100 * i, 0, 32, .rw, 0, 0, 0xFFFFFFFF, false, false⟩
/-- CTL.DMAXL[i] (Table 09-9). -/
def CTL.DMAXL (i : Nat) : Fld := ⟨0xF000510048 + 0x100 * i, 0, 32, .rw, 0, 0, 0xFFFFFFFF, false, false⟩
/-- CTL.JMAXL[i] (Table 09-9). -/
def CTL.JMAXL (i : Nat) : Fld := ⟨0xF00051004C + 0x100 * i, 0, 32, .rw, 0, 0, 0xFFFFFFFF, false, false⟩
/-- CTL.SLMIN[i] (Table 09-9). -/
def CTL.SLMIN (i : Nat) : Fld := ⟨0xF000510050 + 0x100 * i, 0, 64, .rw, 0, 0, 0xFFFFFFFFFFFFFFFF, true, false⟩
/-- CTL.SLMAX[i] (Table 09-9). -/
def CTL.SLMAX (i : Nat) : Fld := ⟨0xF000510058 + 0x100 * i, 0, 64, .rw, 0, 0, 0xFFFFFFFFFFFFFFFF, true, false⟩
/-- CTL.VQ[i] (Table 09-9). -/
def CTL.VQ (i : Nat) : Fld := ⟨0xF000510060 + 0x100 * i, 0, 32, .rw, 0x7D00, 0, 0xFFFFFFFF, false, false⟩
/-- CTL.CURCFG[i].IRUN (Table 09-9). -/
def CTL.CURCFG.IRUN (i : Nat) : Fld := ⟨0xF000510064 + 0x100 * i, 0, 8, .rw, 0x50, 0, 0xFF, false, false⟩
/-- CTL.CURCFG[i].IHOLD (Table 09-9). -/
def CTL.CURCFG.IHOLD (i : Nat) : Fld := ⟨0xF000510064 + 0x100 * i, 8, 8, .rw, 0x1E, 0, 0xFF, false, false⟩
/-- CTL.CURCFG[i].ILIM (Table 09-9). -/
def CTL.CURCFG.ILIM (i : Nat) : Fld := ⟨0xF000510064 + 0x100 * i, 16, 16, .rw, 0x3E8, 0, 0xFFFF, false, false⟩
/-- CTL.IDLECFG[i].IDLEDLY (Table 09-9). -/
def CTL.IDLECFG.IDLEDLY (i : Nat) : Fld := ⟨0xF000510068 + 0x100 * i, 0, 16, .rw, 0x1F4, 0, 0xFFFF, false, false⟩
/-- CTL.IDLECFG[i].AMPH (Table 09-9). -/
def CTL.IDLECFG.AMPH (i : Nat) : Fld := ⟨0xF000510068 + 0x100 * i, 16, 8, .rw, 0x50, 0, 0xFF, false, false⟩
/-- CTL.IDLECFG[i].PDEN (Table 09-9). -/
def CTL.IDLECFG.PDEN (i : Nat) : Fld := ⟨0xF000510068 + 0x100 * i, 24, 1, .rw, 0, 0, 1, false, false⟩
/-- CTL.STALLCFG[i].STALLANG (Table 09-9). -/
def CTL.STALLCFG.STALLANG (i : Nat) : Fld := ⟨0xF00051006C + 0x100 * i, 0, 8, .rw, 0x46, 0x1E, 0x96, false, false⟩
/-- CTL.STALLCFG[i].STALLN (Table 09-9). -/
def CTL.STALLCFG.STALLN (i : Nat) : Fld := ⟨0xF00051006C + 0x100 * i, 8, 4, .rw, 4, 1, 0xF, false, false⟩
/-- CTL.STALLCFG[i].EN (Table 09-9). -/
def CTL.STALLCFG.EN (i : Nat) : Fld := ⟨0xF00051006C + 0x100 * i, 12, 1, .rw, 0, 0, 1, false, false⟩
/-- CTL.VEMF[i] (Table 09-9). -/
def CTL.VEMF (i : Nat) : Fld := ⟨0xF000510070 + 0x100 * i, 0, 32, .rw, 0x6400, 0, 0xFFFFFFFF, false, false⟩
/-- CTL.MOTRL[i].RES (Table 09-9). -/
def CTL.MOTRL.RES (i : Nat) : Fld := ⟨0xF000510074 + 0x100 * i, 0, 16, .rw, 0, 0, 0xFFFF, false, false⟩
/-- CTL.MOTRL[i].IND (Table 09-9). -/
def CTL.MOTRL.IND (i : Nat) : Fld := ⟨0xF000510074 + 0x100 * i, 16, 16, .rw, 0, 0, 0xFFFF, false, false⟩
/-- CTL.LOADANG[i].ANGLE (Table 09-9). -/
def CTL.LOADANG.ANGLE (i : Nat) : Fld := ⟨0xF000510078 + 0x100 * i, 0, 16, .ro, 0, 0, 0xFFFF, false, false⟩
/-- CTL.LOADANG[i].BLIND (Table 09-9). -/
def CTL.LOADANG.BLIND (i : Nat) : Fld := ⟨0xF000510078 + 0x100 * i, 16, 1, .ro, 1, 0, 1, false, false⟩
/-- CTL.HOMECFG[i].CHATWIN (Table 09-9). -/
def CTL.HOMECFG.CHATWIN (i : Nat) : Fld := ⟨0xF00051007C + 0x100 * i, 16, 8, .rw, 0xA, 1, 0xFF, false, false⟩
/-- CTL.HOMECFG[i].DEBOUNCE (Table 09-9). -/
def CTL.HOMECFG.DEBOUNCE (i : Nat) : Fld := ⟨0xF00051007C + 0x100 * i, 8, 5, .rw, 0, 0, 0x14, false, false⟩
/-- CTL.HOMECFG[i].CHATN (Table 09-9). -/
def CTL.HOMECFG.CHATN (i : Nat) : Fld := ⟨0xF00051007C + 0x100 * i, 4, 4, .rw, 3, 1, 0xF, false, false⟩
/-- CTL.HOMECFG[i].HDIR (Table 09-9). -/
def CTL.HOMECFG.HDIR (i : Nat) : Fld := ⟨0xF00051007C + 0x100 * i, 2, 1, .rw, 0, 0, 1, false, false⟩
/-- CTL.HOMECFG[i].MODE (Table 09-9). -/
def CTL.HOMECFG.MODE (i : Nat) : Fld := ⟨0xF00051007C + 0x100 * i, 0, 2, .rw, 0, 0, 3, false, false⟩
/-- CTL.HVFAST[i] (Table 09-9). -/
def CTL.HVFAST (i : Nat) : Fld := ⟨0xF000510080 + 0x100 * i, 0, 32, .rw, 0, 0, 0xFFFFFFFF, false, false⟩
/-- CTL.HVSLOW[i] (Table 09-9). -/
def CTL.HVSLOW (i : Nat) : Fld := ⟨0xF000510084 + 0x100 * i, 0, 32, .rw, 0, 0, 0xFFFFFFFF, false, false⟩
/-- CTL.HOMEPOS[i] (Table 09-9). -/
def CTL.HOMEPOS (i : Nat) : Fld := ⟨0xF000510088 + 0x100 * i, 0, 64, .rw, 0, 0, 0xFFFFFFFFFFFFFFFF, true, false⟩
/-- CTL.HBACKOFF[i] (Table 09-9). -/
def CTL.HBACKOFF (i : Nat) : Fld := ⟨0xF000510090 + 0x100 * i, 0, 32, .rw, 0, 0, 0xFFFFFFFF, false, false⟩
/-- CTL.HTRQ[i].LEVEL (Table 09-9). -/
def CTL.HTRQ.LEVEL (i : Nat) : Fld := ⟨0xF000510094 + 0x100 * i, 0, 16, .rw, 0, 0, 0xFFFF, false, false⟩
/-- CTL.HTRQ[i].N (Table 09-9). -/
def CTL.HTRQ.N (i : Nat) : Fld := ⟨0xF000510094 + 0x100 * i, 16, 4, .rw, 4, 1, 0xF, false, false⟩
/-- CTL.CAPPOS[i] (Table 09-9). -/
def CTL.CAPPOS (i : Nat) : Fld := ⟨0xF000510098 + 0x100 * i, 0, 64, .ro, 0, 0, 0xFFFFFFFFFFFFFFFF, true, false⟩
/-- CTL.CTLCTL.EN (Table 10-7). -/
def CTL.CTLCTL.EN : Fld := ⟨0xF000500000, 0, 1, .rw, 0, 0, 1, false, true⟩
/-- CTL.CTLCTL.OVRLIM (Table 10-7). -/
def CTL.CTLCTL.OVRLIM : Fld := ⟨0xF000500000, 1, 3, .rw, 1, 0, 7, false, false⟩
/-- CTL.CTLSTAT.LASTPROG (Table 10-7). -/
def CTL.CTLSTAT.LASTPROG : Fld := ⟨0xF000500004, 20, 4, .ro, 0, 0, 0xF, false, false⟩
/-- CTL.CTLSTAT.FCODE (Table 10-7). -/
def CTL.CTLSTAT.FCODE : Fld := ⟨0xF000500004, 8, 8, .ro, 0, 0, 0xFF, false, false⟩
/-- CTL.CTLSTAT.OVREVT (Table 10-7). -/
def CTL.CTLSTAT.OVREVT : Fld := ⟨0xF000500004, 4, 1, .w1c, 0, 0, 1, false, false⟩
/-- CTL.CTLSTAT.TIGHT (Table 10-7). -/
def CTL.CTLSTAT.TIGHT : Fld := ⟨0xF000500004, 3, 1, .w1c, 0, 0, 1, false, false⟩
/-- CTL.CTLSTAT.BUSY (Table 10-7). -/
def CTL.CTLSTAT.BUSY : Fld := ⟨0xF000500004, 2, 1, .ro, 0, 0, 1, false, false⟩
/-- CTL.CTLSTAT.FAULT (Table 10-7). -/
def CTL.CTLSTAT.FAULT : Fld := ⟨0xF000500004, 1, 1, .ro, 0, 0, 1, false, false⟩
/-- CTL.CTLSTAT.RUN (Table 10-7). -/
def CTL.CTLSTAT.RUN : Fld := ⟨0xF000500004, 0, 1, .ro, 0, 0, 1, false, false⟩
/-- CTL.CTLEVT.EVN (Table 10-7). -/
def CTL.CTLEVT.EVN : Fld := ⟨0xF000500008, 0, 8, .rw, 0, 0, 0xFF, false, false⟩
/-- CTL.CTLEVT.TOK (Table 10-7). -/
def CTL.CTLEVT.TOK : Fld := ⟨0xF000500008, 8, 1, .rw, 0, 0, 1, false, false⟩
/-- CTL.PROGWIN (Table 10-7). -/
def CTL.PROGWIN : Fld := ⟨0xF00050000C, 0, 32, .ro, 0, 0, 0xFFFFFFFF, false, false⟩
/-- CTL.LASTRUN (Table 10-7). -/
def CTL.LASTRUN : Fld := ⟨0xF000500010, 0, 32, .ro, 0, 0, 0xFFFFFFFF, false, false⟩
/-- CTL.RUNMAX (Table 10-7). -/
def CTL.RUNMAX : Fld := ⟨0xF000500014, 0, 32, .rc, 0, 0, 0xFFFFFFFF, false, false⟩
/-- CTL.INSTCNT (Table 10-7). -/
def CTL.INSTCNT : Fld := ⟨0xF000500018, 0, 32, .ro, 0, 0, 0xFFFFFFFF, false, false⟩
/-- CTL.OVERRUN (Table 10-7). -/
def CTL.OVERRUN : Fld := ⟨0xF00050001C, 0, 32, .rc, 0, 0, 0xFFFFFFFF, false, false⟩
/-- CTL.NOPROG (Table 10-7). -/
def CTL.NOPROG : Fld := ⟨0xF000500020, 0, 32, .rc, 0, 0, 0xFFFFFFFF, false, false⟩
/-- CTL.TRGDROP (Table 10-7). -/
def CTL.TRGDROP : Fld := ⟨0xF000500024, 0, 32, .rc, 0, 0, 0xFFFFFFFF, false, false⟩
/-- CTL.TRGLATE (Table 10-7). -/
def CTL.TRGLATE : Fld := ⟨0xF000500028, 0, 32, .rc, 0, 0, 0xFFFFFFFF, false, false⟩
/-- CTL.PROGINV (Table 10-7). -/
def CTL.PROGINV : Fld := ⟨0xF00050002C, 0, 32, .rc, 0, 0, 0xFFFFFFFF, false, false⟩
/-- CTL.ARITHCNT (Table 10-7). -/
def CTL.ARITHCNT : Fld := ⟨0xF000500030, 0, 32, .rc, 0, 0, 0xFFFFFFFF, false, false⟩
/-- CTL.OUTCONF (Table 10-7). -/
def CTL.OUTCONF : Fld := ⟨0xF000500034, 0, 32, .rc, 0, 0, 0xFFFFFFFF, false, false⟩
/-- CTL.PMWERR (Table 10-7). -/
def CTL.PMWERR : Fld := ⟨0xF000500038, 0, 32, .rc, 0, 0, 0xFFFFFFFF, false, false⟩
/-- CTL.ECCCNT (Table 10-7). -/
def CTL.ECCCNT : Fld := ⟨0xF00050003C, 0, 32, .rc, 0, 0, 0xFFFFFFFF, false, false⟩
/-- CTL.PROGTAB[i].START (Table 10-7). -/
def CTL.PROGTAB.START (i : Nat) : Fld := ⟨0xF000500040 + 0x4 * i, 0, 12, .rw, 0, 0, 0xFFF, false, true⟩
/-- CTL.PROGTAB[i].LEN (Table 10-7). -/
def CTL.PROGTAB.LEN (i : Nat) : Fld := ⟨0xF000500040 + 0x4 * i, 12, 10, .rw, 0, 0, 0x3FF, false, true⟩
/-- CTL.PROGTAB[i].VALID (Table 10-7). -/
def CTL.PROGTAB.VALID (i : Nat) : Fld := ⟨0xF000500040 + 0x4 * i, 31, 1, .rw, 0, 0, 1, false, true⟩
/-- CTL.WCET[i] (Table 10-7). -/
def CTL.WCET (i : Nat) : Fld := ⟨0xF000500080 + 0x4 * i, 0, 32, .ro, 0, 0, 0xFFFFFFFF, false, false⟩
/-- CTL.CHKRES.INDEX (Table 10-7). -/
def CTL.CHKRES.INDEX : Fld := ⟨0xF0005000C0, 0, 16, .ro, 0, 0, 0xFFFF, false, false⟩
/-- CTL.CHKRES.REASON (Table 10-7). -/
def CTL.CHKRES.REASON : Fld := ⟨0xF0005000C0, 16, 4, .ro, 0, 0, 0xF, false, false⟩
/-- CTL.OUTOWN (Table 10-7). -/
def CTL.OUTOWN : Fld := ⟨0xF000500100, 0, 64, .rw, 0, 0, 0xFFFFFFFFFFFFFFFF, true, false⟩
/-- CTL.AXLOOP[i].HOCLAMP (Table 10-7). -/
def CTL.AXLOOP.HOCLAMP (i : Nat) : Fld := ⟨0xF000500200 + 0x4 * i, 21, 1, .w1c, 0, 0, 1, false, false⟩
/-- CTL.AXLOOP[i].HOACT (Table 10-7). -/
def CTL.AXLOOP.HOACT (i : Nat) : Fld := ⟨0xF000500200 + 0x4 * i, 20, 1, .ro, 0, 0, 1, false, false⟩
/-- CTL.AXLOOP[i].MODE (Table 10-7). -/
def CTL.AXLOOP.MODE (i : Nat) : Fld := ⟨0xF000500200 + 0x4 * i, 18, 2, .ro, 0, 0, 3, false, false⟩
/-- CTL.AXLOOP[i].MODEREQ (Table 10-7). -/
def CTL.AXLOOP.MODEREQ (i : Nat) : Fld := ⟨0xF000500200 + 0x4 * i, 16, 2, .rw, 0, 0, 2, false, true⟩
/-- CTL.AXLOOP[i].TEN (Table 10-7). -/
def CTL.AXLOOP.TEN (i : Nat) : Fld := ⟨0xF000500200 + 0x4 * i, 14, 1, .rw, 0, 0, 1, false, false⟩
/-- CTL.AXLOOP[i].TB (Table 10-7). -/
def CTL.AXLOOP.TB (i : Nat) : Fld := ⟨0xF000500200 + 0x4 * i, 8, 6, .rw, 0, 0, 0x3F, false, false⟩
/-- CTL.AXLOOP[i].PEN (Table 10-7). -/
def CTL.AXLOOP.PEN (i : Nat) : Fld := ⟨0xF000500200 + 0x4 * i, 6, 1, .rw, 0, 0, 1, false, false⟩
/-- CTL.AXLOOP[i].PB (Table 10-7). -/
def CTL.AXLOOP.PB (i : Nat) : Fld := ⟨0xF000500200 + 0x4 * i, 0, 6, .rw, 0, 0, 0x3F, false, false⟩
/-- CTL.PMEM[i] (Table 10-7). -/
def CTL.PMEM (i : Nat) : Fld := ⟨0xF000540000 + 0x4 * i, 0, 32, .rw, 0, 0, 0xFFFFFFFF, false, true⟩
/-- CTL.DMEM[i] (Table 10-7). -/
def CTL.DMEM (i : Nat) : Fld := ⟨0xF000560000 + 0x4 * i, 0, 32, .rw, 0, 0, 0xFFFFFFFF, false, false⟩
/-- CTL.LBCFG[i].RESET (Table 10-9). -/
def CTL.LBCFG.RESET (i : Nat) : Fld := ⟨0xF000520000 + 0x40 * i, 30, 1, .wo, 0, 0, 1, false, true⟩
/-- CTL.LBCFG[i].TAG (Table 10-9). -/
def CTL.LBCFG.TAG (i : Nat) : Fld := ⟨0xF000520000 + 0x40 * i, 28, 2, .rw, 3, 0, 3, false, false⟩
/-- CTL.LBCFG[i].RATE (Table 10-9). -/
def CTL.LBCFG.RATE (i : Nat) : Fld := ⟨0xF000520000 + 0x40 * i, 24, 4, .rw, 0, 0, 0xF, false, false⟩
/-- CTL.LBCFG[i].FFAX (Table 10-9). -/
def CTL.LBCFG.FFAX (i : Nat) : Fld := ⟨0xF000520000 + 0x40 * i, 18, 6, .rw, 0, 0, 0x2F, false, false⟩
/-- CTL.LBCFG[i].FFMEM (Table 10-9). -/
def CTL.LBCFG.FFMEM (i : Nat) : Fld := ⟨0xF000520000 + 0x40 * i, 12, 6, .rw, 0, 1, 0x3F, false, false⟩
/-- CTL.LBCFG[i].OFILT (Table 10-9). -/
def CTL.LBCFG.OFILT (i : Nat) : Fld := ⟨0xF000520000 + 0x40 * i, 6, 6, .rw, 0, 0, 0x3F, false, false⟩
/-- CTL.LBCFG[i].OFEN (Table 10-9). -/
def CTL.LBCFG.OFEN (i : Nat) : Fld := ⟨0xF000520000 + 0x40 * i, 5, 1, .rw, 0, 0, 1, false, false⟩
/-- CTL.LBCFG[i].FFA (Table 10-9). -/
def CTL.LBCFG.FFA (i : Nat) : Fld := ⟨0xF000520000 + 0x40 * i, 4, 1, .rw, 0, 0, 1, false, false⟩
/-- CTL.LBCFG[i].FFV (Table 10-9). -/
def CTL.LBCFG.FFV (i : Nat) : Fld := ⟨0xF000520000 + 0x40 * i, 3, 1, .rw, 0, 0, 1, false, false⟩
/-- CTL.LBCFG[i].DERR (Table 10-9). -/
def CTL.LBCFG.DERR (i : Nat) : Fld := ⟨0xF000520000 + 0x40 * i, 2, 1, .rw, 0, 0, 1, false, false⟩
/-- CTL.LBCFG[i].AW (Table 10-9). -/
def CTL.LBCFG.AW (i : Nat) : Fld := ⟨0xF000520000 + 0x40 * i, 0, 2, .rw, 1, 0, 2, false, false⟩
/-- CTL.KP[i] (Table 10-9). -/
def CTL.KP (i : Nat) : Fld := ⟨0xF000520004 + 0x40 * i, 0, 32, .rw, 0, 0, 0xFFFFFFFF, false, false⟩
/-- CTL.KI[i] (Table 10-9). -/
def CTL.KI (i : Nat) : Fld := ⟨0xF000520008 + 0x40 * i, 0, 32, .rw, 0, 0, 0xFFFFFFFF, false, false⟩
/-- CTL.KD[i] (Table 10-9). -/
def CTL.KD (i : Nat) : Fld := ⟨0xF00052000C + 0x40 * i, 0, 32, .rw, 0, 0, 0xFFFFFFFF, false, false⟩
/-- CTL.KB[i] (Table 10-9). -/
def CTL.KB (i : Nat) : Fld := ⟨0xF000520010 + 0x40 * i, 0, 32, .rw, 0, 0, 0xFFFFFFFF, false, false⟩
/-- CTL.KAFF[i] (Table 10-9). -/
def CTL.KAFF (i : Nat) : Fld := ⟨0xF000520014 + 0x40 * i, 0, 32, .rw, 0, 0, 0xFFFFFFFF, false, false⟩
/-- CTL.VNOM[i] (Table 10-9). -/
def CTL.VNOM (i : Nat) : Fld := ⟨0xF000520018 + 0x40 * i, 0, 32, .rw, 0, 0, 0xFFFFFFFF, false, false⟩
/-- CTL.OMIN[i] (Table 10-9). -/
def CTL.OMIN (i : Nat) : Fld := ⟨0xF00052001C + 0x40 * i, 0, 32, .rw, 0xFF7FFFFF, 0, 0xFFFFFFFF, false, false⟩
/-- CTL.OMAX[i] (Table 10-9). -/
def CTL.OMAX (i : Nat) : Fld := ⟨0xF000520020 + 0x40 * i, 0, 32, .rw, 0x7F7FFFFF, 0, 0xFFFFFFFF, false, false⟩
/-- CTL.DF[i] (Table 10-9). -/
def CTL.DF (i : Nat) : Fld := ⟨0xF000520024 + 0x40 * i, 0, 32, .rw, 0, 0, 0xFFFFFFFF, false, false⟩
/-- CTL.HOSTEP[i] (Table 10-9). -/
def CTL.HOSTEP (i : Nat) : Fld := ⟨0xF000520028 + 0x40 * i, 0, 32, .rw, 0x7F7FFFFF, 0, 0xFFFFFFFF, false, false⟩
/-- CTL.HOTIME[i] (Table 10-9). -/
def CTL.HOTIME (i : Nat) : Fld := ⟨0xF00052002C + 0x40 * i, 0, 16, .rw, 0, 0, 0xFFFF, false, false⟩
/-- CTL.INTEG[i] (Table 10-9). -/
def CTL.INTEG (i : Nat) : Fld := ⟨0xF000520030 + 0x40 * i, 0, 32, .rw, 0, 0, 0xFFFFFFFF, false, true⟩
/-- CTL.OUT[i] (Table 10-9). -/
def CTL.OUT (i : Nat) : Fld := ⟨0xF000520034 + 0x40 * i, 0, 32, .ro, 0, 0, 0xFFFFFFFF, false, false⟩
/-- CTL.UNSAT[i] (Table 10-9). -/
def CTL.UNSAT (i : Nat) : Fld := ⟨0xF000520038 + 0x40 * i, 0, 32, .ro, 0, 0, 0xFFFFFFFF, false, false⟩
/-- CTL.LBSTAT[i].HOLEFT (Table 10-9). -/
def CTL.LBSTAT.HOLEFT (i : Nat) : Fld := ⟨0xF00052003C + 0x40 * i, 16, 16, .ro, 0, 0, 0xFFFF, false, false⟩
/-- CTL.LBSTAT[i].RAN (Table 10-9). -/
def CTL.LBSTAT.RAN (i : Nat) : Fld := ⟨0xF00052003C + 0x40 * i, 5, 1, .ro, 0, 0, 1, false, false⟩
/-- CTL.LBSTAT[i].VBUSBAD (Table 10-9). -/
def CTL.LBSTAT.VBUSBAD (i : Nat) : Fld := ⟨0xF00052003C + 0x40 * i, 4, 1, .ro, 0, 0, 1, false, false⟩
/-- CTL.LBSTAT[i].HOCLAMP (Table 10-9). -/
def CTL.LBSTAT.HOCLAMP (i : Nat) : Fld := ⟨0xF00052003C + 0x40 * i, 3, 1, .w1c, 0, 0, 1, false, false⟩
/-- CTL.LBSTAT[i].HOACT (Table 10-9). -/
def CTL.LBSTAT.HOACT (i : Nat) : Fld := ⟨0xF00052003C + 0x40 * i, 2, 1, .ro, 0, 0, 1, false, false⟩
/-- CTL.LBSTAT[i].SATLO (Table 10-9). -/
def CTL.LBSTAT.SATLO (i : Nat) : Fld := ⟨0xF00052003C + 0x40 * i, 1, 1, .ro, 0, 0, 1, false, false⟩
/-- CTL.LBSTAT[i].SATHI (Table 10-9). -/
def CTL.LBSTAT.SATHI (i : Nat) : Fld := ⟨0xF00052003C + 0x40 * i, 0, 1, .ro, 0, 0, 1, false, false⟩

def regRowsSCH0 : List RegRow := [
  ⟨"SCH.TRKCTL.EN", fun _ _ => SCH.TRKCTL.EN, 0x0, 1, 0x0, 1⟩,
  ⟨"SCH.TRKCTL.SUPEN", fun _ _ => SCH.TRKCTL.SUPEN, 0x0, 1, 0x0, 1⟩,
  ⟨"SCH.TRKCTL.NOFIXEN", fun _ _ => SCH.TRKCTL.NOFIXEN, 0x0, 1, 0x0, 1⟩,
  ⟨"SCH.TRKSTAT.RUN", fun _ _ => SCH.TRKSTAT.RUN, 0x0, 1, 0x0, 1⟩,
  ⟨"SCH.TRKSTAT.HBOUT", fun _ _ => SCH.TRKSTAT.HBOUT, 0x0, 1, 0x0, 1⟩,
  ⟨"SCH.TRKSTAT.GRACE", fun _ _ => SCH.TRKSTAT.GRACE, 0x0, 1, 0x0, 1⟩,
  ⟨"SCH.TRKSTAT.INCONS", fun _ _ => SCH.TRKSTAT.INCONS, 0x0, 1, 0x0, 1⟩,
  ⟨"SCH.TRKSTAT.PEERLOST", fun _ _ => SCH.TRKSTAT.PEERLOST, 0x0, 1, 0x0, 1⟩,
  ⟨"SCH.PEERMASK", fun _ _ => SCH.PEERMASK, 0x0, 1, 0x0, 1⟩,
  ⟨"SCH.GRAPHVER", fun _ _ => SCH.GRAPHVER, 0x0, 1, 0x0, 1⟩,
  ⟨"SCH.GRACESF", fun _ _ => SCH.GRACESF, 0x0, 1, 0x0, 1⟩,
  ⟨"SCH.EXTSTEP", fun _ _ => SCH.EXTSTEP, 0x0, 1, 0x0, 1⟩,
  ⟨"SCH.CUTLEAD", fun _ _ => SCH.CUTLEAD, 0x0, 1, 0x0, 1⟩,
  ⟨"SCH.CUTACKLEAD", fun _ _ => SCH.CUTACKLEAD, 0x0, 1, 0x0, 1⟩,
  ⟨"SCH.HORIZON", fun _ _ => SCH.HORIZON, 0x0, 1, 0x0, 1⟩,
  ⟨"SCH.HOLDTO", fun _ _ => SCH.HOLDTO, 0x0, 1, 0x0, 1⟩,
  ⟨"SCH.PHBPER", fun _ _ => SCH.PHBPER, 0x0, 1, 0x0, 1⟩,
  ⟨"SCH.PHBTO", fun _ _ => SCH.PHBTO, 0x0, 1, 0x0, 1⟩,
  ⟨"SCH.NOFIXTO", fun _ _ => SCH.NOFIXTO, 0x0, 1, 0x0, 1⟩,
  ⟨"SCH.QMARGIN", fun _ _ => SCH.QMARGIN, 0x0, 1, 0x0, 1⟩,
  ⟨"SCH.REGCNT", fun _ _ => SCH.REGCNT, 0x0, 1, 0x0, 1⟩,
  ⟨"SCH.RESUSED", fun _ _ => SCH.RESUSED, 0x0, 1, 0x0, 1⟩,
  ⟨"SCH.RESHWM", fun _ _ => SCH.RESHWM, 0x0, 1, 0x0, 1⟩,
  ⟨"SCH.PERMREQ", fun _ _ => SCH.PERMREQ, 0x0, 1, 0x0, 1⟩,
  ⟨"SCH.PERMGRANT", fun _ _ => SCH.PERMGRANT, 0x0, 1, 0x0, 1⟩,
  ⟨"SCH.PERMREF", fun _ _ => SCH.PERMREF, 0x0, 1, 0x0, 1⟩,
  ⟨"SCH.RELCNT", fun _ _ => SCH.RELCNT, 0x0, 1, 0x0, 1⟩,
  ⟨"SCH.OVRCNT", fun _ _ => SCH.OVRCNT, 0x0, 1, 0x0, 1⟩,
  ⟨"SCH.CUTCNT", fun _ _ => SCH.CUTCNT, 0x0, 1, 0x0, 1⟩,
  ⟨"SCH.SGLCNT", fun _ _ => SCH.SGLCNT, 0x0, 1, 0x0, 1⟩,
  ⟨"SCH.HOLDEXP", fun _ _ => SCH.HOLDEXP, 0x0, 1, 0x0, 1⟩,
  ⟨"SCH.SOLIGN", fun _ _ => SCH.SOLIGN, 0x0, 1, 0x0, 1⟩,
  ⟨"SCH.CMDBAD", fun _ _ => SCH.CMDBAD, 0x0, 1, 0x0, 1⟩,
  ⟨"SCH.GRWERR", fun _ _ => SCH.GRWERR, 0x0, 1, 0x0, 1⟩,
  ⟨"SCH.CHKMAX", fun _ _ => SCH.CHKMAX, 0x0, 1, 0x0, 1⟩,
  ⟨"SCH.QRYCNT", fun _ _ => SCH.QRYCNT, 0x0, 1, 0x0, 1⟩,
  ⟨"SCH.AUCTCTL.START", fun _ _ => SCH.AUCTCTL.START, 0x0, 1, 0x0, 1⟩,
  ⟨"SCH.AUCTCTL.ABORT", fun _ _ => SCH.AUCTCTL.ABORT, 0x0, 1, 0x0, 1⟩,
  ⟨"SCH.AUCTSTAT.BUSY", fun _ _ => SCH.AUCTSTAT.BUSY, 0x0, 1, 0x0, 1⟩,
  ⟨"SCH.AUCTSTAT.RESULT", fun _ _ => SCH.AUCTSTAT.RESULT, 0x0, 1, 0x0, 1⟩]

def regRowsSCH1 : List RegRow := [
  ⟨"SCH.AUCTSTAT.OPT", fun _ _ => SCH.AUCTSTAT.OPT, 0x0, 1, 0x0, 1⟩,
  ⟨"SCH.AUCTBASE", fun _ _ => SCH.AUCTBASE, 0x0, 1, 0x0, 1⟩,
  ⟨"SCH.TASKBASE", fun _ _ => SCH.TASKBASE, 0x0, 1, 0x0, 1⟩,
  ⟨"SCH.AUCTEPSF", fun _ _ => SCH.AUCTEPSF, 0x0, 1, 0x0, 1⟩,
  ⟨"SCH.AUCTTLIM", fun _ _ => SCH.AUCTTLIM, 0x0, 1, 0x0, 1⟩,
  ⟨"SCH.AUCTTIME", fun _ _ => SCH.AUCTTIME, 0x0, 1, 0x0, 1⟩,
  ⟨"SCH.AUCTEPS", fun _ _ => SCH.AUCTEPS, 0x0, 1, 0x0, 1⟩,
  ⟨"SCH.AUCTEVT.EVN", fun _ _ => SCH.AUCTEVT.EVN, 0x0, 1, 0x0, 1⟩,
  ⟨"SCH.AUCTEVT.TOK", fun _ _ => SCH.AUCTEVT.TOK, 0x0, 1, 0x0, 1⟩,
  ⟨"SCH.AUCTPHASE", fun _ _ => SCH.AUCTPHASE, 0x0, 1, 0x0, 1⟩,
  ⟨"SCH.LOCK", fun i _ => SCH.LOCK i, 0x4, 128, 0x0, 1⟩,
  ⟨"SCH.LOCKHELD", fun i _ => SCH.LOCKHELD i, 0x4, 4, 0x0, 1⟩,
  ⟨"SCH.LOCKERR", fun _ _ => SCH.LOCKERR, 0x0, 1, 0x0, 1⟩,
  ⟨"SCH.LOCKFREE", fun _ _ => SCH.LOCKFREE, 0x0, 1, 0x0, 1⟩,
  ⟨"SCH.LOCKHOLD", fun i _ => SCH.LOCKHOLD i, 0x4, 16, 0x0, 1⟩,
  ⟨"SCH.DFCTL.EN", fun _ _ => SCH.DFCTL.EN, 0x0, 1, 0x0, 1⟩,
  ⟨"SCH.DFSTAT.INFLIGHT", fun _ _ => SCH.DFSTAT.INFLIGHT, 0x0, 1, 0x0, 1⟩,
  ⟨"SCH.DFSTAT.FULL", fun _ _ => SCH.DFSTAT.FULL, 0x0, 1, 0x0, 1⟩,
  ⟨"SCH.DFSTAT.PAUSED", fun _ _ => SCH.DFSTAT.PAUSED, 0x0, 1, 0x0, 1⟩,
  ⟨"SCH.DFSTAT.RUN", fun _ _ => SCH.DFSTAT.RUN, 0x0, 1, 0x0, 1⟩,
  ⟨"SCH.GTBASE", fun _ _ => SCH.GTBASE, 0x0, 1, 0x0, 1⟩,
  ⟨"SCH.GTCNT", fun _ _ => SCH.GTCNT, 0x0, 1, 0x0, 1⟩,
  ⟨"SCH.DFCTXBASE", fun _ _ => SCH.DFCTXBASE, 0x0, 1, 0x0, 1⟩,
  ⟨"SCH.NAPDLY", fun _ _ => SCH.NAPDLY, 0x0, 1, 0x0, 1⟩,
  ⟨"SCH.READYCNT", fun _ _ => SCH.READYCNT, 0x0, 1, 0x0, 1⟩,
  ⟨"SCH.READYMAX", fun _ _ => SCH.READYMAX, 0x0, 1, 0x0, 1⟩,
  ⟨"SCH.INFMAX", fun _ _ => SCH.INFMAX, 0x0, 1, 0x0, 1⟩,
  ⟨"SCH.LVLCNT", fun i _ => SCH.LVLCNT i, 0x4, 16, 0x0, 1⟩,
  ⟨"SCH.CORESTAT.CENTRY", fun i _ => SCH.CORESTAT.CENTRY i, 0x4, 8, 0x0, 1⟩,
  ⟨"SCH.CORESTAT.FATAL", fun i _ => SCH.CORESTAT.FATAL i, 0x4, 8, 0x0, 1⟩,
  ⟨"SCH.CORESTAT.PLFENCE", fun i _ => SCH.CORESTAT.PLFENCE i, 0x4, 8, 0x0, 1⟩,
  ⟨"SCH.CORESTAT.STFENCE", fun i _ => SCH.CORESTAT.STFENCE i, 0x4, 8, 0x0, 1⟩,
  ⟨"SCH.CORESTAT.FWFENCE", fun i _ => SCH.CORESTAT.FWFENCE i, 0x4, 8, 0x0, 1⟩,
  ⟨"SCH.CORESTAT.NAP", fun i _ => SCH.CORESTAT.NAP i, 0x4, 8, 0x0, 1⟩,
  ⟨"SCH.CORESTAT.BUSY", fun i _ => SCH.CORESTAT.BUSY i, 0x4, 8, 0x0, 1⟩,
  ⟨"SCH.CORESTAT.PRI", fun i _ => SCH.CORESTAT.PRI i, 0x4, 8, 0x0, 1⟩,
  ⟨"SCH.CFENCE", fun _ _ => SCH.CFENCE, 0x0, 1, 0x0, 1⟩,
  ⟨"SCH.DISPCNT", fun _ _ => SCH.DISPCNT, 0x0, 1, 0x0, 1⟩,
  ⟨"SCH.PREEMPT", fun _ _ => SCH.PREEMPT, 0x0, 1, 0x0, 1⟩,
  ⟨"SCH.YIELDCNT", fun _ _ => SCH.YIELDCNT, 0x0, 1, 0x0, 1⟩]

def regRowsSCH2 : List RegRow := [
  ⟨"SCH.DONECNT", fun _ _ => SCH.DONECNT, 0x0, 1, 0x0, 1⟩,
  ⟨"SCH.CANCNT", fun _ _ => SCH.CANCNT, 0x0, 1, 0x0, 1⟩,
  ⟨"SCH.LOSTCNT", fun _ _ => SCH.LOSTCNT, 0x0, 1, 0x0, 1⟩,
  ⟨"SCH.BUSYCNT", fun _ _ => SCH.BUSYCNT, 0x0, 1, 0x0, 1⟩,
  ⟨"SCH.PAUSECNT", fun _ _ => SCH.PAUSECNT, 0x0, 1, 0x0, 1⟩,
  ⟨"SCH.FULLTIME", fun _ _ => SCH.FULLTIME, 0x0, 1, 0x0, 1⟩,
  ⟨"SCH.EVDROP", fun _ _ => SCH.EVDROP, 0x0, 1, 0x0, 1⟩,
  ⟨"SCH.EVOVFCNT", fun _ _ => SCH.EVOVFCNT, 0x0, 1, 0x0, 1⟩,
  ⟨"SCH.EDGEFAIL", fun _ _ => SCH.EDGEFAIL, 0x0, 1, 0x0, 1⟩,
  ⟨"SCH.SINKDROP", fun _ _ => SCH.SINKDROP, 0x0, 1, 0x0, 1⟩,
  ⟨"SCH.DESCERR", fun _ _ => SCH.DESCERR, 0x0, 1, 0x0, 1⟩,
  ⟨"SCH.LAT15MAX", fun _ _ => SCH.LAT15MAX, 0x0, 1, 0x0, 1⟩,
  ⟨"SCH.STSKIP", fun _ _ => SCH.STSKIP, 0x0, 1, 0x0, 1⟩,
  ⟨"SCH.NAPHOLD", fun _ _ => SCH.NAPHOLD, 0x0, 1, 0x0, 1⟩,
  ⟨"SCH.EVH", fun i _ => SCH.EVH i, 0x8, 256, 0x0, 1⟩,
  ⟨"SCH.EVCFG.OVF", fun i _ => SCH.EVCFG.OVF i, 0x8, 256, 0x0, 1⟩,
  ⟨"SCH.EVCFG.FAST", fun i _ => SCH.EVCFG.FAST i, 0x8, 256, 0x0, 1⟩,
  ⟨"SCH.EVCFG.EN", fun i _ => SCH.EVCFG.EN i, 0x8, 256, 0x0, 1⟩,
  ⟨"SCH.EVCFG.SLOT", fun i _ => SCH.EVCFG.SLOT i, 0x8, 256, 0x0, 1⟩]

/-- The fields of the register tables of SCH. -/
def regRowsSCH : List RegRow := regRowsSCH0 ++ regRowsSCH1 ++ regRowsSCH2

def regRowsMEM0 : List RegRow := [
  ⟨"MEM.MEMCTL.POOLEN", fun _ _ => MEM.MEMCTL.POOLEN, 0x0, 1, 0x0, 1⟩,
  ⟨"MEM.MEMCTL.SCRUBEN", fun _ _ => MEM.MEMCTL.SCRUBEN, 0x0, 1, 0x0, 1⟩,
  ⟨"MEM.MEMCTL.RETEN", fun _ _ => MEM.MEMCTL.RETEN, 0x0, 1, 0x0, 1⟩,
  ⟨"MEM.MEMSTAT.POOLRUN", fun _ _ => MEM.MEMSTAT.POOLRUN, 0x0, 1, 0x0, 1⟩,
  ⟨"MEM.MEMSTAT.SWEEP", fun _ _ => MEM.MEMSTAT.SWEEP, 0x0, 1, 0x0, 1⟩,
  ⟨"MEM.MEMSTAT.POOLEMPTY", fun _ _ => MEM.MEMSTAT.POOLEMPTY, 0x0, 1, 0x0, 1⟩,
  ⟨"MEM.MEMSTAT.RETFULL", fun _ _ => MEM.MEMSTAT.RETFULL, 0x0, 1, 0x0, 1⟩,
  ⟨"MEM.FTBASE", fun _ _ => MEM.FTBASE, 0x0, 1, 0x0, 1⟩,
  ⟨"MEM.POOLFREE", fun _ _ => MEM.POOLFREE, 0x0, 1, 0x0, 1⟩,
  ⟨"MEM.POOLTAKE", fun _ _ => MEM.POOLTAKE, 0x0, 1, 0x0, 1⟩,
  ⟨"MEM.POOLGIVE", fun _ _ => MEM.POOLGIVE, 0x0, 1, 0x0, 1⟩,
  ⟨"MEM.POOLERR", fun _ _ => MEM.POOLERR, 0x0, 1, 0x0, 1⟩,
  ⟨"MEM.RETTHR", fun _ _ => MEM.RETTHR, 0x0, 1, 0x0, 1⟩,
  ⟨"MEM.RETIRE", fun _ _ => MEM.RETIRE, 0x0, 1, 0x0, 1⟩,
  ⟨"MEM.RETCNT", fun _ _ => MEM.RETCNT, 0x0, 1, 0x0, 1⟩,
  ⟨"MEM.CECNT", fun _ _ => MEM.CECNT, 0x0, 1, 0x0, 1⟩,
  ⟨"MEM.UECNT", fun _ _ => MEM.UECNT, 0x0, 1, 0x0, 1⟩,
  ⟨"MEM.TOUCHCNT", fun _ _ => MEM.TOUCHCNT, 0x0, 1, 0x0, 1⟩,
  ⟨"MEM.NOFRMCNT", fun _ _ => MEM.NOFRMCNT, 0x0, 1, 0x0, 1⟩,
  ⟨"MEM.HWRETCNT", fun _ _ => MEM.HWRETCNT, 0x0, 1, 0x0, 1⟩,
  ⟨"MEM.TLBINV", fun _ _ => MEM.TLBINV, 0x0, 1, 0x0, 1⟩,
  ⟨"MEM.TLBSTAT.BUSY", fun _ _ => MEM.TLBSTAT.BUSY, 0x0, 1, 0x0, 1⟩,
  ⟨"MEM.TLBSTAT.OVF", fun _ _ => MEM.TLBSTAT.OVF, 0x0, 1, 0x0, 1⟩,
  ⟨"MEM.TLBSTAT.PENDN", fun _ _ => MEM.TLBSTAT.PENDN, 0x0, 1, 0x0, 1⟩,
  ⟨"MEM.SCRUBPER", fun _ _ => MEM.SCRUBPER, 0x0, 1, 0x0, 1⟩,
  ⟨"MEM.SCRUBPOS", fun _ _ => MEM.SCRUBPOS, 0x0, 1, 0x0, 1⟩,
  ⟨"MEM.SCRUBPASS", fun _ _ => MEM.SCRUBPASS, 0x0, 1, 0x0, 1⟩,
  ⟨"MEM.ECCLAST", fun _ _ => MEM.ECCLAST, 0x0, 1, 0x0, 1⟩,
  ⟨"MEM.EMMCSTAT.READY", fun _ _ => MEM.EMMCSTAT.READY, 0x0, 1, 0x0, 1⟩,
  ⟨"MEM.EMMCSTAT.BUSY", fun _ _ => MEM.EMMCSTAT.BUSY, 0x0, 1, 0x0, 1⟩,
  ⟨"MEM.EMMCSTAT.CHAN", fun _ _ => MEM.EMMCSTAT.CHAN, 0x0, 1, 0x0, 1⟩,
  ⟨"MEM.EMMCSECT", fun _ _ => MEM.EMMCSECT, 0x0, 1, 0x0, 1⟩,
  ⟨"MEM.EMMCERR", fun _ _ => MEM.EMMCERR, 0x0, 1, 0x0, 1⟩,
  ⟨"MEM.CHCTL.EN", fun i _ => MEM.CHCTL.EN i, 0x40, 32, 0x0, 1⟩,
  ⟨"MEM.CHCTL.LEVEL", fun i _ => MEM.CHCTL.LEVEL i, 0x40, 32, 0x0, 1⟩,
  ⟨"MEM.CHCMD", fun i _ => MEM.CHCMD i, 0x40, 32, 0x0, 1⟩,
  ⟨"MEM.CHSTAT.STATE", fun i _ => MEM.CHSTAT.STATE i, 0x40, 32, 0x0, 1⟩,
  ⟨"MEM.CHSTAT.REASON", fun i _ => MEM.CHSTAT.REASON i, 0x40, 32, 0x0, 1⟩,
  ⟨"MEM.CHASID", fun i _ => MEM.CHASID i, 0x40, 32, 0x0, 1⟩,
  ⟨"MEM.CHROOT", fun i _ => MEM.CHROOT i, 0x40, 32, 0x0, 1⟩]

def regRowsMEM1 : List RegRow := [
  ⟨"MEM.CHDESC", fun i _ => MEM.CHDESC i, 0x40, 32, 0x0, 1⟩,
  ⟨"MEM.CHCUR", fun i _ => MEM.CHCUR i, 0x40, 32, 0x0, 1⟩,
  ⟨"MEM.CHDONE", fun i _ => MEM.CHDONE i, 0x40, 32, 0x0, 1⟩,
  ⟨"MEM.CHBYTES", fun i _ => MEM.CHBYTES i, 0x40, 32, 0x0, 1⟩,
  ⟨"MEM.CHFLT", fun i _ => MEM.CHFLT i, 0x40, 32, 0x0, 1⟩,
  ⟨"MEM.CAPCTL.START", fun _ _ => MEM.CAPCTL.START, 0x0, 1, 0x0, 1⟩,
  ⟨"MEM.CAPSTAT.BUSY", fun _ _ => MEM.CAPSTAT.BUSY, 0x0, 1, 0x0, 1⟩,
  ⟨"MEM.CAPSTAT.ISL", fun _ _ => MEM.CAPSTAT.ISL, 0x0, 1, 0x0, 1⟩,
  ⟨"MEM.CAPLEN", fun _ _ => MEM.CAPLEN, 0x0, 1, 0x0, 1⟩]

/-- The fields of the register tables of MEM. -/
def regRowsMEM : List RegRow := regRowsMEM0 ++ regRowsMEM1

def regRowsCTL0 : List RegRow := [
  ⟨"CTL.AXFLT", fun _ _ => CTL.AXFLT, 0x0, 1, 0x0, 1⟩,
  ⟨"CTL.AXMOV", fun _ _ => CTL.AXMOV, 0x0, 1, 0x0, 1⟩,
  ⟨"CTL.ZGMIR", fun _ _ => CTL.ZGMIR, 0x0, 1, 0x0, 1⟩,
  ⟨"CTL.AXEVT.EVN", fun _ _ => CTL.AXEVT.EVN, 0x0, 1, 0x0, 1⟩,
  ⟨"CTL.AXEVT.TOK", fun _ _ => CTL.AXEVT.TOK, 0x0, 1, 0x0, 1⟩,
  ⟨"CTL.HOLDALL", fun _ _ => CTL.HOLDALL, 0x0, 1, 0x0, 1⟩,
  ⟨"CTL.AXCMDREF", fun _ _ => CTL.AXCMDREF, 0x0, 1, 0x0, 1⟩,
  ⟨"CTL.AXCFG.HLEN", fun i _ => CTL.AXCFG.HLEN i, 0x100, 48, 0x0, 1⟩,
  ⟨"CTL.AXCFG.SLEN", fun i _ => CTL.AXCFG.SLEN i, 0x100, 48, 0x0, 1⟩,
  ⟨"CTL.AXCFG.CMSEL", fun i _ => CTL.AXCFG.CMSEL i, 0x100, 48, 0x0, 1⟩,
  ⟨"CTL.AXCFG.PHOFF", fun i _ => CTL.AXCFG.PHOFF i, 0x100, 48, 0x0, 1⟩,
  ⟨"CTL.AXCFG.ZONE", fun i _ => CTL.AXCFG.ZONE i, 0x100, 48, 0x0, 1⟩,
  ⟨"CTL.AXCFG.BOUND", fun i _ => CTL.AXCFG.BOUND i, 0x100, 48, 0x0, 1⟩,
  ⟨"CTL.AXCFG.MEMBER", fun i _ => CTL.AXCFG.MEMBER i, 0x100, 48, 0x0, 1⟩,
  ⟨"CTL.AXCMD", fun i _ => CTL.AXCMD i, 0x100, 48, 0x0, 1⟩,
  ⟨"CTL.AXSTAT.HABORT", fun i _ => CTL.AXSTAT.HABORT i, 0x100, 48, 0x0, 1⟩,
  ⟨"CTL.AXSTAT.HOMED", fun i _ => CTL.AXSTAT.HOMED i, 0x100, 48, 0x0, 1⟩,
  ⟨"CTL.AXSTAT.ZSTOP", fun i _ => CTL.AXSTAT.ZSTOP i, 0x100, 48, 0x0, 1⟩,
  ⟨"CTL.AXSTAT.KEEPBAD", fun i _ => CTL.AXSTAT.KEEPBAD i, 0x100, 48, 0x0, 1⟩,
  ⟨"CTL.AXSTAT.CMDERR", fun i _ => CTL.AXSTAT.CMDERR i, 0x100, 48, 0x0, 1⟩,
  ⟨"CTL.AXSTAT.KEPT", fun i _ => CTL.AXSTAT.KEPT i, 0x100, 48, 0x0, 1⟩,
  ⟨"CTL.AXSTAT.TGTCLAMP", fun i _ => CTL.AXSTAT.TGTCLAMP i, 0x100, 48, 0x0, 1⟩,
  ⟨"CTL.AXSTAT.DRVOFF", fun i _ => CTL.AXSTAT.DRVOFF i, 0x100, 48, 0x0, 1⟩,
  ⟨"CTL.AXSTAT.BLIND", fun i _ => CTL.AXSTAT.BLIND i, 0x100, 48, 0x0, 1⟩,
  ⟨"CTL.AXSTAT.LIMSTOP", fun i _ => CTL.AXSTAT.LIMSTOP i, 0x100, 48, 0x0, 1⟩,
  ⟨"CTL.AXSTAT.CMODE", fun i _ => CTL.AXSTAT.CMODE i, 0x100, 48, 0x0, 1⟩,
  ⟨"CTL.AXSTAT.STANDSTILL", fun i _ => CTL.AXSTAT.STANDSTILL i, 0x100, 48, 0x0, 1⟩,
  ⟨"CTL.AXSTAT.PVALID", fun i _ => CTL.AXSTAT.PVALID i, 0x100, 48, 0x0, 1⟩,
  ⟨"CTL.AXSTAT.STATE", fun i _ => CTL.AXSTAT.STATE i, 0x100, 48, 0x0, 1⟩,
  ⟨"CTL.AXFAULT.MORE", fun i _ => CTL.AXFAULT.MORE i, 0x100, 48, 0x0, 1⟩,
  ⟨"CTL.AXFAULT.NFCODE", fun i _ => CTL.AXFAULT.NFCODE i, 0x100, 48, 0x0, 1⟩,
  ⟨"CTL.AXFAULT.CODE", fun i _ => CTL.AXFAULT.CODE i, 0x100, 48, 0x0, 1⟩,
  ⟨"CTL.CPOS", fun i _ => CTL.CPOS i, 0x100, 48, 0x0, 1⟩,
  ⟨"CTL.CVEL", fun i _ => CTL.CVEL i, 0x100, 48, 0x0, 1⟩,
  ⟨"CTL.CACC", fun i _ => CTL.CACC i, 0x100, 48, 0x0, 1⟩,
  ⟨"CTL.TGT", fun i _ => CTL.TGT i, 0x100, 48, 0x0, 1⟩,
  ⟨"CTL.FOLLERR", fun i _ => CTL.FOLLERR i, 0x100, 48, 0x0, 1⟩,
  ⟨"CTL.VMAX", fun i _ => CTL.VMAX i, 0x100, 48, 0x0, 1⟩,
  ⟨"CTL.AMAX", fun i _ => CTL.AMAX i, 0x100, 48, 0x0, 1⟩,
  ⟨"CTL.DMAX", fun i _ => CTL.DMAX i, 0x100, 48, 0x0, 1⟩]

def regRowsCTL1 : List RegRow := [
  ⟨"CTL.JMAX", fun i _ => CTL.JMAX i, 0x100, 48, 0x0, 1⟩,
  ⟨"CTL.QSDEC", fun i _ => CTL.QSDEC i, 0x100, 48, 0x0, 1⟩,
  ⟨"CTL.QSJERK", fun i _ => CTL.QSJERK i, 0x100, 48, 0x0, 1⟩,
  ⟨"CTL.DMAXL", fun i _ => CTL.DMAXL i, 0x100, 48, 0x0, 1⟩,
  ⟨"CTL.JMAXL", fun i _ => CTL.JMAXL i, 0x100, 48, 0x0, 1⟩,
  ⟨"CTL.SLMIN", fun i _ => CTL.SLMIN i, 0x100, 48, 0x0, 1⟩,
  ⟨"CTL.SLMAX", fun i _ => CTL.SLMAX i, 0x100, 48, 0x0, 1⟩,
  ⟨"CTL.VQ", fun i _ => CTL.VQ i, 0x100, 48, 0x0, 1⟩,
  ⟨"CTL.CURCFG.IRUN", fun i _ => CTL.CURCFG.IRUN i, 0x100, 48, 0x0, 1⟩,
  ⟨"CTL.CURCFG.IHOLD", fun i _ => CTL.CURCFG.IHOLD i, 0x100, 48, 0x0, 1⟩,
  ⟨"CTL.CURCFG.ILIM", fun i _ => CTL.CURCFG.ILIM i, 0x100, 48, 0x0, 1⟩,
  ⟨"CTL.IDLECFG.IDLEDLY", fun i _ => CTL.IDLECFG.IDLEDLY i, 0x100, 48, 0x0, 1⟩,
  ⟨"CTL.IDLECFG.AMPH", fun i _ => CTL.IDLECFG.AMPH i, 0x100, 48, 0x0, 1⟩,
  ⟨"CTL.IDLECFG.PDEN", fun i _ => CTL.IDLECFG.PDEN i, 0x100, 48, 0x0, 1⟩,
  ⟨"CTL.STALLCFG.STALLANG", fun i _ => CTL.STALLCFG.STALLANG i, 0x100, 48, 0x0, 1⟩,
  ⟨"CTL.STALLCFG.STALLN", fun i _ => CTL.STALLCFG.STALLN i, 0x100, 48, 0x0, 1⟩,
  ⟨"CTL.STALLCFG.EN", fun i _ => CTL.STALLCFG.EN i, 0x100, 48, 0x0, 1⟩,
  ⟨"CTL.VEMF", fun i _ => CTL.VEMF i, 0x100, 48, 0x0, 1⟩,
  ⟨"CTL.MOTRL.RES", fun i _ => CTL.MOTRL.RES i, 0x100, 48, 0x0, 1⟩,
  ⟨"CTL.MOTRL.IND", fun i _ => CTL.MOTRL.IND i, 0x100, 48, 0x0, 1⟩,
  ⟨"CTL.LOADANG.ANGLE", fun i _ => CTL.LOADANG.ANGLE i, 0x100, 48, 0x0, 1⟩,
  ⟨"CTL.LOADANG.BLIND", fun i _ => CTL.LOADANG.BLIND i, 0x100, 48, 0x0, 1⟩,
  ⟨"CTL.HOMECFG.CHATWIN", fun i _ => CTL.HOMECFG.CHATWIN i, 0x100, 48, 0x0, 1⟩,
  ⟨"CTL.HOMECFG.DEBOUNCE", fun i _ => CTL.HOMECFG.DEBOUNCE i, 0x100, 48, 0x0, 1⟩,
  ⟨"CTL.HOMECFG.CHATN", fun i _ => CTL.HOMECFG.CHATN i, 0x100, 48, 0x0, 1⟩,
  ⟨"CTL.HOMECFG.HDIR", fun i _ => CTL.HOMECFG.HDIR i, 0x100, 48, 0x0, 1⟩,
  ⟨"CTL.HOMECFG.MODE", fun i _ => CTL.HOMECFG.MODE i, 0x100, 48, 0x0, 1⟩,
  ⟨"CTL.HVFAST", fun i _ => CTL.HVFAST i, 0x100, 48, 0x0, 1⟩,
  ⟨"CTL.HVSLOW", fun i _ => CTL.HVSLOW i, 0x100, 48, 0x0, 1⟩,
  ⟨"CTL.HOMEPOS", fun i _ => CTL.HOMEPOS i, 0x100, 48, 0x0, 1⟩,
  ⟨"CTL.HBACKOFF", fun i _ => CTL.HBACKOFF i, 0x100, 48, 0x0, 1⟩,
  ⟨"CTL.HTRQ.LEVEL", fun i _ => CTL.HTRQ.LEVEL i, 0x100, 48, 0x0, 1⟩,
  ⟨"CTL.HTRQ.N", fun i _ => CTL.HTRQ.N i, 0x100, 48, 0x0, 1⟩,
  ⟨"CTL.CAPPOS", fun i _ => CTL.CAPPOS i, 0x100, 48, 0x0, 1⟩,
  ⟨"CTL.CTLCTL.EN", fun _ _ => CTL.CTLCTL.EN, 0x0, 1, 0x0, 1⟩,
  ⟨"CTL.CTLCTL.OVRLIM", fun _ _ => CTL.CTLCTL.OVRLIM, 0x0, 1, 0x0, 1⟩,
  ⟨"CTL.CTLSTAT.LASTPROG", fun _ _ => CTL.CTLSTAT.LASTPROG, 0x0, 1, 0x0, 1⟩,
  ⟨"CTL.CTLSTAT.FCODE", fun _ _ => CTL.CTLSTAT.FCODE, 0x0, 1, 0x0, 1⟩,
  ⟨"CTL.CTLSTAT.OVREVT", fun _ _ => CTL.CTLSTAT.OVREVT, 0x0, 1, 0x0, 1⟩,
  ⟨"CTL.CTLSTAT.TIGHT", fun _ _ => CTL.CTLSTAT.TIGHT, 0x0, 1, 0x0, 1⟩]

def regRowsCTL2 : List RegRow := [
  ⟨"CTL.CTLSTAT.BUSY", fun _ _ => CTL.CTLSTAT.BUSY, 0x0, 1, 0x0, 1⟩,
  ⟨"CTL.CTLSTAT.FAULT", fun _ _ => CTL.CTLSTAT.FAULT, 0x0, 1, 0x0, 1⟩,
  ⟨"CTL.CTLSTAT.RUN", fun _ _ => CTL.CTLSTAT.RUN, 0x0, 1, 0x0, 1⟩,
  ⟨"CTL.CTLEVT.EVN", fun _ _ => CTL.CTLEVT.EVN, 0x0, 1, 0x0, 1⟩,
  ⟨"CTL.CTLEVT.TOK", fun _ _ => CTL.CTLEVT.TOK, 0x0, 1, 0x0, 1⟩,
  ⟨"CTL.PROGWIN", fun _ _ => CTL.PROGWIN, 0x0, 1, 0x0, 1⟩,
  ⟨"CTL.LASTRUN", fun _ _ => CTL.LASTRUN, 0x0, 1, 0x0, 1⟩,
  ⟨"CTL.RUNMAX", fun _ _ => CTL.RUNMAX, 0x0, 1, 0x0, 1⟩,
  ⟨"CTL.INSTCNT", fun _ _ => CTL.INSTCNT, 0x0, 1, 0x0, 1⟩,
  ⟨"CTL.OVERRUN", fun _ _ => CTL.OVERRUN, 0x0, 1, 0x0, 1⟩,
  ⟨"CTL.NOPROG", fun _ _ => CTL.NOPROG, 0x0, 1, 0x0, 1⟩,
  ⟨"CTL.TRGDROP", fun _ _ => CTL.TRGDROP, 0x0, 1, 0x0, 1⟩,
  ⟨"CTL.TRGLATE", fun _ _ => CTL.TRGLATE, 0x0, 1, 0x0, 1⟩,
  ⟨"CTL.PROGINV", fun _ _ => CTL.PROGINV, 0x0, 1, 0x0, 1⟩,
  ⟨"CTL.ARITHCNT", fun _ _ => CTL.ARITHCNT, 0x0, 1, 0x0, 1⟩,
  ⟨"CTL.OUTCONF", fun _ _ => CTL.OUTCONF, 0x0, 1, 0x0, 1⟩,
  ⟨"CTL.PMWERR", fun _ _ => CTL.PMWERR, 0x0, 1, 0x0, 1⟩,
  ⟨"CTL.ECCCNT", fun _ _ => CTL.ECCCNT, 0x0, 1, 0x0, 1⟩,
  ⟨"CTL.PROGTAB.START", fun i _ => CTL.PROGTAB.START i, 0x4, 16, 0x0, 1⟩,
  ⟨"CTL.PROGTAB.LEN", fun i _ => CTL.PROGTAB.LEN i, 0x4, 16, 0x0, 1⟩,
  ⟨"CTL.PROGTAB.VALID", fun i _ => CTL.PROGTAB.VALID i, 0x4, 16, 0x0, 1⟩,
  ⟨"CTL.WCET", fun i _ => CTL.WCET i, 0x4, 16, 0x0, 1⟩,
  ⟨"CTL.CHKRES.INDEX", fun _ _ => CTL.CHKRES.INDEX, 0x0, 1, 0x0, 1⟩,
  ⟨"CTL.CHKRES.REASON", fun _ _ => CTL.CHKRES.REASON, 0x0, 1, 0x0, 1⟩,
  ⟨"CTL.OUTOWN", fun _ _ => CTL.OUTOWN, 0x0, 1, 0x0, 1⟩,
  ⟨"CTL.AXLOOP.HOCLAMP", fun i _ => CTL.AXLOOP.HOCLAMP i, 0x4, 48, 0x0, 1⟩,
  ⟨"CTL.AXLOOP.HOACT", fun i _ => CTL.AXLOOP.HOACT i, 0x4, 48, 0x0, 1⟩,
  ⟨"CTL.AXLOOP.MODE", fun i _ => CTL.AXLOOP.MODE i, 0x4, 48, 0x0, 1⟩,
  ⟨"CTL.AXLOOP.MODEREQ", fun i _ => CTL.AXLOOP.MODEREQ i, 0x4, 48, 0x0, 1⟩,
  ⟨"CTL.AXLOOP.TEN", fun i _ => CTL.AXLOOP.TEN i, 0x4, 48, 0x0, 1⟩,
  ⟨"CTL.AXLOOP.TB", fun i _ => CTL.AXLOOP.TB i, 0x4, 48, 0x0, 1⟩,
  ⟨"CTL.AXLOOP.PEN", fun i _ => CTL.AXLOOP.PEN i, 0x4, 48, 0x0, 1⟩,
  ⟨"CTL.AXLOOP.PB", fun i _ => CTL.AXLOOP.PB i, 0x4, 48, 0x0, 1⟩,
  ⟨"CTL.PMEM", fun i _ => CTL.PMEM i, 0x4, 4096, 0x0, 1⟩,
  ⟨"CTL.DMEM", fun i _ => CTL.DMEM i, 0x4, 4096, 0x0, 1⟩,
  ⟨"CTL.LBCFG.RESET", fun i _ => CTL.LBCFG.RESET i, 0x40, 64, 0x0, 1⟩,
  ⟨"CTL.LBCFG.TAG", fun i _ => CTL.LBCFG.TAG i, 0x40, 64, 0x0, 1⟩,
  ⟨"CTL.LBCFG.RATE", fun i _ => CTL.LBCFG.RATE i, 0x40, 64, 0x0, 1⟩,
  ⟨"CTL.LBCFG.FFAX", fun i _ => CTL.LBCFG.FFAX i, 0x40, 64, 0x0, 1⟩,
  ⟨"CTL.LBCFG.FFMEM", fun i _ => CTL.LBCFG.FFMEM i, 0x40, 64, 0x0, 1⟩]

def regRowsCTL3 : List RegRow := [
  ⟨"CTL.LBCFG.OFILT", fun i _ => CTL.LBCFG.OFILT i, 0x40, 64, 0x0, 1⟩,
  ⟨"CTL.LBCFG.OFEN", fun i _ => CTL.LBCFG.OFEN i, 0x40, 64, 0x0, 1⟩,
  ⟨"CTL.LBCFG.FFA", fun i _ => CTL.LBCFG.FFA i, 0x40, 64, 0x0, 1⟩,
  ⟨"CTL.LBCFG.FFV", fun i _ => CTL.LBCFG.FFV i, 0x40, 64, 0x0, 1⟩,
  ⟨"CTL.LBCFG.DERR", fun i _ => CTL.LBCFG.DERR i, 0x40, 64, 0x0, 1⟩,
  ⟨"CTL.LBCFG.AW", fun i _ => CTL.LBCFG.AW i, 0x40, 64, 0x0, 1⟩,
  ⟨"CTL.KP", fun i _ => CTL.KP i, 0x40, 64, 0x0, 1⟩,
  ⟨"CTL.KI", fun i _ => CTL.KI i, 0x40, 64, 0x0, 1⟩,
  ⟨"CTL.KD", fun i _ => CTL.KD i, 0x40, 64, 0x0, 1⟩,
  ⟨"CTL.KB", fun i _ => CTL.KB i, 0x40, 64, 0x0, 1⟩,
  ⟨"CTL.KAFF", fun i _ => CTL.KAFF i, 0x40, 64, 0x0, 1⟩,
  ⟨"CTL.VNOM", fun i _ => CTL.VNOM i, 0x40, 64, 0x0, 1⟩,
  ⟨"CTL.OMIN", fun i _ => CTL.OMIN i, 0x40, 64, 0x0, 1⟩,
  ⟨"CTL.OMAX", fun i _ => CTL.OMAX i, 0x40, 64, 0x0, 1⟩,
  ⟨"CTL.DF", fun i _ => CTL.DF i, 0x40, 64, 0x0, 1⟩,
  ⟨"CTL.HOSTEP", fun i _ => CTL.HOSTEP i, 0x40, 64, 0x0, 1⟩,
  ⟨"CTL.HOTIME", fun i _ => CTL.HOTIME i, 0x40, 64, 0x0, 1⟩,
  ⟨"CTL.INTEG", fun i _ => CTL.INTEG i, 0x40, 64, 0x0, 1⟩,
  ⟨"CTL.OUT", fun i _ => CTL.OUT i, 0x40, 64, 0x0, 1⟩,
  ⟨"CTL.UNSAT", fun i _ => CTL.UNSAT i, 0x40, 64, 0x0, 1⟩,
  ⟨"CTL.LBSTAT.HOLEFT", fun i _ => CTL.LBSTAT.HOLEFT i, 0x40, 64, 0x0, 1⟩,
  ⟨"CTL.LBSTAT.RAN", fun i _ => CTL.LBSTAT.RAN i, 0x40, 64, 0x0, 1⟩,
  ⟨"CTL.LBSTAT.VBUSBAD", fun i _ => CTL.LBSTAT.VBUSBAD i, 0x40, 64, 0x0, 1⟩,
  ⟨"CTL.LBSTAT.HOCLAMP", fun i _ => CTL.LBSTAT.HOCLAMP i, 0x40, 64, 0x0, 1⟩,
  ⟨"CTL.LBSTAT.HOACT", fun i _ => CTL.LBSTAT.HOACT i, 0x40, 64, 0x0, 1⟩,
  ⟨"CTL.LBSTAT.SATLO", fun i _ => CTL.LBSTAT.SATLO i, 0x40, 64, 0x0, 1⟩,
  ⟨"CTL.LBSTAT.SATHI", fun i _ => CTL.LBSTAT.SATHI i, 0x40, 64, 0x0, 1⟩]

/-- The fields of the register tables of CTL. -/
def regRowsCTL : List RegRow := regRowsCTL0 ++ regRowsCTL1 ++ regRowsCTL2 ++ regRowsCTL3

end Sys2Proof.Machine
end

