-- ==== Sys2Proof/Machine/RegsC.lean ====
section
/-! DEFINITION. Machine/RegsC.lean: every field of the register tables of NET, RAD, POS, SQ, FERRY, BELL, one definition a field. -/

namespace Sys2Proof.Machine

/-- NET.PTPLATRX (Table 02-5). -/
def NET.PTPLATRX : Fld := ⟨0xF000600E00, 0, 32, .ro, 0x460, 0, 0xFFFFFFFF, false, false⟩
/-- NET.PTPLATTX (Table 02-5). -/
def NET.PTPLATTX : Fld := ⟨0xF000600E04, 0, 32, .ro, 0x438, 0, 0xFFFFFFFF, false, false⟩
/-- NET.NETCTL.AUTH (Table 08-14). -/
def NET.NETCTL.AUTH : Fld := ⟨0xF000600000, 2, 1, .rw, 0, 0, 1, false, true⟩
/-- NET.NETCTL.CYCEN (Table 08-14). -/
def NET.NETCTL.CYCEN : Fld := ⟨0xF000600000, 1, 1, .rw, 0, 0, 1, false, true⟩
/-- NET.NETCTL.RINGEN (Table 08-14). -/
def NET.NETCTL.RINGEN : Fld := ⟨0xF000600000, 0, 1, .rw, 0, 0, 1, false, true⟩
/-- NET.RINGSTAT.FITERR (Table 08-14). -/
def NET.RINGSTAT.FITERR : Fld := ⟨0xF000600004, 11, 1, .w1c, 0, 0, 1, false, false⟩
/-- NET.RINGSTAT.MOSS (Table 08-14). -/
def NET.RINGSTAT.MOSS : Fld := ⟨0xF000600004, 10, 1, .ro, 1, 0, 1, false, false⟩
/-- NET.RINGSTAT.HEALEVT (Table 08-14). -/
def NET.RINGSTAT.HEALEVT : Fld := ⟨0xF000600004, 9, 1, .w1c, 0, 0, 1, false, false⟩
/-- NET.RINGSTAT.OPENEVT (Table 08-14). -/
def NET.RINGSTAT.OPENEVT : Fld := ⟨0xF000600004, 8, 1, .w1c, 0, 0, 1, false, false⟩
/-- NET.RINGSTAT.RDLYHOLD (Table 08-14). -/
def NET.RINGSTAT.RDLYHOLD : Fld := ⟨0xF000600004, 7, 1, .ro, 0, 0, 1, false, false⟩
/-- NET.RINGSTAT.BSLOW (Table 08-14). -/
def NET.RINGSTAT.BSLOW : Fld := ⟨0xF000600004, 6, 1, .ro, 0, 0, 1, false, false⟩
/-- NET.RINGSTAT.ASLOW (Table 08-14). -/
def NET.RINGSTAT.ASLOW : Fld := ⟨0xF000600004, 5, 1, .ro, 0, 0, 1, false, false⟩
/-- NET.RINGSTAT.BLINK (Table 08-14). -/
def NET.RINGSTAT.BLINK : Fld := ⟨0xF000600004, 4, 1, .ro, 0, 0, 1, false, false⟩
/-- NET.RINGSTAT.ALINK (Table 08-14). -/
def NET.RINGSTAT.ALINK : Fld := ⟨0xF000600004, 3, 1, .ro, 0, 0, 1, false, false⟩
/-- NET.RINGSTAT.PBLOCK (Table 08-14). -/
def NET.RINGSTAT.PBLOCK : Fld := ⟨0xF000600004, 2, 1, .ro, 0, 0, 1, false, false⟩
/-- NET.RINGSTAT.STATE (Table 08-14). -/
def NET.RINGSTAT.STATE : Fld := ⟨0xF000600004, 0, 2, .ro, 0, 0, 3, false, false⟩
/-- NET.CYCCFG.CYCT (Table 08-14). -/
def NET.CYCCFG.CYCT : Fld := ⟨0xF000600008, 0, 3, .rw, 1, 0, 4, false, false⟩
/-- NET.CYCCFG.NMEM (Table 08-14). -/
def NET.CYCCFG.NMEM : Fld := ⟨0xF000600008, 8, 6, .rw, 0x3F, 1, 0x3F, false, false⟩
/-- NET.INSLOT0 (Table 08-14). -/
def NET.INSLOT0 : Fld := ⟨0xF00060000C, 0, 32, .rw, 0x4E20, 0x4E20, 0x186A0, false, false⟩
/-- NET.SLOTGAP (Table 08-14). -/
def NET.SLOTGAP : Fld := ⟨0xF000600010, 0, 32, .rw, 0x320, 0x2BC, 0x1388, false, false⟩
/-- NET.SIDEF (Table 08-14). -/
def NET.SIDEF : Fld := ⟨0xF000600014, 0, 32, .rw, 0x186A0, 0, 0xFFFFFFFF, false, false⟩
/-- NET.RDLY (Table 08-14). -/
def NET.RDLY : Fld := ⟨0xF000600018, 0, 32, .ro, 0, 0, 0xFFFFFFFF, false, false⟩
/-- NET.TESTDL (Table 08-14). -/
def NET.TESTDL : Fld := ⟨0xF00060001C, 0, 32, .ro, 0, 0, 0xFFFFFFFF, false, false⟩
/-- NET.INDLOFF (Table 08-14). -/
def NET.INDLOFF : Fld := ⟨0xF000600020, 0, 32, .ro, 0, 0, 0xFFFFFFFF, false, false⟩
/-- NET.CYCCNT (Table 08-14). -/
def NET.CYCCNT : Fld := ⟨0xF000600024, 0, 32, .ro, 0, 0, 0xFFFFFFFF, false, false⟩
/-- NET.SEQ (Table 08-14). -/
def NET.SEQ : Fld := ⟨0xF000600028, 0, 32, .ro, 0, 0, 0xFFFFFFFF, false, false⟩
/-- NET.TESTMISS (Table 08-14). -/
def NET.TESTMISS : Fld := ⟨0xF00060002C, 0, 32, .rc, 0, 0, 0xFFFFFFFF, false, false⟩
/-- NET.BRKCNT (Table 08-14). -/
def NET.BRKCNT : Fld := ⟨0xF000600030, 0, 32, .rc, 0, 0, 0xFFFFFFFF, false, false⟩
/-- NET.BCDROP (Table 08-14). -/
def NET.BCDROP : Fld := ⟨0xF000600034, 0, 32, .rc, 0, 0, 0xFFFFFFFF, false, false⟩
/-- NET.LATEIN (Table 08-14). -/
def NET.LATEIN : Fld := ⟨0xF000600038, 0, 32, .rc, 0, 0, 0xFFFFFFFF, false, false⟩
/-- NET.SIBAD (Table 08-14). -/
def NET.SIBAD : Fld := ⟨0xF00060003C, 0, 32, .rc, 0, 0, 0xFFFFFFFF, false, false⟩
/-- NET.CYCEVT.EVN (Table 08-14). -/
def NET.CYCEVT.EVN : Fld := ⟨0xF000600040, 0, 8, .rw, 0, 0, 0xFF, false, false⟩
/-- NET.CYCEVT.TOK (Table 08-14). -/
def NET.CYCEVT.TOK : Fld := ⟨0xF000600040, 8, 1, .rw, 0, 0, 1, false, false⟩
/-- NET.ADOPTTO (Table 08-14). -/
def NET.ADOPTTO : Fld := ⟨0xF000600044, 0, 32, .rw, 5, 1, 0x3C, false, false⟩
/-- NET.PVID.VID (Table 08-14). -/
def NET.PVID.VID : Fld := ⟨0xF000600048, 0, 12, .rw, 1, 0, 0xFFF, false, false⟩
/-- NET.VLAN[i].VID (Table 08-14). -/
def NET.VLAN.VID (i : Nat) : Fld := ⟨0xF000600100 + 0x4 * i, 0, 12, .rw, 0, 0, 0xFFF, false, false⟩
/-- NET.VLAN[i].VALID (Table 08-14). -/
def NET.VLAN.VALID (i : Nat) : Fld := ⟨0xF000600100 + 0x4 * i, 15, 1, .rw, 0, 0, 1, false, false⟩
/-- NET.OUTREC[i][j] (Table 08-14). -/
def NET.OUTREC (i j : Nat) : Fld := ⟨0xF000602000 + 0x10 * i + 0x4 * j, 0, 32, .rw, 0, 0, 0xFFFFFFFF, false, false⟩
/-- NET.INREC[i][j] (Table 08-14). -/
def NET.INREC (i j : Nat) : Fld := ⟨0xF000603000 + 0x20 * i + 0x4 * j, 0, 32, .ro, 0, 0, 0xFFFFFFFF, false, false⟩
/-- NET.MCFG[i].EN (Table 08-16). -/
def NET.MCFG.EN (i : Nat) : Fld := ⟨0xF000601000 + 0x20 * i, 0, 1, .rw, 0, 0, 1, false, false⟩
/-- NET.MCFG[i].CLASS (Table 08-16). -/
def NET.MCFG.CLASS (i : Nat) : Fld := ⟨0xF000601000 + 0x20 * i, 1, 2, .rw, 0, 0, 3, false, false⟩
/-- NET.MCFG[i].ALLOW (Table 08-16). -/
def NET.MCFG.ALLOW (i : Nat) : Fld := ⟨0xF000601000 + 0x20 * i, 3, 3, .rw, 2, 0, 7, false, false⟩
/-- NET.MCFG[i].ADOPT (Table 08-16). -/
def NET.MCFG.ADOPT (i : Nat) : Fld := ⟨0xF000601000 + 0x20 * i, 6, 1, .rw, 0, 0, 1, false, false⟩
/-- NET.MCFG[i].TYPEID (Table 08-16). -/
def NET.MCFG.TYPEID (i : Nat) : Fld := ⟨0xF000601000 + 0x20 * i, 8, 16, .rw, 0, 0, 0xFFFF, false, false⟩
/-- NET.MMACLO[i] (Table 08-16). -/
def NET.MMACLO (i : Nat) : Fld := ⟨0xF000601004 + 0x20 * i, 0, 32, .rw, 0, 0, 0xFFFFFFFF, false, false⟩
/-- NET.MMACHI[i] (Table 08-16). -/
def NET.MMACHI (i : Nat) : Fld := ⟨0xF000601008 + 0x20 * i, 0, 16, .rw, 0, 0, 0xFFFF, false, false⟩
/-- NET.MSTAT[i].STATE (Table 08-16). -/
def NET.MSTAT.STATE (i : Nat) : Fld := ⟨0xF00060100C + 0x20 * i, 0, 2, .ro, 0, 0, 3, false, false⟩
/-- NET.MSTAT[i].MISMATCH (Table 08-16). -/
def NET.MSTAT.MISMATCH (i : Nat) : Fld := ⟨0xF00060100C + 0x20 * i, 2, 1, .ro, 0, 0, 1, false, false⟩
/-- NET.MSTAT[i].ADOPTEVT (Table 08-16). -/
def NET.MSTAT.ADOPTEVT (i : Nat) : Fld := ⟨0xF00060100C + 0x20 * i, 3, 1, .w1c, 0, 0, 1, false, false⟩
/-- NET.MSTAT[i].LOSTEVT (Table 08-16). -/
def NET.MSTAT.LOSTEVT (i : Nat) : Fld := ⟨0xF00060100C + 0x20 * i, 4, 1, .w1c, 0, 0, 1, false, false⟩
/-- NET.MSTAT[i].STAT (Table 08-16). -/
def NET.MSTAT.STAT (i : Nat) : Fld := ⟨0xF00060100C + 0x20 * i, 8, 8, .ro, 0, 0, 0xFF, false, false⟩
/-- NET.MSTAT[i].BOOTCNT (Table 08-16). -/
def NET.MSTAT.BOOTCNT (i : Nat) : Fld := ⟨0xF00060100C + 0x20 * i, 16, 16, .ro, 0, 0, 0xFFFF, false, false⟩
/-- NET.MMISS[i] (Table 08-16). -/
def NET.MMISS (i : Nat) : Fld := ⟨0xF000601010 + 0x20 * i, 0, 32, .rc, 0, 0, 0xFFFFFFFF, false, false⟩
/-- NET.MERR[i].CRC (Table 08-16). -/
def NET.MERR.CRC (i : Nat) : Fld := ⟨0xF000601014 + 0x20 * i, 0, 16, .rc, 0, 0, 0xFFFF, false, false⟩
/-- NET.MERR[i].TAG (Table 08-16). -/
def NET.MERR.TAG (i : Nat) : Fld := ⟨0xF000601014 + 0x20 * i, 16, 16, .rc, 0, 0, 0xFFFF, false, false⟩
/-- NET.MSLOT[i] (Table 08-16). -/
def NET.MSLOT (i : Nat) : Fld := ⟨0xF000601018 + 0x20 * i, 0, 32, .ro, 0, 0, 0xFFFFFFFF, false, false⟩
/-- NET.MKEYH[i] (Table 08-16). -/
def NET.MKEYH (i : Nat) : Fld := ⟨0xF00060101C + 0x20 * i, 0, 8, .ro, 0, 0, 0xFF, false, false⟩

/-- RAD.RADCTL.MOSS (Table 03-18). -/
def RAD.RADCTL.MOSS : Fld := ⟨0xF000700000, 4, 1, .ro, 1, 0, 1, false, false⟩
/-- RAD.RADCTL.REGION (Table 03-18). -/
def RAD.RADCTL.REGION : Fld := ⟨0xF000700000, 0, 2, .ro, 0, 0, 3, false, false⟩
/-- RAD.CHMAP (Table 03-18). -/
def RAD.CHMAP : Fld := ⟨0xF000700010, 0, 37, .ro, 0x1FFFFFFFFF, 0, 0x1FFFFFFFFF, true, false⟩
/-- RAD.MAPNXT (Table 03-18). -/
def RAD.MAPNXT : Fld := ⟨0xF000700018, 0, 37, .rw, 0, 0, 0x1FFFFFFFFF, true, false⟩
/-- RAD.MAPAT (Table 03-18). -/
def RAD.MAPAT : Fld := ⟨0xF000700020, 0, 32, .rw, 0, 0, 0xFFFFFFFF, false, false⟩
/-- RAD.MAPCTL.ARM (Table 03-18). -/
def RAD.MAPCTL.ARM : Fld := ⟨0xF000700024, 0, 1, .wo, 0, 0, 1, false, true⟩
/-- RAD.MAPCTL.PEND (Table 03-18). -/
def RAD.MAPCTL.PEND : Fld := ⟨0xF000700024, 1, 1, .ro, 0, 0, 1, false, false⟩
/-- RAD.MAPCTL.REFUSED (Table 03-18). -/
def RAD.MAPCTL.REFUSED : Fld := ⟨0xF000700024, 2, 1, .w1c, 0, 0, 1, false, false⟩
/-- RAD.REJOINCH (Table 03-18). -/
def RAD.REJOINCH : Fld := ⟨0xF000700028, 0, 32, .rw, 0, 0, 0x24, false, true⟩
/-- RAD.USED (Table 03-18). -/
def RAD.USED : Fld := ⟨0xF00070002C, 0, 32, .ro, 0x25, 0, 0xFFFFFFFF, false, false⟩
/-- RAD.PWRCAP (Table 03-18). -/
def RAD.PWRCAP : Fld := ⟨0xF000700030, 0, 32, .rw, 0x7FFFFFFF, 0, 0xFFFFFFFF, false, true⟩
/-- RAD.DWELLWIN (Table 03-18). -/
def RAD.DWELLWIN : Fld := ⟨0xF000700034, 0, 32, .rw, 0x190, 0, 0xFFFFFFFF, false, true⟩
/-- RAD.DWELLLIM (Table 03-18). -/
def RAD.DWELLLIM : Fld := ⟨0xF000700038, 0, 32, .rw, 0x190, 0, 0xFFFFFFFF, false, true⟩
/-- RAD.TXBUDGET (Table 03-18). -/
def RAD.TXBUDGET : Fld := ⟨0xF000700040, 0, 32, .ro, 0x9C4, 0, 0xFFFFFFFF, false, false⟩
/-- RAD.SFNUM (Table 03-18). -/
def RAD.SFNUM : Fld := ⟨0xF000700044, 0, 32, .ro, 0, 0, 0xFFFFFFFF, false, false⟩
/-- RAD.SFPHASE (Table 03-18). -/
def RAD.SFPHASE : Fld := ⟨0xF000700048, 0, 32, .ro, 0, 0, 0xFFFFFFFF, false, false⟩
/-- RAD.JOINCFG.EN (Table 03-18). -/
def RAD.JOINCFG.EN : Fld := ⟨0xF00070004C, 0, 1, .rw, 1, 0, 1, false, false⟩
/-- RAD.CTXWERR (Table 03-18). -/
def RAD.CTXWERR : Fld := ⟨0xF000700050, 0, 32, .rc, 0, 0, 0xFFFFFFFF, false, false⟩
/-- RAD.DWELL[i] (Table 03-18). -/
def RAD.DWELL (i : Nat) : Fld := ⟨0xF000700100 + 0x4 * i, 0, 32, .ro, 0, 0, 0xFFFFFFFF, false, false⟩
/-- RAD.LCTL[i].DIVEN (Table 03-20). -/
def RAD.LCTL.DIVEN (i : Nat) : Fld := ⟨0xF000701000 + 0x100 * i, 2, 1, .rw, 1, 0, 1, false, false⟩
/-- RAD.LCTL[i].FENCE (Table 03-20). -/
def RAD.LCTL.FENCE (i : Nat) : Fld := ⟨0xF000701000 + 0x100 * i, 1, 1, .rw, 0, 0, 1, false, true⟩
/-- RAD.LCTL[i].EN (Table 03-20). -/
def RAD.LCTL.EN (i : Nat) : Fld := ⟨0xF000701000 + 0x100 * i, 0, 1, .rw, 1, 0, 1, false, false⟩
/-- RAD.LSTAT[i].PWRCLAMP (Table 03-20). -/
def RAD.LSTAT.PWRCLAMP (i : Nat) : Fld := ⟨0xF000701004 + 0x100 * i, 5, 1, .w1c, 0, 0, 1, false, false⟩
/-- RAD.LSTAT[i].FENCEVT (Table 03-20). -/
def RAD.LSTAT.FENCEVT (i : Nat) : Fld := ⟨0xF000701004 + 0x100 * i, 4, 1, .w1c, 0, 0, 1, false, false⟩
/-- RAD.LSTAT[i].PWRLIM (Table 03-20). -/
def RAD.LSTAT.PWRLIM (i : Nat) : Fld := ⟨0xF000701004 + 0x100 * i, 3, 1, .ro, 0, 0, 1, false, false⟩
/-- RAD.LSTAT[i].LBFAIL (Table 03-20). -/
def RAD.LSTAT.LBFAIL (i : Nat) : Fld := ⟨0xF000701004 + 0x100 * i, 2, 1, .ro, 0, 0, 1, false, false⟩
/-- RAD.LSTAT[i].FENCED (Table 03-20). -/
def RAD.LSTAT.FENCED (i : Nat) : Fld := ⟨0xF000701004 + 0x100 * i, 1, 1, .ro, 0, 0, 1, false, false⟩
/-- RAD.LSTAT[i].ACTIVE (Table 03-20). -/
def RAD.LSTAT.ACTIVE (i : Nat) : Fld := ⟨0xF000701004 + 0x100 * i, 0, 1, .ro, 0, 0, 1, false, false⟩
/-- RAD.TXPWR[i] (Table 03-20). -/
def RAD.TXPWR (i : Nat) : Fld := ⟨0xF000701008 + 0x100 * i, 0, 32, .rw, 0xA, 0, 0xFFFFFFFF, false, true⟩
/-- RAD.BCNPWR[i] (Table 03-20). -/
def RAD.BCNPWR (i : Nat) : Fld := ⟨0xF00070100C + 0x100 * i, 0, 32, .rw, 0xA, 0, 0xFFFFFFFF, false, true⟩
/-- RAD.CHNOW[i] (Table 03-20). -/
def RAD.CHNOW (i : Nat) : Fld := ⟨0xF000701010 + 0x100 * i, 0, 32, .ro, 0, 0, 0xFFFFFFFF, false, false⟩
/-- RAD.TXFRM[i] (Table 03-20). -/
def RAD.TXFRM (i : Nat) : Fld := ⟨0xF000701014 + 0x100 * i, 0, 32, .rc, 0, 0, 0xFFFFFFFF, false, false⟩
/-- RAD.RXFRM[i] (Table 03-20). -/
def RAD.RXFRM (i : Nat) : Fld := ⟨0xF000701018 + 0x100 * i, 0, 32, .rc, 0, 0, 0xFFFFFFFF, false, false⟩
/-- RAD.CRCERR[i] (Table 03-20). -/
def RAD.CRCERR (i : Nat) : Fld := ⟨0xF00070101C + 0x100 * i, 0, 32, .rc, 0, 0, 0xFFFFFFFF, false, false⟩
/-- RAD.MICERR[i] (Table 03-20). -/
def RAD.MICERR (i : Nat) : Fld := ⟨0xF000701020 + 0x100 * i, 0, 32, .rc, 0, 0, 0xFFFFFFFF, false, false⟩
/-- RAD.ACERR[i] (Table 03-20). -/
def RAD.ACERR (i : Nat) : Fld := ⟨0xF000701024 + 0x100 * i, 0, 32, .rc, 0, 0, 0xFFFFFFFF, false, false⟩
/-- RAD.DEFER[i] (Table 03-20). -/
def RAD.DEFER (i : Nat) : Fld := ⟨0xF000701028 + 0x100 * i, 0, 32, .rc, 0, 0, 0xFFFFFFFF, false, false⟩
/-- RAD.FITERR[i] (Table 03-20). -/
def RAD.FITERR (i : Nat) : Fld := ⟨0xF00070102C + 0x100 * i, 0, 32, .rc, 0, 0, 0xFFFFFFFF, false, false⟩
/-- RAD.RPTRX[i] (Table 03-20). -/
def RAD.RPTRX (i : Nat) : Fld := ⟨0xF000701030 + 0x100 * i, 0, 32, .rc, 0, 0, 0xFFFFFFFF, false, false⟩
/-- RAD.RPTTX[i] (Table 03-20). -/
def RAD.RPTTX (i : Nat) : Fld := ⟨0xF000701034 + 0x100 * i, 0, 32, .rc, 0, 0, 0xFFFFFFFF, false, false⟩
/-- RAD.BCNTX[i] (Table 03-20). -/
def RAD.BCNTX (i : Nat) : Fld := ⟨0xF000701038 + 0x100 * i, 0, 32, .rc, 0, 0, 0xFFFFFFFF, false, false⟩
/-- RAD.BCNSKIP[i] (Table 03-20). -/
def RAD.BCNSKIP (i : Nat) : Fld := ⟨0xF00070103C + 0x100 * i, 0, 32, .rc, 0, 0, 0xFFFFFFFF, false, false⟩
/-- RAD.DIVOWN[i] (Table 03-20). -/
def RAD.DIVOWN (i : Nat) : Fld := ⟨0xF000701040 + 0x100 * i, 0, 32, .rc, 0, 0, 0xFFFFFFFF, false, false⟩
/-- RAD.DIVPAIR[i] (Table 03-20). -/
def RAD.DIVPAIR (i : Nat) : Fld := ⟨0xF000701044 + 0x100 * i, 0, 32, .rc, 0, 0, 0xFFFFFFFF, false, false⟩
/-- RAD.LBSTAT[i].PASS (Table 03-20). -/
def RAD.LBSTAT.PASS (i : Nat) : Fld := ⟨0xF000701048 + 0x100 * i, 0, 1, .ro, 0, 0, 1, false, false⟩
/-- RAD.LBSTAT[i].LOSS (Table 03-20). -/
def RAD.LBSTAT.LOSS (i : Nat) : Fld := ⟨0xF000701048 + 0x100 * i, 8, 8, .ro, 0, 0, 0xFF, false, false⟩
/-- RAD.LBFAILCNT[i] (Table 03-20). -/
def RAD.LBFAILCNT (i : Nat) : Fld := ⟨0xF00070104C + 0x100 * i, 0, 32, .rc, 0, 0, 0xFFFFFFFF, false, false⟩
/-- RAD.CTXCNT[i] (Table 03-20). -/
def RAD.CTXCNT (i : Nat) : Fld := ⟨0xF000701050 + 0x100 * i, 0, 32, .ro, 0, 0, 0xFFFFFFFF, false, false⟩
/-- RAD.TXTIME[i] (Table 03-20). -/
def RAD.TXTIME (i : Nat) : Fld := ⟨0xF000701054 + 0x100 * i, 0, 32, .ro, 0, 0, 0xFFFFFFFF, false, false⟩
/-- RAD.RSSIAVG[i] (Table 03-20). -/
def RAD.RSSIAVG (i : Nat) : Fld := ⟨0xF000701058 + 0x100 * i, 0, 32, .ro, 0xFFFFFF80, 0, 0xFFFFFFFF, false, false⟩
/-- RAD.CHNOISE[i][j] (Table 03-20). -/
def RAD.CHNOISE (i j : Nat) : Fld := ⟨0xF00070105C + 0x100 * i + 0x4 * j, 0, 32, .ro, 0xFFFFFF80, 0, 0xFFFFFFFF, false, false⟩
/-- RAD.CTXCTL[i].ARM (Table 03-22). -/
def RAD.CTXCTL.ARM (i : Nat) : Fld := ⟨0xF000740000 + 0x80 * i, 0, 1, .rw, 0, 0, 1, false, true⟩
/-- RAD.CTXCTL[i].UPDARM (Table 03-22). -/
def RAD.CTXCTL.UPDARM (i : Nat) : Fld := ⟨0xF000740000 + 0x80 * i, 1, 1, .wo, 0, 0, 1, false, true⟩
/-- RAD.CTXCTL[i].TERM (Table 03-22). -/
def RAD.CTXCTL.TERM (i : Nat) : Fld := ⟨0xF000740000 + 0x80 * i, 2, 1, .wo, 0, 0, 1, false, true⟩
/-- RAD.CTXCTL[i].KIND (Table 03-22). -/
def RAD.CTXCTL.KIND (i : Nat) : Fld := ⟨0xF000740000 + 0x80 * i, 3, 2, .rw, 0, 0, 2, false, false⟩
/-- RAD.CTXCTL[i].MODE (Table 03-22). -/
def RAD.CTXCTL.MODE (i : Nat) : Fld := ⟨0xF000740000 + 0x80 * i, 5, 1, .rw, 0, 0, 1, false, false⟩
/-- RAD.CTXCTL[i].ID (Table 03-22). -/
def RAD.CTXCTL.ID (i : Nat) : Fld := ⟨0xF000740000 + 0x80 * i, 16, 16, .rw, 0, 0, 0xFFFF, false, false⟩
/-- RAD.PLACE[i].IVL (Table 03-22). -/
def RAD.PLACE.IVL (i : Nat) : Fld := ⟨0xF000740004 + 0x80 * i, 19, 3, .rw, 3, 0, 6, false, false⟩
/-- RAD.PLACE[i].DOWN (Table 03-22). -/
def RAD.PLACE.DOWN (i : Nat) : Fld := ⟨0xF000740004 + 0x80 * i, 14, 5, .rw, 2, 0, 0x1F, false, false⟩
/-- RAD.PLACE[i].LEN (Table 03-22). -/
def RAD.PLACE.LEN (i : Nat) : Fld := ⟨0xF000740004 + 0x80 * i, 9, 5, .rw, 9, 0, 0x1F, false, false⟩
/-- RAD.PLACE[i].ANCHOR (Table 03-22). -/
def RAD.PLACE.ANCHOR (i : Nat) : Fld := ⟨0xF000740004 + 0x80 * i, 2, 7, .rw, 4, 0, 0x7F, false, false⟩
/-- RAD.PLACE[i].LANE (Table 03-22). -/
def RAD.PLACE.LANE (i : Nat) : Fld := ⟨0xF000740004 + 0x80 * i, 0, 2, .rw, 0, 0, 3, false, false⟩
/-- RAD.TIMERS[i].SUPV (Table 03-22). -/
def RAD.TIMERS.SUPV (i : Nat) : Fld := ⟨0xF000740008 + 0x80 * i, 0, 10, .rw, 0x32, 0, 0x3FF, false, false⟩
/-- RAD.TIMERS[i].STOPTO (Table 03-22). -/
def RAD.TIMERS.STOPTO (i : Nat) : Fld := ⟨0xF000740008 + 0x80 * i, 10, 4, .rw, 5, 0, 0xF, false, false⟩
/-- RAD.TIMERS[i].PPM (Table 03-22). -/
def RAD.TIMERS.PPM (i : Nat) : Fld := ⟨0xF000740008 + 0x80 * i, 14, 8, .rw, 0xFA, 0, 0xFF, false, false⟩
/-- RAD.FIRSTSF[i] (Table 03-22). -/
def RAD.FIRSTSF (i : Nat) : Fld := ⟨0xF00074000C + 0x80 * i, 0, 32, .rw, 0, 0, 0xFFFFFFFF, false, false⟩
/-- RAD.NEXTSF[i] (Table 03-22). -/
def RAD.NEXTSF (i : Nat) : Fld := ⟨0xF000740010 + 0x80 * i, 0, 32, .ro, 0, 0, 0xFFFFFFFF, false, false⟩
/-- RAD.EVC[i].EVENT (Table 03-22). -/
def RAD.EVC.EVENT (i : Nat) : Fld := ⟨0xF000740014 + 0x80 * i, 0, 16, .ro, 0, 0, 0xFFFF, false, false⟩
/-- RAD.EVC[i].INSTANT (Table 03-22). -/
def RAD.EVC.INSTANT (i : Nat) : Fld := ⟨0xF000740014 + 0x80 * i, 16, 16, .rw, 0, 0, 0xFFFF, false, false⟩
/-- RAD.EVX[i] (Table 03-22). -/
def RAD.EVX (i : Nat) : Fld := ⟨0xF000740018 + 0x80 * i, 0, 40, .ro, 0, 0, 0xFFFFFFFFFF, true, false⟩
/-- RAD.STATE[i].ERR (Table 03-22). -/
def RAD.STATE.ERR (i : Nat) : Fld := ⟨0xF000740020 + 0x80 * i, 11, 3, .w1c, 0, 0, 7, false, false⟩
/-- RAD.STATE[i].MAPPEND (Table 03-22). -/
def RAD.STATE.MAPPEND (i : Nat) : Fld := ⟨0xF000740020 + 0x80 * i, 10, 1, .ro, 0, 0, 1, false, false⟩
/-- RAD.STATE[i].UPDPEND (Table 03-22). -/
def RAD.STATE.UPDPEND (i : Nat) : Fld := ⟨0xF000740020 + 0x80 * i, 9, 1, .ro, 0, 0, 1, false, false⟩
/-- RAD.STATE[i].MDRX (Table 03-22). -/
def RAD.STATE.MDRX (i : Nat) : Fld := ⟨0xF000740020 + 0x80 * i, 8, 1, .w1c, 0, 0, 1, false, false⟩
/-- RAD.STATE[i].RXEXP (Table 03-22). -/
def RAD.STATE.RXEXP (i : Nat) : Fld := ⟨0xF000740020 + 0x80 * i, 7, 1, .ro, 0, 0, 1, false, false⟩
/-- RAD.STATE[i].TXSEQ (Table 03-22). -/
def RAD.STATE.TXSEQ (i : Nat) : Fld := ⟨0xF000740020 + 0x80 * i, 6, 1, .ro, 0, 0, 1, false, false⟩
/-- RAD.STATE[i].LINK (Table 03-22). -/
def RAD.STATE.LINK (i : Nat) : Fld := ⟨0xF000740020 + 0x80 * i, 0, 3, .ro, 0, 0, 7, false, false⟩
/-- RAD.PLACENXT[i].IVL (Table 03-22). -/
def RAD.PLACENXT.IVL (i : Nat) : Fld := ⟨0xF000740024 + 0x80 * i, 19, 3, .rw, 0, 0, 6, false, false⟩
/-- RAD.PLACENXT[i].DOWN (Table 03-22). -/
def RAD.PLACENXT.DOWN (i : Nat) : Fld := ⟨0xF000740024 + 0x80 * i, 14, 5, .rw, 0, 0, 0x1F, false, false⟩
/-- RAD.PLACENXT[i].LEN (Table 03-22). -/
def RAD.PLACENXT.LEN (i : Nat) : Fld := ⟨0xF000740024 + 0x80 * i, 9, 5, .rw, 0, 0, 0x1F, false, false⟩
/-- RAD.PLACENXT[i].ANCHOR (Table 03-22). -/
def RAD.PLACENXT.ANCHOR (i : Nat) : Fld := ⟨0xF000740024 + 0x80 * i, 2, 7, .rw, 0, 0, 0x7F, false, false⟩
/-- RAD.PLACENXT[i].LANE (Table 03-22). -/
def RAD.PLACENXT.LANE (i : Nat) : Fld := ⟨0xF000740024 + 0x80 * i, 0, 2, .rw, 0, 0, 3, false, false⟩
/-- RAD.TIMERSNXT[i].SUPV (Table 03-22). -/
def RAD.TIMERSNXT.SUPV (i : Nat) : Fld := ⟨0xF000740028 + 0x80 * i, 0, 10, .rw, 0, 0, 0x3FF, false, false⟩
/-- RAD.TIMERSNXT[i].STOPTO (Table 03-22). -/
def RAD.TIMERSNXT.STOPTO (i : Nat) : Fld := ⟨0xF000740028 + 0x80 * i, 10, 4, .rw, 0, 0, 0xF, false, false⟩
/-- RAD.TIMERSNXT[i].PPM (Table 03-22). -/
def RAD.TIMERSNXT.PPM (i : Nat) : Fld := ⟨0xF000740028 + 0x80 * i, 14, 8, .rw, 0, 0, 0xFF, false, false⟩
/-- RAD.LASTRX[i] (Table 03-22). -/
def RAD.LASTRX (i : Nat) : Fld := ⟨0xF00074002C + 0x80 * i, 0, 32, .ro, 0, 0, 0xFFFFFFFF, false, false⟩
/-- RAD.MISS[i] (Table 03-22). -/
def RAD.MISS (i : Nat) : Fld := ⟨0xF000740030 + 0x80 * i, 0, 32, .rc, 0, 0, 0xFFFFFFFF, false, false⟩
/-- RAD.KEYH[i].ENTRY (Table 03-22). -/
def RAD.KEYH.ENTRY (i : Nat) : Fld := ⟨0xF000740034 + 0x80 * i, 0, 8, .ro, 0, 0, 0xFF, false, false⟩
/-- RAD.KEYH[i].VALID (Table 03-22). -/
def RAD.KEYH.VALID (i : Nat) : Fld := ⟨0xF000740034 + 0x80 * i, 8, 1, .ro, 0, 0, 1, false, false⟩
/-- RAD.RSSI[i] (Table 03-22). -/
def RAD.RSSI (i : Nat) : Fld := ⟨0xF000740038 + 0x80 * i, 0, 32, .ro, 0xFFFFFF80, 0, 0xFFFFFFFF, false, false⟩
/-- RAD.STOPREQ (Table 04-13). -/
def RAD.STOPREQ : Fld := ⟨0xF000700800, 0, 32, .wo, 0, 0, 0xFFFFFFFF, false, true⟩
/-- RAD.BCNSTAT.TOKOK (Table 04-13). -/
def RAD.BCNSTAT.TOKOK : Fld := ⟨0xF000700804, 0, 1, .ro, 0, 0, 1, false, false⟩
/-- RAD.BCNSTAT.GSTOP (Table 04-13). -/
def RAD.BCNSTAT.GSTOP : Fld := ⟨0xF000700804, 1, 1, .ro, 0, 0, 1, false, false⟩
/-- RAD.BCNSTAT.RADD (Table 04-13). -/
def RAD.BCNSTAT.RADD : Fld := ⟨0xF000700804, 2, 1, .ro, 0, 0, 1, false, false⟩
/-- RAD.BCNSTAT.MOSS (Table 04-13). -/
def RAD.BCNSTAT.MOSS : Fld := ⟨0xF000700804, 3, 1, .ro, 0, 0, 1, false, false⟩
/-- RAD.BCNSTAT.CRAWL (Table 04-13). -/
def RAD.BCNSTAT.CRAWL : Fld := ⟨0xF000700804, 4, 1, .ro, 0, 0, 1, false, false⟩
/-- RAD.BCNSTAT.GRACE (Table 04-13). -/
def RAD.BCNSTAT.GRACE : Fld := ⟨0xF000700804, 5, 1, .ro, 0, 0, 1, false, false⟩
/-- RAD.BCNSTAT.CAUSE (Table 04-13). -/
def RAD.BCNSTAT.CAUSE : Fld := ⟨0xF000700804, 8, 8, .ro, 0, 0, 0xFF, false, false⟩
/-- RAD.BCNSTAT.EPOCH (Table 04-13). -/
def RAD.BCNSTAT.EPOCH : Fld := ⟨0xF000700804, 16, 16, .ro, 0, 0, 0xFFFF, false, false⟩
/-- RAD.BCNSF (Table 04-13). -/
def RAD.BCNSF : Fld := ⟨0xF000700808, 0, 32, .ro, 0, 0, 0xFFFFFFFF, false, false⟩
/-- RAD.NOTOK (Table 04-13). -/
def RAD.NOTOK : Fld := ⟨0xF00070080C, 0, 32, .rc, 0, 0, 0xFFFFFFFF, false, false⟩
/-- RAD.RADDCNT (Table 04-13). -/
def RAD.RADDCNT : Fld := ⟨0xF000700810, 0, 32, .rc, 0, 0, 0xFFFFFFFF, false, false⟩
/-- RAD.STOPRQCNT (Table 04-13). -/
def RAD.STOPRQCNT : Fld := ⟨0xF000700814, 0, 32, .rc, 0, 0, 0xFFFFFFFF, false, false⟩

/-- POS.BBCTL.COLD (Table 05-11). -/
def POS.BBCTL.COLD : Fld := ⟨0xF000800000, 1, 1, .wo, 0, 0, 1, false, true⟩
/-- POS.BBCTL.EN (Table 05-11). -/
def POS.BBCTL.EN : Fld := ⟨0xF000800000, 0, 1, .rw, 0, 0, 1, false, true⟩
/-- POS.BBSTAT.TRACKN (Table 05-11). -/
def POS.BBSTAT.TRACKN : Fld := ⟨0xF000800004, 4, 6, .ro, 0, 0, 0x3F, false, false⟩
/-- POS.BBSTAT.BASEKEPT (Table 05-11). -/
def POS.BBSTAT.BASEKEPT : Fld := ⟨0xF000800004, 3, 1, .ro, 0, 0, 1, false, false⟩
/-- POS.BBSTAT.KEEPBAD (Table 05-11). -/
def POS.BBSTAT.KEEPBAD : Fld := ⟨0xF000800004, 2, 1, .ro, 0, 0, 1, false, false⟩
/-- POS.BBSTAT.WARM (Table 05-11). -/
def POS.BBSTAT.WARM : Fld := ⟨0xF000800004, 1, 1, .ro, 0, 0, 1, false, false⟩
/-- POS.BBSTAT.RUN (Table 05-11). -/
def POS.BBSTAT.RUN : Fld := ⟨0xF000800004, 0, 1, .ro, 0, 0, 1, false, false⟩
/-- POS.AGC (Table 05-11). -/
def POS.AGC : Fld := ⟨0xF000800008, 0, 8, .ro, 0, 0, 0xFF, false, false⟩
/-- POS.ANTSTAT.CURRENT (Table 05-11). -/
def POS.ANTSTAT.CURRENT : Fld := ⟨0xF000800100, 8, 8, .ro, 0, 0, 0xFF, false, false⟩
/-- POS.ANTSTAT.FLTEVT (Table 05-11). -/
def POS.ANTSTAT.FLTEVT : Fld := ⟨0xF000800100, 3, 1, .w1c, 0, 0, 1, false, false⟩
/-- POS.ANTSTAT.SHORT (Table 05-11). -/
def POS.ANTSTAT.SHORT : Fld := ⟨0xF000800100, 2, 1, .ro, 0, 0, 1, false, false⟩
/-- POS.ANTSTAT.OPEN (Table 05-11). -/
def POS.ANTSTAT.OPEN : Fld := ⟨0xF000800100, 1, 1, .ro, 0, 0, 1, false, false⟩
/-- POS.ANTSTAT.BIASEN (Table 05-11). -/
def POS.ANTSTAT.BIASEN : Fld := ⟨0xF000800100, 0, 1, .rw, 1, 0, 1, false, false⟩
/-- POS.ACQCFG.THR (Table 05-11). -/
def POS.ACQCFG.THR : Fld := ⟨0xF000800200, 19, 8, .rw, 0x28, 0, 0xFF, false, false⟩
/-- POS.ACQCFG.DOPSTEP (Table 05-11). -/
def POS.ACQCFG.DOPSTEP : Fld := ⟨0xF000800200, 14, 5, .rw, 0xA, 1, 0x14, false, false⟩
/-- POS.ACQCFG.DOPSPAN (Table 05-11). -/
def POS.ACQCFG.DOPSPAN : Fld := ⟨0xF000800200, 9, 5, .rw, 0xA, 1, 0x14, false, false⟩
/-- POS.ACQCFG.NCOH (Table 05-11). -/
def POS.ACQCFG.NCOH : Fld := ⟨0xF000800200, 4, 5, .rw, 3, 0, 0x1F, false, false⟩
/-- POS.ACQCFG.COH (Table 05-11). -/
def POS.ACQCFG.COH : Fld := ⟨0xF000800200, 0, 4, .rw, 1, 1, 0xA, false, false⟩
/-- POS.SRCHLIST (Table 05-11). -/
def POS.SRCHLIST : Fld := ⟨0xF000800204, 0, 32, .rw, 0xFFFFFFFF, 0, 0xFFFFFFFF, false, false⟩
/-- POS.ACQSTAT.PRN (Table 05-11). -/
def POS.ACQSTAT.PRN : Fld := ⟨0xF000800208, 0, 6, .ro, 0, 0, 0x3F, false, false⟩
/-- POS.ACQSTAT.REACQ (Table 05-11). -/
def POS.ACQSTAT.REACQ : Fld := ⟨0xF000800208, 8, 1, .ro, 0, 0, 1, false, false⟩
/-- POS.ACQCNT (Table 05-11). -/
def POS.ACQCNT : Fld := ⟨0xF00080020C, 0, 32, .rc, 0, 0, 0xFFFFFFFF, false, false⟩
/-- POS.REACQWIN (Table 05-11). -/
def POS.REACQWIN : Fld := ⟨0xF000800210, 0, 32, .rw, 0xA, 1, 0x3C, false, false⟩
/-- POS.MEASCFG.PERIOD (Table 05-11). -/
def POS.MEASCFG.PERIOD : Fld := ⟨0xF000800300, 0, 3, .rw, 3, 0, 5, false, false⟩
/-- POS.EPOCHSEQ (Table 05-11). -/
def POS.EPOCHSEQ : Fld := ⟨0xF000800304, 0, 32, .ro, 0, 0, 0xFFFFFFFF, false, false⟩
/-- POS.EPSKIP (Table 05-11). -/
def POS.EPSKIP : Fld := ⟨0xF000800308, 0, 32, .rc, 0, 0, 0xFFFFFFFF, false, false⟩
/-- POS.MRINGBASE (Table 05-11). -/
def POS.MRINGBASE : Fld := ⟨0xF000800310, 0, 48, .rw, 0, 0, 0xFFFFFFFFFFFF, true, false⟩
/-- POS.MRINGCTL.SLOTS (Table 05-11). -/
def POS.MRINGCTL.SLOTS : Fld := ⟨0xF000800318, 0, 4, .rw, 4, 4, 0xA, false, false⟩
/-- POS.MRINGCTL.EN (Table 05-11). -/
def POS.MRINGCTL.EN : Fld := ⟨0xF000800318, 4, 1, .rw, 0, 0, 1, false, false⟩
/-- POS.MRINGWR (Table 05-11). -/
def POS.MRINGWR : Fld := ⟨0xF00080031C, 0, 32, .ro, 0, 0, 0xFFFFFFFF, false, false⟩
/-- POS.MRINGRD (Table 05-11). -/
def POS.MRINGRD : Fld := ⟨0xF000800320, 0, 32, .rw, 0, 0, 0xFFFFFFFF, false, false⟩
/-- POS.RINGDROP (Table 05-11). -/
def POS.RINGDROP : Fld := ⟨0xF000800324, 0, 32, .rc, 0, 0, 0xFFFFFFFF, false, false⟩
/-- POS.BASEX (Table 05-11). -/
def POS.BASEX : Fld := ⟨0xF000800400, 0, 64, .rw, 0, 0, 0xFFFFFFFFFFFFFFFF, true, false⟩
/-- POS.BASEY (Table 05-11). -/
def POS.BASEY : Fld := ⟨0xF000800408, 0, 64, .rw, 0, 0, 0xFFFFFFFFFFFFFFFF, true, false⟩
/-- POS.BASEZ (Table 05-11). -/
def POS.BASEZ : Fld := ⟨0xF000800410, 0, 64, .rw, 0, 0, 0xFFFFFFFFFFFFFFFF, true, false⟩
/-- POS.BASECTL.VALID (Table 05-11). -/
def POS.BASECTL.VALID : Fld := ⟨0xF000800418, 0, 1, .rw, 0, 0, 1, false, true⟩
/-- POS.BELMASK (Table 05-11). -/
def POS.BELMASK : Fld := ⟨0xF00080041C, 0, 32, .rw, 0xC, 0, 0x3C, false, false⟩
/-- POS.FIXCN0 (Table 05-11). -/
def POS.FIXCN0 : Fld := ⟨0xF000800420, 0, 32, .rw, 0x15E, 0, 0xFFFFFFFF, false, false⟩
/-- POS.BASESTAT.QUALN (Table 05-11). -/
def POS.BASESTAT.QUALN : Fld := ⟨0xF000800424, 8, 5, .ro, 0, 0, 0x1F, false, false⟩
/-- POS.BASESTAT.TCOK (Table 05-11). -/
def POS.BASESTAT.TCOK : Fld := ⟨0xF000800424, 2, 1, .ro, 0, 0, 1, false, false⟩
/-- POS.BASESTAT.FIXEVT (Table 05-11). -/
def POS.BASESTAT.FIXEVT : Fld := ⟨0xF000800424, 1, 1, .w1c, 0, 0, 1, false, false⟩
/-- POS.BASESTAT.FIXQ (Table 05-11). -/
def POS.BASESTAT.FIXQ : Fld := ⟨0xF000800424, 0, 1, .ro, 0, 0, 1, false, false⟩
/-- POS.TCLAST (Table 05-11). -/
def POS.TCLAST : Fld := ⟨0xF000800428, 0, 32, .ro, 0x80000000, 0, 0xFFFFFFFF, false, false⟩
/-- POS.TCREJ (Table 05-11). -/
def POS.TCREJ : Fld := ⟨0xF00080042C, 0, 32, .rc, 0, 0, 0xFFFFFFFF, false, false⟩
/-- POS.IONOA (Table 05-11). -/
def POS.IONOA : Fld := ⟨0xF000800430, 0, 32, .rw, 0, 0, 0xFFFFFFFF, false, false⟩
/-- POS.IONOB (Table 05-11). -/
def POS.IONOB : Fld := ⟨0xF000800434, 0, 32, .rw, 0, 0, 0xFFFFFFFF, false, false⟩
/-- POS.IONOCTL.VALID (Table 05-11). -/
def POS.IONOCTL.VALID : Fld := ⟨0xF000800438, 0, 1, .rw, 0, 0, 1, false, true⟩
/-- POS.EPHSTAT (Table 05-11). -/
def POS.EPHSTAT : Fld := ⟨0xF000800500, 0, 32, .ro, 0, 0, 0xFFFFFFFF, false, false⟩
/-- POS.HEALTH (Table 05-11). -/
def POS.HEALTH : Fld := ⟨0xF000800504, 0, 32, .ro, 0, 0, 0xFFFFFFFF, false, false⟩
/-- POS.EPHCNT (Table 05-11). -/
def POS.EPHCNT : Fld := ⟨0xF000800508, 0, 32, .rc, 0, 0, 0xFFFFFFFF, false, false⟩
/-- POS.NAVDROP (Table 05-11). -/
def POS.NAVDROP : Fld := ⟨0xF00080050C, 0, 32, .rc, 0, 0, 0xFFFFFFFF, false, false⟩
/-- POS.RTCMCFG.EN (Table 05-11). -/
def POS.RTCMCFG.EN : Fld := ⟨0xF000800600, 0, 1, .rw, 0, 0, 1, false, false⟩
/-- POS.RTCMCFG.STAID (Table 05-11). -/
def POS.RTCMCFG.STAID : Fld := ⟨0xF000800600, 2, 12, .rw, 0, 0, 0xFFF, false, false⟩
/-- POS.RTCMCNT (Table 05-11). -/
def POS.RTCMCNT : Fld := ⟨0xF000800604, 0, 32, .rc, 0, 0, 0xFFFFFFFF, false, false⟩
/-- POS.RTCMDROP (Table 05-11). -/
def POS.RTCMDROP : Fld := ⟨0xF000800608, 0, 32, .rc, 0, 0, 0xFFFFFFFF, false, false⟩
/-- POS.CHCTL[i].PRN (Table 05-13). -/
def POS.CHCTL.PRN (i : Nat) : Fld := ⟨0xF000810000 + 0x80 * i, 0, 6, .rw, 0, 0, 0x20, false, true⟩
/-- POS.CHCTL[i].PIN (Table 05-13). -/
def POS.CHCTL.PIN (i : Nat) : Fld := ⟨0xF000810000 + 0x80 * i, 6, 1, .rw, 0, 0, 1, false, true⟩
/-- POS.CHCTL[i].REL (Table 05-13). -/
def POS.CHCTL.REL (i : Nat) : Fld := ⟨0xF000810000 + 0x80 * i, 7, 1, .wo, 0, 0, 1, false, true⟩
/-- POS.CHCTL[i].EN (Table 05-13). -/
def POS.CHCTL.EN (i : Nat) : Fld := ⟨0xF000810000 + 0x80 * i, 8, 1, .rw, 1, 0, 1, false, true⟩
/-- POS.CHSTAT[i].STATE (Table 05-13). -/
def POS.CHSTAT.STATE (i : Nat) : Fld := ⟨0xF000810004 + 0x80 * i, 0, 3, .ro, 0, 0, 7, false, false⟩
/-- POS.CHSTAT[i].TRACK (Table 05-13). -/
def POS.CHSTAT.TRACK (i : Nat) : Fld := ⟨0xF000810004 + 0x80 * i, 3, 1, .ro, 0, 0, 1, false, false⟩
/-- POS.CHSTAT[i].CARRIER (Table 05-13). -/
def POS.CHSTAT.CARRIER (i : Nat) : Fld := ⟨0xF000810004 + 0x80 * i, 4, 1, .ro, 0, 0, 1, false, false⟩
/-- POS.CHSTAT[i].HALF (Table 05-13). -/
def POS.CHSTAT.HALF (i : Nat) : Fld := ⟨0xF000810004 + 0x80 * i, 5, 1, .ro, 0, 0, 1, false, false⟩
/-- POS.CHSTAT[i].FSYNC (Table 05-13). -/
def POS.CHSTAT.FSYNC (i : Nat) : Fld := ⟨0xF000810004 + 0x80 * i, 6, 1, .ro, 0, 0, 1, false, false⟩
/-- POS.CHSTAT[i].BSYNC (Table 05-13). -/
def POS.CHSTAT.BSYNC (i : Nat) : Fld := ⟨0xF000810004 + 0x80 * i, 7, 1, .ro, 0, 0, 1, false, false⟩
/-- POS.CHSTAT[i].EPH (Table 05-13). -/
def POS.CHSTAT.EPH (i : Nat) : Fld := ⟨0xF000810004 + 0x80 * i, 8, 1, .ro, 0, 0, 1, false, false⟩
/-- POS.CHSTAT[i].HEALTHY (Table 05-13). -/
def POS.CHSTAT.HEALTHY (i : Nat) : Fld := ⟨0xF000810004 + 0x80 * i, 9, 1, .ro, 0, 0, 1, false, false⟩
/-- POS.CHSTAT[i].INT20 (Table 05-13). -/
def POS.CHSTAT.INT20 (i : Nat) : Fld := ⟨0xF000810004 + 0x80 * i, 10, 1, .ro, 0, 0, 1, false, false⟩
/-- POS.CHSTAT[i].BTCAP (Table 05-13). -/
def POS.CHSTAT.BTCAP (i : Nat) : Fld := ⟨0xF000810004 + 0x80 * i, 12, 1, .ro, 0, 0, 1, false, false⟩
/-- POS.CHSTAT[i].PRN (Table 05-13). -/
def POS.CHSTAT.PRN (i : Nat) : Fld := ⟨0xF000810004 + 0x80 * i, 16, 6, .ro, 0, 0, 0x3F, false, false⟩
/-- POS.CODEFRAC[i] (Table 05-13). -/
def POS.CODEFRAC (i : Nat) : Fld := ⟨0xF000810008 + 0x80 * i, 0, 32, .ro, 0, 0, 0xFFFFFFFF, false, false⟩
/-- POS.TXMS[i] (Table 05-13). -/
def POS.TXMS (i : Nat) : Fld := ⟨0xF00081000C + 0x80 * i, 0, 32, .ro, 0, 0, 0xFFFFFFFF, false, false⟩
/-- POS.ACP[i] (Table 05-13). -/
def POS.ACP (i : Nat) : Fld := ⟨0xF000810010 + 0x80 * i, 0, 64, .ro, 0, 0, 0xFFFFFFFFFFFFFFFF, true, false⟩
/-- POS.DOPPLER[i] (Table 05-13). -/
def POS.DOPPLER (i : Nat) : Fld := ⟨0xF000810018 + 0x80 * i, 0, 32, .ro, 0, 0, 0xFFFFFFFF, false, false⟩
/-- POS.CN0[i] (Table 05-13). -/
def POS.CN0 (i : Nat) : Fld := ⟨0xF00081001C + 0x80 * i, 0, 16, .ro, 0, 0, 0xFFFF, false, false⟩
/-- POS.LOCKT[i] (Table 05-13). -/
def POS.LOCKT (i : Nat) : Fld := ⟨0xF000810020 + 0x80 * i, 0, 32, .ro, 0, 0, 0xFFFFFFFF, false, false⟩
/-- POS.ELAZ[i].ELEV (Table 05-13). -/
def POS.ELAZ.ELEV (i : Nat) : Fld := ⟨0xF000810024 + 0x80 * i, 0, 8, .ro, 0x80, 0, 0xFF, false, false⟩
/-- POS.ELAZ[i].AZIM (Table 05-13). -/
def POS.ELAZ.AZIM (i : Nat) : Fld := ⟨0xF000810024 + 0x80 * i, 8, 8, .ro, 0xFF, 0, 0xFF, false, false⟩
/-- POS.PLLCFG[i].BW (Table 05-13). -/
def POS.PLLCFG.BW (i : Nat) : Fld := ⟨0xF000810028 + 0x80 * i, 0, 5, .rw, 5, 1, 0x1E, false, false⟩
/-- POS.PLLCFG[i].ORDER (Table 05-13). -/
def POS.PLLCFG.ORDER (i : Nat) : Fld := ⟨0xF000810028 + 0x80 * i, 8, 1, .rw, 1, 0, 1, false, false⟩
/-- POS.FLLCFG[i].BW (Table 05-13). -/
def POS.FLLCFG.BW (i : Nat) : Fld := ⟨0xF00081002C + 0x80 * i, 0, 5, .rw, 0xA, 1, 0x14, false, false⟩
/-- POS.FLLCFG[i].LIMIT (Table 05-13). -/
def POS.FLLCFG.LIMIT (i : Nat) : Fld := ⟨0xF00081002C + 0x80 * i, 8, 8, .rw, 0x32, 1, 0xFF, false, false⟩
/-- POS.DLLCFG[i].BW (Table 05-13). -/
def POS.DLLCFG.BW (i : Nat) : Fld := ⟨0xF000810030 + 0x80 * i, 0, 8, .rw, 0x32, 5, 0xC8, false, false⟩
/-- POS.DLLCFG[i].SPACING (Table 05-13). -/
def POS.DLLCFG.SPACING (i : Nat) : Fld := ⟨0xF000810030 + 0x80 * i, 8, 6, .rw, 0xA, 5, 0x32, false, false⟩
/-- POS.LOOPCTL[i].INT20EN (Table 05-13). -/
def POS.LOOPCTL.INT20EN (i : Nat) : Fld := ⟨0xF000810034 + 0x80 * i, 0, 1, .rw, 1, 0, 1, false, false⟩
/-- POS.CORR[i][j] (Table 05-13). -/
def POS.CORR (i j : Nat) : Fld := ⟨0xF000810038 + 0x80 * i + 0x4 * j, 0, 32, .ro, 0, 0, 0xFFFFFFFF, false, false⟩
/-- POS.LOCKIND[i] (Table 05-13). -/
def POS.LOCKIND (i : Nat) : Fld := ⟨0xF00081004C + 0x80 * i, 0, 16, .ro, 0, 0, 0xFFFF, false, false⟩
/-- POS.SLIPCNT[i] (Table 05-13). -/
def POS.SLIPCNT (i : Nat) : Fld := ⟨0xF000810050 + 0x80 * i, 0, 32, .rc, 0, 0, 0xFFFFFFFF, false, false⟩
/-- POS.PARERR[i] (Table 05-13). -/
def POS.PARERR (i : Nat) : Fld := ⟨0xF000810054 + 0x80 * i, 0, 32, .rc, 0, 0, 0xFFFFFFFF, false, false⟩
/-- POS.WORDCNT[i] (Table 05-13). -/
def POS.WORDCNT (i : Nat) : Fld := ⟨0xF000810058 + 0x80 * i, 0, 32, .rc, 0, 0, 0xFFFFFFFF, false, false⟩
/-- POS.REACQCNT[i] (Table 05-13). -/
def POS.REACQCNT (i : Nat) : Fld := ⟨0xF00081005C + 0x80 * i, 0, 32, .rc, 0, 0, 0xFFFFFFFF, false, false⟩
/-- POS.SOLCTL.EN (Table 06-11). -/
def POS.SOLCTL.EN : Fld := ⟨0xF000820000, 0, 1, .rw, 0, 0, 1, false, true⟩
/-- POS.SOLSTAT.ACTIVE (Table 06-11). -/
def POS.SOLSTAT.ACTIVE : Fld := ⟨0xF000820004, 16, 8, .ro, 0, 0, 0xFF, false, false⟩
/-- POS.SOLSTAT.STORECNT (Table 06-11). -/
def POS.SOLSTAT.STORECNT : Fld := ⟨0xF000820004, 8, 7, .ro, 0, 0, 0x7F, false, false⟩
/-- POS.SOLSTAT.PIPEBUSY (Table 06-11). -/
def POS.SOLSTAT.PIPEBUSY : Fld := ⟨0xF000820004, 4, 4, .ro, 0, 0, 0xF, false, false⟩
/-- POS.SOLSTAT.CARROK (Table 06-11). -/
def POS.SOLSTAT.CARROK : Fld := ⟨0xF000820004, 3, 1, .ro, 0, 0, 1, false, false⟩
/-- POS.SOLSTAT.BASEOK (Table 06-11). -/
def POS.SOLSTAT.BASEOK : Fld := ⟨0xF000820004, 2, 1, .ro, 0, 0, 1, false, false⟩
/-- POS.SOLSTAT.SITEOK (Table 06-11). -/
def POS.SOLSTAT.SITEOK : Fld := ⟨0xF000820004, 1, 1, .ro, 0, 0, 1, false, false⟩
/-- POS.SOLSTAT.RUN (Table 06-11). -/
def POS.SOLSTAT.RUN : Fld := ⟨0xF000820004, 0, 1, .ro, 0, 0, 1, false, false⟩
/-- POS.SOLEVT.CHGTOK (Table 06-11). -/
def POS.SOLEVT.CHGTOK : Fld := ⟨0xF000820008, 17, 1, .rw, 0, 0, 1, false, false⟩
/-- POS.SOLEVT.SOLTOK (Table 06-11). -/
def POS.SOLEVT.SOLTOK : Fld := ⟨0xF000820008, 16, 1, .rw, 0, 0, 1, false, false⟩
/-- POS.SOLEVT.CHGN (Table 06-11). -/
def POS.SOLEVT.CHGN : Fld := ⟨0xF000820008, 8, 8, .rw, 0, 0, 0xFF, false, false⟩
/-- POS.SOLEVT.SOLN (Table 06-11). -/
def POS.SOLEVT.SOLN : Fld := ⟨0xF000820008, 0, 8, .rw, 0, 0, 0xFF, false, false⟩
/-- POS.CTXBASE (Table 06-11). -/
def POS.CTXBASE : Fld := ⟨0xF000820010, 0, 48, .rw, 0, 0, 0xFFFFFFFFFFFF, true, false⟩
/-- POS.SRINGBASE (Table 06-11). -/
def POS.SRINGBASE : Fld := ⟨0xF000820018, 0, 48, .rw, 0, 0, 0xFFFFFFFFFFFF, true, false⟩
/-- POS.SRINGCTL.SLOTS (Table 06-11). -/
def POS.SRINGCTL.SLOTS : Fld := ⟨0xF000820020, 0, 4, .rw, 8, 6, 0xE, false, false⟩
/-- POS.SRINGCTL.EN (Table 06-11). -/
def POS.SRINGCTL.EN : Fld := ⟨0xF000820020, 4, 1, .rw, 0, 0, 1, false, false⟩
/-- POS.SRINGWR (Table 06-11). -/
def POS.SRINGWR : Fld := ⟨0xF000820024, 0, 32, .ro, 0, 0, 0xFFFFFFFF, false, false⟩
/-- POS.SRINGRD (Table 06-11). -/
def POS.SRINGRD : Fld := ⟨0xF000820028, 0, 32, .rw, 0, 0, 0xFFFFFFFF, false, false⟩
/-- POS.SRINGDROP (Table 06-11). -/
def POS.SRINGDROP : Fld := ⟨0xF00082002C, 0, 32, .rc, 0, 0, 0xFFFFFFFF, false, false⟩
/-- POS.ROVEN[i] (Table 06-11). -/
def POS.ROVEN (i : Nat) : Fld := ⟨0xF000820040 + 0x4 * i, 0, 32, .rw, 0, 0, 0xFFFFFFFF, false, true⟩
/-- POS.ROVRST (Table 06-11). -/
def POS.ROVRST : Fld := ⟨0xF000820050, 0, 7, .wo, 0, 0, 0x7F, false, true⟩
/-- POS.SITEX (Table 06-11). -/
def POS.SITEX : Fld := ⟨0xF000820100, 0, 64, .rw, 0, 0, 0xFFFFFFFFFFFFFFFF, true, false⟩
/-- POS.SITEY (Table 06-11). -/
def POS.SITEY : Fld := ⟨0xF000820108, 0, 64, .rw, 0, 0, 0xFFFFFFFFFFFFFFFF, true, false⟩
/-- POS.SITEZ (Table 06-11). -/
def POS.SITEZ : Fld := ⟨0xF000820110, 0, 64, .rw, 0, 0, 0xFFFFFFFFFFFFFFFF, true, false⟩
/-- POS.SITEROT[i] (Table 06-11). -/
def POS.SITEROT (i : Nat) : Fld := ⟨0xF000820118 + 0x4 * i, 0, 32, .rw, 0, 0, 0xFFFFFFFF, false, false⟩
/-- POS.SITECTL.VALID (Table 06-11). -/
def POS.SITECTL.VALID : Fld := ⟨0xF00082013C, 0, 1, .rw, 0, 0, 1, false, true⟩
/-- POS.SITECTL.REFUSED (Table 06-11). -/
def POS.SITECTL.REFUSED : Fld := ⟨0xF00082013C, 1, 1, .w1c, 0, 0, 1, false, true⟩
/-- POS.ELMASK (Table 06-11). -/
def POS.ELMASK : Fld := ⟨0xF000820200, 0, 32, .rw, 0xC, 0, 0x3C, false, false⟩
/-- POS.CN0MIN (Table 06-11). -/
def POS.CN0MIN : Fld := ⟨0xF000820204, 0, 32, .rw, 0x12C, 0xC8, 0x1C2, false, false⟩
/-- POS.SIGPH (Table 06-11). -/
def POS.SIGPH : Fld := ⟨0xF000820208, 0, 32, .rw, 0x1E, 5, 0xC8, false, false⟩
/-- POS.SIGCODE (Table 06-11). -/
def POS.SIGCODE : Fld := ⟨0xF00082020C, 0, 32, .rw, 0x12C, 0x32, 0x1388, false, false⟩
/-- POS.QH (Table 06-11). -/
def POS.QH : Fld := ⟨0xF000820210, 0, 32, .rw, 0x3D090, 0, 0xFFFFFFFF, false, false⟩
/-- POS.QV (Table 06-11). -/
def POS.QV : Fld := ⟨0xF000820214, 0, 32, .rw, 0x2710, 0, 0xFFFFFFFF, false, false⟩
/-- POS.ODOK (Table 06-11). -/
def POS.ODOK : Fld := ⟨0xF000820218, 0, 32, .rw, 0x14, 1, 0xC8, false, false⟩
/-- POS.ODO0 (Table 06-11). -/
def POS.ODO0 : Fld := ⟨0xF00082021C, 0, 32, .rw, 5, 0, 0x64, false, false⟩
/-- POS.FIXGATE (Table 06-11). -/
def POS.FIXGATE : Fld := ⟨0xF000820220, 0, 32, .rw, 0xFA, 0x14, 0x7D0, false, false⟩
/-- POS.AMBGATE (Table 06-11). -/
def POS.AMBGATE : Fld := ⟨0xF000820224, 0, 32, .rw, 0x96, 0xA, 0x3E8, false, false⟩
/-- POS.RATIO (Table 06-11). -/
def POS.RATIO : Fld := ⟨0xF000820228, 0, 16, .rw, 0x300, 0x180, 0xA00, false, false⟩
/-- POS.SRCHMAX (Table 06-11). -/
def POS.SRCHMAX : Fld := ⟨0xF00082022C, 0, 32, .rw, 0x1000, 0x100, 0x4000, false, false⟩
/-- POS.ANCHSIG (Table 06-11). -/
def POS.ANCHSIG : Fld := ⟨0xF000820230, 0, 32, .rw, 5, 1, 0x32, false, false⟩
/-- POS.ANCHCHK (Table 06-11). -/
def POS.ANCHCHK : Fld := ⟨0xF000820234, 0, 32, .rw, 0x7D0, 0xC8, 0x2710, false, false⟩
/-- POS.AMBHOLD (Table 06-11). -/
def POS.AMBHOLD : Fld := ⟨0xF000820238, 0, 32, .rw, 0x7D0, 0, 0x2710, false, false⟩
/-- POS.RESETGAP (Table 06-11). -/
def POS.RESETGAP : Fld := ⟨0xF00082023C, 0, 32, .rw, 0x2710, 0x3E8, 0xEA60, false, false⟩
/-- POS.SLIPTHR (Table 06-11). -/
def POS.SLIPTHR : Fld := ⟨0xF000820240, 0, 32, .rw, 0x19, 5, 0x64, false, false⟩
/-- POS.REFHYST (Table 06-11). -/
def POS.REFHYST : Fld := ⟨0xF000820244, 0, 32, .rw, 0xA, 0, 0x1E, false, false⟩
/-- POS.RECIN (Table 06-11). -/
def POS.RECIN : Fld := ⟨0xF000820300, 0, 32, .rc, 0, 0, 0xFFFFFFFF, false, false⟩
/-- POS.RECBAD (Table 06-11). -/
def POS.RECBAD : Fld := ⟨0xF000820304, 0, 32, .rc, 0, 0, 0xFFFFFFFF, false, false⟩
/-- POS.RECNOEN (Table 06-11). -/
def POS.RECNOEN : Fld := ⟨0xF000820308, 0, 32, .rc, 0, 0, 0xFFFFFFFF, false, false⟩
/-- POS.RECSTALE (Table 06-11). -/
def POS.RECSTALE : Fld := ⟨0xF00082030C, 0, 32, .rc, 0, 0, 0xFFFFFFFF, false, false⟩
/-- POS.RECOLD (Table 06-11). -/
def POS.RECOLD : Fld := ⟨0xF000820310, 0, 32, .rc, 0, 0, 0xFFFFFFFF, false, false⟩
/-- POS.CTXFLT (Table 06-11). -/
def POS.CTXFLT : Fld := ⟨0xF000820314, 0, 32, .rc, 0, 0, 0xFFFFFFFF, false, false⟩
/-- POS.FIXCNT (Table 06-11). -/
def POS.FIXCNT : Fld := ⟨0xF000820318, 0, 32, .rc, 0, 0, 0xFFFFFFFF, false, false⟩
/-- POS.FIXREL (Table 06-11). -/
def POS.FIXREL : Fld := ⟨0xF00082031C, 0, 32, .rc, 0, 0, 0xFFFFFFFF, false, false⟩
/-- POS.RATIOFAIL (Table 06-11). -/
def POS.RATIOFAIL : Fld := ⟨0xF000820320, 0, 32, .rc, 0, 0, 0xFFFFFFFF, false, false⟩
/-- POS.SRCHOVF (Table 06-11). -/
def POS.SRCHOVF : Fld := ⟨0xF000820324, 0, 32, .rc, 0, 0, 0xFFFFFFFF, false, false⟩
/-- POS.INNOREJ (Table 06-11). -/
def POS.INNOREJ : Fld := ⟨0xF000820328, 0, 32, .rc, 0, 0, 0xFFFFFFFF, false, false⟩
/-- POS.DOCKACC (Table 06-11). -/
def POS.DOCKACC : Fld := ⟨0xF00082032C, 0, 32, .rc, 0, 0, 0xFFFFFFFF, false, false⟩
/-- POS.DOCKREF (Table 06-11). -/
def POS.DOCKREF : Fld := ⟨0xF000820330, 0, 32, .rc, 0, 0, 0xFFFFFFFF, false, false⟩
/-- POS.LATMAX (Table 06-11). -/
def POS.LATMAX : Fld := ⟨0xF000820334, 0, 32, .rc, 0, 0, 0xFFFFFFFF, false, false⟩
/-- POS.LATLAST (Table 06-11). -/
def POS.LATLAST : Fld := ⟨0xF000820338, 0, 32, .ro, 0, 0, 0xFFFFFFFF, false, false⟩
/-- POS.PIPESTAT[i].BUSY (Table 06-11). -/
def POS.PIPESTAT.BUSY (i : Nat) : Fld := ⟨0xF000820400 + 0x4 * i, 31, 1, .ro, 0, 0, 1, false, false⟩
/-- POS.PIPESTAT[i].ROVER (Table 06-11). -/
def POS.PIPESTAT.ROVER (i : Nat) : Fld := ⟨0xF000820400 + 0x4 * i, 0, 7, .ro, 0, 0, 0x7F, false, false⟩
/-- POS.DOCKE[i] (Table 06-11). -/
def POS.DOCKE (i : Nat) : Fld := ⟨0xF000821000 + 0x10 * i, 0, 32, .rw, 0, 0, 0xFFFFFFFF, false, false⟩
/-- POS.DOCKN[i] (Table 06-11). -/
def POS.DOCKN (i : Nat) : Fld := ⟨0xF000821004 + 0x10 * i, 0, 32, .rw, 0, 0, 0xFFFFFFFF, false, false⟩
/-- POS.DOCKU[i] (Table 06-11). -/
def POS.DOCKU (i : Nat) : Fld := ⟨0xF000821008 + 0x10 * i, 0, 32, .rw, 0, 0, 0xFFFFFFFF, false, false⟩
/-- POS.DOCKCTL[i].VALID (Table 06-11). -/
def POS.DOCKCTL.VALID (i : Nat) : Fld := ⟨0xF00082100C + 0x10 * i, 0, 1, .rw, 0, 0, 1, false, false⟩

/-- SQ.QPUSHLO[i] (Table 11-5). -/
def SQ.QPUSHLO (i : Nat) : Fld := ⟨0xF100000000 + 0x1000 * i, 0, 32, .wo, 0, 0, 0xFFFFFFFF, false, true⟩
/-- SQ.QPUSHHI[i] (Table 11-5). -/
def SQ.QPUSHHI (i : Nat) : Fld := ⟨0xF100000004 + 0x1000 * i, 0, 32, .wo, 0, 0, 0xFFFFFFFF, false, true⟩
/-- SQ.QPOPLO[i] (Table 11-5). -/
def SQ.QPOPLO (i : Nat) : Fld := ⟨0xF100000008 + 0x1000 * i, 0, 32, .ro, 0, 0, 0xFFFFFFFF, false, true⟩
/-- SQ.QPOPHI[i] (Table 11-5). -/
def SQ.QPOPHI (i : Nat) : Fld := ⟨0xF10000000C + 0x1000 * i, 0, 32, .ro, 0, 0, 0xFFFFFFFF, false, true⟩
/-- SQ.QCTL[i].HEADLEN (Table 11-5). -/
def SQ.QCTL.HEADLEN (i : Nat) : Fld := ⟨0xF100000010 + 0x1000 * i, 16, 7, .ro, 0, 0, 0x7F, false, false⟩
/-- SQ.QCTL[i].RELEASE (Table 11-5). -/
def SQ.QCTL.RELEASE (i : Nat) : Fld := ⟨0xF100000010 + 0x1000 * i, 10, 1, .wo, 0, 0, 1, false, true⟩
/-- SQ.QCTL[i].REWIND (Table 11-5). -/
def SQ.QCTL.REWIND (i : Nat) : Fld := ⟨0xF100000010 + 0x1000 * i, 9, 1, .wo, 0, 0, 1, false, true⟩
/-- SQ.QCTL[i].MARK (Table 11-5). -/
def SQ.QCTL.MARK (i : Nat) : Fld := ⟨0xF100000010 + 0x1000 * i, 8, 1, .wo, 0, 0, 1, false, true⟩
/-- SQ.QCTL[i].END (Table 11-5). -/
def SQ.QCTL.END (i : Nat) : Fld := ⟨0xF100000010 + 0x1000 * i, 2, 1, .rw, 0, 0, 1, false, false⟩
/-- SQ.QCTL[i].PRI (Table 11-5). -/
def SQ.QCTL.PRI (i : Nat) : Fld := ⟨0xF100000010 + 0x1000 * i, 0, 2, .rw, 0, 0, 3, false, false⟩
/-- SQ.QSTAT[i].ECCUNC (Table 11-5). -/
def SQ.QSTAT.ECCUNC (i : Nat) : Fld := ⟨0xF100000014 + 0x1000 * i, 26, 1, .w1c, 0, 0, 1, false, false⟩
/-- SQ.QSTAT[i].ECCCOR (Table 11-5). -/
def SQ.QSTAT.ECCCOR (i : Nat) : Fld := ⟨0xF100000014 + 0x1000 * i, 25, 1, .w1c, 0, 0, 1, false, false⟩
/-- SQ.QSTAT[i].MARKERR (Table 11-5). -/
def SQ.QSTAT.MARKERR (i : Nat) : Fld := ⟨0xF100000014 + 0x1000 * i, 24, 1, .w1c, 0, 0, 1, false, false⟩
/-- SQ.QSTAT[i].OVERSIZE (Table 11-5). -/
def SQ.QSTAT.OVERSIZE (i : Nat) : Fld := ⟨0xF100000014 + 0x1000 * i, 23, 1, .w1c, 0, 0, 1, false, false⟩
/-- SQ.QSTAT[i].POPEMPTY (Table 11-5). -/
def SQ.QSTAT.POPEMPTY (i : Nat) : Fld := ⟨0xF100000014 + 0x1000 * i, 22, 1, .w1c, 0, 0, 1, false, false⟩
/-- SQ.QSTAT[i].PUSHREF (Table 11-5). -/
def SQ.QSTAT.PUSHREF (i : Nat) : Fld := ⟨0xF100000014 + 0x1000 * i, 21, 1, .w1c, 0, 0, 1, false, false⟩
/-- SQ.QSTAT[i].MARKED (Table 11-5). -/
def SQ.QSTAT.MARKED (i : Nat) : Fld := ⟨0xF100000014 + 0x1000 * i, 20, 1, .ro, 0, 0, 1, false, false⟩
/-- SQ.QSTAT[i].LASTEND (Table 11-5). -/
def SQ.QSTAT.LASTEND (i : Nat) : Fld := ⟨0xF100000014 + 0x1000 * i, 19, 1, .ro, 0, 0, 1, false, false⟩
/-- SQ.QSTAT[i].INPKT (Table 11-5). -/
def SQ.QSTAT.INPKT (i : Nat) : Fld := ⟨0xF100000014 + 0x1000 * i, 18, 1, .ro, 0, 0, 1, false, false⟩
/-- SQ.QSTAT[i].HEADPRI (Table 11-5). -/
def SQ.QSTAT.HEADPRI (i : Nat) : Fld := ⟨0xF100000014 + 0x1000 * i, 16, 2, .ro, 0, 0, 3, false, false⟩
/-- SQ.QSTAT[i].AVAIL (Table 11-5). -/
def SQ.QSTAT.AVAIL (i : Nat) : Fld := ⟨0xF100000014 + 0x1000 * i, 15, 1, .ro, 0, 0, 1, false, false⟩
/-- SQ.QSTAT[i].FULL (Table 11-5). -/
def SQ.QSTAT.FULL (i : Nat) : Fld := ⟨0xF100000014 + 0x1000 * i, 14, 1, .ro, 0, 0, 1, false, false⟩
/-- SQ.QSTAT[i].DEPTH (Table 11-5). -/
def SQ.QSTAT.DEPTH (i : Nat) : Fld := ⟨0xF100000014 + 0x1000 * i, 11, 3, .ro, 0, 0, 7, false, false⟩
/-- SQ.QSTAT[i].FILL (Table 11-5). -/
def SQ.QSTAT.FILL (i : Nat) : Fld := ⟨0xF100000014 + 0x1000 * i, 0, 11, .ro, 0, 0, 0x7FF, false, false⟩
/-- SQ.QPKTA[i].P0 (Table 11-5). -/
def SQ.QPKTA.P0 (i : Nat) : Fld := ⟨0xF100000018 + 0x1000 * i, 0, 11, .ro, 0, 0, 0x7FF, false, false⟩
/-- SQ.QPKTA[i].P1 (Table 11-5). -/
def SQ.QPKTA.P1 (i : Nat) : Fld := ⟨0xF100000018 + 0x1000 * i, 16, 11, .ro, 0, 0, 0x7FF, false, false⟩
/-- SQ.QPKTB[i].P2 (Table 11-5). -/
def SQ.QPKTB.P2 (i : Nat) : Fld := ⟨0xF10000001C + 0x1000 * i, 0, 11, .ro, 0, 0, 0x7FF, false, false⟩
/-- SQ.QPKTB[i].P3 (Table 11-5). -/
def SQ.QPKTB.P3 (i : Nat) : Fld := ⟨0xF10000001C + 0x1000 * i, 16, 11, .ro, 0, 0, 0x7FF, false, false⟩

/-- FERRY.W[i][j] (Table 11-10). -/
def FERRY.W (i j : Nat) : Fld := ⟨0xF100080000 + 0x100 * i + 0x8 * j, 0, 64, .rw, 0, 0, 0xFFFFFFFFFFFFFFFF, true, true⟩
/-- FERRY.SEND[i] (Table 11-10). -/
def FERRY.SEND (i : Nat) : Fld := ⟨0xF100080080 + 0x100 * i, 0, 32, .wo, 0, 0, 0xFFFFFFFF, false, true⟩
/-- FERRY.TAKE[i] (Table 11-10). -/
def FERRY.TAKE (i : Nat) : Fld := ⟨0xF100080084 + 0x100 * i, 0, 32, .ro, 0, 0, 0xFFFFFFFF, false, true⟩
/-- FERRY.PEEK[i] (Table 11-10). -/
def FERRY.PEEK (i : Nat) : Fld := ⟨0xF100080088 + 0x100 * i, 0, 32, .ro, 0, 0, 0xFFFFFFFF, false, true⟩
/-- FERRY.FSTAT[i].FULL (Table 11-10). -/
def FERRY.FSTAT.FULL (i : Nat) : Fld := ⟨0xF10008008C + 0x100 * i, 0, 1, .ro, 0, 0, 1, false, false⟩
/-- FERRY.FCFG[i].SENDER (Table 11-10). -/
def FERRY.FCFG.SENDER (i : Nat) : Fld := ⟨0xF100080090 + 0x100 * i, 0, 5, .rwl, (if i < 4 then 0x1F else if i < 8 then 8 else 0x1E), 0, 0x1F, false, false⟩
/-- FERRY.FCFG[i].RECEIVER (Table 11-10). -/
def FERRY.FCFG.RECEIVER (i : Nat) : Fld := ⟨0xF100080090 + 0x100 * i, 8, 5, .rwl, (if i < 4 then 8 else 0x1F), 0, 0x1F, false, false⟩
/-- FERRY.FCFG[i].LOCK (Table 11-10). -/
def FERRY.FCFG.LOCK (i : Nat) : Fld := ⟨0xF100080090 + 0x100 * i, 31, 1, .rwl, (if i < 8 then 1 else 0), 0, 1, false, false⟩
/-- FERRY.REFCNT[i] (Table 11-10). -/
def FERRY.REFCNT (i : Nat) : Fld := ⟨0xF100080094 + 0x100 * i, 0, 32, .rc, 0, 0, 0xFFFFFFFF, false, false⟩
/-- FERRY.MSGCNT[i] (Table 11-10). -/
def FERRY.MSGCNT (i : Nat) : Fld := ⟨0xF100080098 + 0x100 * i, 0, 32, .rc, 0, 0, 0xFFFFFFFF, false, false⟩

/-- BELL.DBELL[i] (Table 11-12). -/
def BELL.DBELL (i : Nat) : Fld := ⟨0xF100090000 + 0x20 * i, 0, 32, .w1c, 0, 0, 0xFFFFFFFF, false, true⟩
/-- BELL.DBMASK[i] (Table 11-12). -/
def BELL.DBMASK (i : Nat) : Fld := ⟨0xF100090004 + 0x20 * i, 0, 32, .rw, 0xFFFFFFFF, 0, 0xFFFFFFFF, false, true⟩
/-- BELL.DBPEND[i] (Table 11-12). -/
def BELL.DBPEND (i : Nat) : Fld := ⟨0xF100090008 + 0x20 * i, 0, 32, .ro, 0, 0, 0xFFFFFFFF, false, true⟩
/-- BELL.BATCHERR[i] (Table 11-12). -/
def BELL.BATCHERR (i : Nat) : Fld := ⟨0xF10009000C + 0x20 * i, 0, 32, .rc, 0, 0, 0xFFFFFFFF, false, false⟩

def regRowsNET0 : List RegRow := [
  ⟨"NET.PTPLATRX", fun _ _ => NET.PTPLATRX, 0x0, 1, 0x0, 1⟩,
  ⟨"NET.PTPLATTX", fun _ _ => NET.PTPLATTX, 0x0, 1, 0x0, 1⟩,
  ⟨"NET.NETCTL.AUTH", fun _ _ => NET.NETCTL.AUTH, 0x0, 1, 0x0, 1⟩,
  ⟨"NET.NETCTL.CYCEN", fun _ _ => NET.NETCTL.CYCEN, 0x0, 1, 0x0, 1⟩,
  ⟨"NET.NETCTL.RINGEN", fun _ _ => NET.NETCTL.RINGEN, 0x0, 1, 0x0, 1⟩,
  ⟨"NET.RINGSTAT.FITERR", fun _ _ => NET.RINGSTAT.FITERR, 0x0, 1, 0x0, 1⟩,
  ⟨"NET.RINGSTAT.MOSS", fun _ _ => NET.RINGSTAT.MOSS, 0x0, 1, 0x0, 1⟩,
  ⟨"NET.RINGSTAT.HEALEVT", fun _ _ => NET.RINGSTAT.HEALEVT, 0x0, 1, 0x0, 1⟩,
  ⟨"NET.RINGSTAT.OPENEVT", fun _ _ => NET.RINGSTAT.OPENEVT, 0x0, 1, 0x0, 1⟩,
  ⟨"NET.RINGSTAT.RDLYHOLD", fun _ _ => NET.RINGSTAT.RDLYHOLD, 0x0, 1, 0x0, 1⟩,
  ⟨"NET.RINGSTAT.BSLOW", fun _ _ => NET.RINGSTAT.BSLOW, 0x0, 1, 0x0, 1⟩,
  ⟨"NET.RINGSTAT.ASLOW", fun _ _ => NET.RINGSTAT.ASLOW, 0x0, 1, 0x0, 1⟩,
  ⟨"NET.RINGSTAT.BLINK", fun _ _ => NET.RINGSTAT.BLINK, 0x0, 1, 0x0, 1⟩,
  ⟨"NET.RINGSTAT.ALINK", fun _ _ => NET.RINGSTAT.ALINK, 0x0, 1, 0x0, 1⟩,
  ⟨"NET.RINGSTAT.PBLOCK", fun _ _ => NET.RINGSTAT.PBLOCK, 0x0, 1, 0x0, 1⟩,
  ⟨"NET.RINGSTAT.STATE", fun _ _ => NET.RINGSTAT.STATE, 0x0, 1, 0x0, 1⟩,
  ⟨"NET.CYCCFG.CYCT", fun _ _ => NET.CYCCFG.CYCT, 0x0, 1, 0x0, 1⟩,
  ⟨"NET.CYCCFG.NMEM", fun _ _ => NET.CYCCFG.NMEM, 0x0, 1, 0x0, 1⟩,
  ⟨"NET.INSLOT0", fun _ _ => NET.INSLOT0, 0x0, 1, 0x0, 1⟩,
  ⟨"NET.SLOTGAP", fun _ _ => NET.SLOTGAP, 0x0, 1, 0x0, 1⟩,
  ⟨"NET.SIDEF", fun _ _ => NET.SIDEF, 0x0, 1, 0x0, 1⟩,
  ⟨"NET.RDLY", fun _ _ => NET.RDLY, 0x0, 1, 0x0, 1⟩,
  ⟨"NET.TESTDL", fun _ _ => NET.TESTDL, 0x0, 1, 0x0, 1⟩,
  ⟨"NET.INDLOFF", fun _ _ => NET.INDLOFF, 0x0, 1, 0x0, 1⟩,
  ⟨"NET.CYCCNT", fun _ _ => NET.CYCCNT, 0x0, 1, 0x0, 1⟩,
  ⟨"NET.SEQ", fun _ _ => NET.SEQ, 0x0, 1, 0x0, 1⟩,
  ⟨"NET.TESTMISS", fun _ _ => NET.TESTMISS, 0x0, 1, 0x0, 1⟩,
  ⟨"NET.BRKCNT", fun _ _ => NET.BRKCNT, 0x0, 1, 0x0, 1⟩,
  ⟨"NET.BCDROP", fun _ _ => NET.BCDROP, 0x0, 1, 0x0, 1⟩,
  ⟨"NET.LATEIN", fun _ _ => NET.LATEIN, 0x0, 1, 0x0, 1⟩,
  ⟨"NET.SIBAD", fun _ _ => NET.SIBAD, 0x0, 1, 0x0, 1⟩,
  ⟨"NET.CYCEVT.EVN", fun _ _ => NET.CYCEVT.EVN, 0x0, 1, 0x0, 1⟩,
  ⟨"NET.CYCEVT.TOK", fun _ _ => NET.CYCEVT.TOK, 0x0, 1, 0x0, 1⟩,
  ⟨"NET.ADOPTTO", fun _ _ => NET.ADOPTTO, 0x0, 1, 0x0, 1⟩,
  ⟨"NET.PVID.VID", fun _ _ => NET.PVID.VID, 0x0, 1, 0x0, 1⟩,
  ⟨"NET.VLAN.VID", fun i _ => NET.VLAN.VID i, 0x4, 64, 0x0, 1⟩,
  ⟨"NET.VLAN.VALID", fun i _ => NET.VLAN.VALID i, 0x4, 64, 0x0, 1⟩,
  ⟨"NET.OUTREC", fun i j => NET.OUTREC i j, 0x10, 64, 0x4, 4⟩,
  ⟨"NET.INREC", fun i j => NET.INREC i j, 0x20, 64, 0x4, 7⟩,
  ⟨"NET.MCFG.EN", fun i _ => NET.MCFG.EN i, 0x20, 64, 0x0, 1⟩]

def regRowsNET1 : List RegRow := [
  ⟨"NET.MCFG.CLASS", fun i _ => NET.MCFG.CLASS i, 0x20, 64, 0x0, 1⟩,
  ⟨"NET.MCFG.ALLOW", fun i _ => NET.MCFG.ALLOW i, 0x20, 64, 0x0, 1⟩,
  ⟨"NET.MCFG.ADOPT", fun i _ => NET.MCFG.ADOPT i, 0x20, 64, 0x0, 1⟩,
  ⟨"NET.MCFG.TYPEID", fun i _ => NET.MCFG.TYPEID i, 0x20, 64, 0x0, 1⟩,
  ⟨"NET.MMACLO", fun i _ => NET.MMACLO i, 0x20, 64, 0x0, 1⟩,
  ⟨"NET.MMACHI", fun i _ => NET.MMACHI i, 0x20, 64, 0x0, 1⟩,
  ⟨"NET.MSTAT.STATE", fun i _ => NET.MSTAT.STATE i, 0x20, 64, 0x0, 1⟩,
  ⟨"NET.MSTAT.MISMATCH", fun i _ => NET.MSTAT.MISMATCH i, 0x20, 64, 0x0, 1⟩,
  ⟨"NET.MSTAT.ADOPTEVT", fun i _ => NET.MSTAT.ADOPTEVT i, 0x20, 64, 0x0, 1⟩,
  ⟨"NET.MSTAT.LOSTEVT", fun i _ => NET.MSTAT.LOSTEVT i, 0x20, 64, 0x0, 1⟩,
  ⟨"NET.MSTAT.STAT", fun i _ => NET.MSTAT.STAT i, 0x20, 64, 0x0, 1⟩,
  ⟨"NET.MSTAT.BOOTCNT", fun i _ => NET.MSTAT.BOOTCNT i, 0x20, 64, 0x0, 1⟩,
  ⟨"NET.MMISS", fun i _ => NET.MMISS i, 0x20, 64, 0x0, 1⟩,
  ⟨"NET.MERR.CRC", fun i _ => NET.MERR.CRC i, 0x20, 64, 0x0, 1⟩,
  ⟨"NET.MERR.TAG", fun i _ => NET.MERR.TAG i, 0x20, 64, 0x0, 1⟩,
  ⟨"NET.MSLOT", fun i _ => NET.MSLOT i, 0x20, 64, 0x0, 1⟩,
  ⟨"NET.MKEYH", fun i _ => NET.MKEYH i, 0x20, 64, 0x0, 1⟩]

/-- The fields of the register tables of NET. -/
def regRowsNET : List RegRow := regRowsNET0 ++ regRowsNET1

def regRowsRAD0 : List RegRow := [
  ⟨"RAD.RADCTL.MOSS", fun _ _ => RAD.RADCTL.MOSS, 0x0, 1, 0x0, 1⟩,
  ⟨"RAD.RADCTL.REGION", fun _ _ => RAD.RADCTL.REGION, 0x0, 1, 0x0, 1⟩,
  ⟨"RAD.CHMAP", fun _ _ => RAD.CHMAP, 0x0, 1, 0x0, 1⟩,
  ⟨"RAD.MAPNXT", fun _ _ => RAD.MAPNXT, 0x0, 1, 0x0, 1⟩,
  ⟨"RAD.MAPAT", fun _ _ => RAD.MAPAT, 0x0, 1, 0x0, 1⟩,
  ⟨"RAD.MAPCTL.ARM", fun _ _ => RAD.MAPCTL.ARM, 0x0, 1, 0x0, 1⟩,
  ⟨"RAD.MAPCTL.PEND", fun _ _ => RAD.MAPCTL.PEND, 0x0, 1, 0x0, 1⟩,
  ⟨"RAD.MAPCTL.REFUSED", fun _ _ => RAD.MAPCTL.REFUSED, 0x0, 1, 0x0, 1⟩,
  ⟨"RAD.REJOINCH", fun _ _ => RAD.REJOINCH, 0x0, 1, 0x0, 1⟩,
  ⟨"RAD.USED", fun _ _ => RAD.USED, 0x0, 1, 0x0, 1⟩,
  ⟨"RAD.PWRCAP", fun _ _ => RAD.PWRCAP, 0x0, 1, 0x0, 1⟩,
  ⟨"RAD.DWELLWIN", fun _ _ => RAD.DWELLWIN, 0x0, 1, 0x0, 1⟩,
  ⟨"RAD.DWELLLIM", fun _ _ => RAD.DWELLLIM, 0x0, 1, 0x0, 1⟩,
  ⟨"RAD.TXBUDGET", fun _ _ => RAD.TXBUDGET, 0x0, 1, 0x0, 1⟩,
  ⟨"RAD.SFNUM", fun _ _ => RAD.SFNUM, 0x0, 1, 0x0, 1⟩,
  ⟨"RAD.SFPHASE", fun _ _ => RAD.SFPHASE, 0x0, 1, 0x0, 1⟩,
  ⟨"RAD.JOINCFG.EN", fun _ _ => RAD.JOINCFG.EN, 0x0, 1, 0x0, 1⟩,
  ⟨"RAD.CTXWERR", fun _ _ => RAD.CTXWERR, 0x0, 1, 0x0, 1⟩,
  ⟨"RAD.DWELL", fun i _ => RAD.DWELL i, 0x4, 37, 0x0, 1⟩,
  ⟨"RAD.LCTL.DIVEN", fun i _ => RAD.LCTL.DIVEN i, 0x100, 4, 0x0, 1⟩,
  ⟨"RAD.LCTL.FENCE", fun i _ => RAD.LCTL.FENCE i, 0x100, 4, 0x0, 1⟩,
  ⟨"RAD.LCTL.EN", fun i _ => RAD.LCTL.EN i, 0x100, 4, 0x0, 1⟩,
  ⟨"RAD.LSTAT.PWRCLAMP", fun i _ => RAD.LSTAT.PWRCLAMP i, 0x100, 4, 0x0, 1⟩,
  ⟨"RAD.LSTAT.FENCEVT", fun i _ => RAD.LSTAT.FENCEVT i, 0x100, 4, 0x0, 1⟩,
  ⟨"RAD.LSTAT.PWRLIM", fun i _ => RAD.LSTAT.PWRLIM i, 0x100, 4, 0x0, 1⟩,
  ⟨"RAD.LSTAT.LBFAIL", fun i _ => RAD.LSTAT.LBFAIL i, 0x100, 4, 0x0, 1⟩,
  ⟨"RAD.LSTAT.FENCED", fun i _ => RAD.LSTAT.FENCED i, 0x100, 4, 0x0, 1⟩,
  ⟨"RAD.LSTAT.ACTIVE", fun i _ => RAD.LSTAT.ACTIVE i, 0x100, 4, 0x0, 1⟩,
  ⟨"RAD.TXPWR", fun i _ => RAD.TXPWR i, 0x100, 4, 0x0, 1⟩,
  ⟨"RAD.BCNPWR", fun i _ => RAD.BCNPWR i, 0x100, 4, 0x0, 1⟩,
  ⟨"RAD.CHNOW", fun i _ => RAD.CHNOW i, 0x100, 4, 0x0, 1⟩,
  ⟨"RAD.TXFRM", fun i _ => RAD.TXFRM i, 0x100, 4, 0x0, 1⟩,
  ⟨"RAD.RXFRM", fun i _ => RAD.RXFRM i, 0x100, 4, 0x0, 1⟩,
  ⟨"RAD.CRCERR", fun i _ => RAD.CRCERR i, 0x100, 4, 0x0, 1⟩,
  ⟨"RAD.MICERR", fun i _ => RAD.MICERR i, 0x100, 4, 0x0, 1⟩,
  ⟨"RAD.ACERR", fun i _ => RAD.ACERR i, 0x100, 4, 0x0, 1⟩,
  ⟨"RAD.DEFER", fun i _ => RAD.DEFER i, 0x100, 4, 0x0, 1⟩,
  ⟨"RAD.FITERR", fun i _ => RAD.FITERR i, 0x100, 4, 0x0, 1⟩,
  ⟨"RAD.RPTRX", fun i _ => RAD.RPTRX i, 0x100, 4, 0x0, 1⟩,
  ⟨"RAD.RPTTX", fun i _ => RAD.RPTTX i, 0x100, 4, 0x0, 1⟩]

def regRowsRAD1 : List RegRow := [
  ⟨"RAD.BCNTX", fun i _ => RAD.BCNTX i, 0x100, 4, 0x0, 1⟩,
  ⟨"RAD.BCNSKIP", fun i _ => RAD.BCNSKIP i, 0x100, 4, 0x0, 1⟩,
  ⟨"RAD.DIVOWN", fun i _ => RAD.DIVOWN i, 0x100, 4, 0x0, 1⟩,
  ⟨"RAD.DIVPAIR", fun i _ => RAD.DIVPAIR i, 0x100, 4, 0x0, 1⟩,
  ⟨"RAD.LBSTAT.PASS", fun i _ => RAD.LBSTAT.PASS i, 0x100, 4, 0x0, 1⟩,
  ⟨"RAD.LBSTAT.LOSS", fun i _ => RAD.LBSTAT.LOSS i, 0x100, 4, 0x0, 1⟩,
  ⟨"RAD.LBFAILCNT", fun i _ => RAD.LBFAILCNT i, 0x100, 4, 0x0, 1⟩,
  ⟨"RAD.CTXCNT", fun i _ => RAD.CTXCNT i, 0x100, 4, 0x0, 1⟩,
  ⟨"RAD.TXTIME", fun i _ => RAD.TXTIME i, 0x100, 4, 0x0, 1⟩,
  ⟨"RAD.RSSIAVG", fun i _ => RAD.RSSIAVG i, 0x100, 4, 0x0, 1⟩,
  ⟨"RAD.CHNOISE", fun i j => RAD.CHNOISE i j, 0x100, 4, 0x4, 37⟩,
  ⟨"RAD.CTXCTL.ARM", fun i _ => RAD.CTXCTL.ARM i, 0x80, 144, 0x0, 1⟩,
  ⟨"RAD.CTXCTL.UPDARM", fun i _ => RAD.CTXCTL.UPDARM i, 0x80, 144, 0x0, 1⟩,
  ⟨"RAD.CTXCTL.TERM", fun i _ => RAD.CTXCTL.TERM i, 0x80, 144, 0x0, 1⟩,
  ⟨"RAD.CTXCTL.KIND", fun i _ => RAD.CTXCTL.KIND i, 0x80, 144, 0x0, 1⟩,
  ⟨"RAD.CTXCTL.MODE", fun i _ => RAD.CTXCTL.MODE i, 0x80, 144, 0x0, 1⟩,
  ⟨"RAD.CTXCTL.ID", fun i _ => RAD.CTXCTL.ID i, 0x80, 144, 0x0, 1⟩,
  ⟨"RAD.PLACE.IVL", fun i _ => RAD.PLACE.IVL i, 0x80, 144, 0x0, 1⟩,
  ⟨"RAD.PLACE.DOWN", fun i _ => RAD.PLACE.DOWN i, 0x80, 144, 0x0, 1⟩,
  ⟨"RAD.PLACE.LEN", fun i _ => RAD.PLACE.LEN i, 0x80, 144, 0x0, 1⟩,
  ⟨"RAD.PLACE.ANCHOR", fun i _ => RAD.PLACE.ANCHOR i, 0x80, 144, 0x0, 1⟩,
  ⟨"RAD.PLACE.LANE", fun i _ => RAD.PLACE.LANE i, 0x80, 144, 0x0, 1⟩,
  ⟨"RAD.TIMERS.SUPV", fun i _ => RAD.TIMERS.SUPV i, 0x80, 144, 0x0, 1⟩,
  ⟨"RAD.TIMERS.STOPTO", fun i _ => RAD.TIMERS.STOPTO i, 0x80, 144, 0x0, 1⟩,
  ⟨"RAD.TIMERS.PPM", fun i _ => RAD.TIMERS.PPM i, 0x80, 144, 0x0, 1⟩,
  ⟨"RAD.FIRSTSF", fun i _ => RAD.FIRSTSF i, 0x80, 144, 0x0, 1⟩,
  ⟨"RAD.NEXTSF", fun i _ => RAD.NEXTSF i, 0x80, 144, 0x0, 1⟩,
  ⟨"RAD.EVC.EVENT", fun i _ => RAD.EVC.EVENT i, 0x80, 144, 0x0, 1⟩,
  ⟨"RAD.EVC.INSTANT", fun i _ => RAD.EVC.INSTANT i, 0x80, 144, 0x0, 1⟩,
  ⟨"RAD.EVX", fun i _ => RAD.EVX i, 0x80, 144, 0x0, 1⟩,
  ⟨"RAD.STATE.ERR", fun i _ => RAD.STATE.ERR i, 0x80, 144, 0x0, 1⟩,
  ⟨"RAD.STATE.MAPPEND", fun i _ => RAD.STATE.MAPPEND i, 0x80, 144, 0x0, 1⟩,
  ⟨"RAD.STATE.UPDPEND", fun i _ => RAD.STATE.UPDPEND i, 0x80, 144, 0x0, 1⟩,
  ⟨"RAD.STATE.MDRX", fun i _ => RAD.STATE.MDRX i, 0x80, 144, 0x0, 1⟩,
  ⟨"RAD.STATE.RXEXP", fun i _ => RAD.STATE.RXEXP i, 0x80, 144, 0x0, 1⟩,
  ⟨"RAD.STATE.TXSEQ", fun i _ => RAD.STATE.TXSEQ i, 0x80, 144, 0x0, 1⟩,
  ⟨"RAD.STATE.LINK", fun i _ => RAD.STATE.LINK i, 0x80, 144, 0x0, 1⟩,
  ⟨"RAD.PLACENXT.IVL", fun i _ => RAD.PLACENXT.IVL i, 0x80, 144, 0x0, 1⟩,
  ⟨"RAD.PLACENXT.DOWN", fun i _ => RAD.PLACENXT.DOWN i, 0x80, 144, 0x0, 1⟩,
  ⟨"RAD.PLACENXT.LEN", fun i _ => RAD.PLACENXT.LEN i, 0x80, 144, 0x0, 1⟩]

def regRowsRAD2 : List RegRow := [
  ⟨"RAD.PLACENXT.ANCHOR", fun i _ => RAD.PLACENXT.ANCHOR i, 0x80, 144, 0x0, 1⟩,
  ⟨"RAD.PLACENXT.LANE", fun i _ => RAD.PLACENXT.LANE i, 0x80, 144, 0x0, 1⟩,
  ⟨"RAD.TIMERSNXT.SUPV", fun i _ => RAD.TIMERSNXT.SUPV i, 0x80, 144, 0x0, 1⟩,
  ⟨"RAD.TIMERSNXT.STOPTO", fun i _ => RAD.TIMERSNXT.STOPTO i, 0x80, 144, 0x0, 1⟩,
  ⟨"RAD.TIMERSNXT.PPM", fun i _ => RAD.TIMERSNXT.PPM i, 0x80, 144, 0x0, 1⟩,
  ⟨"RAD.LASTRX", fun i _ => RAD.LASTRX i, 0x80, 144, 0x0, 1⟩,
  ⟨"RAD.MISS", fun i _ => RAD.MISS i, 0x80, 144, 0x0, 1⟩,
  ⟨"RAD.KEYH.ENTRY", fun i _ => RAD.KEYH.ENTRY i, 0x80, 144, 0x0, 1⟩,
  ⟨"RAD.KEYH.VALID", fun i _ => RAD.KEYH.VALID i, 0x80, 144, 0x0, 1⟩,
  ⟨"RAD.RSSI", fun i _ => RAD.RSSI i, 0x80, 144, 0x0, 1⟩,
  ⟨"RAD.STOPREQ", fun _ _ => RAD.STOPREQ, 0x0, 1, 0x0, 1⟩,
  ⟨"RAD.BCNSTAT.TOKOK", fun _ _ => RAD.BCNSTAT.TOKOK, 0x0, 1, 0x0, 1⟩,
  ⟨"RAD.BCNSTAT.GSTOP", fun _ _ => RAD.BCNSTAT.GSTOP, 0x0, 1, 0x0, 1⟩,
  ⟨"RAD.BCNSTAT.RADD", fun _ _ => RAD.BCNSTAT.RADD, 0x0, 1, 0x0, 1⟩,
  ⟨"RAD.BCNSTAT.MOSS", fun _ _ => RAD.BCNSTAT.MOSS, 0x0, 1, 0x0, 1⟩,
  ⟨"RAD.BCNSTAT.CRAWL", fun _ _ => RAD.BCNSTAT.CRAWL, 0x0, 1, 0x0, 1⟩,
  ⟨"RAD.BCNSTAT.GRACE", fun _ _ => RAD.BCNSTAT.GRACE, 0x0, 1, 0x0, 1⟩,
  ⟨"RAD.BCNSTAT.CAUSE", fun _ _ => RAD.BCNSTAT.CAUSE, 0x0, 1, 0x0, 1⟩,
  ⟨"RAD.BCNSTAT.EPOCH", fun _ _ => RAD.BCNSTAT.EPOCH, 0x0, 1, 0x0, 1⟩,
  ⟨"RAD.BCNSF", fun _ _ => RAD.BCNSF, 0x0, 1, 0x0, 1⟩,
  ⟨"RAD.NOTOK", fun _ _ => RAD.NOTOK, 0x0, 1, 0x0, 1⟩,
  ⟨"RAD.RADDCNT", fun _ _ => RAD.RADDCNT, 0x0, 1, 0x0, 1⟩,
  ⟨"RAD.STOPRQCNT", fun _ _ => RAD.STOPRQCNT, 0x0, 1, 0x0, 1⟩]

/-- The fields of the register tables of RAD. -/
def regRowsRAD : List RegRow := regRowsRAD0 ++ regRowsRAD1 ++ regRowsRAD2

def regRowsPOS0 : List RegRow := [
  ⟨"POS.BBCTL.COLD", fun _ _ => POS.BBCTL.COLD, 0x0, 1, 0x0, 1⟩,
  ⟨"POS.BBCTL.EN", fun _ _ => POS.BBCTL.EN, 0x0, 1, 0x0, 1⟩,
  ⟨"POS.BBSTAT.TRACKN", fun _ _ => POS.BBSTAT.TRACKN, 0x0, 1, 0x0, 1⟩,
  ⟨"POS.BBSTAT.BASEKEPT", fun _ _ => POS.BBSTAT.BASEKEPT, 0x0, 1, 0x0, 1⟩,
  ⟨"POS.BBSTAT.KEEPBAD", fun _ _ => POS.BBSTAT.KEEPBAD, 0x0, 1, 0x0, 1⟩,
  ⟨"POS.BBSTAT.WARM", fun _ _ => POS.BBSTAT.WARM, 0x0, 1, 0x0, 1⟩,
  ⟨"POS.BBSTAT.RUN", fun _ _ => POS.BBSTAT.RUN, 0x0, 1, 0x0, 1⟩,
  ⟨"POS.AGC", fun _ _ => POS.AGC, 0x0, 1, 0x0, 1⟩,
  ⟨"POS.ANTSTAT.CURRENT", fun _ _ => POS.ANTSTAT.CURRENT, 0x0, 1, 0x0, 1⟩,
  ⟨"POS.ANTSTAT.FLTEVT", fun _ _ => POS.ANTSTAT.FLTEVT, 0x0, 1, 0x0, 1⟩,
  ⟨"POS.ANTSTAT.SHORT", fun _ _ => POS.ANTSTAT.SHORT, 0x0, 1, 0x0, 1⟩,
  ⟨"POS.ANTSTAT.OPEN", fun _ _ => POS.ANTSTAT.OPEN, 0x0, 1, 0x0, 1⟩,
  ⟨"POS.ANTSTAT.BIASEN", fun _ _ => POS.ANTSTAT.BIASEN, 0x0, 1, 0x0, 1⟩,
  ⟨"POS.ACQCFG.THR", fun _ _ => POS.ACQCFG.THR, 0x0, 1, 0x0, 1⟩,
  ⟨"POS.ACQCFG.DOPSTEP", fun _ _ => POS.ACQCFG.DOPSTEP, 0x0, 1, 0x0, 1⟩,
  ⟨"POS.ACQCFG.DOPSPAN", fun _ _ => POS.ACQCFG.DOPSPAN, 0x0, 1, 0x0, 1⟩,
  ⟨"POS.ACQCFG.NCOH", fun _ _ => POS.ACQCFG.NCOH, 0x0, 1, 0x0, 1⟩,
  ⟨"POS.ACQCFG.COH", fun _ _ => POS.ACQCFG.COH, 0x0, 1, 0x0, 1⟩,
  ⟨"POS.SRCHLIST", fun _ _ => POS.SRCHLIST, 0x0, 1, 0x0, 1⟩,
  ⟨"POS.ACQSTAT.PRN", fun _ _ => POS.ACQSTAT.PRN, 0x0, 1, 0x0, 1⟩,
  ⟨"POS.ACQSTAT.REACQ", fun _ _ => POS.ACQSTAT.REACQ, 0x0, 1, 0x0, 1⟩,
  ⟨"POS.ACQCNT", fun _ _ => POS.ACQCNT, 0x0, 1, 0x0, 1⟩,
  ⟨"POS.REACQWIN", fun _ _ => POS.REACQWIN, 0x0, 1, 0x0, 1⟩,
  ⟨"POS.MEASCFG.PERIOD", fun _ _ => POS.MEASCFG.PERIOD, 0x0, 1, 0x0, 1⟩,
  ⟨"POS.EPOCHSEQ", fun _ _ => POS.EPOCHSEQ, 0x0, 1, 0x0, 1⟩,
  ⟨"POS.EPSKIP", fun _ _ => POS.EPSKIP, 0x0, 1, 0x0, 1⟩,
  ⟨"POS.MRINGBASE", fun _ _ => POS.MRINGBASE, 0x0, 1, 0x0, 1⟩,
  ⟨"POS.MRINGCTL.SLOTS", fun _ _ => POS.MRINGCTL.SLOTS, 0x0, 1, 0x0, 1⟩,
  ⟨"POS.MRINGCTL.EN", fun _ _ => POS.MRINGCTL.EN, 0x0, 1, 0x0, 1⟩,
  ⟨"POS.MRINGWR", fun _ _ => POS.MRINGWR, 0x0, 1, 0x0, 1⟩,
  ⟨"POS.MRINGRD", fun _ _ => POS.MRINGRD, 0x0, 1, 0x0, 1⟩,
  ⟨"POS.RINGDROP", fun _ _ => POS.RINGDROP, 0x0, 1, 0x0, 1⟩,
  ⟨"POS.BASEX", fun _ _ => POS.BASEX, 0x0, 1, 0x0, 1⟩,
  ⟨"POS.BASEY", fun _ _ => POS.BASEY, 0x0, 1, 0x0, 1⟩,
  ⟨"POS.BASEZ", fun _ _ => POS.BASEZ, 0x0, 1, 0x0, 1⟩,
  ⟨"POS.BASECTL.VALID", fun _ _ => POS.BASECTL.VALID, 0x0, 1, 0x0, 1⟩,
  ⟨"POS.BELMASK", fun _ _ => POS.BELMASK, 0x0, 1, 0x0, 1⟩,
  ⟨"POS.FIXCN0", fun _ _ => POS.FIXCN0, 0x0, 1, 0x0, 1⟩,
  ⟨"POS.BASESTAT.QUALN", fun _ _ => POS.BASESTAT.QUALN, 0x0, 1, 0x0, 1⟩,
  ⟨"POS.BASESTAT.TCOK", fun _ _ => POS.BASESTAT.TCOK, 0x0, 1, 0x0, 1⟩]

def regRowsPOS1 : List RegRow := [
  ⟨"POS.BASESTAT.FIXEVT", fun _ _ => POS.BASESTAT.FIXEVT, 0x0, 1, 0x0, 1⟩,
  ⟨"POS.BASESTAT.FIXQ", fun _ _ => POS.BASESTAT.FIXQ, 0x0, 1, 0x0, 1⟩,
  ⟨"POS.TCLAST", fun _ _ => POS.TCLAST, 0x0, 1, 0x0, 1⟩,
  ⟨"POS.TCREJ", fun _ _ => POS.TCREJ, 0x0, 1, 0x0, 1⟩,
  ⟨"POS.IONOA", fun _ _ => POS.IONOA, 0x0, 1, 0x0, 1⟩,
  ⟨"POS.IONOB", fun _ _ => POS.IONOB, 0x0, 1, 0x0, 1⟩,
  ⟨"POS.IONOCTL.VALID", fun _ _ => POS.IONOCTL.VALID, 0x0, 1, 0x0, 1⟩,
  ⟨"POS.EPHSTAT", fun _ _ => POS.EPHSTAT, 0x0, 1, 0x0, 1⟩,
  ⟨"POS.HEALTH", fun _ _ => POS.HEALTH, 0x0, 1, 0x0, 1⟩,
  ⟨"POS.EPHCNT", fun _ _ => POS.EPHCNT, 0x0, 1, 0x0, 1⟩,
  ⟨"POS.NAVDROP", fun _ _ => POS.NAVDROP, 0x0, 1, 0x0, 1⟩,
  ⟨"POS.RTCMCFG.EN", fun _ _ => POS.RTCMCFG.EN, 0x0, 1, 0x0, 1⟩,
  ⟨"POS.RTCMCFG.STAID", fun _ _ => POS.RTCMCFG.STAID, 0x0, 1, 0x0, 1⟩,
  ⟨"POS.RTCMCNT", fun _ _ => POS.RTCMCNT, 0x0, 1, 0x0, 1⟩,
  ⟨"POS.RTCMDROP", fun _ _ => POS.RTCMDROP, 0x0, 1, 0x0, 1⟩,
  ⟨"POS.CHCTL.PRN", fun i _ => POS.CHCTL.PRN i, 0x80, 24, 0x0, 1⟩,
  ⟨"POS.CHCTL.PIN", fun i _ => POS.CHCTL.PIN i, 0x80, 24, 0x0, 1⟩,
  ⟨"POS.CHCTL.REL", fun i _ => POS.CHCTL.REL i, 0x80, 24, 0x0, 1⟩,
  ⟨"POS.CHCTL.EN", fun i _ => POS.CHCTL.EN i, 0x80, 24, 0x0, 1⟩,
  ⟨"POS.CHSTAT.STATE", fun i _ => POS.CHSTAT.STATE i, 0x80, 24, 0x0, 1⟩,
  ⟨"POS.CHSTAT.TRACK", fun i _ => POS.CHSTAT.TRACK i, 0x80, 24, 0x0, 1⟩,
  ⟨"POS.CHSTAT.CARRIER", fun i _ => POS.CHSTAT.CARRIER i, 0x80, 24, 0x0, 1⟩,
  ⟨"POS.CHSTAT.HALF", fun i _ => POS.CHSTAT.HALF i, 0x80, 24, 0x0, 1⟩,
  ⟨"POS.CHSTAT.FSYNC", fun i _ => POS.CHSTAT.FSYNC i, 0x80, 24, 0x0, 1⟩,
  ⟨"POS.CHSTAT.BSYNC", fun i _ => POS.CHSTAT.BSYNC i, 0x80, 24, 0x0, 1⟩,
  ⟨"POS.CHSTAT.EPH", fun i _ => POS.CHSTAT.EPH i, 0x80, 24, 0x0, 1⟩,
  ⟨"POS.CHSTAT.HEALTHY", fun i _ => POS.CHSTAT.HEALTHY i, 0x80, 24, 0x0, 1⟩,
  ⟨"POS.CHSTAT.INT20", fun i _ => POS.CHSTAT.INT20 i, 0x80, 24, 0x0, 1⟩,
  ⟨"POS.CHSTAT.BTCAP", fun i _ => POS.CHSTAT.BTCAP i, 0x80, 24, 0x0, 1⟩,
  ⟨"POS.CHSTAT.PRN", fun i _ => POS.CHSTAT.PRN i, 0x80, 24, 0x0, 1⟩,
  ⟨"POS.CODEFRAC", fun i _ => POS.CODEFRAC i, 0x80, 24, 0x0, 1⟩,
  ⟨"POS.TXMS", fun i _ => POS.TXMS i, 0x80, 24, 0x0, 1⟩,
  ⟨"POS.ACP", fun i _ => POS.ACP i, 0x80, 24, 0x0, 1⟩,
  ⟨"POS.DOPPLER", fun i _ => POS.DOPPLER i, 0x80, 24, 0x0, 1⟩,
  ⟨"POS.CN0", fun i _ => POS.CN0 i, 0x80, 24, 0x0, 1⟩,
  ⟨"POS.LOCKT", fun i _ => POS.LOCKT i, 0x80, 24, 0x0, 1⟩,
  ⟨"POS.ELAZ.ELEV", fun i _ => POS.ELAZ.ELEV i, 0x80, 24, 0x0, 1⟩,
  ⟨"POS.ELAZ.AZIM", fun i _ => POS.ELAZ.AZIM i, 0x80, 24, 0x0, 1⟩,
  ⟨"POS.PLLCFG.BW", fun i _ => POS.PLLCFG.BW i, 0x80, 24, 0x0, 1⟩,
  ⟨"POS.PLLCFG.ORDER", fun i _ => POS.PLLCFG.ORDER i, 0x80, 24, 0x0, 1⟩]

def regRowsPOS2 : List RegRow := [
  ⟨"POS.FLLCFG.BW", fun i _ => POS.FLLCFG.BW i, 0x80, 24, 0x0, 1⟩,
  ⟨"POS.FLLCFG.LIMIT", fun i _ => POS.FLLCFG.LIMIT i, 0x80, 24, 0x0, 1⟩,
  ⟨"POS.DLLCFG.BW", fun i _ => POS.DLLCFG.BW i, 0x80, 24, 0x0, 1⟩,
  ⟨"POS.DLLCFG.SPACING", fun i _ => POS.DLLCFG.SPACING i, 0x80, 24, 0x0, 1⟩,
  ⟨"POS.LOOPCTL.INT20EN", fun i _ => POS.LOOPCTL.INT20EN i, 0x80, 24, 0x0, 1⟩,
  ⟨"POS.CORR", fun i j => POS.CORR i j, 0x80, 24, 0x4, 5⟩,
  ⟨"POS.LOCKIND", fun i _ => POS.LOCKIND i, 0x80, 24, 0x0, 1⟩,
  ⟨"POS.SLIPCNT", fun i _ => POS.SLIPCNT i, 0x80, 24, 0x0, 1⟩,
  ⟨"POS.PARERR", fun i _ => POS.PARERR i, 0x80, 24, 0x0, 1⟩,
  ⟨"POS.WORDCNT", fun i _ => POS.WORDCNT i, 0x80, 24, 0x0, 1⟩,
  ⟨"POS.REACQCNT", fun i _ => POS.REACQCNT i, 0x80, 24, 0x0, 1⟩,
  ⟨"POS.SOLCTL.EN", fun _ _ => POS.SOLCTL.EN, 0x0, 1, 0x0, 1⟩,
  ⟨"POS.SOLSTAT.ACTIVE", fun _ _ => POS.SOLSTAT.ACTIVE, 0x0, 1, 0x0, 1⟩,
  ⟨"POS.SOLSTAT.STORECNT", fun _ _ => POS.SOLSTAT.STORECNT, 0x0, 1, 0x0, 1⟩,
  ⟨"POS.SOLSTAT.PIPEBUSY", fun _ _ => POS.SOLSTAT.PIPEBUSY, 0x0, 1, 0x0, 1⟩,
  ⟨"POS.SOLSTAT.CARROK", fun _ _ => POS.SOLSTAT.CARROK, 0x0, 1, 0x0, 1⟩,
  ⟨"POS.SOLSTAT.BASEOK", fun _ _ => POS.SOLSTAT.BASEOK, 0x0, 1, 0x0, 1⟩,
  ⟨"POS.SOLSTAT.SITEOK", fun _ _ => POS.SOLSTAT.SITEOK, 0x0, 1, 0x0, 1⟩,
  ⟨"POS.SOLSTAT.RUN", fun _ _ => POS.SOLSTAT.RUN, 0x0, 1, 0x0, 1⟩,
  ⟨"POS.SOLEVT.CHGTOK", fun _ _ => POS.SOLEVT.CHGTOK, 0x0, 1, 0x0, 1⟩,
  ⟨"POS.SOLEVT.SOLTOK", fun _ _ => POS.SOLEVT.SOLTOK, 0x0, 1, 0x0, 1⟩,
  ⟨"POS.SOLEVT.CHGN", fun _ _ => POS.SOLEVT.CHGN, 0x0, 1, 0x0, 1⟩,
  ⟨"POS.SOLEVT.SOLN", fun _ _ => POS.SOLEVT.SOLN, 0x0, 1, 0x0, 1⟩,
  ⟨"POS.CTXBASE", fun _ _ => POS.CTXBASE, 0x0, 1, 0x0, 1⟩,
  ⟨"POS.SRINGBASE", fun _ _ => POS.SRINGBASE, 0x0, 1, 0x0, 1⟩,
  ⟨"POS.SRINGCTL.SLOTS", fun _ _ => POS.SRINGCTL.SLOTS, 0x0, 1, 0x0, 1⟩,
  ⟨"POS.SRINGCTL.EN", fun _ _ => POS.SRINGCTL.EN, 0x0, 1, 0x0, 1⟩,
  ⟨"POS.SRINGWR", fun _ _ => POS.SRINGWR, 0x0, 1, 0x0, 1⟩,
  ⟨"POS.SRINGRD", fun _ _ => POS.SRINGRD, 0x0, 1, 0x0, 1⟩,
  ⟨"POS.SRINGDROP", fun _ _ => POS.SRINGDROP, 0x0, 1, 0x0, 1⟩,
  ⟨"POS.ROVEN", fun i _ => POS.ROVEN i, 0x4, 4, 0x0, 1⟩,
  ⟨"POS.ROVRST", fun _ _ => POS.ROVRST, 0x0, 1, 0x0, 1⟩,
  ⟨"POS.SITEX", fun _ _ => POS.SITEX, 0x0, 1, 0x0, 1⟩,
  ⟨"POS.SITEY", fun _ _ => POS.SITEY, 0x0, 1, 0x0, 1⟩,
  ⟨"POS.SITEZ", fun _ _ => POS.SITEZ, 0x0, 1, 0x0, 1⟩,
  ⟨"POS.SITEROT", fun i _ => POS.SITEROT i, 0x4, 9, 0x0, 1⟩,
  ⟨"POS.SITECTL.VALID", fun _ _ => POS.SITECTL.VALID, 0x0, 1, 0x0, 1⟩,
  ⟨"POS.SITECTL.REFUSED", fun _ _ => POS.SITECTL.REFUSED, 0x0, 1, 0x0, 1⟩,
  ⟨"POS.ELMASK", fun _ _ => POS.ELMASK, 0x0, 1, 0x0, 1⟩,
  ⟨"POS.CN0MIN", fun _ _ => POS.CN0MIN, 0x0, 1, 0x0, 1⟩]

def regRowsPOS3 : List RegRow := [
  ⟨"POS.SIGPH", fun _ _ => POS.SIGPH, 0x0, 1, 0x0, 1⟩,
  ⟨"POS.SIGCODE", fun _ _ => POS.SIGCODE, 0x0, 1, 0x0, 1⟩,
  ⟨"POS.QH", fun _ _ => POS.QH, 0x0, 1, 0x0, 1⟩,
  ⟨"POS.QV", fun _ _ => POS.QV, 0x0, 1, 0x0, 1⟩,
  ⟨"POS.ODOK", fun _ _ => POS.ODOK, 0x0, 1, 0x0, 1⟩,
  ⟨"POS.ODO0", fun _ _ => POS.ODO0, 0x0, 1, 0x0, 1⟩,
  ⟨"POS.FIXGATE", fun _ _ => POS.FIXGATE, 0x0, 1, 0x0, 1⟩,
  ⟨"POS.AMBGATE", fun _ _ => POS.AMBGATE, 0x0, 1, 0x0, 1⟩,
  ⟨"POS.RATIO", fun _ _ => POS.RATIO, 0x0, 1, 0x0, 1⟩,
  ⟨"POS.SRCHMAX", fun _ _ => POS.SRCHMAX, 0x0, 1, 0x0, 1⟩,
  ⟨"POS.ANCHSIG", fun _ _ => POS.ANCHSIG, 0x0, 1, 0x0, 1⟩,
  ⟨"POS.ANCHCHK", fun _ _ => POS.ANCHCHK, 0x0, 1, 0x0, 1⟩,
  ⟨"POS.AMBHOLD", fun _ _ => POS.AMBHOLD, 0x0, 1, 0x0, 1⟩,
  ⟨"POS.RESETGAP", fun _ _ => POS.RESETGAP, 0x0, 1, 0x0, 1⟩,
  ⟨"POS.SLIPTHR", fun _ _ => POS.SLIPTHR, 0x0, 1, 0x0, 1⟩,
  ⟨"POS.REFHYST", fun _ _ => POS.REFHYST, 0x0, 1, 0x0, 1⟩,
  ⟨"POS.RECIN", fun _ _ => POS.RECIN, 0x0, 1, 0x0, 1⟩,
  ⟨"POS.RECBAD", fun _ _ => POS.RECBAD, 0x0, 1, 0x0, 1⟩,
  ⟨"POS.RECNOEN", fun _ _ => POS.RECNOEN, 0x0, 1, 0x0, 1⟩,
  ⟨"POS.RECSTALE", fun _ _ => POS.RECSTALE, 0x0, 1, 0x0, 1⟩,
  ⟨"POS.RECOLD", fun _ _ => POS.RECOLD, 0x0, 1, 0x0, 1⟩,
  ⟨"POS.CTXFLT", fun _ _ => POS.CTXFLT, 0x0, 1, 0x0, 1⟩,
  ⟨"POS.FIXCNT", fun _ _ => POS.FIXCNT, 0x0, 1, 0x0, 1⟩,
  ⟨"POS.FIXREL", fun _ _ => POS.FIXREL, 0x0, 1, 0x0, 1⟩,
  ⟨"POS.RATIOFAIL", fun _ _ => POS.RATIOFAIL, 0x0, 1, 0x0, 1⟩,
  ⟨"POS.SRCHOVF", fun _ _ => POS.SRCHOVF, 0x0, 1, 0x0, 1⟩,
  ⟨"POS.INNOREJ", fun _ _ => POS.INNOREJ, 0x0, 1, 0x0, 1⟩,
  ⟨"POS.DOCKACC", fun _ _ => POS.DOCKACC, 0x0, 1, 0x0, 1⟩,
  ⟨"POS.DOCKREF", fun _ _ => POS.DOCKREF, 0x0, 1, 0x0, 1⟩,
  ⟨"POS.LATMAX", fun _ _ => POS.LATMAX, 0x0, 1, 0x0, 1⟩,
  ⟨"POS.LATLAST", fun _ _ => POS.LATLAST, 0x0, 1, 0x0, 1⟩,
  ⟨"POS.PIPESTAT.BUSY", fun i _ => POS.PIPESTAT.BUSY i, 0x4, 4, 0x0, 1⟩,
  ⟨"POS.PIPESTAT.ROVER", fun i _ => POS.PIPESTAT.ROVER i, 0x4, 4, 0x0, 1⟩,
  ⟨"POS.DOCKE", fun i _ => POS.DOCKE i, 0x10, 256, 0x0, 1⟩,
  ⟨"POS.DOCKN", fun i _ => POS.DOCKN i, 0x10, 256, 0x0, 1⟩,
  ⟨"POS.DOCKU", fun i _ => POS.DOCKU i, 0x10, 256, 0x0, 1⟩,
  ⟨"POS.DOCKCTL.VALID", fun i _ => POS.DOCKCTL.VALID i, 0x10, 256, 0x0, 1⟩]

/-- The fields of the register tables of POS. -/
def regRowsPOS : List RegRow := regRowsPOS0 ++ regRowsPOS1 ++ regRowsPOS2 ++ regRowsPOS3

def regRowsSQ0 : List RegRow := [
  ⟨"SQ.QPUSHLO", fun i _ => SQ.QPUSHLO i, 0x1000, 48, 0x0, 1⟩,
  ⟨"SQ.QPUSHHI", fun i _ => SQ.QPUSHHI i, 0x1000, 48, 0x0, 1⟩,
  ⟨"SQ.QPOPLO", fun i _ => SQ.QPOPLO i, 0x1000, 48, 0x0, 1⟩,
  ⟨"SQ.QPOPHI", fun i _ => SQ.QPOPHI i, 0x1000, 48, 0x0, 1⟩,
  ⟨"SQ.QCTL.HEADLEN", fun i _ => SQ.QCTL.HEADLEN i, 0x1000, 48, 0x0, 1⟩,
  ⟨"SQ.QCTL.RELEASE", fun i _ => SQ.QCTL.RELEASE i, 0x1000, 48, 0x0, 1⟩,
  ⟨"SQ.QCTL.REWIND", fun i _ => SQ.QCTL.REWIND i, 0x1000, 48, 0x0, 1⟩,
  ⟨"SQ.QCTL.MARK", fun i _ => SQ.QCTL.MARK i, 0x1000, 48, 0x0, 1⟩,
  ⟨"SQ.QCTL.END", fun i _ => SQ.QCTL.END i, 0x1000, 48, 0x0, 1⟩,
  ⟨"SQ.QCTL.PRI", fun i _ => SQ.QCTL.PRI i, 0x1000, 48, 0x0, 1⟩,
  ⟨"SQ.QSTAT.ECCUNC", fun i _ => SQ.QSTAT.ECCUNC i, 0x1000, 48, 0x0, 1⟩,
  ⟨"SQ.QSTAT.ECCCOR", fun i _ => SQ.QSTAT.ECCCOR i, 0x1000, 48, 0x0, 1⟩,
  ⟨"SQ.QSTAT.MARKERR", fun i _ => SQ.QSTAT.MARKERR i, 0x1000, 48, 0x0, 1⟩,
  ⟨"SQ.QSTAT.OVERSIZE", fun i _ => SQ.QSTAT.OVERSIZE i, 0x1000, 48, 0x0, 1⟩,
  ⟨"SQ.QSTAT.POPEMPTY", fun i _ => SQ.QSTAT.POPEMPTY i, 0x1000, 48, 0x0, 1⟩,
  ⟨"SQ.QSTAT.PUSHREF", fun i _ => SQ.QSTAT.PUSHREF i, 0x1000, 48, 0x0, 1⟩,
  ⟨"SQ.QSTAT.MARKED", fun i _ => SQ.QSTAT.MARKED i, 0x1000, 48, 0x0, 1⟩,
  ⟨"SQ.QSTAT.LASTEND", fun i _ => SQ.QSTAT.LASTEND i, 0x1000, 48, 0x0, 1⟩,
  ⟨"SQ.QSTAT.INPKT", fun i _ => SQ.QSTAT.INPKT i, 0x1000, 48, 0x0, 1⟩,
  ⟨"SQ.QSTAT.HEADPRI", fun i _ => SQ.QSTAT.HEADPRI i, 0x1000, 48, 0x0, 1⟩,
  ⟨"SQ.QSTAT.AVAIL", fun i _ => SQ.QSTAT.AVAIL i, 0x1000, 48, 0x0, 1⟩,
  ⟨"SQ.QSTAT.FULL", fun i _ => SQ.QSTAT.FULL i, 0x1000, 48, 0x0, 1⟩,
  ⟨"SQ.QSTAT.DEPTH", fun i _ => SQ.QSTAT.DEPTH i, 0x1000, 48, 0x0, 1⟩,
  ⟨"SQ.QSTAT.FILL", fun i _ => SQ.QSTAT.FILL i, 0x1000, 48, 0x0, 1⟩,
  ⟨"SQ.QPKTA.P0", fun i _ => SQ.QPKTA.P0 i, 0x1000, 48, 0x0, 1⟩,
  ⟨"SQ.QPKTA.P1", fun i _ => SQ.QPKTA.P1 i, 0x1000, 48, 0x0, 1⟩,
  ⟨"SQ.QPKTB.P2", fun i _ => SQ.QPKTB.P2 i, 0x1000, 48, 0x0, 1⟩,
  ⟨"SQ.QPKTB.P3", fun i _ => SQ.QPKTB.P3 i, 0x1000, 48, 0x0, 1⟩]

/-- The fields of the register tables of SQ. -/
def regRowsSQ : List RegRow := regRowsSQ0

def regRowsFERRY0 : List RegRow := [
  ⟨"FERRY.W", fun i j => FERRY.W i j, 0x100, 16, 0x8, 16⟩,
  ⟨"FERRY.SEND", fun i _ => FERRY.SEND i, 0x100, 16, 0x0, 1⟩,
  ⟨"FERRY.TAKE", fun i _ => FERRY.TAKE i, 0x100, 16, 0x0, 1⟩,
  ⟨"FERRY.PEEK", fun i _ => FERRY.PEEK i, 0x100, 16, 0x0, 1⟩,
  ⟨"FERRY.FSTAT.FULL", fun i _ => FERRY.FSTAT.FULL i, 0x100, 16, 0x0, 1⟩,
  ⟨"FERRY.FCFG.SENDER", fun i _ => FERRY.FCFG.SENDER i, 0x100, 16, 0x0, 1⟩,
  ⟨"FERRY.FCFG.RECEIVER", fun i _ => FERRY.FCFG.RECEIVER i, 0x100, 16, 0x0, 1⟩,
  ⟨"FERRY.FCFG.LOCK", fun i _ => FERRY.FCFG.LOCK i, 0x100, 16, 0x0, 1⟩,
  ⟨"FERRY.REFCNT", fun i _ => FERRY.REFCNT i, 0x100, 16, 0x0, 1⟩,
  ⟨"FERRY.MSGCNT", fun i _ => FERRY.MSGCNT i, 0x100, 16, 0x0, 1⟩]

/-- The fields of the register tables of FERRY. -/
def regRowsFERRY : List RegRow := regRowsFERRY0

def regRowsBELL0 : List RegRow := [
  ⟨"BELL.DBELL", fun i _ => BELL.DBELL i, 0x20, 12, 0x0, 1⟩,
  ⟨"BELL.DBMASK", fun i _ => BELL.DBMASK i, 0x20, 12, 0x0, 1⟩,
  ⟨"BELL.DBPEND", fun i _ => BELL.DBPEND i, 0x20, 12, 0x0, 1⟩,
  ⟨"BELL.BATCHERR", fun i _ => BELL.BATCHERR i, 0x20, 12, 0x0, 1⟩]

/-- The fields of the register tables of BELL. -/
def regRowsBELL : List RegRow := regRowsBELL0

end Sys2Proof.Machine
end

