-- ==== Sys2Proof/Machine/State.lean ====
section
/-! DEFINITION. Machine/State.lean: the state of the block as plain data, its faults and refusals, and the state after
reset. Fields of the registers live in one sparse store, keyed by the field (Machine/Fld.lean, Machine/RegsA.lean and
following); what stands here beside it is what the spec gives the block beyond its registers. -/

namespace Sys2Proof.Machine

/-! ## Straits, ferries and locks (Islands, straits, ferries and locks) -/

/-- A packet held by a strait queue (R363): its items in push order, its priority, the requester and level of
its first push, whether it is presentable yet (R365), how many of its items are read, whether it was
already read when the mark was set (R367), and what ECC finds as it is read (R370). -/
structure Packet where
  items : List W64
  pri   : Nat := 0
  who   : Nat := 0
  shown : Bool := false
  rd    : Nat := 0
  old   : Bool := false
  at_   : Nat := 0
  ecc   : Ecc := .clean
  deriving DecidableEq, Repr

/-- A strait queue (R364–R374): packets whose END is in, the open packet, the mark, the last END mark read, the packets a stalled
hardware producer has not put in whole, and how many items of the first of them are in (R369). -/
structure Queue where
  pkts    : List Packet := []
  opn     : List W64 := []
  opri    : Nat := 0
  owho    : Nat := 0
  marked  : Bool := false
  lastEnd : Bool := false
  backlog : List Packet := []
  inn     : Nat := 0
  deriving DecidableEq, Repr

/-- A ferry (R380–R382): its header as TAKE shows it, and whether it is FULL. The payload words are registers. -/
structure Ferry where
  full : Bool := false
  hdr  : W32 := 0
  deriving DecidableEq, Repr

/-- What an island is doing: powered off, held in reset until a raw instant (none: until released), or running. -/
inductive IslMode where
  | off | held (until_ : Nat) | up
  deriving DecidableEq, Repr

/-- Something the block hands outside on a port of its own: a radio frame, an Ethernet frame or a bus answer. -/
structure Sent where
  port  : Nat
  bytes : List Nat
  deriving DecidableEq, Repr

/-! ## AON (Time bases; Start-up, resets and low power; Lichen) -/

/-- A slew in progress: the amount still to add, in ns, the rate in 2^-40 units, both signed alike (R51). -/
structure Slew where
  amt  : Int
  rate : Int
  deriving DecidableEq, Repr

/-- The parameters that CYCLE and WALL are computed from (R44, R51). -/
structure TimePars where
  coff  : Nat
  cbase : Nat
  crate : Nat
  woff  : Nat
  wbase : Nat
  wrate : Nat
  slew  : Option Slew
  deriving DecidableEq, Repr

/-- A pending rate change: rate, raw instant, and whether it was armed late (R46, R47). -/
structure RateNext where
  rate : Int
  at_  : Nat
  late : Bool
  deriving DecidableEq, Repr

/-- A Lichen record not yet in flash: code, source field, WALL and raw stamps, payload (R536, R537). -/
structure LRec where
  code : Nat
  srcf : Nat
  wall : Nat
  raw  : Nat
  pay  : List Nat
  deriving DecidableEq, Repr

/-- A Lichen rate-limit bucket: level in units of 1/260,000,000 token at a raw instant (none: full, as at reset), and
the first raw stamp and last code of the records it suppressed (R545, R546). -/
structure Bucket where
  level : Option Nat := none
  at_   : Nat := 0
  first : Nat := 0
  last  : Nat := 0
  deriving DecidableEq, Repr

/-- Lichen's own state (R536–R552) beside its registers: the flash slots that are not erased, the 64-record buffer,
the clear in hand, what GAP will report, and the buckets. -/
structure LichenS where
  flash   : Tbl (List Nat) := []
  buf     : List LRec := []
  gapN    : Nat := 0
  gapRaw  : Nat := 0
  clrWait : Bool := false
  oldCnt  : Nat := 0
  oldDig  : List Nat := []
  defB    : Bucket := {}
  bkt     : Tbl Bucket := []
  deriving DecidableEq, Repr

/-- The power state of the module (Table 15-7) with what comes before Run. -/
inductive Power where
  | off | grantHold | starting | run | standby | hibernate
  deriving DecidableEq, Repr

/-- Transmit time on a channel in one superframe (R88): the superframe, channel, and microseconds. -/
structure Dwell where
  at_ : Nat
  ch  : Nat
  us  : Nat
  deriving DecidableEq, Repr

/-- AON's own state beside its registers, its retention memory included (Table 15-8). lossRaw is the count at which the last
port lost power, while the hold-up of R24 lasts; trigRaw the first count at which a trigger unit may fire, after it was enabled,
took a target or fired (R68); accHold that a correction waits in this raw count, and accDue a STEPACC that waits for it (R53);
repl the raw counts of changes that APP's replica follows late, and the parameters before each (R394). While a capture runs,
capIsl is the island whose section is taken, capSec the count at which that section began, and capLen the bytes of the sections
before it (R500). rstAhead is the depth of the deepest reset that a command still asks for in this raw count (R492); standbyAt
when Standby began (R494); linkAt when a link last changed (R495). -/
structure AonS where
  power    : Power := .off
  cPend    : Option RateNext := none
  wPend    : Option RateNext := none
  slew     : Option Slew := none
  lastCorr : Nat := 0
  lockFrom : Option Nat := none
  holdRaw  : Nat := 0
  holdUnc  : Nat := 0
  follRaw  : Nat := 0
  ppsSec   : Int := 0
  ppsHigh  : Bool := false
  ppsRaw   : Option Nat := none
  ppsPin   : Bool := false
  catchUp  : Tbl Bool := []
  trigRaw  : Tbl Nat := []
  accDue   : Bool := false
  accHold  : Bool := false
  repl     : List (Nat × TimePars) := []
  lossRaw  : Option Nat := none
  wdLast   : Option W32 := none
  wdPer    : Nat := 0
  wdFrom   : Nat := 0
  wdLeft   : Nat := 0
  ret      : Tbl Byte := []
  retCnt   : Nat := 0
  capFrom  : Option Nat := none
  capRq    : Nat := 0xFF
  capIsl   : Nat := 0
  capSec   : Nat := 0
  capLen   : Nat := 0
  tmpDue   : Bool := false
  rstWait  : List Nat := []
  rstAt    : Option (Nat × Nat) := none
  rstAhead : Nat := 0
  standbyAt : Nat := 0
  holds    : Tbl Nat := []
  dwell    : List Dwell := []
  mapCopy  : Option (Nat × Nat) := none
  lbRef    : Tbl Nat := []
  link     : Tbl Nat := []
  linkAt   : Option Nat := none
  lich     : LichenS := {}
  deriving DecidableEq, Repr

/-- What the boot ROM is doing (R475, R482–R487): nothing; reading and checking; an image verified and not yet entered;
firmware running; both slots failed; recovery frames taken up to an offset; held under TAMPER_HOLD (R533). -/
inductive Boot where
  | idle | rom | passed | firmware | failed | recovery (next : Nat) | hold
  deriving DecidableEq, Repr

/-- The verified image's header as the boot ROM keeps it (Table 15-4). -/
structure Image where
  loadpa : Nat
  len    : Nat
  entry  : Nat
  wake   : Nat
  hash   : List Nat
  secver : Nat
  fcfg   : List Nat
  deriving DecidableEq, Repr

/-! ## SEC (Permission to move; Life cycle, the frond tree and tamper; Single-fault coverage) -/

/-- A key slot: the key as two shares, mask and key XOR mask (R519), its usage mask (R520) and its depth (R515). -/
structure Slot where
  mask  : List Nat
  share : List Nat
  usage : Nat
  depth : Nat
  deriving DecidableEq, Repr

/-- An answer of SEC that waits for its ferry: ferry, header, words, raw instant (R524). -/
structure Answer where
  ferry : Nat
  hdr   : Nat
  words : List Nat
  from_ : Nat
  deriving DecidableEq, Repr

/-- SEC's own state beside its registers. The J6 I/O supply is taken as in regulation at power-up, before any event
(DESIGN CHOICE, log 121); j6From is the count at which the samplers started, fltA and fltB the one after which the samples of a
channel's next change count, winA and winB the last part of a test window judged; permLow is the count at which PERMIT was last
commanded low, and pinHigh that the pin is held high from outside. -/
structure SecS where
  -- the permission monitor (R127–R149, R558–R560)
  solo     : Option (Nat × Nat) := none
  disRun   : Nat := 0
  unsingle : List Nat := []
  enterRaw : Option Nat := none
  hbLast   : Option W32 := none
  hbRaw    : Option Nat := none
  hbSteady : Nat := 0
  j6Raw    : Option Nat := none
  schRaw   : Option Nat := none
  graceArm : Option Nat := none
  graceAt  : Option Nat := none
  graceEnd : Option Nat := none
  hbAny    : Bool := true
  -- J6 (R27–R31, R142, R144)
  setA     : Bool := false
  setB     : Bool := false
  discFrom : Option Nat := none
  closedAt : Option Nat := none
  clrPhase : Nat := 0
  clrA     : Nat := 0
  clrB     : Nat := 0
  permit   : Bool := false
  permLow  : Nat := 0
  pinHigh  : Bool := false
  j6From   : Nat := 0
  fltA     : Nat := 0
  fltB     : Nat := 0
  winA     : Option Nat := none
  winB     : Option Nat := none
  ioSup    : Bool := true
  fixq     : Bool := false
  -- what was stopped at one raw count (R135)
  cutRaw   : Option Nat := none
  cutZones : List Nat := []
  cutMembs : List Nat := []
  -- tokens delivered and the beacon check (R560)
  tokens   : List (Nat × Nat) := []
  wdSf     : Option Nat := none
  bcnSf    : Option Nat := none
  bcnBad   : Option Nat := none
  bcnRun   : Nat := 0
  rateBad  : Bool := false
  critRaw  : Tbl Nat := []
  -- keys and requests (R510–R529)
  spore    : Option (List Nat) := none
  spTry    : Nat := 0
  spAt     : Nat := 0
  maskAt   : Nat := 0
  rows     : List Nat := []
  slots    : Tbl (Option Slot) := []
  fills    : Tbl Nat := []
  nonce    : Option (List Nat × Nat) := none
  ans      : Option Answer := none
  dbgEnd   : Option (Nat × Nat) := none
  drbgReq  : Nat := 0
  deriving DecidableEq, Repr

/-- The seed record (R516): IV, ciphertext, tag and system ID. -/
structure SeedRec where
  iv  : List Nat
  ct  : List Nat
  tag : List Nat
  sys : Nat
  deriving DecidableEq, Repr

/-- The protected NOR region (R510, R517, R527, R528): helper data and check value, the seed record, the beacon
generation, and the counters of issuers and of signed commands. -/
structure NorS where
  helper : Option (BitVec 3570) := none
  check  : List Nat := []
  seed   : Option SeedRec := none
  gen    : Nat := 0
  genSf  : Nat := 0
  genNxt : Option Nat := none
  issuer : Tbl Nat := []
  cmdCtr : Nat := 0
  deriving DecidableEq, Repr

/-! ## RAD (Fleet radio; Permission to move) -/

/-- A token with its snapshot, as RAD holds it (R129, R130). -/
structure Tok where
  sf    : Nat
  tok   : Nat
  epoch : Nat
  zones : Nat
  cap   : Nat
  flags : Nat
  sgl   : List (Nat × Nat)
  deriving DecidableEq, Repr

/-- A frame a context buffers (R120): its type, payload, firmware tag, and whether firmware sent it. -/
structure RFrame where
  typ : Nat
  pay : List Nat
  tag : Nat
  fw  : Bool := false
  deriving DecidableEq, Repr

/-- A parameter update that waits for its instant (R94): staged PLACE and TIMERS words and mode. -/
structure Upd where
  place  : Nat
  timers : Nat
  inst   : Nat
  deriving DecidableEq, Repr

/-- A connection context's own state beside its registers (R91–R105, R116, R118, R121): sentRaw is when the frame in flight went
out last, ackRaw when the last acknowledged one did; keyUsed says that a link frame has gone out under the session key held, and
hold that the key waits for its JOIN_RSP, or that its nonces would come again (R101); adrift says that the link of a MIGRATING
context was lost before firmware placed it (R98, R118). -/
structure CtxS where
  cur    : Option RFrame := none
  sent   : Bool := false
  nxt    : Option RFrame := none
  ctrl   : List RFrame := []
  supRaw : Nat := 0
  upd    : Option Upd := none
  mapAt  : Option Nat := none
  term   : Bool := false
  told   : Bool := false
  isOpen : Bool := false
  sentRaw : Nat := 0
  ackRaw : Option Nat := none
  keyUsed : Bool := false
  hold   : Bool := false
  adrift : Bool := false
  deriving DecidableEq, Repr

/-- A placement's claim on the direction plan (R81, R92): lane, anchor, length, down slots, first phase, interval. -/
structure Claim where
  lane : Nat
  anch : Nat
  len  : Nat
  down : Nat
  ph   : Nat
  ivl  : Nat
  deriving DecidableEq, Repr

/-- A join request that waits for its answer (R106, R108): ID, whether it is a handheld's, the context whose entry SEC placed the
session key at as it checked the request, the join key, and the member's and the base's nonce. -/
structure JoinReq where
  id      : Nat
  service : Bool
  ctx     : Option Nat
  key     : List Nat
  mnonce  : List Nat
  nonce   : List Nat
  deriving DecidableEq, Repr

/-- A stop indication RAD has added (R133, R134): kind 1 global with its cause, 2 zone, 3 member with its zone; the
superframe it came in, and whether it has been forwarded again (R572). -/
structure Addn where
  kind   : Nat
  zone   : Nat
  member : Nat
  cause  : Nat
  sf     : Nat
  deriving DecidableEq, Repr

/-- What derives a session key (Table 16-3): ID, whether a handheld's, and the label. The standby record holds it (R493). -/
structure SessLbl where
  id      : Nat
  service : Bool
  label   : List Nat
  deriving DecidableEq, Repr

/-- A lane's transmission under way: the raw count it ends at, and whether it is a beacon (R21). -/
structure Air where
  til : Nat := 0
  bcn : Bool := false
  deriving DecidableEq, Repr

/-- RAD's own state beside its registers. joinSf holds a lane's superframe of its last join event, plus 1 (R106); air what the lanes
are sending (R21, R77). -/
structure RadS where
  relRaw   : Nat := 0
  sfLast   : Option Nat := none
  begun    : Bool := false
  vmax     : Nat := 40
  phase    : Nat := 0
  mossNext : Option Bool := none
  mapArm   : Option (Nat × Nat) := none
  lbDue    : Bool := false
  toks     : List Tok := []
  wd       : Option (Nat × Bool × Nat) := none
  cause    : Option Nat := none
  epoch    : Nat := 0
  crawl    : Bool := false
  kg       : Nat := 0
  adds     : List Addn := []
  ctx      : Tbl CtxS := []
  sess     : Tbl (Option Slot) := []
  sessLbl  : Tbl (Option SessLbl) := []
  freeing  : List Claim := []
  txAcc    : Tbl Nat := []
  joinSf   : Tbl Nat := []
  air      : Tbl Air := []
  joinQ    : List JoinReq := []
  deriving DecidableEq, Repr

/-! ## NET (Drive ring and the cyclic frame) -/

/-- A nonce of a member's ring session key and the SEQ from which the key it gives applies (R285). -/
structure RingNonce where
  from_ : Nat
  nonce : List Nat
  deriving DecidableEq, Repr

/-- NET's own state beside its registers: the ring keys with their labels; the sample instant a trigger has set (R275); the ring
cycle begun last, its start and INDL on CYCLE, whether its input phase is open, and what it has accepted (R276, R282); the SEQ
and CYCCNT of recent frames; consecutive misses of each member and of the test frames (R284, R269); a link lost since the last
TESTDL; a FLUSH due (R270); whether SEQ has its random start (R288); when a member was last heard (R290); the nonces, newest
first, and the members a fresh one is due to (R285); how many ANNOUNCE frames of port A were taken before their turn (R290); how
many receive buffers are used (R472); ordinary frames held by the protected window (R291); the instants of the broadcasts
forwarded in the last second (R272); and frames discarded (R56, R472). -/
structure NetS where
  keys    : Tbl (Option Slot) := []
  keyLbl  : Tbl (List Nat) := []
  hadKey  : List Nat := []
  siNext  : Option Nat := none
  cycLast : Option Nat := none
  cstart  : Nat := 0
  indl    : Nat := 0
  isOpen  : Bool := false
  seen    : List (Nat × Nat) := []
  hist    : List (Nat × Nat) := []
  miss    : Tbl Nat := []
  tmiss   : Nat := 0
  lostLink : Bool := false
  flush   : Bool := false
  started : Bool := false
  ringRaw : Nat := 0
  heard   : Tbl Nat := []
  nonces  : Tbl (List RingNonce) := []
  rekeyed : Bool := false
  nonceDue : List Nat := []
  annDone : Nat := 0
  rxBufs  : Nat := 0
  waiting : List Sent := []
  bcTimes : List Nat := []
  ptpDrop : Nat := 0
  frmDrop : Nat := 0
  deriving DecidableEq, Repr

/-! ## CTL (Axis motion, stepping and homing; Control engine and cycle programs) -/

/-- An input record as CTL holds it: its 24 bytes with fields as NET holds them (R280), whether it is fresh, and the cycles
since the last fresh one. -/
structure InRec where
  bytes : List Nat := []
  fresh : Bool := false
  since : Nat := 0
  deriving DecidableEq, Repr

/-- A ramp to standstill, at the deceleration and jerk its registers hold (R307): the quick-stop ramp, the limit-stop ramp, the
steeper of these two (R308), or DMAX within JMAX. -/
inductive Ramp where
  | quick | limit | steeper | plain
  deriving DecidableEq, Repr

/-- What an axis's profile generator does: stands still, goes to a position at a speed of at most so much, goes at a
velocity, or brakes on a ramp. Positions and velocities are Q47.16. -/
inductive Mv where
  | still
  | pos (tgt : Int) (vmax : Nat)
  | vel (v : Int)
  | ramp (k : Ramp)
  deriving DecidableEq, Repr

/-- The phase of a homing sequence (R325, R326): search for the switch; brake; slow away from it; search for the index;
brake at the reference; back off; search for the hard stop. -/
inductive HomePh where
  | none | seek | turn | edge | index | brake | back | hard
  deriving DecidableEq, Repr

/-- An axis context's own state beside its registers (R293–R330): the exact profile state, OFS, what the generator does and
its last target; the command waiting and the steps of this cycle already made; homing; counters of cycles; what the last
records said. -/
structure AxS where
  p      : Int := 0
  v      : Int := 0
  a      : Int := 0
  ofs    : Int := 0
  mv     : Mv := .still
  tgt    : Int := 0
  limRamp : Bool := false
  cmd    : Option Nat := none
  stopNow : Bool := false
  ruled  : Bool := false
  prof   : Bool := false
  loads  : Bool := false
  msw    : Bool := false
  fltNow : Bool := false
  nodeFlt : Bool := false
  cut    : Bool := false
  undo   : Option (Int × Nat) := none
  delay  : Nat := 0
  frst   : Bool := false
  leave  : Bool := false
  still  : Nat := 0
  kept   : Bool := false
  stallN : Nat := 0
  followN : Nat := 0
  trqN   : Nat := 0
  modeChg : Bool := false
  chgPrev : Bool := false
  alive  : Bool := false
  iPrev  : Option (Int × Int) := none
  boot   : Option Nat := none
  act    : List (Nat × Int) := []
  ph     : HomePh := .none
  homeMode : Nat := 0
  active : Nat := 0
  capt   : Option (Int × Nat) := none
  edges  : List (Nat × Nat) := []
  hoP    : Bool := false
  hoT    : Bool := false
  deriving DecidableEq, Repr

/-- A loop block's own state beside its registers (R336, R346–R352). -/
structure LbS where
  dterm  : W32 := 0
  e      : W32 := 0
  y      : W32 := 0
  begun  : Bool := false
  integW : Option W32 := none
  rst    : Bool := false
  ratio  : W32 := 0x3F800000
  deriving DecidableEq, Repr

/-- A program that runs: its words as it has them (R339), the next one's index, when it started on CYCLE. -/
structure Running where
  prog  : List W32
  next  : Nat
  start : Int
  deriving DecidableEq, Repr

/-- CTL's own state beside its registers: the firing taken, and the servo cycle that had the last one (R332); stops that wait
for the axes; the servo cycles of the last hand-off and of the last deadline met, and that a step of CYCLE has ended a cycle
whose deadline was not met (R61); the running program; working registers; the output shadow (R345); latched loop-block
parameters (R336); cycles overrun one after another (R334); HOLDALL to clear (R356). -/
structure CtlS where
  trig   : Option Nat := none
  fired  : Option Int := none
  stops  : List (Option Nat) := []
  handed : Option Int := none
  dl     : Option Int := none
  dlDue  : Bool := false
  ran    : Bool := false
  took   : Bool := false
  cyc    : Nat := 0
  inp    : Tbl InRec := []
  run    : Option Running := none
  f      : Tbl W32 := []
  shadow : Tbl (List Nat) := []
  ax     : Tbl AxS := []
  lb     : Tbl LbS := []
  lat    : Tbl W64 := []
  ovr    : Nat := 0
  mreq   : List Nat := []
  holdClr : Bool := false
  deriving DecidableEq, Repr

/-! ## POS (GNSS baseband and base measurements; Rover solver) -/

/-- The settings a channel works under (R163): PLL bandwidth, whether 20 ms are allowed, the pull-in limit. -/
structure ChanSet where
  bw    : Nat := 5
  int20 : Bool := true
  limit : Nat := 50
  deriving DecidableEq, Repr

/-- A tracking channel's own state beside its registers: code phase (2^-32 ms) and Doppler (mHz) at a raw count, the raw counts at
which pull-in, loss and carrier lock began, SLIP since the last epoch, half cycles added to the phase, and the navigation data in
hand: the last word's two parity bits, word and subframe number, whether every word of the subframe passed, its data words, and
the words a full queue holds back (R164–R169). Then the last words received, newest first (R166); the transmit time in ms at a raw
count (R166); the last epoch's carrier phase, where CARRIER was set (R174); the whole cycles that RTCM's phase range adds (R181);
the count from which integrations are counted, the settings in force, the boundary at which written ones are taken, and whether
the channel is released there (R163; Table 05-13, note 3). And the count of the last REL, and the count of the last PRN write with
the PRN before it (note 3). -/
structure ChanG where
  code : W32 := 0
  dop  : W32 := 0
  at_  : Nat := 0
  pull : Nat := 0
  loss : Nat := 0
  lock : Nat := 0
  slip : Bool := false
  half : Nat := 0
  prev : Nat := 0
  wnum : Nat := 0
  sfid : Nat := 0
  good : Bool := false
  sf   : List Nat := []
  held : List W64 := []
  hist : List Nat := []
  tx   : Nat := 0
  txRaw : Nat := 0
  acp  : Option Int := none
  align : Option Int := none
  intAt : Nat := 0
  set  : ChanSet := {}
  due  : Option Nat := none
  rel  : Bool := false
  relAt : Option Nat := none
  prnAt : Option (Nat × Nat) := none
  deriving DecidableEq, Repr

/-- Ephemeris data of a PRN: the subframes collected, each as words 3–10, the set in force, and when the PRN was last
tracked with what Doppler and code phase (R170, R182). -/
structure EphG where
  sf1  : List Nat := []
  sf2  : List Nat := []
  sf3  : List Nat := []
  cur  : List Nat := []
  dop  : W32 := 0
  code : W32 := 0
  at_  : Nat := 0
  seen : Bool := false
  deriving DecidableEq, Repr

/-- A search in hand (R157–R161): kind 0 reacquisition, 1 pinned, 2 list; its PRN and channel; the Doppler bins left, in mHz, the
present one first; the first half-chip and the number of 64-half-chip steps of a sweep, and the present step; the half-chip that
the next dwell confirms. -/
structure Job where
  kind : Nat
  prn  : Nat
  chan : Nat
  bins : List Int
  from_ : Nat := 0
  steps : Nat := 32
  step : Nat := 0
  conf : Option Nat := none
  deriving DecidableEq, Repr

/-- A latched epoch not yet complete (R173): sequence, raw count, WALL, whether WALL was locked and had been stepped, the
channel entries, and the correction submitted; whether the record is complete and the correction has been decided; the ephemeris
sets in force at the latch (R170). -/
structure Latch where
  seq  : Nat
  raw  : Nat
  wall : Nat
  lockd : Bool
  step : Bool
  ents : List Nat
  corr : Nat := 0x80000000
  full : Bool := false
  tc   : Bool := false
  eph  : Tbl (List Nat) := []
  deriving DecidableEq, Repr

/-- A completed measurement record (Table 05-5), the raw count of its completion, and the ephemeris sets in force at its latch. -/
structure BaseRec where
  bytes : List Nat
  raw   : Nat
  eph   : Tbl (List Nat) := []
  deriving DecidableEq, Repr

/-- An observation record in the store (R185): rover, payload, raw counts of its entry and of its becoming presentable on
SQ23 (R222), whether its wait is over. -/
structure ObsRec where
  r     : Nat
  bytes : List Nat
  raw   : Nat
  shown : Nat := 0
  ready : Bool := false
  deriving DecidableEq, Repr

/-- What a solve has read at its dispatch (R224): the parameter registers, the claimed dock's entry, and the base position, the
site origin (0.1 mm) and the site rotation (2^-30). -/
structure Params where
  elmask : Nat
  cn0    : Nat
  fixgate : Nat
  ambgate : Nat
  ratio  : Nat
  srchmax : Nat
  anchchk : Nat
  ambhold : Nat
  refhyst : Nat
  sigph  : Nat
  sigcode : Nat
  qh     : Nat
  qv     : Nat
  odok   : Nat
  odo0   : Nat
  anchsig : Nat
  slipthr : Nat
  dock   : Bool
  dockAt : List Int
  base   : List Int
  site   : List Int
  rot    : List Int
  deriving DecidableEq, Repr

/-- A solve's outputs while SQ24 has no room for its item (R219, R222): pipeline, rover, the virtual address of the rover's context,
the solution record, the item, and the count from which its latency runs. -/
structure Solved where
  pipe  : Nat
  rover : Nat
  ctx   : Nat
  rec_  : List Nat
  item  : List W64
  since : Nat
  deriving DecidableEq, Repr

/-- A pipeline at work (R191): its record, the base record matched, whether the rover's context was reset, its parameters. -/
structure Pipe where
  obs   : ObsRec
  base  : BaseRec
  reset : Bool
  par   : Params
  deriving DecidableEq, Repr

/-- POS's own state beside its registers: firings due and the antenna supply; channels, ephemerides and the search engine's work
(R158–R161) with the predicted PRNs of a warm start, their Doppler in mHz and the count at which the dwell in hand ends; the
time of week in ms that HOWs give at a raw count while WALL is not valid (R178); RTCM's ephemeris rotation (R181); the epoch in
hand, the failing of FIXQ, completed records; the solver's store and pipelines, rovers to reset before their next record (R216),
each rover's last solved epoch plus 1, rovers with a position, the epoch plus 1 in which each PRN's carrier was last used for a
rover (R197, at 32 times the rover plus PRN − 1), and finished solves whose item waits for room on SQ24 (R219). -/
structure PosS where
  epochDue : Nat := 0
  biasCut  : Option Nat := none
  cold   : Bool := false
  ch     : Tbl ChanG := []
  eph    : Tbl EphG := []
  jobs   : Tbl (Option Job) := []
  lastP  : Nat := 0
  warm   : List (Nat × Int) := []
  dwellEnd : Nat := 0
  coarse : Option (Nat × Nat) := none
  tried  : List Nat := []
  lastAt : Option Nat := none
  latch  : Option Latch := none
  step   : Bool := false
  failAt : Option Nat := none
  recs   : List BaseRec := []
  store  : List ObsRec := []
  pipes  : Tbl (Option Pipe) := []
  resets : List Nat := []
  last   : Tbl Nat := []
  work   : Option Nat := none
  rtcmNew : List Nat := []
  rtcmLast : Nat := 0
  known  : List Nat := []
  usedAt : Tbl Nat := []
  outQ   : List Solved := []
  deriving DecidableEq, Repr

/-! ## SCH (Dataflow operations and the scheduler; Track graph, permits and task allotment) -/

/-- The dispatch fields of an operation that a FAST event entry caches (R431): ENTRY, PRI, AFF and LEVEL. -/
structure Fast where
  entry : Nat
  pri   : Nat
  aff   : Nat
  lvl   : Nat
  deriving DecidableEq, Repr

/-- An entry of the ready lists (R432): the operation, its level, its affinity, the completion entry of a resumption and the
core it is pinned to (R397), the raw count at which it became ready, and the core it is chosen for (R433), and the cached fields
of one that a FAST event entry made (R431); and whether its first dispatch has been put off (R435). -/
structure Ready where
  h     : Nat
  pri   : Nat
  aff   : Nat
  res   : Option Nat := none
  pin   : Option Nat := none
  since : Nat := 0
  to_   : Option Nat := none
  fast  : Option Fast := none
  put_  : Bool := false
  deriving DecidableEq, Repr

/-- What a pre-emption saves of an operation (R414). g0 and p0 are hard-wired and not held (R386). -/
structure Ctx where
  g      : Tbl W64 := []
  v      : Tbl (BitVec 256) := []
  p      : Tbl W32 := []
  pc     : W64 := 0
  fpcsr  : W64 := 0
  residx : Nat := 0
  lkcnt  : Nat := 0
  lvl    : Level := .m
  deriving DecidableEq, Repr

/-- An entry of the completion table (R435): the operation, the core it was last dispatched to, its context while it is
pre-empted, and the raw counts it has run. -/
structure Inf where
  h    : Nat
  core : Nat
  ctx  : Option Ctx := none
  ran  : Nat := 0
  deriving DecidableEq, Repr

/-- A node of the track graph (Table 07-1): E, N, U and VALID. -/
structure Node where
  e : W32 := 0
  n : W32 := 0
  u : W32 := 0
  valid : Bool := false
  deriving DecidableEq, Repr

/-- A reservation entry (Table 07-12). -/
structure Resv where
  enter : Nat := 0
  exit  : Nat := 0
  seg   : Nat := 0
  dir   : Bool := false
  opn   : Bool := false
  mem   : Nat := 0
  held  : Bool := false
  fgn   : Bool := false
  shadow : Bool := false
  frozen : Bool := false
  ext   : Bool := false
  deriving DecidableEq, Repr

/-- A member-table entry (Table 07-13, R231–R250): legs as entry indices, none once released; up to which leg PASS has come;
the superframe by which a cut must be acknowledged, and whether the member has been singled for want of it; whether a
cross-cell permit is pending; the last tested item's epoch, E and N, and its superframe; the last solution fit for a release,
as its items 1–3; the segment an UNFREEZE that waits for a solution names; and the permit that was cut. -/
structure Memb where
  id    : Nat
  foot  : Nat := 0
  cap   : Nat := 0
  pid   : Nat := 0
  legs  : List (Option Nat) := []
  passed : Nat := 0
  lost  : Bool := false
  cutDl : Option Nat := none
  cutTold : Bool := false
  cross : Bool := false
  tested : Option (Nat × W32 × W32) := none
  testSf : Nat := 0
  sol   : Option (W64 × W64 × W64) := none
  unfrz : Option Nat := none
  cutPid : Nat := 0
  cutsOld : List (Nat × Nat × Bool) := []
  deriving DecidableEq, Repr

/-- A cross-cell permit in hand (R252, R253): its member, permit ID, leg items with the indices of the entries made, the
owners that still owe an answer, all owners asked, whether COMMITs are out, when the question was asked, and whether the anchor
became a SHADOW entry with it. -/
structure Cross where
  mem   : Nat
  pid   : Nat
  legs  : List (W64 × Nat)
  owed  : List Nat
  owners : List Nat
  commit : Bool := false
  asked : Nat := 0
  anch  : Bool := false
  deriving DecidableEq, Repr

/-- Entries held or committed for a peer's member (R252–R254): the base, member, permit ID, entry indices, whether they are
committed, and when they expire while they are only held. -/
structure Fgn where
  base  : Nat
  mem   : Nat
  pid   : Nat
  ents  : List Nat
  done  : Bool := false
  till  : Nat := 0
  deriving DecidableEq, Repr

/-- The time settings of the reservation engine in effect (R264, Table 07-14), in superframes. -/
structure TrkTimes where
  grace   : Nat := 100
  ext     : Nat := 300
  lead    : Nat := 200
  ackLead : Nat := 50
  horizon : Nat := 60000
  holdTo  : Nat := 20
  hbPer   : Nat := 10
  hbTo    : Nat := 50
  nofix   : Nat := 200
  margin  : Nat := 20
  deriving DecidableEq, Repr

/-- SCH's own state beside its registers and the DRAM tables it keeps. -/
structure SchS where
  bells  : List Nat := []
  evs    : List W64 := []
  run    : Bool := false
  ready  : List Ready := []
  inf    : Tbl (Option Inf) := []
  fastEv : Tbl (Option Fast) := []
  -- same-cycle outcomes (R427, R441): tokens and choices that wait for commands behind them in the raw count, and the
  -- operations completed in the raw count donesAt
  evLate : List Ecc := []
  chooseLate : Nat := 0
  dones  : List Nat := []
  donesAt : Nat := 0
  -- the reservation engine (R226–R263): graph bytes, reservations, members, cross-cell permits, peers' entries; the superframe
  -- of the last PEER_HB from each base plus 1, and its GRAPHVER; of a base's entry into PEERMASK plus 1; of the last PEER_HB sent
  -- plus 1; of the last evaluation; and the time settings it took
  sram   : Tbl Byte := []
  resv   : Tbl (Option Resv) := []
  memb   : Tbl (Option Memb) := []
  cross  : List Cross := []
  fgn    : List Fgn := []
  peerSf : Tbl Nat := []
  peerVer : Tbl Nat := []
  peerFrom : Tbl Nat := []
  hbSf   : Nat := 0
  evalSf : Option Nat := none
  times  : TrkTimes := {}
  auctFrom : Nat := 0
  deriving DecidableEq, Repr

/-! ## APP (Pretan instruction set) -/

/-- The exception registers of a level (Tables 12-8 and 12-10). -/
structure ExcRegs where
  evec : W64 := 0
  epc  : W64 := 0
  code : Nat := 0
  eval : W64 := 0
  escr : W64 := 0
  w    : Bool := false
  pnp  : Bool := false
  eact : Bool := false
  plev : Level := .u
  deriving DecidableEq, Repr

/-- What a core does: waits in the boot ROM, runs firmware's start-up code outside any operation, runs an operation by its
completion entry, is idle, or naps. -/
inductive CoreRun where
  | rom | fw | op (k : Nat) | idle | nap
  deriving DecidableEq, Repr

/-- A dataflow instruction that stalls on full ready lists (R403, R438). -/
inductive Stall where
  | ready (rd h since : Nat)
  | post (rd h slot : Nat) (tok : W64) (since : Nat)
  | done (v : W64)
  | cancel (rd h : Nat) (won : Option Nat)
  deriving DecidableEq, Repr

/-- A core (R386, Table 12-8): its context, what it runs, its section (R416), its address space, its exception registers. -/
structure Core where
  x      : Ctx := { pc := 0xFFFFF00000 }
  run    : CoreRun := .rom
  fatal  : Bool := false
  from_  : Nat := 0
  np     : Bool := false
  npAt   : Nat := 0
  nplim  : Nat := 1600
  npmax  : Nat := 0
  ptroot : W64 := 0
  asid   : Nat := 0
  iret   : Nat := 0
  es     : ExcRegs := {}
  em     : ExcRegs := {}
  edeleg : W64 := 0
  fatalc : Nat := 0
  fatalpc : W64 := 0
  stall  : Option Stall := none
  deriving DecidableEq, Repr

/-- APP's own state beside its registers: the boot ROM, the cores, and the self-test sequencer (R561): the core in test, the
turn that waits for its core since a raw count (R443), when the latest turn began, the cores of the round still to come, the
core that the round before skipped last, and when the round began. -/
structure AppS where
  boot   : Boot := .idle
  img    : Option Image := none
  relRaw : Nat := 0
  cores  : Tbl Core := []
  stCur  : Option Nat := none
  stTry  : Option Nat := none
  stAt   : Option Nat := none
  stNext : List Nat := []
  stAgain : Option Nat := none
  stFrom : Nat := 0
  stFence : Nat := 0
  infoRaw : Option Nat := none
  deriving DecidableEq, Repr

/-! ## MEM (Memory, hardware paging and DMA) -/

/-- A DMA descriptor (Table 14-4). -/
structure Desc where
  src  : Nat
  dst  : Nat
  len  : Nat
  op   : Nat
  last : Bool
  evt  : Bool
  evn  : Nat
  next : Nat
  deriving DecidableEq, Repr

/-- A channel's own state beside its registers: the descriptor it has fetched, the sector the eMMC host gathers, whether it skips a
descriptor whose fetch had faulted (R470), and the word of a window it read last, with its address (log 156). -/
structure Chan where
  desc : Option Desc := none
  sec  : List Nat := []
  skip : Bool := false
  rbuf : Option (Nat × Nat) := none
  deriving DecidableEq, Repr

/-- MEM's own state beside its registers: DRAM, the words that hold an uncorrectable error and those that hold a single one, the
frames with a retirement request outstanding, the invalidations that wait, the scrubber's word and when it read it, the channels,
the channel the eMMC host serves (R448), and whether the eMMC is ready. -/
structure MemS where
  dram  : Tbl Byte := []
  bad   : Tbl Bool := []
  soft  : Tbl Bool := []
  req   : Tbl Bool := []
  inval : Nat := 0
  scrub : Nat := 0
  scrubAt : Nat := 0
  chan  : Tbl Chan := []
  host  : Option Nat := none
  ready : Bool := false
  deriving DecidableEq, Repr

/-! ## The machine -/

/-- The commissioned settings (Table 00-1) as the settings fuses hold them. -/
structure Settings where
  region : Nat
  sys    : Nat
  base   : Nat
  access : Nat
  deriving DecidableEq, Repr

/-- The fuses in AON (R504–R507, R512, R528, R571): they only ever blow. lc is Table 16-1's value without SERVICE, which
the parity of the service count tells (R506). -/
structure Fuses where
  provisioned : Bool := false
  deployed : Bool := false
  retired  : Bool := false
  svc      : Nat := 0
  settings : Option Settings := none
  owner    : Option (List Nat) := none
  imgKeys  : List (List Nat) := []
  secver   : Nat := 0
  devid    : Nat := 0
  deriving DecidableEq, Repr

/-- What no reset of the block returns to a default (Table 15-8): the tamper latch, the protected NOR region, the eMMC; and how
many JOIN_RSPs have been sent, which the join counter never repeats (R101; DESIGN CHOICE, log 130). -/
structure Keep where
  tampHold  : Bool := false
  tampLatch : Nat := 0
  nor       : NorS := {}
  emmc      : Tbl Byte := []
  joinCtr   : Nat := 0
  deriving DecidableEq, Repr

/-- Everything but the fuses and the queue of commands. posRoot, schRoot and netRoot are the page-table roots of the address
spaces in which POS, SCH and NET reach DRAM (R472): no register the spec lists holds them, so they are the model's own fields.
lockSeen is what each requester of the last LOCK_READ read (R378). -/
structure Dev where
  raw       : Nat := 0
  regs      : Tbl W64 := []
  latch     : Tbl W32 := []
  held      : Tbl W32 := []
  rdata     : W64 := 0
  lockSeen  : List (Nat × Nat) := []
  evs       : Tbl Nat := []
  free      : Nat := 0
  posRoot   : W64 := 0
  schRoot   : W64 := 0
  netRoot   : W64 := 0
  sent      : List Sent := []
  isl       : Tbl IslMode := []
  sq        : Tbl Queue := []
  lock      : Tbl Nat := []
  ferry     : Tbl Ferry := []
  ferrySeq  : List (Nat × Nat) := []
  bellDue   : Tbl Nat := []
  batchDue  : List Nat := []
  keep      : Keep := {}
  aon       : AonS := {}
  sec       : SecS := {}
  app       : AppS := {}
  sch       : SchS := {}
  mem       : MemS := {}
  ctl       : CtlS := {}
  net       : NetS := {}
  rad       : RadS := {}
  pos       : PosS := {}
  deriving DecidableEq, Repr

/-- The state of the block: the commands that wait, the fuses, and everything else. -/
structure State where
  pending : List Instr
  fuses   : Fuses
  dev     : Dev
  deriving DecidableEq, Repr

/-- Faults: how a command stops the run. There is none: every access the spec makes an error of answers as it says (R357–R359,
R408), so no command stops. -/
inductive Fault where
  deriving DecidableEq, Repr

/-- Refusals: what the model declines to run. -/
inductive Refusal where
  /-- A command whose meaning is not written. Safe. -/
  | notModelled (mnemonic : String)
  deriving DecidableEq, Repr

/-- The machine right after reset: a module with no power yet, its fuses blank, its flash and memories never written. The
roots of POS's, SCH's and NET's address spaces are free (DESIGN CHOICE, log 42). -/
def State.reset : State :=
  { pending := [], fuses := {},
    dev := { posRoot := Config.islandRoot 6, schRoot := Config.islandRoot 2, netRoot := Config.islandRoot 4 } }

end Sys2Proof.Machine
end

