-- ==== Sys2Proof/Machine/Ops.lean ====
section
/-! DEFINITION. Machine/Ops.lean: the named operations every meaning is written over: sparse tables, bit fields,
register fields, free values, and the lift of an effect on the block to an outcome. -/

namespace Sys2Proof.Machine

/-! ## Sparse tables -/

/-- The value at a key, or the value every unlisted key has. -/
def tget {α : Type} : Tbl α → Nat → α → α
  | [], _, d => d
  | (k', v) :: r, k, d => if k' = k then v else tget r k d

/-- Insert or replace, keys staying in rising order. -/
def tput {α : Type} : Tbl α → Nat → α → Tbl α
  | [], k, v => [(k, v)]
  | (k', v') :: r, k, v =>
    if k < k' then (k, v) :: (k', v') :: r
    else if k = k' then (k, v) :: r
    else (k', v') :: tput r k v

/-- Remove a key. -/
def tdel {α : Type} (t : Tbl α) (k : Nat) : Tbl α := t.filter (fun e => decide (e.1 ≠ k))

/-- Write a value, keeping the canonical form: the value unlisted keys have is not listed. -/
def tset {α : Type} [DecidableEq α] (t : Tbl α) (k : Nat) (v d : α) : Tbl α :=
  if v = d then tdel t k else tput t k v

/-- Remove every key of a half-open range. -/
def tclear {α : Type} (t : Tbl α) (lo hi : Nat) : Tbl α :=
  t.filter (fun e => decide (e.1 < lo ∨ hi ≤ e.1))

/-- The canonical form: keys strictly rising, no listed value equal to the unlisted one. -/
def twf {α : Type} [DecidableEq α] (t : Tbl α) (d : α) : Bool :=
  decide (t.Pairwise (fun a b => a.1 < b.1)) && t.all (fun e => decide (e.2 ≠ d))

/-- Replace the i-th entry of a list. -/
def lset {α : Type} (l : List α) (i : Nat) (v : α) : List α := l.set i v

/-! ## Numbers and bits -/

/-- A Bool as a field value. -/
def b2n (b : Bool) : Nat := if b then 1 else 0

/-- Bits lo .. lo+w-1 of a number. -/
def bits (n lo w : Nat) : Nat := n / 2 ^ lo % 2 ^ w

/-- Bit i of a number. -/
def bit (n i : Nat) : Bool := n.testBit i

/-- A number with a bit set or cleared. -/
def setBit (n i : Nat) (v : Bool) : Nat :=
  if v then n ||| 2 ^ i else n &&& (n ^^^ 2 ^ i)

/-- A w-bit number read as two's complement. -/
def toS (w n : Nat) : Int := if n % 2 ^ w < 2 ^ (w - 1) then (n % 2 ^ w : Nat) else (n % 2 ^ w : Nat) - (2 ^ w : Nat)

/-- An integer as a w-bit two's complement number. -/
def ofS (w : Nat) (i : Int) : Nat := (i % (2 ^ w : Nat)).toNat

/-- Signed saturation to w bits. -/
def satS (w : Nat) (i : Int) : Int := max (-(2 ^ (w - 1) : Nat)) (min i ((2 ^ (w - 1) : Nat) - 1))

/-- The low n bytes of a number, least significant first (R3, in memory). -/
def leBytes : Nat → Nat → List Nat
  | 0, _ => []
  | n + 1, v => v % 256 :: leBytes n (v / 256)

/-- The number n bytes spell, least significant first. -/
def ofLe : List Nat → Nat
  | [] => 0
  | b :: r => b % 256 + 256 * ofLe r

/-- The low n bytes of a number, most significant first (R3, on a wire). -/
def beBytes (n v : Nat) : List Nat := (leBytes n v).reverse

/-- The number bytes spell, most significant first. -/
def ofBe (l : List Nat) : Nat := ofLe l.reverse

/-- Bytes i .. i+n-1 of a list, absent bytes reading 0. -/
def sub (l : List Nat) (i n : Nat) : List Nat := (List.range n).map (fun k => l.getD (i + k) 0)

/-- Index of the first element that meets a test. -/
def findIx {α : Type} (t : α → Bool) : List α → Option Nat
  | [] => none
  | a :: r => if t a then some 0 else (findIx t r).map (· + 1)

/-- A list brought to length n with zeros. -/
def padTo (n : Nat) (l : List Nat) : List Nat := (l ++ List.replicate (n - l.length) 0).take n

/-! ## Register fields -/

/-- The value of a field. -/
def rd (f : Fld) (d : Dev) : Nat := (tget d.regs f.key (BitVec.ofNat 64 f.rst)).toNat

/-- A field set to a value, truncated to its width. -/
def wr (f : Fld) (v : Nat) (d : Dev) : Dev :=
  { d with regs := tset d.regs f.key (BitVec.ofNat 64 (v % 2 ^ f.width)) (BitVec.ofNat 64 f.rst) }

/-- A one-bit field as a Bool. -/
def on (f : Fld) (d : Dev) : Bool := rd f d != 0

/-- A field set to a Bool. -/
def wrB (f : Fld) (b : Bool) (d : Dev) : Dev := wr f (b2n b) d

/-- A field read as two's complement of its width. -/
def rdS (f : Fld) (d : Dev) : Int := toS f.width (rd f d)

/-- A field set to a two's complement value. -/
def wrS (f : Fld) (v : Int) (d : Dev) : Dev := wr f (ofS f.width v) d

/-- A counter increased by n, wrapping at its width (log 8). -/
def addTo (f : Fld) (n : Nat) (d : Dev) : Dev := wr f (rd f d + n) d

/-- A counter increased by one. -/
def inc (f : Fld) (d : Dev) : Dev := addTo f 1 d

/-- A field that holds the largest value seen since it was read. -/
def maxTo (f : Fld) (v : Nat) (d : Dev) : Dev := if rd f d < v then wr f v d else d

/-- One bit of a field set or cleared. -/
def wrBit (f : Fld) (i : Nat) (b : Bool) (d : Dev) : Dev := wr f (setBit (rd f d) i b) d

/-! ## Events at AON's fields (R7, R8; log 129)

AON's clock is the raw counter's, so what happens in one raw count happens in one AON cycle. -/

/-- What hardware has set in a flag, or added to a counter, in this raw count. -/
def evNow (f : Fld) (d : Dev) : Nat := tget d.evs f.key 0

/-- A flag of AON's set by an event: a clear in the same cycle leaves it set (R7). -/
def raise (f : Fld) (d : Dev) : Dev := wrB f true { d with evs := tset d.evs f.key 1 0 }

/-- One bit of such a field set by an event (R7). -/
def raiseBit (f : Fld) (i : Nat) (d : Dev) : Dev :=
  wrBit f i true { d with evs := tset d.evs f.key (setBit (evNow f d) i true) 0 }

/-- A counter of AON's increased by events: a read in the same cycle leaves them in it (R8). -/
def tally (f : Fld) (n : Nat) (d : Dev) : Dev := addTo f n { d with evs := tset d.evs f.key (evNow f d + n) 0 }

/-- A flag or counter cleared by software: what hardware set or added in this cycle stays (R7, R8). -/
def cleared (f : Fld) (d : Dev) : Dev := wr f (evNow f d) d

/-- A field as a read shows it: a counter as it was before this cycle's increments (R8). -/
def seen (f : Fld) (d : Dev) : Nat :=
  if f.kind == .rc && decide (16 ≤ f.width) then (rd f d + 2 ^ f.width - evNow f d) % 2 ^ f.width else rd f d

/-- Every register whose address lies in a half-open range back at its value after reset. -/
def clearRegs (lo hi : Nat) (d : Dev) : Dev :=
  { d with regs := tclear d.regs (lo * 64) (hi * 64)
           latch := tclear d.latch lo hi
           held := tclear d.held lo hi }

/-- The low word a pair holds back at 0, as at every write of its high word (R10). -/
def unheld (a : Nat) (d : Dev) : Dev := { d with held := tset d.held a 0 0 }

/-! ## Free values -/

/-- The next free value (log 3). -/
def freeOf (d : Dev) : W64 := Config.freeValue d.free

/-- The block after a free value has been drawn. -/
def drawn (d : Dev) : Dev := { d with free := d.free + 1 }

/-- Raw counts in a second and in a millisecond (26 MHz). -/
def rawPerS : Nat := 26000000
def rawPerMs : Nat := 26000

/-- n bytes of free values, eight to a draw. -/
def freeBytes (n : Nat) (d : Dev) : List Nat :=
  ((List.range ((n + 7) / 8)).flatMap (fun k => leBytes 8 (Config.freeValue (d.free + k)).toNat)).take n

/-- The block after n bytes of free values. -/
def drawnN (n : Nat) (d : Dev) : Dev := { d with free := d.free + (n + 7) / 8 }

/-! ## Islands -/

/-- Island indices (Table 11-1). -/
def AONi : Nat := 0
def SECi : Nat := 1
def APPi : Nat := 2
def SCHi : Nat := 3
def MEMi : Nat := 4
def CTLi : Nat := 5
def NETi : Nat := 6
def RADi : Nat := 7
def POSi : Nat := 8

/-- Whether an island is running: powered and not held in reset. -/
def isUp (i : Nat) (d : Dev) : Bool := tget d.isl i .off == .up

/-- An island put in a mode. -/
def setIsl (i : Nat) (m : IslMode) (d : Dev) : Dev := { d with isl := tset d.isl i m .off }

/-- The base of an island's register window (Table 11-2). -/
def winBase (i : Nat) : Nat := 0xF000000000 + 0x100000 * i

/-- Do something only while an island runs (R357). -/
def whenUp (i : Nat) (f : Dev → Dev) (d : Dev) : Dev := if isUp i d then f d else d

/-- Whether a capture holds an island: SEC's core, APP, SCH and POS during their own sections (R500). -/
def heldUp (i : Nat) (d : Dev) : Bool := d.aon.capFrom.isSome && d.aon.capIsl == i && [SECi, APPi, SCHi, POSi].contains i

/-- Whether an island runs, and no capture holds it (R357, R500). -/
def runs (i : Nat) (d : Dev) : Bool := isUp i d && !heldUp i d

/-- Do something of an island's own only while it runs and is not held (R357, R500). -/
def whenRuns (i : Nat) (f : Dev → Dev) (d : Dev) : Dev := if runs i d then f d else d

/-- Do something only under a condition. -/
def whenB (b : Bool) (f : Dev → Dev) (d : Dev) : Dev := if b then f d else d

/-! ## Outcomes -/

/-- What a command answers. -/
abbrev Out := Host.Outcome State Fault Refusal

/-- An effect on the block alone: the queue of commands and the fuses stay. What earlier commands handed outside is gone. -/
def onDev (s : State) (f : Fuses → Dev → Dev) : Out :=
  .next { s with dev := f s.fuses { s.dev with sent := [] } }

/-- An effect on AON's own state: nothing happens while AON has no power (R475). -/
def onAon (s : State) (f : Fuses → Dev → Dev) : Out := onDev s (fun fu => whenUp AONi (f fu))

/-- An effect on the block and its fuses: the queue of commands stays. -/
def onFuses (s : State) (f : Fuses → Dev → Fuses × Dev) : Out :=
  let r := f s.fuses { s.dev with sent := [] }
  .next { s with fuses := r.1, dev := r.2 }

/-- A write at M level or by SEC's own core (R359). -/
def atM (w : Who) : Bool := w.lvl == .m || w.rq == 8

/-- A write at S level or above (R359). -/
def atS (w : Who) : Bool := w.lvl != .u || w.rq == 8

/-- Bytes as numbers. -/
def nats (l : List Byte) : List Nat := l.map BitVec.toNat

/-- Bytes handed outside on a port. -/
def emit (port : Nat) (bytes : List Nat) (d : Dev) : Dev := { d with sent := d.sent ++ [⟨port, bytes⟩] }

/-- Apply an effect once for each element of a list. -/
def forAll {α : Type} (l : List α) (f : α → Dev → Dev) (d : Dev) : Dev := l.foldl (fun d a => f a d) d

end Sys2Proof.Machine
end

