-- ==== Sys2Proof/Machine/Float.lean ====
section
/-! DEFINITION. Machine/Float.lean: IEEE 754 binary32 and binary64 (Pretan instruction set: Formats, Registers and levels;
Control engine: arithmetic). -/

namespace Sys2Proof.Machine

/-- A format: the bits of its exponent and of its fraction. -/
structure Fmt where
  eb : Nat
  mb : Nat
  deriving DecidableEq, Repr

def f32 : Fmt := ⟨8, 23⟩
def f64 : Fmt := ⟨11, 52⟩

/-- The width of a format. -/
def Fmt.width (f : Fmt) : Nat := 1 + f.eb + f.mb

/-- The exponent bias. -/
def Fmt.bias (f : Fmt) : Int := 2 ^ (f.eb - 1) - 1

/-- The exponent of the last bit of the smallest numbers. -/
def Fmt.emin (f : Fmt) : Int := 1 - f.bias - f.mb

/-- The exponent field of infinities and NaNs. -/
def Fmt.emax (f : Fmt) : Nat := 2 ^ f.eb - 1

/-- A datum: a NaN (signalling or not), an infinity, or ±m·2^e. -/
inductive FV where
  | nan (sig : Bool) | inf (neg : Bool) | fin (neg : Bool) (m : Nat) (e : Int)
  deriving DecidableEq, Repr

/-- Rounding (FPCSR bits 1:0): 0 nearest even, 1 zero, 2 up, 3 down. -/
abbrev Rnd := Nat

/-- Sticky flags: bit 0 invalid, 1 division by zero, 2 overflow, 3 underflow, 4 inexact (log 25). -/
def fNV : Nat := 1
def fDZ : Nat := 2
def fOF : Nat := 4
def fUF : Nat := 8
def fNX : Nat := 16

/-- A result: its bits and the flags it raises. -/
structure FRes where
  v  : Nat
  fl : Nat := 0
  deriving DecidableEq, Repr

def signBit (f : Fmt) (s : Bool) : Nat := b2n s * 2 ^ (f.eb + f.mb)

/-- The datum bits spell. -/
def FV.of (f : Fmt) (n : Nat) : FV :=
  let s := bit n (f.eb + f.mb)
  let ex := bits n f.mb f.eb
  let m := bits n 0 f.mb
  if ex = f.emax then (if m = 0 then .inf s else .nan (!bit m (f.mb - 1)))
  else if ex = 0 then .fin s m f.emin
  else .fin s (m + 2 ^ f.mb) (ex - f.bias - f.mb)

def infBits (f : Fmt) (s : Bool) : Nat := signBit f s + f.emax * 2 ^ f.mb
def maxBits (f : Fmt) (s : Bool) : Nat := signBit f s + f.emax * 2 ^ f.mb - 1

/-- A quiet NaN whose sign and payload are free (log 6). -/
def nanBits (f : Fmt) (op a b : Nat) : Nat :=
  let p := (Config.nanPayload op (BitVec.ofNat 64 a) (BitVec.ofNat 64 b)).toNat
  signBit f (bit p 63) + f.emax * 2 ^ f.mb + 2 ^ (f.mb - 1) + p % 2 ^ (f.mb - 1)

/-- Whether a truncated magnitude is rounded up: its last bit, whether the rest is at least half, and whether any is left. -/
def roundsUp (r : Rnd) (s lsb : Bool) (rest half : Nat) : Bool :=
  if r = 0 then decide (half < rest) || (decide (rest = half) && lsb && decide (rest ≠ 0))
  else if r = 1 then false
  else if r = 2 then !s && decide (rest ≠ 0)
  else s && decide (rest ≠ 0)

/-- m·2^e brought to a last bit of exponent l: the rounded multiple and whether anything was lost. -/
def roundAt (r : Rnd) (s : Bool) (m : Nat) (e l : Int) : Nat × Bool :=
  if l ≤ e then (m * 2 ^ (e - l).toNat, false)
  else
    let k := (l - e).toNat
    let q := m / 2 ^ k
    let rest := m % 2 ^ k
    (q + b2n (roundsUp r s (q % 2 == 1) rest (2 ^ (k - 1))), rest != 0)

/-- ±m·2^e rounded to a format. -/
def roundTo (f : Fmt) (r : Rnd) (s : Bool) (m : Nat) (e : Int) : FRes :=
  if m = 0 then { v := signBit f s }
  else
    let len : Int := Nat.log2 m + 1
    let free := e + len - (f.mb + 1)
    let l := max free f.emin
    let (q, nx) := roundAt r s m e l
    let (q, l) := if 2 ^ (f.mb + 1) ≤ q then (q / 2, l + 1) else (q, l)
    if q < 2 ^ f.mb then
      { v := signBit f s + q, fl := if nx then fNX ||| fUF else 0 }
    else
      let ex := l + f.mb + f.bias
      if (f.emax : Int) ≤ ex then
        let toInf := r = 0 ∨ (r = 2 ∧ s = false) ∨ (r = 3 ∧ s = true)
        { v := if toInf then infBits f s else maxBits f s, fl := fOF ||| fNX }
      else
        let tinyBefore := decide (free < f.emin)
        let (q', _) := roundAt r s m e free
        let tiny := tinyBefore && !(Config.tinyAfter && decide (2 ^ (f.mb + 1) ≤ q'))
        { v := signBit f s + ex.toNat * 2 ^ f.mb + (q - 2 ^ f.mb), fl := (if nx then fNX else 0) ||| (if nx && tiny then fUF else 0) }

/-- Flags of NaN operands: a signalling one is invalid. -/
def sigFlags (l : List FV) : Nat := if l.any (fun x => x == .nan true) then fNV else 0

def isNan : FV → Bool
  | .nan _ => true
  | _ => false

/-- The exact sum of two finite data, rounded; the sign of an exact zero is IEEE's. -/
def sumTo (f : Fmt) (r : Rnd) (s1 : Bool) (m1 : Nat) (e1 : Int) (s2 : Bool) (m2 : Nat) (e2 : Int) : FRes :=
  let e := min e1 e2
  let a : Int := (if s1 then -1 else 1) * (m1 * 2 ^ (e1 - e).toNat : Nat)
  let b : Int := (if s2 then -1 else 1) * (m2 * 2 ^ (e2 - e).toNat : Nat)
  if a + b = 0 then { v := signBit f (if s1 = s2 then s1 else r == 3) }
  else roundTo f r (decide (a + b < 0)) (a + b).natAbs e

/-- Addition of data; op numbers the instruction for a NaN's payload. -/
def addV (f : Fmt) (r : Rnd) (op a b : Nat) (x y : FV) : FRes :=
  match x, y with
  | .nan _, _ => { v := nanBits f op a b, fl := sigFlags [x, y] }
  | _, .nan _ => { v := nanBits f op a b, fl := sigFlags [x, y] }
  | .inf s, .inf t => if s = t then { v := infBits f s } else { v := nanBits f op a b, fl := fNV }
  | .inf s, .fin _ _ _ => { v := infBits f s }
  | .fin _ _ _, .inf t => { v := infBits f t }
  | .fin s m e, .fin t n g => sumTo f r s m e t n g

def negV : FV → FV
  | .nan q => .nan q
  | .inf s => .inf (!s)
  | .fin s m e => .fin (!s) m e

def fAdd (f : Fmt) (r : Rnd) (a b : Nat) : FRes := addV f r 0 a b (FV.of f a) (FV.of f b)
def fSub (f : Fmt) (r : Rnd) (a b : Nat) : FRes := addV f r 1 a b (FV.of f a) (negV (FV.of f b))

def fMul (f : Fmt) (r : Rnd) (a b : Nat) : FRes :=
  match FV.of f a, FV.of f b with
  | .nan p, y => { v := nanBits f 2 a b, fl := sigFlags [.nan p, y] }
  | x, .nan q => { v := nanBits f 2 a b, fl := sigFlags [x, .nan q] }
  | .inf s, .inf t => { v := infBits f (s != t) }
  | .inf s, .fin t n _ => if n = 0 then { v := nanBits f 2 a b, fl := fNV } else { v := infBits f (s != t) }
  | .fin s m _, .inf t => if m = 0 then { v := nanBits f 2 a b, fl := fNV } else { v := infBits f (s != t) }
  | .fin s m e, .fin t n g => roundTo f r (s != t) (m * n) (e + g)

/-- a × b + c with one rounding. -/
def fFma (f : Fmt) (r : Rnd) (a b c : Nat) : FRes :=
  let z := FV.of f c
  let bad : FRes := { v := nanBits f 3 a b, fl := fNV }
  match FV.of f a, FV.of f b with
  | .nan p, y => { v := nanBits f 3 a b, fl := sigFlags [.nan p, y, z] }
  | x, .nan q => { v := nanBits f 3 a b, fl := sigFlags [x, .nan q, z] }
  | .inf s, .inf t => addV f r 3 a c (.inf (s != t)) z
  | .inf s, .fin t n _ => if n = 0 then bad else addV f r 3 a c (.inf (s != t)) z
  | .fin s m _, .inf t => if m = 0 then bad else addV f r 3 a c (.inf (s != t)) z
  | .fin s m e, .fin t n g => addV f r 3 a c (.fin (s != t) (m * n) (e + g)) z

def fDiv (f : Fmt) (r : Rnd) (a b : Nat) : FRes :=
  match FV.of f a, FV.of f b with
  | .nan p, y => { v := nanBits f 4 a b, fl := sigFlags [.nan p, y] }
  | x, .nan q => { v := nanBits f 4 a b, fl := sigFlags [x, .nan q] }
  | .inf _, .inf _ => { v := nanBits f 4 a b, fl := fNV }
  | .inf s, .fin t _ _ => { v := infBits f (s != t) }
  | .fin s _ _, .inf t => { v := signBit f (s != t) }
  | .fin s m e, .fin t n g =>
    if n = 0 then (if m = 0 then { v := nanBits f 4 a b, fl := fNV } else { v := infBits f (s != t), fl := fDZ })
    else
      let k := 2 * f.mb + 6
      let q := m * 2 ^ k / n
      roundTo f r (s != t) (2 * q + b2n (m * 2 ^ k % n != 0)) (e - g - k - 1)

/-- The integer square root, bit by bit from 2^k down. -/
def isqrt (n : Nat) : Nat → Nat → Nat
  | 0, acc => if (acc + 1) * (acc + 1) ≤ n then acc + 1 else acc
  | k + 1, acc =>
    let t := acc + 2 ^ (k + 1)
    isqrt n k (if t * t ≤ n then t else acc)

def fSqrt (f : Fmt) (r : Rnd) (a : Nat) : FRes :=
  match FV.of f a with
  | .nan p => { v := nanBits f 5 a 0, fl := sigFlags [.nan p] }
  | .inf s => if s then { v := nanBits f 5 a 0, fl := fNV } else { v := infBits f false }
  | .fin s m e =>
    if m = 0 then { v := signBit f s }
    else if s then { v := nanBits f 5 a 0, fl := fNV }
    else
      let (m, e) := if e % 2 = 0 then (m, e) else (2 * m, e - 1)
      let k := f.mb + 3
      let n := m * 2 ^ (2 * k)
      let q := isqrt n (f.mb + k + 1) 0
      roundTo f r false (2 * q + b2n (q * q != n)) (e / 2 - k - 1)

/-- Less than, between data neither of which is a NaN. -/
def ltV (x y : FV) : Bool :=
  let num : FV → Int × Int
    | .fin s m e => ((if s then -(m : Int) else m), e)
    | _ => (0, 0)
  match x, y with
  | .inf s, .inf t => s && !t
  | .inf s, _ => s
  | _, .inf t => !t
  | x, y =>
    let (a, e) := num x
    let (b, g) := num y
    let l := min e g
    decide (a * 2 ^ (e - l).toNat < b * 2 ^ (g - l).toNat)

/-- A comparison: 0 equal (quiet), 1 less, 2 less or equal (both invalid on any NaN). -/
def fCmp (f : Fmt) (k a b : Nat) : Bool × Nat :=
  let x := FV.of f a
  let y := FV.of f b
  if isNan x || isNan y then (false, if k = 0 then sigFlags [x, y] else fNV)
  else
    let lt := ltV x y
    let gt := ltV y x
    (if k = 0 then !lt && !gt else if k = 1 then lt else !gt, 0)

/-- Minimum or maximum; of a NaN, or of zeros of both signs, the value is free (log 24). -/
def fMinMax (f : Fmt) (mx : Bool) (a b : Nat) : FRes :=
  let x := FV.of f a
  let y := FV.of f b
  let free := (Config.minMaxCorner (b2n mx) (BitVec.ofNat 64 a) (BitVec.ofNat 64 b)).toNat % 2 ^ f.width
  if isNan x || isNan y then { v := free, fl := sigFlags [x, y] }
  else if ltV x y then { v := if mx then b else a }
  else if ltV y x then { v := if mx then a else b }
  else if a % 2 ^ f.width = b % 2 ^ f.width then { v := a }
  else { v := if bit free 0 then a else b }

/-- A conversion between formats. -/
def fCvt (f g : Fmt) (r : Rnd) (a : Nat) : FRes :=
  match FV.of f a with
  | .nan p => { v := nanBits g 6 a 0, fl := sigFlags [.nan p] }
  | .inf s => { v := infBits g s }
  | .fin s m e => roundTo g r s m e

/-- A signed integer converted to a format. -/
def ofInt (f : Fmt) (r : Rnd) (i : Int) : FRes := roundTo f r (decide (i < 0)) i.natAbs 0

/-- A datum rounded to a signed integer of w bits; a value none holds is invalid and free (log 24). -/
def toInt (f : Fmt) (r : Rnd) (w a : Nat) : FRes :=
  let corner : FRes := { v := (Config.cvtCorner w (BitVec.ofNat 64 a)).toNat % 2 ^ w, fl := fNV }
  match FV.of f a with
  | .fin s m e =>
    let (q, nx) := roundAt r s m e 0
    let i : Int := if s then -(q : Int) else q
    if i < -(2 ^ (w - 1) : Nat) ∨ (2 ^ (w - 1) : Nat) ≤ i then corner
    else { v := ofS w i, fl := if nx then fNX else 0 }
  | _ => corner

end Sys2Proof.Machine
end

