-- ==== Sys2Proof/Machine/Straits.lean ====
section
/-! DEFINITION. Machine/Straits.lean: strait queues, locks, ferries, doorbells (Islands, straits, ferries and locks). -/

namespace Sys2Proof.Machine

/-! ## Table 11-4 -/

/-- One end of a strait queue. -/
inductive QEnd where
  | hw (isl : Nat) | fw | nobody | all
  deriving DecidableEq, Repr

/-- A row of Table 11-4: producer, consumer, depth, and whether the queue is at M level. -/
structure QRow where
  prod : QEnd
  cons : QEnd
  deep : Nat
  atM  : Bool
  deriving DecidableEq, Repr

/-- Table 11-4, queues SQ00 to SQ11. -/
def qTab0 : List QRow :=
  [⟨(.hw 0), (.hw 3), 64, false⟩,
   ⟨(.hw 1), (.hw 3), 64, true⟩,
   ⟨(.hw 4), (.hw 3), 64, false⟩,
   ⟨(.hw 5), (.hw 3), 64, false⟩,
   ⟨(.hw 6), (.hw 3), 256, false⟩,
   ⟨(.hw 7), (.hw 3), 256, false⟩,
   ⟨(.hw 8), (.hw 3), 128, false⟩,
   ⟨.nobody, .nobody, 0, false⟩,
   ⟨.fw, (.hw 7), 1024, false⟩,
   ⟨(.hw 7), .fw, 1024, false⟩,
   ⟨(.hw 1), (.hw 7), 64, true⟩,
   ⟨(.hw 1), (.hw 7), 256, true⟩]

/-- Table 11-4, queues SQ12 to SQ23. -/
def qTab1 : List QRow :=
  [⟨(.hw 1), (.hw 5), 64, true⟩,
   ⟨(.hw 7), (.hw 1), 256, true⟩,
   ⟨(.hw 7), (.hw 5), 64, false⟩,
   ⟨(.hw 3), (.hw 1), 64, true⟩,
   ⟨(.hw 3), (.hw 7), 64, false⟩,
   ⟨(.hw 5), (.hw 7), 64, false⟩,
   ⟨(.hw 7), (.hw 3), 64, false⟩,
   ⟨(.hw 1), (.hw 3), 64, true⟩,
   ⟨(.hw 8), (.hw 1), 64, true⟩,
   ⟨(.hw 8), .fw, 1024, false⟩,
   ⟨(.hw 8), .fw, 512, false⟩,
   ⟨.fw, (.hw 8), 1024, false⟩]

/-- Table 11-4, queues SQ24 to SQ35. -/
def qTab2 : List QRow :=
  [⟨(.hw 8), (.hw 3), 512, false⟩,
   ⟨.fw, (.hw 3), 1024, false⟩,
   ⟨(.hw 3), .fw, 1024, false⟩,
   ⟨(.hw 3), .fw, 512, false⟩,
   ⟨.fw, (.hw 3), 512, false⟩,
   ⟨(.hw 6), (.hw 5), 512, false⟩,
   ⟨.fw, (.hw 6), 256, false⟩,
   ⟨(.hw 6), .fw, 256, false⟩,
   ⟨(.hw 4), .fw, 256, false⟩,
   ⟨(.hw 4), .fw, 64, false⟩,
   ⟨.all, (.hw 0), 256, false⟩,
   ⟨.fw, (.hw 0), 128, false⟩]

/-- Table 11-4, queues SQ36 to SQ47. -/
def qTab3 : List QRow :=
  [⟨.fw, .fw, 256, false⟩,
   ⟨.fw, .fw, 256, false⟩,
   ⟨.fw, .fw, 256, false⟩,
   ⟨.fw, .fw, 256, false⟩,
   ⟨.fw, .fw, 256, false⟩,
   ⟨.fw, .fw, 256, false⟩,
   ⟨.fw, .fw, 256, false⟩,
   ⟨.fw, .fw, 256, false⟩,
   ⟨.nobody, .nobody, 0, false⟩,
   ⟨.nobody, .nobody, 0, false⟩,
   ⟨.nobody, .nobody, 0, false⟩,
   ⟨.nobody, .nobody, 0, false⟩]

/-- Table 11-4. -/
def qTab : List QRow := qTab0 ++ qTab1 ++ qTab2 ++ qTab3

def qRow (q : Nat) : QRow := qTab.getD q ⟨.nobody, .nobody, 0, false⟩
def qProd (q : Nat) : QEnd := (qRow q).prod
def qCons (q : Nat) : QEnd := (qRow q).cons
def qDepth (q : Nat) : Nat := (qRow q).deep
def qAtM (q : Nat) : Bool := (qRow q).atM

/-- The island that serves a queue's window (Table 11-4, note 1). -/
def qServer (q : Nat) : Nat := if qAtM q then SECi else SCHi

/-- The island an end of a queue stands in: a firmware end stands in the island that serves the queue's window
(Table 11-4, note 1). -/
def qEndUp (q : Nat) (e : QEnd) (d : Dev) : Bool :=
  match e with
  | .hw i => isUp i d
  | .fw => isUp (qServer q) d
  | .all => true
  | .nobody => false

/-- Both ends run, so the queue may hold items (R371). -/
def qLive (q : Nat) (d : Dev) : Bool := qEndUp q (qProd q) d && qEndUp q (qCons q) d

def qGet (q : Nat) (d : Dev) : Queue := tget d.sq q {}
def qSet (q : Nat) (v : Queue) (d : Dev) : Dev := { d with sq := tset d.sq q v {} }

/-! ## R364–R368 on one queue -/

/-- Items not free. -/
def Queue.fill (v : Queue) : Nat := v.opn.length + v.inn + (v.pkts.map (fun p => p.items.length)).sum

/-- Whether a packet is being read: begun and not finished. -/
def Packet.open_ (p : Packet) : Bool := decide (0 < p.rd ∧ p.rd < p.items.length)

/-- Whether the read position is inside a packet (INPKT). -/
def Queue.inPkt (v : Queue) : Bool := v.pkts.any Packet.open_

/-- The packet the read side presents (R365): the one being read, else the oldest presentable unread packet of the
highest priority. -/
def Queue.head (v : Queue) : Option Nat :=
  match findIx Packet.open_ v.pkts with
  | some i => some i
  | none =>
    let cand (k : Nat) := findIx (fun p => p.shown && p.rd == 0 && p.pri == k) v.pkts
    match cand 3 with
    | some i => some i
    | none => match cand 2 with
      | some i => some i
      | none => match cand 1 with
        | some i => some i
        | none => cand 0

/-- The packet counter of a priority (R366). -/
def Queue.count (v : Queue) (k : Nat) : Nat := (v.pkts.filter (fun p => p.shown && p.rd == 0 && p.pri == k)).length

/-- The held packets in the order they go in: as they came, but on SQ34 by the index of their island (Table 11-4, note 2). A packet
that has begun goes on first. -/
def inTurn (q : Nat) (v : Queue) : List Packet :=
  if q ≠ 34 ∨ v.inn ≠ 0 then v.backlog
  else match v.backlog.find? (fun p => v.backlog.all (fun x => decide (p.who ≤ x.who))) with
    | some p => p :: v.backlog.erase p
    | none => v.backlog

/-- Stalled hardware producers go on while there is room, item by item (R369). -/
def drain (q : Nat) : Nat → Queue → Queue
  | 0, v => v
  | n + 1, v =>
    match inTurn q v with
    | [] => v
    | p :: r =>
      let room := qDepth q - v.fill
      if p.items.length ≤ room + v.inn then drain q n { v with pkts := v.pkts ++ [p], backlog := r, inn := 0 }
      else { v with backlog := p :: r, inn := v.inn + room }

/-- REWIND (R367): every item read since the mark is unread again. -/
def Queue.rewind (v : Queue) : Queue :=
  { v with pkts := v.pkts.map (fun p => if p.old then p else { p with rd := 0 }) }

/-- RELEASE (R368): packets read to their END are freed and the mark is cleared. -/
def Queue.release (v : Queue) : Queue :=
  { v with pkts := (v.pkts.filter (fun p => decide (p.rd < p.items.length))).map (fun p => { p with old := false })
           marked := false }

/-- MARK (R367), outside a packet. -/
def Queue.mark (v : Queue) : Queue :=
  { v with pkts := v.pkts.map (fun p => { p with old := decide (p.items.length ≤ p.rd) }), marked := true }

/-- Read the presented item. -/
def Queue.take (v : Queue) : Option (W64 × Bool × Queue) :=
  match v.head with
  | none => none
  | some i =>
    match v.pkts[i]? with
    | none => none
    | some p =>
      let fin := decide (p.items.length ≤ p.rd + 1)
      some (p.items.getD p.rd 0, fin, { v with pkts := v.pkts.set i { p with rd := p.rd + 1 }, lastEnd := fin })

/-- The presented packet marked read to its end without being presented (R370). -/
def Queue.skip (v : Queue) : Queue :=
  match v.head with
  | none => v
  | some i =>
    match v.pkts[i]? with
    | none => v
    | some p => { v with pkts := v.pkts.set i { p with rd := p.items.length } }

/-- A hardware consumer of a queue takes the presented packet whole and frees it. -/
def Queue.popPkt (q : Nat) (v : Queue) : Option (Packet × Queue) :=
  match v.head with
  | none => none
  | some i =>
    match v.pkts[i]? with
    | none => none
    | some p => some (p, drain q v.backlog.length { v with pkts := v.pkts.eraseIdx i })

/-! ## Pushing -/

/-- A packet pushed by hardware at a stated priority (R373): its producer stalls at the item that finds the queue full, and holds
further packets too (R369). While an end is down the queue stays empty (R371). -/
def hwPushAt (q pri who : Nat) (items : List W64) (d : Dev) : Dev :=
  if !qLive q d then d
  else
    let v := qGet q d
    let p : Packet := { items := items, pri := pri, who := who }
    if v.backlog = [] ∧ v.fill + items.length ≤ qDepth q then qSet q { v with pkts := v.pkts ++ [p] } d
    else if v.backlog = [] then qSet q { v with backlog := [p], inn := qDepth q - v.fill } d
    else qSet q { v with backlog := v.backlog ++ [p] } d

/-- A packet pushed by hardware at the queue's QCTL.PRI (R373). -/
def hwPush (q : Nat) (items : List W64) (d : Dev) : Dev := hwPushAt q (rd (SQ.QCTL.PRI q) d) 0 items d

/-- Whether a hardware producer's packet would go in at once. -/
def hwRoom (q n : Nat) (d : Dev) : Bool :=
  qLive q d && (qGet q d).backlog.isEmpty && decide ((qGet q d).fill + n ≤ qDepth q)

/-- The packet a hardware consumer finds presented, if one is. -/
def hwPeek (q : Nat) (d : Dev) : Option Packet := ((qGet q d).popPkt q).map (·.1)

/-- The block after a hardware consumer has taken the presented packet. -/
def hwTaken (q : Nat) (d : Dev) : Dev :=
  match (qGet q d).popPkt q with
  | none => d
  | some (_, v) => qSet q v d

/-- An event token (Table 13-3): event number, source island, payload from bit 16 up. -/
def tokenItem (src evn pay : Nat) : W64 := BitVec.ofNat 64 (evn % 256 + src % 16 * 2 ^ 8 + pay % 2 ^ 48 * 2 ^ 16)

/-- An event token sent to SCH on a queue. -/
def token (q src evn pay : Nat) (d : Dev) : Dev := hwPush q [tokenItem src evn pay] d

/-- A record for Lichen raised by hardware on SQ34, in the layout of R540, with its source in bits 35:32 (R540). -/
def lichen (src code : Nat) (pay : List Nat) (d : Dev) : Dev :=
  let p := padTo 12 pay
  hwPushAt 34 (rd (SQ.QCTL.PRI 34) d) src
    [BitVec.ofNat 64 code, BitVec.ofNat 64 (ofLe (p.take 8)), BitVec.ofNat 64 (ofLe (p.drop 8))] d

/-- A firmware push to a queue (R369, R371, R373, R375): the high word closes the item with the held low word. -/
def fwPush (q : Nat) (hi : W32) (who : Nat) (d0 : Dev) : Dev :=
  let key := (SQ.QPUSHLO q).addr
  let lo := tget d0.held key 0
  let d := { d0 with held := tset d0.held key 0 0 }
  if qProd q = .nobody then d
  else if qProd q ≠ .fw ∨ !qLive q d then wrB (SQ.QSTAT.PUSHREF q) true d
  else
    let v := qGet q d
    if qDepth q ≤ v.fill then wrB (SQ.QSTAT.PUSHREF q) true d
    else if 64 ≤ v.opn.length then wrB (SQ.QSTAT.OVERSIZE q) true (qSet q { v with opn := [] } d)
    else
      let it : W64 := BitVec.ofNat 64 (lo.toNat + hi.toNat * 2 ^ 32)
      let pri := if v.opn = [] then rd (SQ.QCTL.PRI q) d else v.opri
      let w := if v.opn = [] then who else v.owho
      if on (SQ.QCTL.END q) d then
        wr (SQ.QCTL.END q) 0 (qSet q { v with opn := [], pkts := v.pkts ++ [{ items := v.opn ++ [it], pri := pri, who := w }] } d)
      else qSet q { v with opn := v.opn ++ [it], opri := pri, owho := w } d

/-- A packet becomes presentable (R365): the oldest that is not yet. What ECC will find in it as it is read is told (R370). -/
def showNext (q : Nat) (e : Ecc) (d : Dev) : Dev :=
  let v := qGet q d
  match findIx (fun p => !p.shown) v.pkts with
  | none => d
  | some i => match v.pkts[i]? with
    | none => d
    | some p => qSet q { v with pkts := v.pkts.set i { p with shown := true, at_ := d.raw, ecc := e } } d

/-- The stop-chain queues (R572). -/
def stopChain (q : Nat) : Bool := q == 10 || q == 11 || q == 12 || q == 13 || q == 15

/-- An uncorrectable error on a queue read (R370, R572): CRITSTAT.SQECC on the stop chain, and a Lichen record. -/
def sqEcc (q : Nat) (d : Dev) : Dev :=
  let d := wrB (SQ.QSTAT.ECCUNC q) true d
  let d := lichen 0 0x0108 [q] d
  if stopChain q then
    let d := wrB SEC.CRITSTAT.SQECC true d
    { d with sec := { d.sec with critRaw := tset d.sec.critRaw 9 d.raw 0 } }
  else d

/-- The worse of two findings. -/
def worseEcc : Ecc → Ecc → Ecc
  | .double, _ => .double
  | _, .double => .double
  | .single, _ => .single
  | .clean, e => e

/-- What a hardware consumer does with the packet presented, with what ECC finds on the item as it is read beside what it has found in
the packet. One with an uncorrectable error is discarded, and `lost` is what the consumer then does about it (R370, R572). -/
def eccTry (q : Nat) (e : Ecc) (lost : Dev → Dev) (f : Packet → Dev → Dev) (d : Dev) : Dev :=
  match hwPeek q d with
  | none => d
  | some p =>
    match worseEcc e p.ecc with
    | .double => lost (sqEcc q (hwTaken q d))
    | .single => f p (wrB (SQ.QSTAT.ECCCOR q) true d)
    | .clean => f p d

/-- The same of a consumer whose command says nothing of ECC. -/
def hwTry (q : Nat) (lost : Dev → Dev) (f : Packet → Dev → Dev) (d : Dev) : Dev := eccTry q .clean lost f d

/-- What ECC finds in the packet a queue presents. -/
def headEcc (q : Nat) (d : Dev) : Ecc :=
  match (qGet q d).head.bind (fun i => (qGet q d).pkts[i]?) with
  | some p => p.ecc
  | none => .clean

/-- A QPOPLO read by firmware (R370, R373, R374), with what ECC finds on the item beside what it has found in the packet. -/
def fwPop (q : Nat) (e : Ecc) (d : Dev) : Dev :=
  let hiKey := (SQ.QPOPHI q).addr
  let none_ (d : Dev) : Dev := { d with rdata := 0, latch := tset d.latch hiKey 0 0 }
  if qCons q ≠ .fw then none_ d
  else
    let v := qGet q d
    match v.take with
    | none => wrB (SQ.QSTAT.POPEMPTY q) true (none_ d)
    | some (it, fin, v') =>
      match worseEcc e (headEcc q d) with
      | .double =>
        none_ (sqEcc q (qSet q { v.skip with lastEnd := fin } d))
      | e =>
        let d := if e = .single then wrB (SQ.QSTAT.ECCCOR q) true d else d
        { qSet q v' d with rdata := BitVec.ofNat 64 (it.toNat % 2 ^ 32)
                           latch := tset d.latch hiKey (BitVec.ofNat 32 (it.toNat / 2 ^ 32)) 0 }

/-- Whether the read side of a queue belongs to firmware: QCTL commands act only there (R373). -/
def fwReads (q : Nat) : Bool := qCons q == .fw

/-- MARK on a queue (R367). -/
def qMark (q : Nat) (d : Dev) : Dev :=
  if !fwReads q then d
  else if (qGet q d).inPkt then wrB (SQ.QSTAT.MARKERR q) true d else qSet q (qGet q d).mark d

/-- REWIND on a queue (R367). -/
def qRewind (q : Nat) (d : Dev) : Dev :=
  if !fwReads q then d
  else if (qGet q d).marked then qSet q (qGet q d).rewind d else wrB (SQ.QSTAT.MARKERR q) true d

/-- RELEASE on a queue (R368); room may let a stalled producer go on (R369). -/
def qRelease (q : Nat) (d : Dev) : Dev :=
  if !fwReads q then d
  else let v := (qGet q d).release
       qSet q (drain q v.backlog.length v) d

/-- A queue emptied as an end of it goes down (R371). -/
def qEmpty (q : Nat) (d : Dev) : Dev := wr (SQ.QCTL.PRI q) 0 (qSet q { lastEnd := (qGet q d).lastEnd } d)

/-- Every queue with an island at an end emptied (R371), and the windows that the island serves back at their defaults
(Table 15-8). -/
def qEmptyIsl (i : Nat) (d : Dev) : Dev :=
  forAll (List.range 48) (fun q d =>
    let at_ (e : QEnd) : Bool := match e with
      | .hw k => k == i
      | .fw => i == qServer q
      | _ => false
    let d := if at_ (qProd q) || at_ (qCons q) then qEmpty q d else d
    if i = qServer q then clearRegs (SQ.QPUSHLO q).addr ((SQ.QPUSHLO q).addr + 0x1000) (qSet q { qGet q d with lastEnd := false } d)
    else d) d

/-! ## Locks (R376–R379) -/

/-- The holder of a lock plus 1; 0 when free. -/
def lockOf (n : Nat) (d : Dev) : Nat := tget d.lock n 0
def lockSet (n v : Nat) (d : Dev) : Dev := { d with lock := tset d.lock n v 0 }

/-- A read of a lock (R376): acquires it when free. -/
def lockRead (n rq : Nat) (d : Dev) : Dev :=
  if lockOf n d = 0 then { lockSet n (rq + 1) d with rdata := 0 }
  else { d with rdata := BitVec.ofNat 64 (lockOf n d) }

/-- A write of a requester number to a lock (R377). -/
def lockWrite (n rq v : Nat) (d : Dev) : Dev :=
  if lockOf n d = rq + 1 ∧ v = rq then lockSet n 0 d else inc SCH.LOCKERR d

/-- The requester numbers of an island (Table 11-8, R379). -/
def rqOfIsl (i rq : Nat) : Bool :=
  (i == APPi && rq < 8) || (i == SECi && rq == 8) || (i == CTLi && rq == 9) || (i == POSi && rq == 10) ||
  (i == SCHi) || (i == MEMi && 12 ≤ rq && rq ≤ 15)

/-- Locks freed as an island is reset (R379). -/
def lockFreeIsl (i : Nat) (d : Dev) : Dev :=
  { d with lock := d.lock.filter (fun e => !(rqOfIsl i (e.2 - 1))) }

/-! ## Ferries and doorbells (R380–R385) -/

def ferryOf (f : Nat) (d : Dev) : Ferry := tget d.ferry f {}
def ferrySet (f : Nat) (v : Ferry) (d : Dev) : Dev := { d with ferry := tset d.ferry f v {} }

/-- The island a ferry's storage sits in (R380). -/
def ferryIsl (f : Nat) : Nat := if f < 8 then SECi else SCHi

/-- The receiver of a ferry's message: FCFG, or RCORE for F4–F7. -/
def ferryRecv (f : Nat) (hdr : Nat) (d : Dev) : Nat :=
  if 4 ≤ f ∧ f < 8 then bits hdr 16 4 else rd (FERRY.FCFG.RECEIVER f) d

/-- The sender and receiver of a word for FCFG, reserved numbers aside (R6; Table 11-10, note 1). -/
def fcfgSet (f v : Nat) (d : Dev) : Dev :=
  let s := bits v 0 5
  let r := bits v 8 5
  let d := whenB (decide (s < 12 ∨ s = 0x1E ∨ s = 0x1F)) (wr (FERRY.FCFG.SENDER f) s) d
  whenB (decide (r < 12 ∨ r = 0x1F)) (wr (FERRY.FCFG.RECEIVER f) r) d

/-- Whether a requester at a level is the ferry's sender (R380, R381). -/
def ferrySender (f rq : Nat) (lvl : Level) (d : Dev) : Bool :=
  let s := rd (FERRY.FCFG.SENDER f) d
  let who := (s == 0x1F && rq < 8) || (s == rq && s < 12)
  who && (if f < 8 then lvl == .m || rq == 8 else lvl != .u)

/-- A doorbell bit of a receiver has become set and unmasked, and waits for its DOORBELL step (R383). -/
def bellActs (r b : Nat) (d : Dev) : Dev :=
  { d with bellDue := tset d.bellDue r (setBit (tget d.bellDue r 0) b true) 0 }

/-- The island of a receiver (Table 11-8). -/
def recvIsl (r : Nat) : Nat :=
  if r < 8 then APPi else if r = 8 then SECi else if r = 9 then CTLi else if r = 10 then POSi else SCHi

/-- Why a SEND is refused (R380, R381): the ferry is full, the writer is not its sender, F8–F15 is not locked yet, LEN is above 16,
or F4–F7 name no core. -/
def sendBad (f rq : Nat) (lvl : Level) (hdr : Nat) (d : Dev) : Bool :=
  (ferryOf f d).full || !ferrySender f rq lvl d || (decide (8 ≤ f) && !on (FERRY.FCFG.LOCK f) d) || decide (16 < bits hdr 5 5) ||
  (decide (4 ≤ f ∧ f < 8) && decide (7 < bits hdr 16 4))

/-- The header a ferry holds once sent (Table 11-11): what the sender wrote, its number, FULL, and its level. -/
def sentHdr (f rq : Nat) (lvl : Level) (hdr : Nat) : Nat :=
  bits hdr 0 5 + bits hdr 5 5 * 2 ^ 5 + rq * 2 ^ 10 + 2 ^ 15 + (if 4 ≤ f ∧ f < 8 then bits hdr 16 4 * 2 ^ 16 else 0)
    + b2n (lvl == .m) * 2 ^ 20 + bits hdr 24 8 * 2 ^ 24

/-- The island a doorbell block lives in (Table 11-2). -/
def bellIsl (r : Nat) : Nat := if r = 8 then SECi else SCHi

/-- A receiver's doorbell bit rung; unmasked, it acts (R383). A block whose island is down takes nothing (R357). -/
def ringBell (r b : Nat) (d0 : Dev) : Dev :=
  if 12 ≤ r ∨ !isUp (bellIsl r) d0 then d0
  else
    let d := wrBit (BELL.DBELL r) b true d0
    if bit (rd (BELL.DBMASK r) d) b then d else bellActs r b d

/-- The turn of a message: after those that arrived before, the lower ferry first among those that arrive together (R524). -/
def ferryTurn (raw f : Nat) (l : List (Nat × Nat)) : List (Nat × Nat) :=
  let before (e : Nat × Nat) : Bool := decide (e.1 < raw ∨ e.2 < f)
  l.takeWhile before ++ (raw, f) :: l.dropWhile before

/-- A message put into a ferry: its header, its turn, and the receiver's doorbell (R381). -/
def ferryPut (f h : Nat) (d0 : Dev) : Dev :=
  let d := ferrySet f { full := true, hdr := BitVec.ofNat 32 h } d0
  ringBell (ferryRecv f h d0) (bits h 0 5) { d with ferrySeq := ferryTurn d.raw f d.ferrySeq }

/-- SEND with a header (R381, Table 11-11). -/
def ferrySend (f rq : Nat) (lvl : Level) (hdr : Nat) (d : Dev) : Dev :=
  if sendBad f rq lvl hdr d then inc (FERRY.REFCNT f) d else ferryPut f (sentHdr f rq lvl hdr) d

/-- The message of a ferry consumed by its receiver (R382). -/
def ferryTaken (f : Nat) (d : Dev) : Dev :=
  let h := (ferryOf f d).hdr
  let d := ferrySet f { ferryOf f d with full := false } d
  inc (FERRY.MSGCNT f) { d with rdata := h.setWidth 64, ferrySeq := d.ferrySeq.filter (·.2 ≠ f) }

/-- A message of SEC's put into a ferry: words, header, FULL, and the receiver's doorbell (R381, R524). -/
def secSend (f hdr : Nat) (words : List Nat) (d0 : Dev) : Dev :=
  let d := (words.zipIdx).foldl (fun d e => wr (FERRY.W f e.2) e.1 d) d0
  let h := hdr % 32 + words.length % 32 * 2 ^ 5 + 8 * 2 ^ 10 + 2 ^ 15 + bits hdr 16 4 * 2 ^ 16 + 2 ^ 20 + bits hdr 24 8 * 2 ^ 24
  ferryPut f h d

/-- The answer that waits for its ferry goes out as soon as the ferry is free, or is dropped after 10 ms (R524). -/
def answerWait (d : Dev) : Dev :=
  match d.sec.ans with
  | none => d
  | some a =>
    let gone := { d with sec := { d.sec with ans := none } }
    let due := a.from_ + 10 * rawPerMs
    if !(ferryOf a.ferry d).full && decide (d.raw ≤ due) then secSend a.ferry a.hdr a.words gone
    else if due ≤ d.raw then inc SEC.ANSDROP gone
    else d
/-- A TAKE read by a requester (R382). While an F4–F7 is empty no header names its receiver, and no one is refused as another. -/
def ferryTake (f rq : Nat) (d : Dev) : Dev :=
  let v := ferryOf f d
  if !v.full && decide (4 ≤ f ∧ f < 8) then { d with rdata := 0 }
  else if ferryRecv f v.hdr.toNat d ≠ rq then inc (FERRY.REFCNT f) { d with rdata := 0 }
  else if !v.full then { d with rdata := 0 }
  else answerWait (ferryTaken f d)

/-- The payload words of a ferry's message. -/
def ferryWords (f : Nat) (d : Dev) : List Nat :=
  (List.range (bits (ferryOf f d).hdr.toNat 5 5)).map (fun i => rd (FERRY.W f i) d)

/-- A ferry emptied as an end of it is reset (Table 11-10, note 2). -/
def ferryEmpty (f : Nat) (d : Dev) : Dev :=
  let d := clearRegs (FERRY.W f 0).addr ((FERRY.W f 0).addr + 0x80) (ferrySet f {} d)
  { d with ferrySeq := d.ferrySeq.filter (·.2 ≠ f) }

/-- Ferries and doorbells as an island is reset (Table 11-10, note 2; R383): what an end loses, and the blocks that live in the
island back at their defaults. -/
def ferryResetIsl (i : Nat) (d : Dev) : Dev :=
  let ends (f : Nat) : Bool :=
    let s := rd (FERRY.FCFG.SENDER f) d
    let r := rd (FERRY.FCFG.RECEIVER f) d
    ferryIsl f == i || (s == 0x1F && i == APPi) || (s < 12 && recvIsl s == i) ||
    (if 4 ≤ f ∧ f < 8 then i == APPi else r < 12 && recvIsl r == i)
  let d := forAll (List.range 16) (fun f d => if ends f then ferryEmpty f d else d) d
  let d := forAll (List.range 16) (fun f d =>
    if ferryIsl f == i then clearRegs (FERRY.REFCNT f).addr ((FERRY.REFCNT f).addr + 8) d else d) d
  forAll (List.range 12) (fun r d =>
    let d := if recvIsl r == i then wr (BELL.DBELL r) 0 { d with bellDue := tset d.bellDue r 0 0 } else d
    if bellIsl r == i then clearRegs (BELL.DBELL r).addr ((BELL.DBELL r).addr + 0x20) { d with bellDue := tset d.bellDue r 0 0 } else d) d

end Sys2Proof.Machine
end

