-- ==== Sys2Proof/Machine/Time.lean ====
section
/-! DEFINITION. Machine/Time.lean: the raw counter, CYCLE and WALL, the discipline of WALL, trigger units and the time
pulse (Time bases, triggers and the time pulse). -/

namespace Sys2Proof.Machine

/-- floor(n × 500/13 × (1 + rate × 2^-40)) (R44). -/
def rateNs (n rate : Int) : Int := (n * 500 * (2 ^ 40 + rate)).fdiv (13 * 2 ^ 40)

/-- Whether a slew has added its whole amount after n counts. -/
def slewDone (n : Int) (w : Slew) : Bool := decide (w.amt.natAbs * (13 * 2 ^ 40) ≤ (n * 500 * w.rate).natAbs)

/-- CYCLE at a raw count (R44). -/
def cycleAt (raw : Nat) (d : Dev) : Int :=
  toS 64 (rd AON.COFF d) + rateNs ((raw : Int) - rd AON.CBASE d) (rdS AON.CRATE d)

/-- WALL at a raw count (R44, R51): while a slew runs its rate is added, until the amount is in. -/
def wallAt (raw : Nat) (d : Dev) : Int :=
  let n : Int := (raw : Int) - rd AON.WBASE d
  let r := rdS AON.WRATE d
  match d.aon.slew with
  | none => toS 64 (rd AON.WOFF d) + rateNs n r
  | some w =>
    if slewDone n w then toS 64 (rd AON.WOFF d) + rateNs n r + w.amt
    else toS 64 (rd AON.WOFF d) + rateNs n (r + w.rate)

def cycle (d : Dev) : Int := cycleAt d.raw d
def wall (d : Dev) : Int := wallAt d.raw d

/-! ## APP's replica (R394) -/

/-- The parameters of both timescales. -/
def timePars (d : Dev) : TimePars :=
  ⟨rd AON.COFF d, rd AON.CBASE d, rd AON.CRATE d, rd AON.WOFF d, rd AON.WBASE d, rd AON.WRATE d, d.aon.slew⟩

/-- The block with other parameters. -/
def withPars (p : TimePars) (d : Dev) : Dev :=
  let d := wr AON.COFF p.coff (wr AON.CBASE p.cbase (wr AON.CRATE p.crate d))
  let d := wr AON.WOFF p.woff (wr AON.WBASE p.wbase (wr AON.WRATE p.wrate d))
  { d with aon := { d.aon with slew := p.slew } }

/-- Raw counts that the replica may be behind: 200 ns. -/
def replLag : Nat := 5

/-- The changes the replica has not followed yet, oldest first. -/
def replDue (d : Dev) : List (Nat × TimePars) := d.aon.repl.filter (fun e => decide (d.raw ≤ e.1 + replLag))

/-- A change that the replica follows late: what it shows until then. Of changes in one raw count the parameters before the first
stand (log 66). -/
def noted (old d : Dev) : Dev :=
  let l := replDue d
  if timePars d = timePars old ∨ l.any (fun e => e.1 == d.raw) then d
  else { d with aon := { d.aon with repl := l ++ [(d.raw, timePars old)] } }

/-- A change of rate for a stated instant reaches the replica in time, whatever else it still follows late. -/
def inTime (f : Dev → Dev) (d0 : Dev) : Dev :=
  let d := f d0
  { d with aon := { d.aon with repl := d.aon.repl.map (fun e => (e.1, timePars (f (withPars e.2 d0)))) } }

/-- The block as the replica sees its timescales: before the oldest change it has not followed. -/
def replica (d : Dev) : Dev :=
  match replDue d with
  | e :: _ => withPars e.2 d
  | [] => d

/-- CYCLE and WALL as the replica gives them; the end of a slew reaches it late too. -/
def replCycle (d : Dev) : Int := cycle (replica d)
def replWall (d : Dev) : Int :=
  let e := replica d
  match e.aon.slew with
  | some w =>
    let n : Int := (e.raw : Int) - rd AON.WBASE e
    if slewDone (max 0 (n - replLag)) w then wall e else toS 64 (rd AON.WOFF e) + rateNs n (rdS AON.WRATE e + w.rate)
  | none => wall e

/-- CYCLE − (WALL − CEPOCH), saturating at 32 bits (Table 02-5). -/
def calign (d : Dev) : Int := satS 32 (cycle d - (wall d - toS 64 (rd AON.CEPOCH d)))

/-- OFF and BASE of CYCLE moved to the present count, its value unchanged (R46). -/
def rebaseCycle (d : Dev) : Dev := wr AON.CBASE d.raw (wrS AON.COFF (cycle d) d)

/-- OFF and BASE of WALL moved to the present count; a slew keeps what it still has to add (R46, R51). -/
def rebaseWall (d : Dev) : Dev :=
  let n : Int := (d.raw : Int) - rd AON.WBASE d
  let v := wall d
  let rest : Option Slew := d.aon.slew.bind (fun w =>
    let left := w.amt - (v - (toS 64 (rd AON.WOFF d) + rateNs n (rdS AON.WRATE d)))
    if slewDone n w ∨ left = 0 then none else some { w with amt := left })
  let d := wr AON.WBASE d.raw (wrS AON.WOFF v d)
  let d := if d.aon.slew.isSome && rest.isNone then wrB AON.WSTAT.SLEWING false d else d
  { d with aon := { d.aon with slew := rest } }

/-- The superframe number: the low 32 bits of floor(CYCLE / 10,000,000) (R62). -/
def sfOf (cyc : Int) : Nat := (cyc.fdiv 10000000 % (2 ^ 32 : Nat)).toNat
def sfNow (d : Dev) : Nat := sfOf (cycle d)

/-- DIVERGED follows |CALIGN| > CFOLMAX; as it sets, DIVEVT sets and a record is written (R59). -/
def checkDiverged (d : Dev) : Dev :=
  let bad := decide ((rd AON.CFOLMAX d : Int) < (calign d).natAbs)
  if bad && !on AON.CCTL.DIVERGED d then
    lichen 0 0x0106 (leBytes 4 (ofS 32 (calign d))) (raise AON.CCTL.DIVEVT (wrB AON.CCTL.DIVERGED true d))
  else wrB AON.CCTL.DIVERGED bad d

/-- TSNAP (R45). -/
def tsnap (d : Dev) : Dev :=
  wrS AON.SNAPWALL (wall d) (wrS AON.SNAPCYC (cycle d) (wr AON.SNAPRAW d.raw d))

/-! ## Rate changes (R46, R47, R58) -/

/-- CRATE held within ±549,756 (R58). -/
def clampCrate (r : Int) : Int := max (-549756) (min r 549756)

/-- CYCLE takes a new rate at this count, without a jump; a rate beyond the limit is clamped (R46, R58). -/
def takeCrate (r : Int) (d : Dev) : Dev :=
  let d := wrS AON.CRATE (clampCrate r) (rebaseCycle d)
  if clampCrate r = r then d else raise AON.CCTL.RATECLAMP d

/-- WALL takes a new base rate at this count, without a jump (R46). -/
def takeWrate (r : Int) (d : Dev) : Dev := wrS AON.WRATE r (rebaseWall d)

/-- The pending change of CYCLE takes effect once its instant has come. -/
def applyC (d : Dev) : Dev :=
  match d.aon.cPend with
  | none => d
  | some p =>
    if d.raw < p.at_ then d
    else
      let d0 : Dev := { d with aon := { d.aon with cPend := none } }
      if p.late then raise AON.CCTL.RATELATE (noted d0 (takeCrate p.rate d0)) else inTime (takeCrate p.rate) d0

/-- The pending change of WALL takes effect once its instant has come. -/
def applyW (d : Dev) : Dev :=
  match d.aon.wPend with
  | none => d
  | some p =>
    if d.raw < p.at_ then d
    else
      let d0 : Dev := { d with aon := { d.aon with wPend := none } }
      if p.late then raise AON.WSTAT.RATELATE (noted d0 (takeWrate p.rate d0)) else inTime (takeWrate p.rate) d0

/-- A rate change armed: an instant already passed means the next count, late (R47). The present count has passed already
(DESIGN CHOICE, log 126). -/
def rateNext (rate : Int) (at_ raw : Nat) : RateNext :=
  if raw < at_ then ⟨rate, at_, false⟩ else ⟨rate, raw + 1, true⟩

/-- RARM of CYCLE: an earlier change due in this count takes effect first (R47). NXT and AT are taken as they stand now
(DESIGN CHOICE, log 126). -/
def armC (d : Dev) : Dev :=
  let d := applyC d
  { d with aon := { d.aon with cPend := some (rateNext (toS 32 (rd AON.CRATENXT d)) (rd AON.CRATEAT d) d.raw) } }

/-- RARM of WALL (R47), with NXT and AT as they stand now (DESIGN CHOICE, log 126). -/
def armW (d : Dev) : Dev :=
  let d := applyW d
  { d with aon := { d.aon with wPend := some (rateNext (toS 32 (rd AON.WRATENXT d)) (rd AON.WRATEAT d) d.raw) } }

/-! ## Trigger units (R64–R69) -/

/-- The timescale a unit compares with. -/
def trigNow (n : Nat) (d : Dev) : Int := if on (AON.TRIGCTL.TSEL n) d then wall d else cycle d

/-- The signed 32-bit difference now − target (R64). -/
def trigDiff (n tgt : Nat) (d : Dev) : Int := toS 32 (ofS 32 (trigNow n d - tgt))

/-- A unit moved to the first whole multiple of its period after a new time (R61, R69). `ahead` counts the periods a
forward step passed over. -/
def realign (n : Nat) (old new : Int) (d : Dev) : Dev :=
  if !on (AON.TRIGCTL.EN n) d then d
  else if on (AON.TRIGCTL.PER n) d then
    let per : Int := rd (AON.TRIGPER n) d
    let tgt := rd (AON.TRIGTGT n) d
    let was := toS 32 (ofS 32 (old - tgt))
    let is_ := was + (new - old)
    let d := if was < 0 ∧ 0 ≤ is_ then tally (AON.MISSCNT n) 1 d else d
    wrS (AON.TRIGTGT n) ((new.fdiv per + 1) * per) { d with aon := { d.aon with catchUp := tset d.aon.catchUp n false false } }
  else raise (AON.TRIGCTL.STEPCAN n) (wrB (AON.TRIGCTL.EN n) false d)

/-- Every enabled unit on a timescale re-aligned after it stepped. -/
def realignAll (onWall : Bool) (old new : Int) (d : Dev) : Dev :=
  forAll (List.range 16) (fun n d => if on (AON.TRIGCTL.TSEL n) d == onWall then realign n old new d else d) d

/-- WALL stepped in one raw count: the units on it re-align, and the next pulse falls on its next second boundary (R50,
R52, R69, R72). -/
def stepWall (amt : Int) (d0 : Dev) : Dev :=
  let old := wall d0
  let d := wrS AON.WOFF (toS 64 (rd AON.WOFF d0) + amt) d0
  let a : AonS := { d.aon with ppsSec := (wall d - 1).fdiv 1000000000 }
  realignAll true old (wall d) { d with aon := a, pos := { d.pos with step := true } }

/-! ## Disciplining WALL (R48–R55) -/

/-- A correction has been applied (R53–R55): LOCKED, holdover over, and the source's uncertainty. -/
def corrApplied (d : Dev) : Dev :=
  let d := wrB AON.WSTAT.HOLDOVER false d
  let d := if on AON.WSTAT.LOCKED d then d
           else { wrB AON.WSTAT.LOCKED true d with aon := { d.aon with lockFrom := some d.raw } }
  let d := wr AON.WUNC (if rd AON.WCTL.SRC d = 1 then 100 else rd AON.WUNCFW d) d
  { d with aon := { d.aon with lastCorr := d.raw } }

/-- The slew in progress ends at what it has added so far (R52, R53). -/
def endSlew (d0 : Dev) : Dev :=
  if d0.aon.slew = none then d0
  else
  let d := rebaseWall d0
  wrB AON.WSTAT.SLEWING false { d with aon := { d.aon with slew := none } }

/-- A received correction (R50–R53). A slew takes WSLEWMAX as it starts (DESIGN CHOICE, log 126). -/
def received (amt : Int) (d0 : Dev) : Dev :=
  let d := endSlew d0
  if !on AON.WSTAT.VALID d then corrApplied (stepWall amt (wrB AON.WSTAT.VALID true d))
  else if amt.natAbs ≤ rd AON.WJUMPTHR d then
    let d := wrB AON.WSTAT.STEPPEND false d
    if amt = 0 then corrApplied d
    else
      let r : Int := if 0 < amt then rd AON.WSLEWMAX d else -(rd AON.WSLEWMAX d : Int)
      let d := rebaseWall d
      corrApplied (wrB AON.WSTAT.SLEWING true { d with aon := { d.aon with slew := some ⟨amt, r⟩ } })
  else
    let d := raise AON.WSTAT.STEPREF (wrB AON.WSTAT.STEPPEND true (wrS AON.WSTEPAMT amt d))
    lichen 0 0x0104 (leBytes 8 (ofS 64 amt)) (token 0 0 0xF1 0 d)

/-- A correction with its source's tag (R49): from POS (1) or written by firmware. -/
def correction (src : Nat) (fw : Bool) (amt : Int) (d : Dev) : Dev :=
  if rd AON.WCTL.SRC d = 0 ∨ src ≠ rd AON.WCTL.SRC d ∨ (fw = true ∧ src = 1) then tally AON.WSTAT.FOREIGN 1 d
  else noted d (checkDiverged (received amt d))

/-- WALL's uncertainty as read (R55): in holdover it grows by 2.8 or 500 ns a second, saturating. -/
def wunc (d : Dev) : Nat :=
  if on AON.WSTAT.HOLDOVER d then
    let n := d.raw - d.aon.holdRaw
    let g := if on AON.WSTAT.RATELRN d then n * 28 / (10 * rawPerS) else n * 500 / rawPerS
    min 0xFFFFFFFF (d.aon.holdUnc + g)
  else if on AON.WSTAT.LOCKED d ∧ rd AON.WCTL.SRC d ≠ 1 then rd AON.WUNCFW d
  else rd AON.WUNC d

/-- WALL enters holdover (R54, R55). -/
def holdover (d : Dev) : Dev :=
  if !on AON.WSTAT.VALID d ∨ on AON.WSTAT.HOLDOVER d then d
  else
    let u := wunc d
    let d := wrB AON.WSTAT.LOCKED false (wrB AON.WSTAT.HOLDOVER true d)
    lichen 0 0x0105 [] { d with aon := { d.aon with lockFrom := none, holdRaw := d.raw, holdUnc := u } }

/-! ## Steps accepted, and firings (R53, R66–R69) -/

/-- STEPACC (R53, R69, R72). -/
def stepAcc (d : Dev) : Dev :=
  if !on AON.WSTAT.STEPPEND d then raise AON.WSTAT.ACCNONE d
  else noted d (checkDiverged (stepWall (rdS AON.WSTEPAMT d) (corrApplied (wrB AON.WSTAT.STEPPEND false d))))

/-- STEPACC asked for: a correction of the same raw count is handled first (R53). -/
def stepAsk (d : Dev) : Dev :=
  if d.aon.accHold then { d with aon := { d.aon with accDue := true } } else stepAcc d

/-- A STEPACC that waited for the corrections of its raw count acts on what is pending after them (R53). -/
def accAfter (d : Dev) : Dev :=
  if d.aon.accDue && !d.aon.accHold then stepAcc { d with aon := { d.aon with accDue := false } } else d

/-- The destination island of a unit: CTL, NET, POS or SCH. -/
def trigIsl (dest : Nat) : Nat := if dest = 1 then CTLi else if dest = 2 then NETi else if dest = 3 then POSi else SCHi

/-- The ring cycle time, ns (R273). -/
def cycNs (d : Dev) : Nat := [125000, 250000, 500000, 1000000, 2000000].getD (rd NET.CYCCFG.CYCT d) 250000

/-- How far into its servo cycle CYCLE stands, ns (R273, R331). -/
def cycPhase (d : Dev) : Nat := (cycle d % (cycNs d : Int)).toNat

/-- The servo cycle CYCLE stands in (R273, R331). -/
def cycIdx (d : Dev) : Int := cycle d / (cycNs d : Int)

/-- DL(c) is 8 µs before the next cycle start (R331). -/
def pastDl (d : Dev) : Bool := decide (cycNs d - 8000 ≤ cycPhase d)

/-- A firing at CTL (R332): the first of a cycle is taken while CTL is enabled, unless it is late or names no valid program. -/
def ctlFiring (arg : Nat) (d : Dev) : Dev :=
  if !on CTL.CTLCTL.EN d then d
  else if d.ctl.fired = some (cycIdx d) then inc CTL.TRGDROP d
  else
    let d1 : Dev := { d with ctl := { d.ctl with fired := some (cycIdx d) } }
    if pastDl d then inc CTL.TRGLATE d1
    else if 15 < arg ∨ !on (CTL.PROGTAB.VALID arg) d then inc CTL.PROGINV d1
    else { d1 with ctl := { d1.ctl with trig := some arg } }

/-- A firing delivered to its destination (Table 02-3, R66): discarded and counted if the island is in reset. -/
def deliver (n tgt : Nat) (d : Dev) : Dev :=
  let dest := rd (AON.TRIGCTL.DEST n) d
  let arg := rd (AON.TRIGCTL.DARG n) d
  if dest = 0 then d
  else if !isUp (trigIsl dest) d then tally (AON.DROPCNT n) 1 d
  else if dest = 1 then ctlFiring arg d
  else if dest = 2 then { d with net := { d.net with siNext := some tgt } }
  else if dest = 3 then { d with pos := { d.pos with epochDue := d.pos.epochDue + 1 } }
  else token 0 0 arg 0 d

/-- How many periods bring a target ahead of the present time: the least k with diff < k·per. -/
def periodsAhead (diff : Int) (per : Nat) : Nat := if diff < 0 then 0 else (diff / (max per 1 : Nat)).toNat + 1

/-- The count after the present one is the first at which a unit may fire (R68). -/
def fireLater (n : Nat) (d : Dev) : Dev :=
  { d with aon := { d.aon with trigRaw := tset d.aon.trigRaw n (d.raw + 1) 0 } }

/-- A unit fires in this raw count (R64, R68): enabled, its target reached, and neither enabled nor fired in this very count. -/
def fires (n : Nat) (d : Dev) : Bool :=
  on (AON.TRIGCTL.EN n) d && decide (0 ≤ trigDiff n (rd (AON.TRIGTGT n) d) d) && decide (tget d.aon.trigRaw n 0 ≤ d.raw)

/-- A unit fires (R64, R66–R68). -/
def fire (n : Nat) (d0 : Dev) : Dev :=
  let tgt := rd (AON.TRIGTGT n) d0
  let diff := trigDiff n tgt d0
  if !fires n d0 then d0
  else
    let d := fireLater n (inc (AON.FIRECNT n) (raise (AON.TRIGCTL.FIRED n) d0))
    if on (AON.TRIGCTL.PER n) d then
      let per := rd (AON.TRIGPER n) d
      let catch_ := tget d.aon.catchUp n false
      let k := if catch_ then max 1 (periodsAhead diff per) else 1
      let nt := (tgt + k * per) % 2 ^ 32
      let d := wr (AON.TRIGTGT n) nt d
      let d := if catch_ then tally (AON.MISSCNT n) (k - 1) d else d
      let behind := !catch_ && decide (0 ≤ diff - per)
      deliver n nt { d with aon := { d.aon with catchUp := tset d.aon.catchUp n behind false } }
    else deliver n tgt (wrB (AON.TRIGCTL.EN n) false d)

/-- Firing up to a unit: lower units that fire in the same raw count to the same destination go first (R66). -/
def fireUpTo (n : Nat) (d : Dev) : Dev :=
  let dest := rd (AON.TRIGCTL.DEST n) d
  fire n (forAll ((List.range n).filter (fun m => rd (AON.TRIGCTL.DEST m) d == dest)) fire d)

/-- TRIGTGT written: a unit that fires in this raw count fires with its old target, and the written value stands then (R68). -/
def trigTgt (n v : Nat) (d0 : Dev) : Dev :=
  let d := fireLater n (wr (AON.TRIGTGT n) v (fireUpTo n d0))
  { d with aon := { d.aon with catchUp := tset d.aon.catchUp n false false } }

/-- A TRIGCTL write (R65): fields as written, but never WALL with destination 1 or 2. -/
def trigCtl (n v : Nat) (d0 : Dev) : Dev :=
  let d := if bit v 0 && !on (AON.TRIGCTL.EN n) d0 then fireLater n d0 else d0
  let oldT := on (AON.TRIGCTL.TSEL n) d
  let newT := bit v 2
  let dest := bits v 3 4
  let destOk := decide (dest ≤ 4)
  let dest' := if destOk then dest else rd (AON.TRIGCTL.DEST n) d
  let pairs := newT && (dest' == 1 || dest' == 2)
  let tsel := if pairs && !oldT then false else newT
  let destF := if pairs && oldT then rd (AON.TRIGCTL.DEST n) d else dest'
  let d := if bit v 17 then cleared (AON.TRIGCTL.STEPCAN n) d else d
  let d := if bit v 16 then cleared (AON.TRIGCTL.FIRED n) d else d
  let d := wr (AON.TRIGCTL.DARG n) (bits v 8 8) d
  let d := wr (AON.TRIGCTL.DEST n) destF d
  let d := wrB (AON.TRIGCTL.TSEL n) tsel d
  let d := wrB (AON.TRIGCTL.PER n) (bit v 1) d
  let d := wrB (AON.TRIGCTL.EN n) (bit v 0) d
  { d with aon := { d.aon with catchUp := tset d.aon.catchUp n false false } }

/-! ## The time pulse (R70–R72, R34, R35) -/

/-- The TPULSE pin follows the generator only when enabled, not overloaded, and from a rising edge on. -/
def tpulsePin (d : Dev) : Dev :=
  wrB AON.TPSTAT.LEVEL (d.aon.ppsHigh && d.aon.ppsPin && on SEC.J6CTL.TPEN d && !on SEC.J6STAT.TPOVLD d && isUp SECi d) d

/-- The generator at a WALL second boundary (R70–R72). -/
def ppsRise (d : Dev) : Dev :=
  let s := (wall d).fdiv 1000000000
  if s = d.aon.ppsSec then d
  else
    let d := { d with aon := { d.aon with ppsSec := s } }
    let close := match d.aon.ppsRaw with
      | none => false
      | some r => decide (d.raw < r + rawPerS / 2)
    if close then lichen 0 0x0107 [] (raise AON.TPSTAT.SUPPR d)
    else
      let ok := on SEC.J6CTL.TPEN d && !on SEC.J6STAT.TPOVLD d
      tpulsePin (inc AON.TPSTAT.PULSECNT
        { d with aon := { d.aon with ppsHigh := true, ppsRaw := some d.raw, ppsPin := ok } })

/-- The generator 100 ms of raw time after its rise (R70). -/
def ppsFall (d : Dev) : Dev :=
  match d.aon.ppsRaw with
  | none => d
  | some r =>
    if d.aon.ppsHigh && decide (r + rawPerS / 10 ≤ d.raw) then tpulsePin { d with aon := { d.aon with ppsHigh := false } } else d

end Sys2Proof.Machine
end

