-- ==== Sys2Proof/Machine/Mem.lean ====
section
/-! DEFINITION. Machine/Mem.lean: DRAM with its error correction, page tables, the frame pool, retirement and DMA
(Memory, hardware paging and DMA). -/

namespace Sys2Proof.Machine

/-! ## DRAM bytes, as islands other than the cores reach them -/

/-- Bytes of DRAM (R446: 8 GiB from address 0). -/
def dramSize : Nat := 8 * 2 ^ 30

/-- A byte of DRAM; a byte nothing has written reads 0 (log 11). -/
def dramGet (a : Nat) (d : Dev) : Nat := (tget d.mem.dram a 0).toNat

/-- A byte of DRAM written. -/
def dramPut (a v : Nat) (d : Dev) : Dev :=
  if a < dramSize then { d with mem := { d.mem with dram := tset d.mem.dram a (BitVec.ofNat 8 v) 0 } } else d

/-- n bytes from an address up. -/
def dramRead (a n : Nat) (d : Dev) : List Nat := (List.range n).map (fun i => dramGet (a + i) d)

/-- Marks of words taken off. -/
def unmarked (lo hi : Nat) (d : Dev) : Dev :=
  { d with mem := { d.mem with bad := tclear d.mem.bad lo hi, soft := tclear d.mem.soft lo hi } }

/-- Bytes written from an address up: a word written whole takes fresh check bits, which ends what was wrong in it (R447). -/
def dramWrite (a : Nat) (l : List Nat) (d : Dev) : Dev :=
  (l.zipIdx).foldl (fun d e => dramPut (a + e.2) e.1 d) (unmarked ((a + 7) / 8) ((a + l.length) / 8) d)

/-- A byte as a requester sees it that goes on after an uncorrectable error: nothing says what such a word still reads as, and it
is free (log 155). -/
def dramSeen (a : Nat) (d : Dev) : Nat :=
  if tget d.mem.bad (a / 8) false then (Config.lostByte a d.raw).toNat else dramGet a d

/-! ## The frame table (R454, Table 14-2) -/

/-- Frames of DRAM. -/
def frames : Nat := 2097152

def fFree : Nat := 0
def fMapped : Nat := 2
def fOther : Nat := 3
def fRetired : Nat := 4
def fFailing : Nat := 5
def fReserved : Nat := 6

/-- Where a frame's entry lies. -/
def ftAddr (f : Nat) (d : Dev) : Nat := rd MEM.FTBASE d + 8 * f

/-- A frame's entry. -/
def ftGet (f : Nat) (d : Dev) : Nat := ofLe (dramRead (ftAddr f d) 8 d)

/-- A frame's entry written. -/
def ftPut (f v : Nat) (d : Dev) : Dev := dramWrite (ftAddr f d) (leBytes 8 v) d

/-- The state in an entry. -/
def ftState (e : Nat) : Nat := bits e 0 3

/-- The address of the leaf that maps a MAPPED frame. -/
def ftPte (e : Nat) : Nat := bits e 3 37 * 8

/-- The corrected errors an entry counts. -/
def ftCe (e : Nat) : Nat := bits e 40 8

/-- An entry from its parts. -/
def ftMake (st pte ce : Nat) : Nat := st + pte / 8 % 2 ^ 37 * 2 ^ 3 + ce * 2 ^ 40

/-- A frame put in a state, its count of corrected errors kept. -/
def ftSet (f st pte : Nat) (d : Dev) : Dev := ftPut f (ftMake st pte (ftCe (ftGet f d))) d

/-- POOLFREE set, with POOLEMPTY (R459). -/
def poolSet (n : Nat) (d : Dev) : Dev := wrB MEM.MEMSTAT.POOLEMPTY (n == 0) (wr MEM.POOLFREE n d)

/-- POOLFREE follows the frames while the pool runs; the sweep counts them before (R455). -/
def poolMove (k : Int) (d : Dev) : Dev :=
  if on MEM.MEMSTAT.POOLRUN d then poolSet ((rd MEM.POOLFREE d : Int) + k).toNat d else d

/-- Whether n frames from f on are all FREE. -/
def allFree (f n : Nat) (d : Dev) : Bool := (List.range n).all (fun i => ftState (ftGet (f + i) d) == fFree)

/-- A free block of n frames aligned to its size (R456, R457). Which of several is taken the spec leaves open: the search
begins at a free value (log 3). -/
def pickBlock (n : Nat) (d : Dev) : Option Nat :=
  let m := frames / n
  let h := (freeOf d).toNat % m
  ((List.range m).find? (fun i => allFree ((h + i) % m * n) n d)).map (fun i => (h + i) % m * n)

/-! ## Retirement (R461–R464) -/

/-- The i-th entry of the retired-frame list. -/
def retList (i : Nat) (d : Dev) : Nat :=
  ofLe ((List.range 4).map (fun k => (tget d.aon.ret (0x5000 + 4 * i + k) 0).toNat))

/-- A byte of AON retention written. -/
def retPut (o v : Nat) (d : Dev) : Dev := { d with aon := { d.aon with ret := tset d.aon.ret o (BitVec.ofNat 8 v) 0 } }

/-- Bytes of AON retention written. -/
def retWrite (o : Nat) (l : List Nat) (d : Dev) : Dev := (l.zipIdx).foldl (fun d e => retPut (o + e.2) e.1 d) d

/-- Bytes of AON retention. -/
def retRead (o n : Nat) (d : Dev) : List Nat := (List.range n).map (fun i => (tget d.aon.ret (o + i) 0).toNat)

/-- A frame appended to the retired-frame list (R464). -/
def retAppend (f : Nat) (d : Dev) : Dev :=
  let d' := retWrite (0x5000 + 4 * d.aon.retCnt) (leBytes 4 f) d
  { d' with aon := { d'.aon with retCnt := d.aon.retCnt + 1 } }

/-- Whether a frame is MAPPED by a 4 KiB leaf without SHARED (R462): the leaf names this frame, and no other frame of an aligned
block of 512 has the same leaf. -/
def soleFrame (f : Nat) (d : Dev) : Bool :=
  let e := ftGet f d
  let leaf := ofLe (dramRead (ftPte e) 8 d)
  let same (i : Nat) : Bool :=
    let n := ftGet (f + 1 + i) d
    (ftState n == fMapped || ftState n == fFailing) && ftPte n == ftPte e
  ftState e == fMapped && bits leaf 12 28 == f && !bit leaf 10 && !(decide (f % 512 = 0) && (List.range 511).any same)

/-- The words among n from word w on in which ECC has something to find: single errors first, then uncorrectable ones. -/
def marked (w n : Nat) (d : Dev) : List Nat :=
  ((d.mem.soft ++ d.mem.bad).map (·.1)).filter (fun k => decide (w ≤ k ∧ k < w + n))

/-- The number of words that n bytes from pa on touch. -/
def wordsOver (pa n : Nat) : Nat := (pa + n + 7) / 8 - pa / 8

/-- The address of the last error (Table 14-7). -/
def eccLast (pa : Nat) (ue : Bool) (d : Dev) : Dev := wr MEM.ECCLAST (pa % 2 ^ 40 + b2n ue * 2 ^ 62 + 2 ^ 63) d

/-- A word goes bad: a single error, or an uncorrectable one. -/
def strike (w : Nat) (double : Bool) (d : Dev) : Dev :=
  if double then { d with mem := { d.mem with bad := tset d.mem.bad w true false, soft := tset d.mem.soft w false false } }
  else if tget d.mem.bad w false then d
  else { d with mem := { d.mem with soft := tset d.mem.soft w true false } }

/-- What ECC finds in a word that a read begins with, as the command says. -/
def struck (w : Nat) : Ecc → Dev → Dev
  | .clean => id
  | .single => strike w false
  | .double => strike w true

/-- A retirement request (R463, Table 14-3). -/
def retSend (f : Nat) (ue nosole nofree full : Bool) (d : Dev) : Dev :=
  let it := f % 2 ^ 28 + b2n ue * 2 ^ 28 + b2n nosole * 2 ^ 29 + b2n nofree * 2 ^ 30 + b2n full * 2 ^ 31 + ftCe (ftGet f d) * 2 ^ 32
  token 2 MEMi 0xF3 0 (hwPush 33 [BitVec.ofNat 64 it] d)

/-- A request of a frame at its threshold, once while one is outstanding (R463). -/
def retReq (f : Nat) (nosole nofree full : Bool) (d : Dev) : Dev :=
  if tget d.mem.req f false then d
  else retSend f false nosole nofree full { d with mem := { d.mem with req := tset d.mem.req f true false } }

/-- Whether a frame is one that hardware does not retire itself (R463; Table 14-3, NOTSOLE). -/
def notSole (f : Nat) (d : Dev) : Bool :=
  let st := ftState (ftGet f d)
  st == fOther || st == fReserved || (st == fMapped && !soleFrame f d)

/-- Whether the retired-frame list is full. -/
def listFull (d : Dev) : Bool := decide (256 ≤ d.aon.retCnt)

/-- A frame in which an uncorrectable error has been found goes to FAILING, and is requested (R446, R463); a frame that is FAILING
already goes nowhere (log 143). -/
def frameFails (f : Nat) (d0 : Dev) : Dev :=
  let st := ftState (ftGet f d0)
  if st = fFailing then d0
  else
    let d := if st = fFree then poolMove (-1) d0 else d0
    retSend f true (notSole f d0) false (listFull d0) (ftSet f fFailing (ftPte (ftGet f d0)) d)

/-- An uncorrectable error found at an address: counted (R446). -/
def ueNote (pa : Nat) (d : Dev) : Dev := frameFails (pa / 4096) (eccLast pa true (inc MEM.UECNT d))

/-- A single error found at an address: corrected in the word, and counted, against its frame too (R446, R461). -/
def ceCount (pa : Nat) (d0 : Dev) : Dev :=
  let d := eccLast pa false (inc MEM.CECNT (unmarked (pa / 8) (pa / 8 + 1) d0))
  let e := ftGet (pa / 4096) d
  ftPut (pa / 4096) (ftMake (ftState e) (ftPte e) (min 255 (ftCe e + 1))) d

/-- What a copy finds in a word. -/
def copyNote (w : Nat) (d : Dev) : Dev := if tget d.mem.bad w false then ueNote (8 * w) d else ceCount (8 * w) d

/-- A free frame for a copy: none while the pool does not run. -/
def pickFree (n : Nat) (d : Dev) : Option Nat := if on MEM.MEMSTAT.POOLRUN d then pickBlock n d else none

/-- Retirement by hardware (R462): copy, correcting, rewrite the leaf, list, record. A word the copy cannot correct makes the frame
FAILING, which is never copied (R464). -/
def hwRetire (f g : Nat) (d0 : Dev) : Dev :=
  let ws := marked (512 * f) 512 d0
  let d := forAll ws copyNote d0
  if ws.any (fun w => tget d0.mem.bad w false) then d
  else
    let pte := ftPte (ftGet f d)
    let leaf := ofLe (dramRead pte 8 d)
    let d := dramWrite (g * 4096) (dramRead (f * 4096) 4096 d) d
    let d := dramWrite pte (leBytes 8 (leaf - bits leaf 12 28 * 2 ^ 12 + g * 2 ^ 12)) d
    let d := ftSet g fMapped pte d
    let d := retAppend f (ftSet f fRetired 0 d)
    lichen MEMi 0x0501 (leBytes 4 f) (poolMove (-1) (inc MEM.HWRETCNT d))

/-- Retirement of a FREE frame: nothing is to be moved (R461, log 74). -/
def freeRetire (f : Nat) (d : Dev) : Dev :=
  let d := retAppend f (ftSet f fRetired 0 d)
  lichen MEMi 0x0501 (leBytes 4 f) (poolMove (-1) (inc MEM.HWRETCNT d))

/-- A frame has reached RETTHR (R461–R463): retired, or requested with every cause that holds (log 143). -/
def retire_ (f : Nat) (d : Dev) : Dev :=
  let full := listFull d
  if soleFrame f d then
    match pickFree 1 d with
    | none => retReq f false true full (drawn d)
    | some g => if full then retReq f false false true (drawn d) else hwRetire f g (drawn d)
  else if notSole f d then retReq f true false full d
  else if ftState (ftGet f d) = fFree then (if full then retReq f false false true d else freeRetire f d)
  else d

/-! ## ECC (R446, R447, R461) -/

/-- A corrected error: counted, and the frame retired at its threshold (R446, R461). -/
def ceNote (pa : Nat) (d0 : Dev) : Dev :=
  let d := ceCount pa d0
  let f := pa / 4096
  if on MEM.MEMCTL.RETEN d && decide (rd MEM.RETTHR d ≤ ftCe (ftGet f d)) then retire_ f d else d

/-- What a read finds in a word. -/
def wordNote (w : Nat) (d : Dev) : Dev := if tget d.mem.bad w false then ueNote (8 * w) d else ceNote (8 * w) d

/-- Where an address lies after an access to it has made hardware move its frame (R462). -/
def movedTo (pa : Nat) (d0 d : Dev) : Nat :=
  let e := ftGet (pa / 4096) d0
  if marked (pa / 4096 * 512) 512 d0 = [] then pa
  else if ftState e = fMapped ∧ ftState (ftGet (pa / 4096) d) = fRetired then
    bits (ofLe (dramRead (ftPte e) 8 d)) 12 28 * 4096 + pa % 4096
  else pa

/-- A read of DRAM, with what ECC finds in its first word and in the words that have gone bad before: none where an error is
uncorrectable (R446). -/
def eccRead (pa n : Nat) (e : Ecc) (d0 : Dev) : Option (List Nat) × Dev :=
  let d := struck (pa / 8) e d0
  let ws := marked (pa / 8) (wordsOver pa n) d
  (if ws.any (fun w => tget d.mem.bad w false) then none else some (dramRead pa n d), forAll ws wordNote d)

/-- What a store to DRAM does before it: where it covers a part of a word only, the word is read first, with what ECC finds there
(R447). Where the bytes go, or none where the store is not performed. -/
def eccOpen (pa n : Nat) (e : Ecc) (d0 : Dev) : Option Nat × Dev :=
  if pa % 8 = 0 ∧ n % 8 = 0 then (some pa, d0)
  else match eccRead (pa / 8 * 8) 8 e d0 with
    | (none, d) => (none, d)
    | (some _, d) => (some (movedTo pa (struck (pa / 8) e d0) d), d)

/-- A store to DRAM: whole words, or a part of one (R447). False where it is not performed. -/
def eccWrite (pa : Nat) (l : List Nat) (e : Ecc) (d : Dev) : Bool × Dev :=
  match eccOpen pa l.length e d with
  | (none, d) => (false, d)
  | (some a, d) => (true, dramWrite a l d)

/-- Bytes stored from an address up by an island that does not translate: the part of a word at either end read first, whole
words between (R447). A part that holds an uncorrectable error is not stored. -/
def spanWrite (a : Nat) (l : List Nat) (d0 : Dev) : Dev :=
  let h := min l.length ((8 - a % 8) % 8)
  let t := (l.length - h) % 8
  let m := l.length - h - t
  let put (a : Nat) (l : List Nat) (d : Dev) : Dev := if l = [] then d else (eccWrite (movedTo a d0 d) l .clean d).2
  put (a + h + m) (l.drop (h + m)) (put (a + h) ((l.drop h).take m) (put a (l.take h) d0))

/-- What a read of n bytes finds, of a requester that goes on all the same (R446). -/
def eccLook (a n : Nat) (d : Dev) : Dev := forAll (marked (a / 8) (wordsOver a n) d) wordNote d

/-- n bytes as such a requester sees them. -/
def dramView (a n : Nat) (d : Dev) : List Nat := (List.range n).map (fun i => dramSeen (a + i) d)

/-! ## Page tables (R449–R452, R457–R459) -/

/-- The kinds of an access (R451). -/
inductive Acc where
  | load | store | fetch | atomic
  deriving DecidableEq, Repr

/-- Why an access does not reach memory; wait: it must wait for the sweep's end (R455). -/
inductive TFault where
  | trans | perm | bus | noFrame | ecc (pa : Nat) | wait
  deriving DecidableEq, Repr

/-- A leaf a walk has found: its level, its address and its content. -/
structure Leaf where
  level : Nat
  at_   : Nat
  pte   : Nat
  deriving DecidableEq, Repr

/-- The size of a leaf's block in frames. -/
def leafFrames (level : Nat) : Nat := if level = 1 then 262144 else if level = 2 then 512 else 1

/-- Whether an entry is a well-formed leaf at a level (R449, R450). -/
def leafOk (level pte : Nat) : Bool :=
  decide (1 ≤ level) && decide (bits pte 6 2 ≠ 3) &&
  (decide (bits pte 1 2 = 2) || decide (bits pte 12 28 % leafFrames level = 0))

/-- The walk (R449), n levels left, counting as an access to each entry it reads (R446). -/
def walk : Nat → Nat → Nat → Dev → Except TFault Leaf × Dev
  | 0, _, _, d => (.error .trans, d)
  | n + 1, tbl, va, d =>
    let level := 3 - n
    let ea := tbl + 8 * bits va (39 - 9 * level) 9
    if dramSize ≤ ea then (.error .bus, d)
    else match eccRead ea 8 .clean d with
      | (none, d) => (.error (.ecc ea), d)
      | (some b, d1) =>
        let ea := movedTo ea d d1
        let d := d1
        let pte := ofLe b
        if !bit pte 0 || decide (bits pte 40 22 ≠ 0) then (.error .trans, d)
        else if bits pte 1 2 = 0 then
          if n = 0 then (.error .trans, d) else walk n (bits pte 12 28 * 4096) va d
        else if bits pte 1 2 = 3 || !leafOk level pte then (.error .trans, d)
        else (.ok ⟨level, ea, pte⟩, d)

/-- The leaf of a virtual address. -/
def leafOf (root va : Nat) (d : Dev) : Except TFault Leaf × Dev :=
  if 2 ^ 48 ≤ va then (.error .trans, d) else walk 4 (bits root 12 28 * 4096) va d

/-- Whether a leaf allows an access at a level (R451). -/
def leafAllows (acc : Acc) (lvl : Level) (pte : Nat) : Bool :=
  decide (bits pte 6 2 ≤ lvl.num) && match acc with
    | .load => bit pte 3
    | .store => bit pte 4
    | .fetch => bit pte 5
    | .atomic => bit pte 3 && bit pte 4

/-- A leaf's entry rewritten. -/
def pteWrite (a v : Nat) (d : Dev) : Dev := dramWrite a (leBytes 8 v) d

/-- A touch (R457–R459): a zeroed block, its frames MAPPED, the leaf completed. The leaf's new entry, or why not. -/
def touch (lf : Leaf) (d : Dev) : Except TFault Nat × Dev :=
  if on MEM.MEMSTAT.SWEEP d then (.error .wait, d)
  else
    let n := leafFrames lf.level
    match pickFree n d with
    | none => (.error .noFrame, inc MEM.NOFRMCNT (drawn d))
    | some f =>
      let d := drawn d
      let d := forAll (List.range n) (fun i => ftSet (f + i) fMapped lf.at_) d
      let d := unmarked (f * 512) ((f + n) * 512) { d with mem := { d.mem with dram := tclear d.mem.dram (f * 4096) ((f + n) * 4096) } }
      let pte := lf.pte - bits lf.pte 12 28 * 2 ^ 12 - 2 * bits lf.pte 1 2 + 2 + f * 2 ^ 12
      (.ok pte, inc MEM.TOUCHCNT (poolMove (-(n : Int)) (pteWrite lf.at_ pte d)))

/-- A and D set in a leaf as hardware does, by compare-and-swap on what it holds now (R452). -/
def pteUse (a : Nat) (acc : Acc) (d : Dev) : Dev :=
  let pte := ofLe (dramRead a 8 d)
  let v := setBit pte 62 true
  let v := if acc = .store ∨ acc = .atomic then setBit v 63 true else v
  if v = pte then d else pteWrite a v d

/-- Where an access leads: the physical address, whether it is not cacheable, and the leaf it went through, if any. -/
structure Reached where
  pa   : Nat
  nc   : Bool
  leaf : Option Nat
  deriving DecidableEq, Repr

/-- The physical address of a virtual address for an access (R449–R452, R457). An atomic does not reach through a leaf that is not
cacheable (R392). -/
def reachPa (root : Nat) (lvl : Level) (acc : Acc) (va : Nat) (d : Dev) : Except TFault Reached × Dev :=
  match leafOf root va d with
  | (.error e, d) => (.error e, d)
  | (.ok lf, d) =>
    if !leafAllows acc lvl lf.pte then (.error .perm, d)
    else if acc = .atomic && bit lf.pte 11 then (.error .bus, d)
    else
      match (if bits lf.pte 1 2 = 2 then touch lf d else (.ok lf.pte, d)) with
      | (.error e, d) => (.error e, d)
      | (.ok pte, d) =>
        let pa := bits pte 12 28 * 4096 + va % (4096 * leafFrames lf.level)
        if dramSize ≤ pa ∧ !bit pte 11 then (.error .bus, d)
        else (.ok ⟨pa, bit pte 11, some lf.at_⟩, d)

/-- The leaf an access went through, as the access takes place (R452). -/
def used (r : Reached) (acc : Acc) (d : Dev) : Dev :=
  match r.leaf with
  | none => d
  | some a => pteUse a acc d

/-- Identity translation at M while PTROOT is 0 (R477). -/
def identity (va : Nat) : Except TFault Reached := if va < 2 ^ 40 then .ok ⟨va, false, none⟩ else .error .bus

/-! ## The pool's commands (R455, R456, R464) -/

/-- POOLEN written (R455). -/
def poolEn (v : Bool) (d : Dev) : Dev :=
  let was := on MEM.MEMCTL.POOLEN d
  let d := wrB MEM.MEMCTL.POOLEN v d
  if v && !was then wrB MEM.MEMSTAT.SWEEP true d
  else if v then d
  else wrB MEM.MEMSTAT.SWEEP false (wrB MEM.MEMSTAT.POOLRUN false d)

/-- The sweep (R455): CACHED frames FREE, listed frames RETIRED, free frames counted. -/
def sweepDone (d0 : Dev) : Dev :=
  if !on MEM.MEMSTAT.SWEEP d0 then d0
  else
    let d := forAll (List.range frames) (fun f d => if ftState (ftGet f d) = 1 then ftSet f fFree 0 d else d) d0
    let d := forAll (List.range d.aon.retCnt) (fun i d => ftSet (retList i d) fRetired 0 d) d
    let n := ((List.range frames).filter (fun f => ftState (ftGet f d) == fFree)).length
    poolSet n (wrB MEM.MEMSTAT.POOLRUN true (wrB MEM.MEMSTAT.SWEEP false d))

/-- POOLTAKE read (R456): the frame's number, or 0xFFFF_FFFF. -/
def poolTake (d0 : Dev) : Dev :=
  match pickBlock 1 d0 with
  | none => { drawn d0 with rdata := 0xFFFFFFFF }
  | some f =>
    let d := ftSet f fOther 0 (drawn d0)
    { poolMove (-1) d with rdata := BitVec.ofNat 64 f }

/-- POOLGIVE written (R456). -/
def poolGive (f : Nat) (d : Dev) : Dev :=
  let st := ftState (ftGet f d)
  if f < frames ∧ (st = fOther ∨ st = fMapped) then poolMove 1 (ftSet f fFree 0 d)
  else inc MEM.POOLERR d

/-- RETIRE written (R464); a number of no frame of DRAM does nothing (log 118). -/
def fwRetire (f : Nat) (d0 : Dev) : Dev :=
  if frames ≤ f then d0
  else
  let d := if ftState (ftGet f d0) = fFree then poolMove (-1) d0 else d0
  let d := ftSet f fRetired 0 d
  let d := { d with mem := { d.mem with req := tset d.mem.req f false false } }
  if 256 ≤ d.aon.retCnt then lichen MEMi 0x0502 (leBytes 4 f) (wrB MEM.MEMSTAT.RETFULL true d) else retAppend f d

/-- The list cleared by a write of 0 to RETCNT (R464). -/
def retClear (d : Dev) : Dev :=
  wrB MEM.MEMSTAT.RETFULL false
    { d with aon := { d.aon with retCnt := 0, ret := tclear d.aon.ret 0x5000 0x5400 } }

/-- TLBINV's high word written (R453). The model keeps no translations, so an invalidation only waits (log 20). -/
def tlbInv (d : Dev) : Dev :=
  if 8 ≤ d.mem.inval then wrB MEM.TLBSTAT.OVF true d else { d with mem := { d.mem with inval := d.mem.inval + 1 } }

/-! ## Accesses of islands (R472) -/

/-- An island's translation at S level (R472). A touch that meets the sweep waits for its end (R455): the model lets the sweep end
there (log 154). -/
def islTrans (root : Nat) (acc : Acc) (va : Nat) (d : Dev) : Except TFault Nat × Dev :=
  let go (d : Dev) : Except TFault Nat × Dev :=
    match reachPa root .s acc va d with
    | (.error e, d) => (.error e, d)
    | (.ok r, d) => (.ok r.pa, used r acc d)
  match go d with
  | (.error .wait, d) => go (sweepDone d)
  | r => r

/-- A range an island reaches at S level, page by page, in at most as many pages as the first number says; false where a
translation faults, an address is no DRAM, or a word read holds an uncorrectable error (R446, R472). -/
def islSpan (root : Nat) (acc : Acc) : Nat → Nat → Nat → Dev → Bool × Dev
  | 0, _, n, d => (n == 0, d)
  | f + 1, va, n, d =>
    if n = 0 then (true, d)
    else
      let k := min n (4096 - va % 4096)
      match islTrans root acc va d with
      | (.error _, d) => (false, d)
      | (.ok pa, d) =>
        if dramSize ≤ pa then (false, d)
        else if acc = .store then islSpan root acc f (va + k) (n - k) d
        else match eccRead pa k .clean d with
          | (none, d) => (false, d)
          | (some _, d) => islSpan root acc f (va + k) (n - k) d

/-- A byte at an address an island has reached. -/
def islGet (root va : Nat) (d : Dev) : Nat :=
  match (islTrans root .load va d).1 with
  | .ok pa => dramGet pa d
  | .error _ => 0

/-- n bytes at an address an island has reached. -/
def islRead (root va n : Nat) (d : Dev) : List Nat := (List.range n).map (fun i => islGet root (va + i) d)

/-- Bytes stored word by word; false where a word's part meets an uncorrectable error (R447). -/
def islStore (root : Nat) : Nat → Nat → List Nat → Dev → Bool × Dev
  | 0, _, _, d => (true, d)
  | f + 1, va, l, d =>
    if l.isEmpty then (true, d)
    else
      let k := 8 - va % 8
      match islTrans root .store va d with
      | (.error _, d) => (false, d)
      | (.ok pa, d) => match eccWrite pa (l.take k) .clean d with
        | (false, d) => (false, d)
        | (true, d) => islStore root f (va + k) (l.drop k) d

/-- Bytes an island stores; false where an access faults, and then none of a range that cannot be reached is stored. -/
def islWrite (root va : Nat) (l : List Nat) (d : Dev) : Bool × Dev :=
  match islSpan root .store (l.length / 4096 + 2) va l.length d with
  | (false, d) => (false, d)
  | (true, d) => islStore root (l.length / 8 + 2) va l d

/-! ## The scrubber (R465) -/

/-- The raw counts from word to word: a pass over 2^30 words in SCRUBPER hours (R465). -/
def scrubGap (d : Dev) : Nat := rd MEM.SCRUBPER d * 3600 * 26000000 / 2 ^ 30

/-- The word the scrubber reads next, with what ECC finds; not before it is due. -/
def scrub (e : Ecc) (d00 : Dev) : Dev :=
  if !on MEM.MEMCTL.SCRUBEN d00 || decide (d00.raw < d00.mem.scrubAt + scrubGap d00) then d00
  else
    let d0 := { d00 with mem := { d00.mem with scrubAt := d00.raw } }
    let w := d0.mem.scrub
    let f := w / 512
    let skip := ftState (ftGet f d0) == fRetired
    let n := if skip then (f + 1) * 512 else w + 1
    let wrap := decide (frames * 512 ≤ n)
    let d := if skip then d0
      else match eccRead (8 * w) 8 e d0 with
        | (none, d) => lichen MEMi 0x0503 (leBytes 8 (8 * w)) d
        | (some _, d) => d
    let n := if wrap then 0 else n
    let d := { d with mem := { d.mem with scrub := n } }
    let d := wr MEM.SCRUBPOS (n / 512) d
    if wrap then inc MEM.SCRUBPASS d else d

/-! ## DMA (R466–R471) -/

def chIdle : Nat := 0
def chRun : Nat := 1
def chParked : Nat := 2
def chDone : Nat := 3
def chAborted : Nat := 4
def chError : Nat := 5

def chanOf_ (c : Nat) (d : Dev) : Chan := tget d.mem.chan c {}
def chanSet (c : Nat) (v : Chan) (d : Dev) : Dev := { d with mem := { d.mem with chan := tset d.mem.chan c v {} } }

/-- Whether a channel's registers can be written (R466). -/
def chOpen (c : Nat) (d : Dev) : Bool :=
  let s := rd (MEM.CHSTAT.STATE c) d
  s == chIdle || s == chDone || s == chAborted

/-- A level as a field spells it. -/
def lvlOf (n : Nat) : Level := if n = 0 then .u else if n = 1 then .s else .m

/-- CHCTL written (R466): EN set starts the channel at LEVEL, which may not lie above the writer's; the reserved value leaves the
field as it is, and EN takes effect (R6). -/
def chCtl (c : Nat) (en : Bool) (level : Nat) (wl : Level) (d : Dev) : Dev :=
  let level := if 3 ≤ level then rd (MEM.CHCTL.LEVEL c) d else level
  if !chOpen c d || decide (wl.num < level) then d
  else
    let d := wr (MEM.CHCTL.LEVEL c) level (wrB (MEM.CHCTL.EN c) en d)
    if !en then d
    else
      let d := wr (MEM.CHCUR c) (rd (MEM.CHDESC c) d) (wr (MEM.CHDONE c) 0 d)
      chanSet c {} (wr (MEM.CHSTAT.STATE c) chRun d)

/-- Sectors of the eMMC. -/
def sectors : Nat := 33554432

/-- A byte of the eMMC as DMA reads it. -/
def sectorByte (a : Nat) (d : Dev) : Nat := (tget d.keep.emmc a 0).toNat

/-- A whole sector written to the eMMC. -/
def sectorWrite (s : Nat) (l : List Nat) (d : Dev) : Dev :=
  { d with keep := { d.keep with emmc := (l.zipIdx).foldl (fun t e => tset t (512 * s + e.2) (BitVec.ofNat 8 e.1) 0) d.keep.emmc } }

/-- The eMMC host no longer serves a channel (R448, R471). -/
def hostOff (c : Nat) (d : Dev) : Dev := if d.mem.host = some c then { d with mem := { d.mem with host := none } } else d

/-- A chain ends in a state. -/
def chEnd (c st : Nat) (d : Dev) : Dev := hostOff c (chanSet c {} (wr (MEM.CHSTAT.STATE c) st d))

/-- A descriptor's end (R467): its event, then NEXT or DONE. -/
def descEnd (c : Nat) (x : Desc) (evt : Bool) (d : Dev) : Dev :=
  let d := if evt && x.evt then token 2 MEMi x.evn 0 d else d
  if x.last then chEnd c chDone d
  else hostOff c (chanSet c {} (wr (MEM.CHCUR c) x.next (wr (MEM.CHDONE c) 0 (wr (MEM.CHSTAT.STATE c) chRun d))))

/-- RESUME (R470): from the faulting byte; a sector being written is sent again whole (R471). -/
def chResume (c : Nat) (d : Dev) : Dev :=
  if rd (MEM.CHSTAT.STATE c) d = chParked then wr (MEM.CHSTAT.STATE c) chRun d else d

/-- SKIP (R470): the current descriptor ends. Where its fetch is what faulted, there is no NEXT to follow: the channel goes on, to
fetch it afresh first (log 76). -/
def chSkip (c : Nat) (d : Dev) : Dev :=
  if rd (MEM.CHSTAT.STATE c) d ≠ chParked then d
  else match (chanOf_ c d).desc with
    | some x => descEnd c x false d
    | none => chanSet c { chanOf_ c d with skip := true } (wr (MEM.CHSTAT.STATE c) chRun d)

/-- ABORT (R470): a running channel stops with the turns it has had. -/
def chAbort (c : Nat) (d : Dev) : Dev :=
  let s := rd (MEM.CHSTAT.STATE c) d
  if s = chParked ∨ s = chRun then chEnd c chAborted d else d

end Sys2Proof.Machine
end

