-- ==== Sys2Proof/Machine/Crypto.lean ====
section
/-! DEFINITION. Machine/Crypto.lean: the published standards the spec names: CRCs (R100, R181, R279, R482, R536), AES and
its modes (R101, R124, R285, R516, Table 16-5), SHA-256, HMAC, the key derivation of R513, and ECDSA P-256 verification
(R484, R528). Byte strings are lists of numbers below 256. -/

namespace Sys2Proof.Machine

/-! ## Bytes -/

/-- A number as n bytes, most significant first. -/
def natBe : Nat → Nat → List Nat
  | 0, _ => []
  | n + 1, v => v / 256 ^ n % 256 :: natBe n v

/-- The number a string of bytes spells, most significant first. -/
def beNat (l : List Nat) : Nat := l.foldl (fun a b => a * 256 + b % 256) 0

/-- Bitwise XOR of two strings, as long as the shorter. -/
def xorBytes (a b : List Nat) : List Nat := List.zipWith (fun x y => x ^^^ y) a b

/-- A string cut into blocks of n bytes, the last possibly shorter; the first argument bounds their number. -/
def blocksAux (n : Nat) : Nat → List Nat → List (List Nat)
  | 0, _ => []
  | f + 1, l => if l = [] then [] else l.take n :: blocksAux n f (l.drop n)

def blocks (n : Nat) (l : List Nat) : List (List Nat) := blocksAux n l.length l

/-- A string brought to a multiple of n bytes with zeros. -/
def zeroPad (n : Nat) (l : List Nat) : List Nat := l ++ List.replicate ((n - l.length % n) % n) 0

/-! ## CRCs -/

/-- One byte into a CRC register of w bits, most significant bit first. -/
def crcByte (w poly : Nat) (r b : Nat) : Nat :=
  (List.range 8).foldl (fun r _ => if r.testBit (w - 1) then (r * 2 % 2 ^ w) ^^^ poly else r * 2 % 2 ^ w)
    (r ^^^ (b % 256) * 2 ^ (w - 8))

/-- The eight bits of a byte in reverse order. -/
def revByte (b : Nat) : Nat := (List.range 8).foldl (fun a i => a * 2 + (b / 2 ^ i) % 2) 0

/-- The bits of a w-bit number in reverse order. -/
def revBits (w n : Nat) : Nat := (List.range w).foldl (fun a i => a * 2 + (n / 2 ^ i) % 2) 0

/-- CRC-32 with the IEEE 802.3 polynomial, initial value all ones and final inversion (R279). -/
def crc32 (l : List Nat) : Nat :=
  revBits 32 (l.foldl (fun r b => crcByte 32 0x04C11DB7 r (revByte b)) 0xFFFFFFFF) ^^^ 0xFFFFFFFF

/-- CRC-16 of R536: polynomial 0x1021, initial value 0xFFFF, no reflection, no final inversion. -/
def crc16 (l : List Nat) : Nat := l.foldl (fun r b => crcByte 16 0x1021 r b) 0xFFFF

/-- A 24-bit CRC by polynomial and initial value, each byte most significant bit first (CRC-24Q of R181). -/
def crc24 (poly init : Nat) (l : List Nat) : Nat := l.foldl (fun r b => crcByte 24 poly r b) init

/-! ## AES (FIPS 197) -/

/-- Multiplication by x in GF(2^8). -/
def xtime (a : Nat) : Nat := if 128 ≤ a then (a * 2 % 256) ^^^ 0x1B else a * 2

/-- Multiplication in GF(2^8). -/
def gmul (a b : Nat) : Nat :=
  ((List.range 8).foldl (fun (p : Nat × Nat) i => (if b.testBit i then p.1 ^^^ p.2 else p.1, xtime p.2)) (0, a)).1

/-- The inverse in GF(2^8), 0 for 0: a^254. -/
def ginv (a : Nat) : Nat :=
  let a2 := gmul a a; let a4 := gmul a2 a2; let a8 := gmul a4 a4
  let a16 := gmul a8 a8; let a32 := gmul a16 a16; let a64 := gmul a32 a32; let a128 := gmul a64 a64
  gmul a128 (gmul a64 (gmul a32 (gmul a16 (gmul a8 (gmul a4 a2)))))

/-- The S-box: the inverse, then the affine map. -/
def sbox (a : Nat) : Nat :=
  let b := ginv a
  let rot (k : Nat) : Nat := (b * 2 ^ k) % 256 + b / 2 ^ (8 - k)
  b ^^^ rot 1 ^^^ rot 2 ^^^ rot 3 ^^^ rot 4 ^^^ 0x63

/-- The key schedule: words as lists of four bytes, newest first; nk is 4 or 8, n counts the words still to make. -/
def keyExpand (nk : Nat) : Nat → Nat → Nat → List (List Nat) → List (List Nat)
  | 0, _, _, ws => ws
  | n + 1, i, rc, ws =>
    let t := ws.getD 0 []
    let (t, rc) :=
      if i % nk = 0 then (xorBytes ((t.drop 1 ++ t.take 1).map sbox) [rc, 0, 0, 0], xtime rc)
      else if nk = 8 ∧ i % nk = 4 then (t.map sbox, rc)
      else (t, rc)
    keyExpand nk n (i + 1) rc (xorBytes (ws.getD (nk - 1) []) t :: ws)

/-- The round keys of a 16- or 32-byte key, 16 bytes each. -/
def roundKeys (key : List Nat) : List (List Nat) :=
  let nk := key.length / 4
  let nr := nk + 6
  let ws := (keyExpand nk (4 * (nr + 1) - nk) nk 1 (blocks 4 key).reverse).reverse
  (List.range (nr + 1)).map (fun r => (ws.drop (4 * r)).take 4 |>.flatten)

/-- ShiftRows on 16 bytes in column order. -/
def shiftRows (s : List Nat) : List Nat :=
  (List.range 16).map (fun k => s.getD (4 * ((k / 4 + k % 4) % 4) + k % 4) 0)

/-- MixColumns on 16 bytes in column order. -/
def mixColumns (s : List Nat) : List Nat :=
  (List.range 16).map (fun k =>
    let c := k / 4 * 4
    let b (r : Nat) : Nat := s.getD (c + (k % 4 + r) % 4) 0
    xtime (b 0) ^^^ (xtime (b 1) ^^^ b 1) ^^^ b 2 ^^^ b 3)

/-- AES encryption of one block, with a 16- or 32-byte key. -/
def aes (key blk : List Nat) : List Nat :=
  match roundKeys key with
  | [] => blk
  | k0 :: ks =>
    let mid := ks.dropLast.foldl (fun s k => xorBytes (mixColumns (shiftRows (s.map sbox))) k) (xorBytes blk k0)
    xorBytes (shiftRows (mid.map sbox)) (ks.getLastD [])

/-! ## Modes -/

/-- A 16-byte string doubled in the field of CMAC (NIST SP 800-38B). -/
def dbl (b : List Nat) : List Nat :=
  let v := beNat b * 2
  natBe 16 (if v < 2 ^ 128 then v else (v % 2 ^ 128) ^^^ 0x87)

/-- AES-CMAC (NIST SP 800-38B). -/
def cmac (key msg : List Nat) : List Nat :=
  let k1 := dbl (aes key (List.replicate 16 0))
  let n := max 1 ((msg.length + 15) / 16)
  let head := msg.take (16 * (n - 1))
  let last := msg.drop (16 * (n - 1))
  let fin := if last.length = 16 then xorBytes last k1
             else xorBytes (last ++ 0x80 :: List.replicate (15 - last.length) 0) (dbl k1)
  aes key (xorBytes fin ((blocks 16 head).foldl (fun x b => aes key (xorBytes x b)) (List.replicate 16 0)))

/-- CBC-MAC over whole blocks, as CCM uses it. -/
def cbcMac (key msg : List Nat) : List Nat :=
  (blocks 16 msg).foldl (fun x b => aes key (xorBytes x b)) (List.replicate 16 0)

/-- CTR keystream applied from a counter block, the last `w` bytes counting. -/
def ctrXor (key ctr0 data : List Nat) (w : Nat) : List Nat :=
  let pre := ctr0.take (16 - w)
  let c := beNat (ctr0.drop (16 - w))
  ((blocks 16 data).zipIdx.map (fun e => xorBytes e.1 (aes key (pre ++ natBe w ((c + e.2) % 256 ^ w))))).flatten

/-- The CCM tag and the counter blocks (NIST SP 800-38C): tag length t, length field q = 15 − the nonce's length. -/
def ccmTag (key nonce aad msg : List Nat) (t : Nat) : List Nat :=
  let q := 15 - nonce.length
  let b0 := (if aad = [] then 0 else 64) + (t - 2) / 2 * 8 + (q - 1)
  let aadF := if aad = [] then []
    else zeroPad 16 ((if aad.length < 0xFF00 then natBe 2 aad.length else if aad.length < 2 ^ 32 then [0xFF, 0xFE] ++ natBe 4 aad.length
      else [0xFF, 0xFF] ++ natBe 8 aad.length) ++ aad)
  let m := cbcMac key ([b0] ++ nonce ++ natBe q msg.length ++ aadF ++ zeroPad 16 msg)
  xorBytes (m.take t) (aes key ([q - 1] ++ nonce ++ natBe q 0))

/-- CCM's keystream over the text. -/
def ccmCrypt (key nonce text : List Nat) : List Nat :=
  let q := 15 - nonce.length
  ctrXor key ([q - 1] ++ nonce ++ natBe q 1) text q

/-- Multiplication in the field of GHASH (NIST SP 800-38D), on 128-bit numbers with bit 0 of the string highest. -/
def ghMul (x y : Nat) : Nat :=
  ((List.range 128).foldl (fun (p : Nat × Nat) i =>
    (if x.testBit (127 - i) then p.1 ^^^ p.2 else p.1, if p.2 % 2 = 1 then p.2 / 2 ^^^ 0xE1 * 2 ^ 120 else p.2 / 2)) (0, y)).1

/-- GHASH over whole blocks. -/
def ghash (h : Nat) (l : List Nat) : Nat := (blocks 16 l).foldl (fun x b => ghMul (x ^^^ beNat b) h) 0

/-- GCM's pre-counter block (NIST SP 800-38D), from an IV of 12 bytes or of another length. -/
def gcmJ0 (key iv : List Nat) : List Nat :=
  if iv.length = 12 then iv ++ [0, 0, 0, 1]
  else
    let h := beNat (aes key (List.replicate 16 0))
    natBe 16 (ghash h (zeroPad 16 iv ++ natBe 8 0 ++ natBe 8 (8 * iv.length)))

/-- The GCM tag over associated data and ciphertext, 16 bytes. GMAC is the tag with no ciphertext. -/
def gcmTag (key iv aad ct : List Nat) : List Nat :=
  let h := beNat (aes key (List.replicate 16 0))
  let s := ghash h (zeroPad 16 aad ++ zeroPad 16 ct ++ natBe 8 (8 * aad.length) ++ natBe 8 (8 * ct.length))
  xorBytes (natBe 16 s) (aes key (gcmJ0 key iv))

/-- GCM's keystream over the text. -/
def gcmCrypt (key iv text : List Nat) : List Nat :=
  let j := gcmJ0 key iv
  ctrXor key (j.take 12 ++ natBe 4 ((beNat (j.drop 12) + 1) % 2 ^ 32)) text 4

/-! ## SHA-256 and HMAC (FIPS 180-4, FIPS 198-1)

A word is 32 bits. The hash state is one 256-bit number, its words a to h from the top, and the running window of the message
schedule is one 512-bit number, its oldest word on top: a round pushes one word into each. -/

/-- Word i of a number, counted from its lowest 32 bits. -/
def word32 (n i : Nat) : Nat := n / 2 ^ (32 * i) % 2 ^ 32

/-- The round constants, eight to a number, each number's first constant on top. -/
def roundConsts : List Nat :=
  [0x428A2F9871374491B5C0FBCFE9B5DBA53956C25B59F111F1923F82A4AB1C5ED5,
   0xD807AA9812835B01243185BE550C7DC372BE5D7480DEB1FE9BDC06A7C19BF174,
   0xE49B69C1EFBE47860FC19DC6240CA1CC2DE92C6F4A7484AA5CB0A9DC76F988DA,
   0x983E5152A831C66DB00327C8BF597FC7C6E00BF3D5A7914706CA635114292967,
   0x27B70A852E1B21384D2C6DFC53380D13650A7354766A0ABB81C2C92E92722C85,
   0xA2BFE8A1A81A664BC24B8B70C76C51A3D192E819D6990624F40E3585106AA070,
   0x19A4C1161E376C082748774C34B0BCB5391C0CB34ED8AA4A5B9CCA4F682E6FF3,
   0x748F82EE78A5636F84C878148CC7020890BEFFFAA4506CEBBEF9A3F7C67178F2]

/-- A rotation right, as the two halves of a doubled word. -/
def ror32 (x n : Nat) : Nat := (x * (2 ^ 32 + 1)) / 2 ^ n % 2 ^ 32

/-- The XOR of three rotations of a word. -/
def mix3 (x i j k : Nat) : Nat := ror32 x i ^^^ ror32 x j ^^^ ror32 x k

/-- The word that enters the schedule's window after its sixteen. -/
def nextWord (win : Nat) : Nat :=
  let old := word32 win 14; let new := word32 win 1
  (word32 win 15 + word32 win 6 + (ror32 old 7 ^^^ ror32 old 18 ^^^ old >>> 3) + (ror32 new 17 ^^^ ror32 new 19 ^^^ new >>> 10)) % 2 ^ 32

/-- One round: constant k, the window's oldest word, and the state with its top word dropped, a new one on top and a new fifth. -/
def hashRound (st win k : Nat) : Nat :=
  let top := word32 st 7; let mid := word32 st 3
  let choice := (mid &&& word32 st 2) ||| ((2 ^ 32 - 1 - mid) &&& word32 st 1)
  let major := (top &&& (word32 st 6 ||| word32 st 5)) ||| (word32 st 6 &&& word32 st 5)
  let add := word32 st 0 + mix3 mid 6 11 25 + choice + k + word32 win 15
  let down := st / 2 ^ 32
  (add + mix3 top 2 13 22 + major) % 2 ^ 32 * 2 ^ 224 + (down / 2 ^ 128 % 2 ^ 96) * 2 ^ 128 +
    ((word32 st 4 + add) % 2 ^ 32) * 2 ^ 96 + down % 2 ^ 96

/-- Eight rounds by one number of constants. -/
def eightRounds (sw : Nat × Nat) (ks : Nat) : Nat × Nat :=
  (List.range 8).foldl (fun sw i =>
    (hashRound sw.1 sw.2 (word32 ks (7 - i)), sw.2 % 2 ^ 480 * 2 ^ 32 + nextWord sw.2)) sw

/-- One 512-bit block into the state: the rounds, then the addition word by word. -/
def hashBlock (st blk : Nat) : Nat :=
  let fin := (roundConsts.foldl eightRounds (st, blk)).1
  (List.range 8).foldl (fun a i => a + (word32 st i + word32 fin i) % 2 ^ 32 * 2 ^ (32 * i)) 0

/-- SHA-256: the message, a one bit, zeros and its length in bits, block by block from the initial state. -/
def sha256 (msg : List Nat) : List Nat :=
  let n := msg.length
  let padded := msg ++ 0x80 :: List.replicate ((119 - n % 64) % 64) 0 ++ natBe 8 (8 * n)
  natBe 32 ((blocks 64 padded).foldl (fun st b => hashBlock st (beNat b))
    0x6A09E667BB67AE853C6EF372A54FF53A510E527F9B05688C1F83D9AB5BE0CD19)

/-- HMAC-SHA-256. -/
def hmac (key msg : List Nat) : List Nat :=
  let k0 := (if 64 < key.length then sha256 key else key)
  let k := k0 ++ List.replicate (64 - k0.length) 0
  sha256 (k.map (· ^^^ 0x5C) ++ sha256 (k.map (· ^^^ 0x36) ++ msg))

/-- A derived key (R513): the first L/8 bytes of HMAC-SHA-256(parent, 0x00000001 ‖ label ‖ 0x00 ‖ L). -/
def frond (parent label : List Nat) (l : Nat) : List Nat :=
  (hmac parent ([0, 0, 0, 1] ++ label ++ [0] ++ natBe 4 l)).take (l / 8)

/-- A label (R514): a four-byte tag, the parameters, zeros to 32 bytes. -/
def label (tag params : List Nat) : List Nat := (tag ++ params ++ List.replicate 32 0).take 32

/-! ## ECDSA P-256 verification (FIPS 186-4) -/

def p256P : Nat := 2 ^ 256 - 2 ^ 224 + 2 ^ 192 + 2 ^ 96 - 1
def p256N : Nat := 0xFFFFFFFF00000000FFFFFFFFFFFFFFFFBCE6FAADA7179E84F3B9CAC2FC632551
def p256B : Nat := 0x5AC635D8AA3A93E7B3EBBD55769886BC651D06B0CC53B0F63BCE3C3E27D2604B
def p256Gx : Nat := 0x6B17D1F2E12C4247F8BCE6E563A440F277037D812DEB33A0F4A13945D898C296
def p256Gy : Nat := 0x4FE342E2FE1A7F9B8EE7EB4A7C0F9E162BCE33576B315ECECBB6406837BF51F5

/-- Modular power by the bits of the exponent, lowest first. -/
def powMod (m : Nat) : Nat → Nat → Nat → Nat → Nat
  | 0, _, _, acc => acc
  | f + 1, b, e, acc => powMod m f (b * b % m) (e / 2) (if e % 2 = 1 then acc * b % m else acc)

/-- The inverse modulo a 256-bit prime. -/
def invMod (m a : Nat) : Nat := powMod m 256 (a % m) (m - 2) 1

/-- A point of the curve; none is the point at infinity. -/
abbrev Pt := Option (Nat × Nat)

/-- Point addition in affine coordinates. -/
def ptAdd (a b : Pt) : Pt :=
  match a, b with
  | none, q => q
  | q, none => q
  | some (x1, y1), some (x2, y2) =>
    let p := p256P
    let go (l : Nat) : Pt :=
      let x3 := (l * l + 2 * p - x1 - x2) % p
      some (x3, (l * (x1 + p - x3) + p - y1) % p)
    if x1 = x2 then
      if (y1 + y2) % p = 0 then none
      else go ((3 * x1 * x1 + p - 3) * invMod p (2 * y1) % p)
    else go ((y2 + p - y1) * invMod p (x2 + p - x1) % p)

/-- Scalar multiplication by the bits of the scalar, lowest first. -/
def ptMul : Nat → Nat → Pt → Pt → Pt
  | 0, _, _, acc => acc
  | f + 1, k, q, acc => if k = 0 then acc else ptMul f (k / 2) (ptAdd q q) (if k % 2 = 1 then ptAdd acc q else acc)

/-- Whether a public key (x then y) is a point of the curve. -/
def onCurve (x y : Nat) : Bool :=
  decide (x < p256P ∧ y < p256P ∧ y * y % p256P = (x * x * x + (p256P - 3) * x + p256B) % p256P)

/-- ECDSA P-256 verification of a digest: public key x then y, signature r then s, 64 bytes each. -/
def ecdsaOk (pub digest sig : List Nat) : Bool :=
  let x := beNat (pub.take 32); let y := beNat (pub.drop 32)
  let r := beNat (sig.take 32); let v := beNat (sig.drop 32)
  if !onCurve x y || decide (r = 0 ∨ p256N ≤ r ∨ v = 0 ∨ p256N ≤ v) then false
  else
    let w := invMod p256N v
    let u1 := beNat digest * w % p256N
    let u2 := r * w % p256N
    match ptAdd (ptMul 256 u1 (some (p256Gx, p256Gy)) none) (ptMul 256 u2 (some (x, y)) none) with
    | none => false
    | some (px, _) => px % p256N == r

end Sys2Proof.Machine
end

