-- ==== Sys2Proof/Machine/Shares.lean ====
section
/-! DEFINITION. Machine/Shares.lean: keys held as two shares, in SEC's slots and in the key tables of RAD and NET (Life cycle,
the frond tree and tamper: Key slots and engine key tables). -/

namespace Sys2Proof.Machine

/-- The storage rows of the 64 slots in an order that a list of numbers spells: each picks one of the rows left (R519). -/
def scramble : List Nat → List Nat → List Nat
  | [], left => left
  | x :: xs, left =>
    let r := left.getD (x % left.length) 0
    r :: scramble xs (left.erase r)

/-- The storage row of a slot (R519). -/
def rowOf (n : Nat) (d : Dev) : Nat := d.sec.rows.getD n n

/-- What a slot holds, from its row. -/
def slotAt (n : Nat) (d : Dev) : Option Slot := tget d.sec.slots (rowOf n d) none

/-- A slot's row filled or emptied. -/
def slotPut (n : Nat) (s : Option Slot) (d : Dev) : Dev :=
  { d with sec := { d.sec with slots := tset d.sec.slots (rowOf n d) s none } }

/-- The key a slot holds: the XOR of its shares (R519). -/
def slotKey (n : Nat) (d : Dev) : Option (List Nat) := (slotAt n d).map (fun s => xorBytes s.mask s.share)

/-- A key as two shares, the mask drawn afresh (R519). -/
def shareOf (k : List Nat) (usage depth : Nat) (d : Dev) : Slot × Dev :=
  let m := freeBytes k.length d
  (⟨m, xorBytes k m, usage, depth⟩, drawnN k.length d)

/-- The same key under a mask drawn afresh (R519). -/
def reshare (s : Slot) (d : Dev) : Slot × Dev := shareOf (xorBytes s.mask s.share) s.usage s.depth d

/-- A slot's shares redrawn: after a use, and every 1 ms (R519). -/
def redraw (n : Nat) (d : Dev) : Dev :=
  match slotAt n d with
  | none => d
  | some s =>
    let r := reshare s d
    slotPut n (some r.1) r.2

/-- The shares of an entry of RAD's table redrawn (R519, R521). -/
def redrawSess (c : Nat) (d : Dev) : Dev :=
  match tget d.rad.sess c none with
  | none => d
  | some s =>
    let r := reshare s d
    { r.2 with rad := { r.2.rad with sess := tset r.2.rad.sess c (some r.1) none } }

/-- The shares of an entry of NET's table redrawn (R519, R521). -/
def redrawRing (m : Nat) (d : Dev) : Dev :=
  match tget d.net.keys m none with
  | none => d
  | some s =>
    let r := reshare s d
    { r.2 with net := { r.2.net with keys := tset r.2.net.keys m (some r.1) none } }

/-- Every slot and every entry of the two tables under masks drawn afresh (R519, R521). -/
def redrawAll (d : Dev) : Dev :=
  let d := forAll (List.range 64) redraw d
  forAll (d.net.keys.map (·.1)) redrawRing (forAll (d.rad.sess.map (·.1)) redrawSess d)

end Sys2Proof.Machine
end

