-- ==== Sys2Proof/Machine/Net.lean ====
section
/-! DEFINITION. Machine/Net.lean: the drive ring: cycle frames, test frames, members, admission, moss forwarding and
ordinary traffic (Drive ring and the cyclic frame). -/

namespace Sys2Proof.Machine

/-! ## Ports and frames -/

/-- A port's link: 0 none, 1 100BASE-TX, 2 1000BASE-T (R16). -/
def linkOf (p : Nat) (d : Dev) : Nat := tget d.aon.link p 0

/-- The group addresses of ring frames, and the EtherType. -/
def daOut : Nat := 0x035759000001
def daRing : Nat := 0x035759000002
def etherRing : List Nat := [0x88, 0xB5]

/-- A ring frame of a sender, its FCS left to the port. Ring frames leave only a port linked at 1000BASE-T: one at 100BASE-TX
carries ordinary traffic only (R266). -/
def ringEmit (p da sa : Nat) (body : List Nat) (d : Dev) : Dev :=
  if linkOf p d = 2 then emit p (beBytes 6 da ++ beBytes 6 sa ++ etherRing ++ body) d else d

/-- A ring frame of the Gnodon's. -/
def ringSend (p da : Nat) (body : List Nat) (d : Dev) : Dev := ringEmit p da (Config.portMac p).toNat body d

/-- A group frame may cross between the ports: at most 1,000 in any second (R272). -/
def bcRoom (d : Dev) : Bool := decide ((d.net.bcTimes.filter (fun t => decide (d.raw < t + 26000000))).length < 1000)

/-- What crosses between the ports, a group frame within R272's limit. -/
def limited (grp : Bool) (go : Dev → Dev) (d : Dev) : Dev :=
  if !grp then go d
  else if !bcRoom d then inc NET.BCDROP d
  else go { d with net := { d.net with bcTimes := d.raw :: d.net.bcTimes.filter (fun t => decide (d.raw < t + 26000000)) } }

/-- A member's ring frame under moss forwarding: on to the other port (R288). R272's limit is one on ordinary frames. -/
def mossRing (p da sa : Nat) (body : List Nat) (d : Dev) : Dev :=
  if on NET.RINGSTAT.MOSS d then ringEmit (1 - p) da sa body d else d

/-- FLUSH out of both ports (R270, R271). -/
def sendFlush (d : Dev) : Dev :=
  let b := [0, 4] ++ beBytes 4 (rd NET.CYCCNT d)
  ringSend 1 daRing b (ringSend 0 daRing b d)

/-! ## Field layouts (R280, Tables 08-7 and 08-9) -/

/-- The byte widths of an output record's fields, by class and mode. -/
def outFields (cls mode : Nat) : List Nat :=
  if cls = 0 then (if mode = 2 then [1, 1, 4, 1, 1, 1, 1, 4, 2] else [1, 1, 8, 4, 2])
  else if cls = 1 then [1, 1, 8, 1, 1, 1, 1, 1, 1]
  else if cls = 2 then [1, 1, 2, 1, 1, 1, 1, 1, 1, 1, 1, 1, 1, 1, 1]
  else [1, 1, 4, 2, 2, 2, 2, 1, 1]

/-- The byte widths of an input record's fields, by class. -/
def inFields (cls : Nat) : List Nat :=
  if cls = 0 then [1, 1, 2, 8, 2, 2, 1, 1, 2, 4]
  else if cls = 3 then [1, 1, 2, 4, 2, 2, 2, 2, 1, 1, 2, 4]
  else [1, 1, 2, 2, 2, 2, 2, 2, 1, 1, 2, 4, 2]

/-- Each field's bytes the other way round. -/
def swapFields : List Nat → List Nat → List Nat
  | [], b => b
  | w :: r, b => (b.take w).reverse ++ swapFields r (b.drop w)

/-- A member's output record as NET holds it. -/
def outRec (m : Nat) (d : Dev) : List Nat := (List.range 4).flatMap (fun j => leBytes 4 (rd (NET.OUTREC m j) d))

/-- A member's output record written. -/
def setOutRec (m : Nat) (b : List Nat) (d : Dev) : Dev :=
  forAll (List.range 4) (fun j => wr (NET.OUTREC m j) (ofLe (sub b (4 * j) 4))) d

/-- A record with CTRL set to HOLD only. -/
def holdRec : List Nat := 0x40 :: List.replicate 15 0

/-! ## Who owns an output record (R309, R345) -/

/-- The axis context is bound to the member. -/
def axisBound (m a : Nat) (d : Dev) : Bool := on (CTL.AXCFG.BOUND a) d && rd (CTL.AXCFG.MEMBER a) d == m

/-- The axis is bound to the member and enabled. -/
def axisOn (m a : Nat) (d : Dev) : Bool := axisBound m a d && rd (CTL.AXSTAT.STATE a) d != 0

/-- CTL owns the member's output record (R345). -/
def ctlOwns (m : Nat) (d : Dev) : Bool :=
  bit (rd CTL.OUTOWN d) m || (List.range 48).any (fun a => axisOn m a d)

/-- The member receives HOLD-only records: EN 0 (R289), or CTL has faulted (R309, R355). -/
def heldOut (m : Nat) (d : Dev) : Bool :=
  !on (NET.MCFG.EN m) d ||
  (on CTL.HOLDALL d && (bit (rd CTL.OUTOWN d) m || (List.range 48).any (fun a => axisBound m a d)))

/-! ## Keys of authenticated mode (R285, R287) -/

/-- A key that does not apply yet to a SEQ: its key-from lies ahead, at most as far as NET chooses one (R287), beyond the frames
still on their way. -/
def RingNonce.later (n : RingNonce) (seq : Nat) : Bool :=
  let ahead := ofS 32 ((n.from_ : Int) - seq)
  decide (0 < ahead ∧ ahead ≤ 2 ^ 16 + 16)

/-- The session key that applies to a SEQ: the newest whose key-from is not after it. -/
def ringKey (m seq : Nat) (d : Dev) : Option (List Nat) :=
  match tget d.net.keys m none with
  | none => none
  | some sl =>
    match (tget d.net.nonces m []).find? (fun n => !n.later seq) with
    | none => none
    | some n => some (frond (xorBytes sl.mask sl.share) (label [0x52, 0x53, 0x45, 0x53] (n.nonce ++ beBytes 4 n.from_)) 128)

/-- A tag: the first 8 bytes of AES-GMAC with the IV of R285. Without a key the bytes are free. -/
def ringTag (m dir seq cyc : Nat) (msg : List Nat) (d : Dev) : List Nat :=
  match ringKey m seq d with
  | none => freeBytes 8 d
  | some k => (gcmTag k ([m, dir] ++ beBytes 4 seq ++ beBytes 4 cyc ++ [0, 0]) msg []).take 8

/-- A fresh nonce for a member, its key applying so many frames on. The keys of frames before that stay: those not yet reached, the
one in force, and the one before it. -/
def newRingNonce (m ahead : Nat) (d : Dev) : Dev :=
  let seq := rd NET.SEQ d
  let old := tget d.net.nonces m []
  let kept := old.takeWhile (fun n => n.later seq) ++ (old.dropWhile (fun n => n.later seq)).take 2
  let d1 := drawnN 8 d
  { d1 with net := { d1.net with nonces := tset d1.net.nonces m (⟨(seq + ahead) % 2 ^ 32, freeBytes 8 d⟩ :: kept) []
                                 nonceDue := d1.net.nonceDue.filter (· ≠ m) } }

/-! ## Times of a cycle (R268, R275, R276) -/

/-- Wire time of the output frame, ns. -/
def outWire (d : Dev) : Nat := (74 + rd NET.CYCCFG.NMEM d * (if on NET.NETCTL.AUTH d then 24 else 16)) * 8

/-- SIMIN (R275). -/
def siMin (d : Dev) : Nat := rd NET.RDLY d + outWire d + 2000

/-- INDL less SI (R276). -/
def inSpan (d : Dev) : Nat := rd NET.INSLOT0 d + rd NET.CYCCFG.NMEM d * rd NET.SLOTGAP d + rd NET.RDLY d + 3000

/-- CYCEN may be set (R273, R276). -/
def cycFits (d : Dev) : Bool :=
  !(decide (rd NET.CYCCFG.CYCT d = 0 ∧ 23 < rd NET.CYCCFG.NMEM d)) &&
  !(on NET.NETCTL.AUTH d && decide (61 < rd NET.CYCCFG.NMEM d)) &&
  decide (siMin d + inSpan d + 13000 ≤ cycNs d)

/-- SLOT(m) (R276). -/
def slotOf (m : Nat) (d : Dev) : Nat := rd NET.INSLOT0 d + (m - 1) * rd NET.SLOTGAP d

/-! ## The output frame (R274, R275, R285, Tables 08-4 and 08-7) -/

/-- The 32-byte header after the EtherType. -/
def outHeader (flags seq cyc cstart si rdly winend nrec : Nat) : List Nat :=
  [0, 1, 1, flags] ++ beBytes 4 seq ++ beBytes 4 cyc ++ beBytes 8 cstart ++ beBytes 4 si ++
    beBytes 2 (min 0xFFFF (rdly / 10)) ++ beBytes 2 (winend / 100) ++ [nrec, 0, 0, 0]

/-- SI of the cycle as ns after its start, and whether it is an estimate (R275). -/
def siOf (cstart : Nat) (d : Dev) : Nat × Bool :=
  match d.net.siNext with
  | none => (rd NET.SIDEF d, true)
  | some t =>
    let off := (t + 2 ^ 32 - cstart % 2 ^ 32) % 2 ^ 32
    if off < 2 ^ 31 ∧ siMin d ≤ off ∧ off + inSpan d + 13000 ≤ cycNs d then (off, false) else (rd NET.SIDEF d, true)

/-- A member's record as it goes on the wire. -/
def wireRec (m : Nat) (d : Dev) : List Nat :=
  if heldOut m d then holdRec
  else
    let r := outRec m d
    swapFields (outFields (rd (NET.MCFG.CLASS m) d) (bits (r.getD 0 0) 3 2)) r

/-- The output frame of a cycle sent, and its input phase opened. -/
def sendOutput (cstart : Nat) (d0 : Dev) : Dev :=
  let d := inc NET.SEQ d0
  let seq := rd NET.SEQ d
  let cyc := rd NET.CYCCNT d
  let auth := on NET.NETCTL.AUTH d
  let (off, est) := siOf cstart d
  let span := off + inSpan d
  let flags := b2n auth + 4 * b2n (rd NET.RINGSTAT.STATE d == 2) + 8 * b2n est + 16 * rd NET.CYCCFG.CYCT d
  let hdr := outHeader flags seq cyc cstart (cstart + off) (rd NET.RDLY d) span (rd NET.CYCCFG.NMEM d)
  let recs := (List.range (rd NET.CYCCFG.NMEM d)).flatMap (fun i =>
    let r := wireRec (i + 1) d
    if auth then r ++ ringTag (i + 1) 0 seq cyc (hdr ++ r) d else r)
  let body := hdr ++ recs
  let body := body ++ beBytes 4 (crc32 body)
  let d := whenB est (inc NET.SIBAD) (whenB auth (fun d => forAll ((List.range (rd NET.CYCCFG.NMEM d)).map (· + 1)) redrawRing (drawnN 8 d)) d)
  let d := ringSend 1 daOut body (ringSend 0 daOut body d)
  { d with net := { d.net with siNext := none, cstart := cstart, indl := cstart + span, isOpen := true,
                               seen := [], hist := ((seq, cyc) :: d.net.hist).take 16 } }

/-- The test frames of a cycle (R268, Table 08-3), and TESTDL. -/
def sendTests (d : Dev) : Dev :=
  let b := [0, 3] ++ beBytes 4 (rd NET.CYCCNT d)
  let d := wr NET.TESTDL (outWire d + 672 + rd NET.RDLY d + 5000) d
  ringSend 1 daRing (b ++ [1]) (ringSend 0 daRing (b ++ [0]) d)

/-- A cycle start (R268, R270, R273, R274, R278): the round trip of the last cycle's copy A is the new RDLY while CLOSED;
each cycle begins once, with its output frame if CYCEN is set and the test frames. -/
def ringCycle (rtt : Option Nat) (d0 : Dev) : Dev :=
  let t := cycNs d0
  let now := ofS 64 (cycle d0)
  let c := now / t
  let d0 := whenB d0.ctl.holdClr (fun d => wr CTL.HOLDALL 0 { d with ctl := { d.ctl with holdClr := false } }) d0
  if !on NET.NETCTL.RINGEN d0 ∨ d0.net.cycLast = some c then d0
  else
    let d := match rtt with
      | some r => if rd NET.RINGSTAT.STATE d0 = 1 then wr NET.RDLY r d0 else d0
      | none => d0
    let d := { d with net := { d.net with cycLast := some c } }
    let d := inc NET.CYCCNT d
    let d := if d.net.flush then sendFlush (wrB NET.RINGSTAT.PBLOCK false { d with net := { d.net with flush := false } }) else d
    sendTests (whenB (on NET.NETCTL.CYCEN d) (sendOutput (c * t)) d)

/-! ## Ring states (R269–R271) -/

/-- The ring becomes OPEN. -/
def ringOpen (d0 : Dev) : Dev :=
  let d := wrB NET.RINGSTAT.RDLYHOLD true (inc NET.BRKCNT (wrB NET.RINGSTAT.OPENEVT true (wr NET.RINGSTAT.STATE 2 d0)))
  lichen 6 0x0701 [0] (token 4 6 0xEA 2 { d with net := { d.net with flush := true } })

/-- The ring becomes CLOSED. -/
def ringClosed (d0 : Dev) : Dev :=
  let d := wrB NET.RINGSTAT.RDLYHOLD false (wrB NET.RINGSTAT.HEALEVT true (wr NET.RINGSTAT.STATE 1 d0))
  let d := sendFlush (wrB NET.RINGSTAT.PBLOCK true d)
  lichen 6 0x0702 [0] (token 4 6 0xEA 1 { d with net := { d.net with flush := false } })

/-- TESTDL: whether each port's test frame has passed (R268, R269, R271). -/
def testDeadline (aPass bPass : Bool) (d0 : Dev) : Dev :=
  if !on NET.NETCTL.RINGEN d0 then d0
  else
    let both := aPass && bPass
    let n := if both then 0 else d0.net.tmiss + 1
    let lost := d0.net.lostLink
    let d := whenB (!both) (inc NET.TESTMISS) { d0 with net := { d0.net with tmiss := n, lostLink := false } }
    let opens := lost || decide (2 ≤ n)
    if rd NET.RINGSTAT.STATE d = 1 ∧ opens = true ∧ both = false then ringOpen d
    else if rd NET.RINGSTAT.STATE d = 2 ∧ both = true ∧ opens = false then ringClosed d
    else d

/-- J4 or J5 changes its link (R16, R266, R269). -/
def linkChange (p l : Nat) (d0 : Dev) : Dev :=
  let had := linkOf p d0
  let at_ := if l = had then d0.aon.linkAt else some d0.raw
  let d := { d0 with aon := { d0.aon with link := tset d0.aon.link p l 0, linkAt := at_ } }
  whenB (isUp NETi d && l == 0 && had != 0) (fun d => { d with net := { d.net with lostLink := true } }) d

/-- The ring manager stopped, moss forwarding going on or not (Table 08-1, R288, R493). -/
def ringOff (moss : Bool) (d0 : Dev) : Dev :=
  let d := wrB NET.NETCTL.RINGEN false (wr NET.RINGSTAT.STATE 0 d0)
  let d := whenB moss (wrB NET.NETCTL.CYCEN false) d
  let d := wrB NET.RINGSTAT.RDLYHOLD false (wrB NET.RINGSTAT.MOSS moss (wrB NET.RINGSTAT.PBLOCK (!moss) d))
  { d with net := { d.net with isOpen := false, siNext := none, flush := false, tmiss := 0 } }


/-! ## Ordinary frames waiting for the protected window (R291) -/

/-- Whether a ring port may begin no ordinary frame now: cyclic traffic runs and CYCLE stands between 13 µs before a cycle
start and that cycle's INDL. -/
def inWindow (d : Dev) : Bool :=
  on NET.NETCTL.RINGEN d && on NET.NETCTL.CYCEN d && (d.net.isOpen || decide (cycNs d - 13000 ≤ cycPhase d))

/-- Frames the window held go out; those for port B are lost where it has been blocked since (R271). -/
def releaseWaiting (d : Dev) : Dev :=
  let go := if on NET.RINGSTAT.PBLOCK d then d.net.waiting.filter (fun x => x.port != 1) else d.net.waiting
  { d with sent := d.sent ++ go, net := { d.net with waiting := [] } }

/-- An ordinary frame sent on a port, or held for the window's end. -/
def ordSend (p : Nat) (b : List Nat) (d : Dev) : Dev :=
  if linkOf p d = 0 then d
  else if inWindow d then { d with net := { d.net with waiting := d.net.waiting ++ [⟨p, b⟩] } }
  else emit p b d

/-! ## Members (R282–R284, R289, R290) -/

/-- A member state told to CTL over SQ29 (R284). -/
def tellState (m st : Nat) (d : Dev) : Dev := hwPush 29 [BitVec.ofNat 64 (m + 2 ^ 8 + st * 2 ^ 16)] d

/-- The member is RUNNING. -/
def memberRuns (m : Nat) (d0 : Dev) : Dev :=
  let d := { d0 with net := { d0.net with miss := tset d0.net.miss m 0 0 } }
  if rd (NET.MSTAT.STATE m) d = 2 then d else tellState m 2 (wr (NET.MSTAT.STATE m) 2 d)

/-- The member numbers an enabled or any block has. -/
def members : List Nat := (List.range 63).map (· + 1)

def macOf (m : Nat) (d : Dev) : Nat := rd (NET.MMACLO m) d + rd (NET.MMACHI m) d * 2 ^ 32

/-- A frame from a MAC address: whoever has it has been heard (R290). -/
def hearMac (mac : Nat) (d : Dev) : Dev :=
  forAll members (fun m d =>
    if macOf m d = mac then { d with net := { d.net with heard := tset d.net.heard m d.raw 0 } } else d) d

/-- The input record accepted (R282, R284): as NET holds it, with the member's last STAT and BOOTCNT. -/
def acceptInput (m seq : Nat) (r : List Nat) (d0 : Dev) : Dev :=
  let b := swapFields (inFields (rd (NET.MCFG.CLASS m) d0)) r
  let d := forAll (List.range 6) (fun j => wr (NET.INREC m j) (ofLe (sub b (4 * j) 4))) d0
  let d := wr (NET.MSTAT.BOOTCNT m) (ofBe (sub r 2 2)) (wr (NET.MSTAT.STAT m) (r.getD 0 0) d)
  let d := { d with net := { d.net with seen := d.net.seen ++ [(m, seq)], miss := tset d.net.miss m 0 0 } }
  if rd (NET.MSTAT.STATE m) d = 3 then memberRuns m d else d

/-- An input frame (R276, R279, R282). -/
def inputFrame (p da src : Nat) (b : List Nat) (fcs : Bool) (d0 : Dev) : Dev :=
  if !on NET.NETCTL.RINGEN d0 then mossRing p da src b d0
  else
    let d := hearMac src d0
    let m := b.getD 3 0
    if !on NET.NETCTL.CYCEN d || decide (ofBe (sub b 0 2) ≠ 2 ∨ m = 0 ∨ rd NET.CYCCFG.NMEM d < m) then d
    else if !d.net.isOpen then inc NET.LATEIN d
    else
      let auth := on NET.NETCTL.AUTH d
      let n := if auth then 40 else 32
      let seq := ofBe (sub b 4 4)
      if !fcs ∨ b.length < n + 4 ∨ ofBe (sub b n 4) ≠ crc32 (b.take n) then inc (NET.MERR.CRC m) d
      else if b.getD 2 0 ≠ 1 ∨ d.net.seen.contains (m, seq) = true then d
      else if auth then
        match d.net.hist.find? (fun h => h.1 == seq), ringKey m seq d with
        | some h, some _ =>
          let ok := decide (ringTag m 1 seq h.2 (b.take 32) d = sub b 32 8)
          let d := redrawRing m d
          if ok then acceptInput m seq (sub b 8 24) d else inc (NET.MERR.TAG m) d
        | _, _ => inc (NET.MERR.TAG m) d
      else acceptInput m seq (sub b 8 24) d

/-- A member marked LOST (R284): told to CTL, recorded. -/
def ringLost (m : Nat) (d : Dev) : Dev :=
  lichen 6 0x0703 [m] (tellState m 3 (wrB (NET.MSTAT.LOSTEVT m) true (wr (NET.MSTAT.STATE m) 3 d)))

/-- INDL for one member (R276, R284): its record marked, its misses counted, the member LOST. -/
def indlMember (m : Nat) (d0 : Dev) : Dev :=
  let w6 := rd (NET.INREC m 6) d0
  if d0.net.seen.any (fun p => p.1 == m) then wr (NET.INREC m 6) 1 d0
  else
    let d := inc (NET.MMISS m) (wr (NET.INREC m 6) (min 255 (bits w6 8 8 + 1) * 256) d0)
    let n := tget d.net.miss m 0 + 1
    let d := { d with net := { d.net with miss := tset d.net.miss m n 0 } }
    if rd (NET.MSTAT.STATE m) d = 2 ∧ rd (NET.MCFG.ALLOW m) d + 1 ≤ n then ringLost m d else d

/-- A member's record as it is handed to CTL: a head word and the three doublewords of the record. -/
def handItems (m : Nat) (d : Dev) : List W64 :=
  let w6 := rd (NET.INREC m 6) d
  BitVec.ofNat 64 (m + b2n (bit w6 0) * 2 ^ 16 + bits w6 8 8 * 2 ^ 24 + rd NET.CYCCNT d * 2 ^ 32) ::
    (List.range 3).map (fun j => BitVec.ofNat 64 (rd (NET.INREC m (2 * j)) d + rd (NET.INREC m (2 * j + 1)) d * 2 ^ 32))

/-- The hand-off in packets of at most sixteen records. -/
def handPackets (ms : List Nat) (d : Dev) : Nat → Dev
  | 0 => d
  | n + 1 =>
    if ms = [] then d
    else handPackets (ms.drop 16) (hwPush 29 ((ms.take 16).flatMap (fun m => handItems m d)) d) n

/-- INDL (R276, R284, R291). -/
def inputDeadline (d0 : Dev) : Dev :=
  if !d0.net.isOpen then d0
  else
    let ms := members.filter (fun m => decide (m ≤ rd NET.CYCCFG.NMEM d0))
    let d := wr NET.INDLOFF (d0.net.indl - d0.net.cstart) { d0 with net := { d0.net with isOpen := false } }
    let d := forAll ms indlMember d
    let d := handPackets ms d 4
    let d := whenB (on NET.CYCEVT.TOK d) (fun d => token 4 6 (rd NET.CYCEVT.EVN d) 0 d) d
    releaseWaiting d

/-- ADDRESS sent to a member (Table 08-11): its newest nonce and key-from. -/
def sendAddress (m : Nat) (d0 : Dev) : Dev :=
  let n := (tget d0.net.nonces m []).headD ⟨0, List.replicate 8 0⟩
  let b := [0, 5, m, rd (NET.MCFG.CLASS m) d0, rd (NET.MCFG.ALLOW m) d0 + 1] ++ beBytes 4 (slotOf m d0) ++ n.nonce ++ beBytes 4 n.from_ ++ [0]
  let d := wr (NET.MSLOT m) (slotOf m d0) d0
  let d := if rd (NET.MSTAT.STATE m) d = 0 then wr (NET.MSTAT.STATE m) 1 d else d
  ringSend 1 (macOf m d) b (ringSend 0 (macOf m d) b d)

/-- A member's newest key does not apply yet to the frame SEQ counts (R287), by signed 32-bit difference. -/
def keyAhead (m : Nat) (d : Dev) : Bool :=
  match tget d.net.nonces m [] with
  | n :: _ :: _ => n.later (rd NET.SEQ d)
  | _ => false

/-- ADDRESS to a member that may have it now (R285, R287, R289): to one that is not RUNNING where its EN is set, to one that is only
as a rekey in authenticated mode, until its key-from is reached. Where a fresh nonce is due to it, this is the one: it applies from
the next frame, that of a rekey 2^16 frames on, with the old key until then (DEDUCED, log 93). -/
def addressOne (m : Nat) (d : Dev) : Dev :=
  let due := d.net.nonceDue.contains m
  let fresh (ahead : Nat) : Dev := if due then newRingNonce m ahead d else d
  if rd (NET.MSTAT.STATE m) d ≠ 2 then if on (NET.MCFG.EN m) d then sendAddress m (fresh 1) else d
  else if on NET.NETCTL.AUTH d && (due || keyAhead m d) then sendAddress m (fresh (2 ^ 16))
  else d

/-- The ring manager started (R285, R288): a fresh nonce is due to each member, and goes out to those that ADDRESS reaches. -/
def ringOn (d0 : Dev) : Dev :=
  let d := wrB NET.RINGSTAT.MOSS false (wrB NET.NETCTL.RINGEN true d0)
  let d := wrB NET.RINGSTAT.PBLOCK true (wr NET.RINGSTAT.STATE 1 d)
  let d := { d with net := { d.net with tmiss := 0, lostLink := false, flush := false, heard := [], ringRaw := d.raw,
                                        rekeyed := false, nonceDue := members, cycLast := none } }
  forAll members addressOne d

/-- Whether SEQ nears its wrap, so that members must be rekeyed (R285, R287). -/
def rekeyDue (d : Dev) : Bool := decide (2 ^ 32 - 2 ^ 21 ≤ rd NET.SEQ d)

/-- A second of admission (R285, R287, R289): ADDRESS to the members it may go to, each due a fresh nonce as SEQ nears its wrap. -/
def addressAll (d0 : Dev) : Dev :=
  if !on NET.NETCTL.RINGEN d0 then d0
  else
    let d := if rekeyDue d0 && !d0.net.rekeyed then { d0 with net := { d0.net with rekeyed := true, nonceDue := members } }
      else if rd NET.SEQ d0 < 2 ^ 31 then { d0 with net := { d0.net with rekeyed := false } } else d0
    forAll members addressOne d

/-- ANNOUNCE (R289, R290): the member's class and type checked, or an unaddressed unit adopted. -/
def announce (p da src : Nat) (b : List Nat) (d1 : Dev) : Dev :=
  let d0 := hearMac src d1
  if !on NET.NETCTL.RINGEN d1 then mossRing p da src b d1
  else if ofBe (sub b 0 2) ≠ 6 ∨ b.length < 8 then d0
  else
    let num := b.getD 2 0
    let cls := b.getD 3 0
    let typ := ofBe (sub b 4 2)
    let fits (m : Nat) : Bool := rd (NET.MCFG.CLASS m) d0 == cls && rd (NET.MCFG.TYPEID m) d0 == typ
    let silent (m : Nat) : Bool :=
      decide (max (tget d0.net.heard m 0) d0.net.ringRaw + rd NET.ADOPTTO d0 * 26000000 ≤ d0.raw)
    match members.find? (fun m => on (NET.MCFG.EN m) d0 && macOf m d0 == src) with
    | some m =>
      let d := wr (NET.MSTAT.BOOTCNT m) (ofBe (sub b 6 2)) d0
      if !fits m then wrB (NET.MSTAT.MISMATCH m) true (wr (NET.MSTAT.STATE m) 1 d)
      else
        let d := wrB (NET.MSTAT.MISMATCH m) false d
        if num = m then memberRuns m d else d
    | none =>
      if num ≠ 0xFF then d0
      else match members.find? (fun m => on (NET.MCFG.ADOPT m) d0 && fits m && silent m) with
        | none => d0
        | some m =>
          let d := wr (NET.MMACHI m) (src / 2 ^ 32) (wr (NET.MMACLO m) src d0)
          let d := wrB (NET.MSTAT.ADOPTEVT m) true (wrB (NET.MCFG.ADOPT m) false d)
          let d := lichen 6 0x0704 (m :: leBytes 6 src) (hearMac src d)
          sendAddress m (if d.net.nonceDue.contains m then newRingNonce m 1 d else d)

/-! ## Moss forwarding (R288) -/

/-- A hold frame, until firmware sets RINGEN: the first takes a random SEQ. No trigger gives its SI, so it carries SIEST and SIBAD
counts it (Table 08-14). -/
def holdFrame (d0 : Dev) : Dev :=
  if !on NET.RINGSTAT.MOSS d0 then d0
  else
    let d := if d0.net.started then inc NET.SEQ d0
      else { wr NET.SEQ (freeOf d0).toNat (drawn d0) with net := { d0.net with started := true } }
    let now := ofS 64 (cycle d)
    let hdr := outHeader (2 + 8 + 16 * 4) (rd NET.SEQ d) (rd NET.CYCCNT d) now (now + rd NET.SIDEF d) 0
      (rd NET.SIDEF d + inSpan d) 63
    let body := hdr ++ (List.replicate 63 holdRec).flatten
    let body := body ++ beBytes 4 (crc32 body)
    ringSend 1 daOut body (ringSend 0 daOut body (inc NET.SIBAD d))

/-! ## Ordinary traffic (R56, R57, R271, R272, R288, R291, R472) -/

/-- Whether port B carries ordinary traffic (Table 08-1). -/
def bForwards (d : Dev) : Bool := !on NET.RINGSTAT.PBLOCK d

/-- Whether the VID is one of the table's (R291). -/
def vidOk (vid : Nat) (d : Dev) : Bool :=
  (List.range 64).any (fun i => on (NET.VLAN.VALID i) d && rd (NET.VLAN.VID i) d == vid)

/-- A frame crosses to the other port, within R272. -/
def cross (p : Nat) (grp : Bool) (b : List Nat) (d : Dev) : Dev := limited grp (ordSend p b) d

/-- The PTP ports of UDP: event and general messages (IEEE 1588, Annex C). -/
def ptpUdp (dst : Nat) : Bool := dst == 319 || dst == 320

/-- The PTP message a frame carries: over Ethernet (Annex E) or over UDP, with whether it came over IPv6 (Annex D). -/
def ptpMsg (et : Nat) (b : List Nat) : Option (Bool × List Nat) :=
  let ihl := b.getD 0 0 % 16 * 4
  if et = 0x88F7 then some (false, b)
  else if et = 0x0800 ∧ b.getD 9 0 = 17 ∧ ptpUdp (ofBe (sub b (ihl + 2) 2)) then some (false, b.drop (ihl + 8))
  else if et = 0x86DD ∧ b.getD 6 0 = 17 ∧ ptpUdp (ofBe (sub b 42 2)) then some (true, b.drop 48)
  else none

/-- A message's type: 0 Sync, 1 Delay_Req, 8 Follow_Up, 9 Delay_Resp, 11 Announce, 12 Signaling, 13 Management. -/
def ptpType (m : List Nat) : Nat := m.getD 0 0 % 16

/-- The types of the TLVs a message ends in, one after the other, at most as many as the first number says. -/
def tlvTypes : Nat → List Nat → List Nat
  | 0, _ => []
  | n + 1, l => if l.length < 4 then [] else ofBe (sub l 0 2) :: tlvTypes n (l.drop (4 + ofBe (sub l 2 2)))

/-- A Signaling message of which some TLV negotiates unicast transmission (TLV types 4 to 7). The message is as long as its
messageLength says. -/
def ptpUnicast (m : List Nat) : Bool :=
  ptpType m == 12 && (tlvTypes m.length ((m.take (ofBe (sub m 2 2))).drop 44)).any (fun t => decide (4 ≤ t ∧ t ≤ 7))

/-- The clockClass of the Gnodon as master (Table 02-1). -/
def ptpClass (d : Dev) : Nat :=
  if on AON.WSTAT.HOLDOVER d then 7 else if on AON.WSTAT.LOCKED d && rd AON.WCTL.SRC d == 1 then 6 else 248

/-- A message outside Table 02-1 (R56): another version or profile, a domain above 127, over IPv6, peer-to-peer, one-step,
unicast negotiation, management, or an Announce of the Gnodon's with another clockClass (log 128). -/
def ptpOutside (tx : Bool) (v6 : Bool) (m : List Nat) (d : Dev) : Bool :=
  let t := ptpType m
  v6 || decide (m.length < 34) || m.getD 0 0 / 16 != 0 || m.getD 1 0 % 16 != 2 || m.getD 5 0 != 0 || decide (127 < m.getD 4 0) ||
    !([0, 1, 8, 9, 11, 12].contains t) || (t == 0 && !bit (m.getD 6 0) 1) || ptpUnicast m ||
    (tx && t == 11 && m.getD 48 0 != ptpClass d)

/-- An ordinary frame from its destination address on: the bits that follow its tag, if it has one (IEEE 802.1Q, R291), the
EtherType after it and the bytes after that. -/
def frmTci (b : List Nat) : Option Nat := if ofBe (sub b 12 2) = 0x8100 then some (ofBe (sub b 14 2)) else none
def frmRest (b : List Nat) : List Nat := if (frmTci b).isSome then b.drop 16 else b.drop 12
def frmType (b : List Nat) : Nat := ofBe ((frmRest b).take 2)

/-- Its destination is a group address, or a port of the Gnodon's. -/
def frmGroup (b : List Nat) : Bool := bit (b.getD 0 0) 0
def frmMine (b : List Nat) : Bool :=
  let a := ofBe (b.take 6)
  a == (Config.portMac 0).toNat || a == (Config.portMac 1).toNat

/-- The VID of a frame: PVID for one that names none (R291; VID 0 of IEEE 802.1Q names none). -/
def frmVid (b : List Nat) (d : Dev) : Nat :=
  match frmTci b with
  | some t => if t % 4096 = 0 then rd NET.PVID.VID d else t % 4096
  | none => rd NET.PVID.VID d

/-- The frame as it goes on under the ring manager: tagged with its VID, its priority as it came, 0 where it had none (R291). -/
def frmTagged (b : List Nat) (d : Dev) : List Nat :=
  b.take 12 ++ [0x81, 0x00] ++ beBytes 2 ((frmTci b).getD 0 / 4096 * 4096 + frmVid b d) ++ frmRest b

/-- The PTP message in a frame. -/
def frmPtp (b : List Nat) : Option (Bool × List Nat) := ptpMsg (frmType b) ((frmRest b).drop 2)

/-- An event message (Sync, Delay_Req) passes a port: a token to SCH (R57). -/
def ptpToken (p : Nat) (tx : Bool) (tag : Nat) (b : List Nat) (d : Dev) : Dev :=
  match frmPtp b with
  | some (_, m) => if ptpType m ≤ 1 then token 4 6 0xE9 (p + 2 * b2n tx + 256 * tag) d else d
  | none => d

/-- A frame carries a PTP message that Table 02-1 does not support (R56). -/
def ptpDropped (tx : Bool) (b : List Nat) (d : Dev) : Bool :=
  match frmPtp b with
  | some (v6, m) => ptpOutside tx v6 m d
  | none => false

/-- Such a frame discarded and counted (R56). -/
def ptpDrop (d : Dev) : Dev := { d with net := { d.net with ptpDrop := d.net.ptpDrop + 1 } }

/-- An ordinary frame, or a descriptor of one, dropped and counted (R370, R472). -/
def frmDropped (d : Dev) : Dev := { d with net := { d.net with frmDrop := d.net.frmDrop + 1 } }

/-- A frame received for the Gnodon: written to the next receive buffer, and a receive descriptor, whose layout the spec does not
give, on SQ31; dropped where the access faults (R472, log 153). -/
def ordUp (b : List Nat) (d : Dev) : Dev :=
  match islWrite d.netRoot.toNat (Config.rxBuf d.net.rxBufs) b d with
  | (false, d) => frmDropped d
  | (true, d) => hwPush 31 [freeOf d] (drawn { d with net := { d.net with rxBufs := d.net.rxBufs + 1 } })

/-- An ordinary frame at a port. A ring frame under the ring manager ends there. -/
def ordIn (p tag : Nat) (b : List Nat) (d0 : Dev) : Dev :=
  let ring := frmType b == 0x88B5
  if on NET.RINGSTAT.MOSS d0 then cross (1 - p) (frmGroup b && !ring) b d0
  else
    let d := whenB (on NET.NETCTL.RINGEN d0) (hearMac (ofBe (sub b 6 6))) d0
    if ring || (p = 1 && !bForwards d) || !vidOk (frmVid b d) d then d
    else if ptpDropped false b d then ptpDrop d
    else
      let t := frmTagged b d
      let d := whenB (frmMine b || frmGroup b) (fun d => ordUp t (ptpToken p false tag b d)) d
      if !frmMine b && bForwards d then cross (1 - p) (frmGroup b) t d else d

/-- An ordinary frame of firmware's as it goes out (R56, R291). -/
def ordFw (ports tag : Nat) (b : List Nat) (d : Dev) : Dev :=
  if !vidOk (frmVid b d) d then d
  else if ptpDropped true b d then ptpDrop d
  else
    let go (p : Nat) (d : Dev) : Dev := ptpToken p true tag b (ordSend p (frmTagged b d) d)
    let d := whenB (bit ports 0) (go 0) d
    whenB (bit ports 1 && bForwards d) (go 1) d

/-- What a transmit descriptor names, read from DRAM and sent; dropped where the access faults (R472, log 153). -/
def ordDesc (l : List W64) (d : Dev) : Dev :=
  let (va, n, ports, tag) := Config.txDesc l
  match islSpan d.netRoot.toNat .load (n / 4096 + 2) va n d with
  | (false, d) => frmDropped d
  | (true, d) => ordFw ports (tag % 256) (islRead d.netRoot.toNat va n d) d

/-- An ordinary frame that firmware sends: a transmit descriptor taken from SQ30 (R370). -/
def ordOut (d : Dev) : Dev := hwTry 30 frmDropped (fun p d => ordDesc p.items (hwTaken 30 d)) d

/-- A frame received, or firmware's next. -/
def ordinary (f : Option OrdFrame) (d : Dev) : Dev :=
  match f with
  | some f => ordIn f.port f.tag.toNat (f.bytes.map BitVec.toNat) d
  | none => ordOut d

/-! ## NETCTL (R273, R288) -/

/-- NETCTL.CYCEN written: refused with FITERR where the cycle does not fit. -/
def cycenWrite (v : Bool) (d : Dev) : Dev :=
  if !v then releaseWaiting { wrB NET.NETCTL.CYCEN false d with net := { d.net with isOpen := false } }
  else if on NET.NETCTL.CYCEN d then d
  else if cycFits d then wrB NET.NETCTL.CYCEN true d
  else wrB NET.RINGSTAT.FITERR true d

/-- NETCTL.RINGEN written. -/
def ringenWrite (v : Bool) (d : Dev) : Dev :=
  if v = on NET.NETCTL.RINGEN d then d
  else if v then ringOn d
  else releaseWaiting (ringOff false d)

end Sys2Proof.Machine
end

