-- ==== Sys2Proof/Machine/Axis.lean ====
section
/-! DEFINITION. Machine/Axis.lean: the axis contexts of CTL: commands, the profile generator, limits, faults, current mode,
load angle, homing, the keep area and the output record (Axis motion, stepping and homing). -/

namespace Sys2Proof.Machine

/-! ## Access -/

def axOf (a : Nat) (d : Dev) : AxS := tget d.ctl.ax a {}
def axSet (a : Nat) (x : AxS) (d : Dev) : Dev := { d with ctl := { d.ctl with ax := tset d.ctl.ax a x {} } }

def axes : List Nat := List.range 48

def axMember (a : Nat) (d : Dev) : Nat := rd (CTL.AXCFG.MEMBER a) d
def axClass (a : Nat) (d : Dev) : Nat := rd (NET.MCFG.CLASS (axMember a d)) d
def axState (a : Nat) (d : Dev) : Nat := rd (CTL.AXSTAT.STATE a) d
def axInp (a : Nat) (d : Dev) : InRec := tget d.ctl.inp (axMember a d) {}

/-- The profile state written back, with CPOS, CVEL and CACC (Table 09-9). -/
def axPut (a : Nat) (x : AxS) (d : Dev) : Dev :=
  wrS (CTL.CACC a) (x.a / 65536) (wrS (CTL.CVEL a) x.v (wrS (CTL.CPOS a) x.p (axSet a x d)))

/-- A token under AXEVT (Table 09-8). -/
def axToken (d : Dev) : Dev := whenB (on CTL.AXEVT.TOK d) (fun d => token 3 5 (rd CTL.AXEVT.EVN d) 0 d) d

/-! ## Fields of an input record (Table 08-9) -/

def InRec.byte (r : InRec) (i : Nat) : Nat := r.bytes.getD i 0
def InRec.word (r : InRec) (i n : Nat) : Nat := ofLe (sub r.bytes i n)
def InRec.din (r : InRec) (cls : Nat) : Nat := r.byte (if cls = 0 then 16 else 14)
def InRec.capStat (r : InRec) (cls : Nat) : Nat := r.byte (if cls = 0 then 17 else 15)
def InRec.capT (r : InRec) (cls : Nat) : Int := toS 16 (r.word (if cls = 0 then 18 else 16) 2)
def InRec.capPos (r : InRec) (cls : Nat) : Nat := r.word (if cls = 0 then 20 else 18) 4
def InRec.actPos (r : InRec) : Int := toS 64 (r.word 4 8)
def InRec.boot (r : InRec) : Nat := r.word 2 2
def InRec.msidx (r : InRec) : Nat := r.word 22 2 % 1024

/-! ## The profile generator (R299–R301) -/

/-- The square root of a number, rounded down. -/
def natSqrt (n : Nat) : Nat := isqrt n (Nat.log2 n / 2 + 1) 0

/-- The bounds a motion keeps: the velocity in Q47.16 pu/s, the rest in pu/s² and pu/s³. -/
structure Lim where
  vmax : Nat
  amax : Nat
  dec  : Nat
  jrk  : Nat

def clampI (lo hi x : Int) : Int := max lo (min hi x)

/-- The sign of the direction of travel: of the velocity, else of the acceleration, else of the distance to go. -/
def travel (v a dist : Int) : Int :=
  if v ≠ 0 then v.sign else if a ≠ 0 then a.sign else dist.sign

/-- One phase of a plan: a jerk in pu/s³, kept for a time in 2^-16 ns. -/
structure Phase where
  jerk : Int
  dur  : Nat

/-- A motion seen along its direction of travel: position, velocity and acceleration in 2^-48 pu, pu/s and pu/s². -/
structure Motion where
  p : Int
  v : Int
  a : Int

/-- A phase's time units in a second, and the units of a motion in one of Q47.16. -/
def perSec : Int := 65536000000000
def fine : Int := 4294967296

/-- A motion after a time at one jerk. -/
def Motion.after (m : Motion) (j : Int) (t : Nat) : Motion :=
  let jj := j * 65536 * fine
  let u : Int := t
  { p := m.p + m.v * u / perSec + m.a * u * u / (2 * perSec * perSec) + jj * u * u * u / (6 * perSec * perSec * perSec)
    v := m.v + m.a * u / perSec + jj * u * u / (2 * perSec * perSec)
    a := m.a + jj * u / perSec }

/-- A phase without end. -/
def forever : Nat := 2 ^ 100

/-- The quickest rise from a velocity and acceleration to a velocity at acceleration 0: the acceleration goes to its peak, which
`top` bounds, is held, and goes to 0. Velocities and accelerations are Q47.16. -/
def climb (v a w : Int) (top jrk : Nat) : List Phase :=
  let peak : Int := min (top * 65536 : Nat) (natSqrt (jrk * (w - v) * 65536 + a * a / 2).toNat)
  let sg : Int := if a ≤ peak then 1 else -1
  let left := w - v - sg * ((peak * peak - a * a) / (2 * jrk * 65536)) - peak * peak / (2 * jrk * 65536)
  [⟨sg * jrk, (peak - a).natAbs * 1000000000 / jrk⟩,
   ⟨0, if left ≤ 0 then 0 else if peak = 0 then (if top = 0 then forever else 0) else (left * perSec / peak).toNat⟩,
   ⟨-jrk, peak.toNat * 1000000000 / jrk⟩]

/-- The quickest change of velocity: a rise within `up` or a fall within `dn`, whichever leads to the velocity wanted. -/
def toVel (v a w : Int) (up dn jrk : Nat) : List Phase :=
  if jrk = 0 then [⟨0, forever⟩]
  else if w < v + a * a.natAbs / (2 * jrk * 65536) then (climb (-v) (-a) (-w) dn jrk).map (fun h => { h with jerk := -h.jerk })
  else climb v a w up jrk

/-- A motion after a time along a plan that ends at a velocity, which it keeps; and whether the plan has ended by then. -/
def Motion.along : List Phase → Int → Nat → Motion → Motion × Bool
  | [], w, t, m => (⟨m.p + w * fine * t / perSec, w * fine, 0⟩, true)
  | h :: r, w, t, m =>
    if t < h.dur then (m.after h.jerk t, false) else Motion.along r w (t - h.dur) (m.after h.jerk h.dur)

/-- Where a plan ends. -/
def Motion.ends (l : List Phase) (m : Motion) : Int := (l.foldl (fun m h => m.after h.jerk h.dur) m).p

/-- Braking to standstill from a motion, and where it ends (D of R301). -/
def Motion.brake (m : Motion) (L : Lim) : List Phase := toVel (m.v / fine) (m.a / fine) 0 L.dec L.dec L.jrk
def Motion.stops (m : Motion) (L : Lim) : Int := m.ends (m.brake L)

/-- The largest time below hi for which a test holds that holds at lo and once false stays so. -/
def latest (ok : Nat → Bool) : Nat → Nat → Nat → Nat
  | 0, lo, _ => lo
  | n + 1, lo, hi =>
    if hi ≤ lo + 1 then lo
    else
      let mid := (lo + hi) / 2
      if ok mid then latest ok n mid hi else latest ok n lo mid

/-- A motion along the direction s, as an axis's state seen from where it is, and back. -/
def motionOf (s : Int) (x : AxS) : Motion := ⟨0, x.v * s * fine, x.a * s * fine⟩
def withMotion (s : Int) (m : Motion) (x : AxS) : AxS :=
  { x with p := x.p + s * (m.p / fine), v := s * (m.v / fine), a := s * (m.a / fine) }

/-- A cycle of the time-optimal plan to a position at rest (R299–R301). It gains speed towards VMAX, or loses what lies above it,
for as long as braking from there still ends at the target or before it, and then brakes. Where braking from the present state
would pass the target, or it lies behind, it brakes to standstill; the plan from there reverses. Where braking ends within 2^-10 pu
of the target, it ends at the target (DEDUCED, log 7). -/
def stepPos (T : Nat) (L : Lim) (tgt : Int) (x : AxS) : AxS :=
  let s := travel x.v x.a (tgt - x.p)
  let dist := (tgt - x.p) * s
  let m := motionOf s x
  let top : Int := L.vmax
  let gain (t : Nat) : Motion := (m.along (toVel (x.v * s) (x.a * s) top L.amax L.dec L.jrk) top t).1
  let fits (t : Nat) : Bool := decide ((gain t).stops L ≤ dist * fine)
  let all_ := T * 65536
  let t := if fits all_ then all_ else if (dist - 16) * fine < m.stops L then 0 else latest fits 64 0 all_
  let g := gain t
  let e := (g.along (g.brake L) 0 (all_ - t))
  if s = 0 then { x with mv := .still }
  else if t < all_ && e.2 then
    if (dist - e.1.p / fine).natAbs ≤ 64 then { x with p := tgt, v := 0, a := 0, mv := .still } else withMotion s e.1 x
  else withMotion s e.1 x

/-- A cycle towards a velocity, which is reached exactly and held (R299); a reversal passes through standstill. -/
def stepVel (T : Nat) (L : Lim) (vel : Int) (x : AxS) : AxS :=
  let s := travel x.v x.a vel
  let w := max 0 (vel * s)
  withMotion s ((motionOf s x).along (toVel (x.v * s) (x.a * s) w L.amax L.dec L.jrk) w (T * 65536)).1 x

/-- A cycle of braking to standstill at a deceleration and jerk (R303, R308). -/
def stepRamp (T dec jrk : Nat) (x : AxS) : AxS :=
  let y := stepVel T ⟨0, dec, dec, jrk⟩ 0 x
  if y.v = 0 ∧ y.a = 0 then { y with mv := .still } else y

/-- The bounds in the axis's registers. -/
def axLim (a : Nat) (d : Dev) : Lim :=
  ⟨rd (CTL.VMAX a) d * 65536, rd (CTL.AMAX a) d, rd (CTL.DMAX a) d, rd (CTL.JMAX a) d⟩

/-- A ramp's deceleration and jerk, as its registers hold them in the cycle (R303, R307, R308). Of two ramps the steeper is the
one that decelerates more, at equal decelerations the one with more jerk (log 99). -/
def rampAt (a : Nat) (k : Ramp) (d : Dev) : Nat × Nat :=
  let q := (rd (CTL.QSDEC a) d, rd (CTL.QSJERK a) d)
  let l := (rd (CTL.DMAXL a) d, rd (CTL.JMAXL a) d)
  match k with
  | .quick => q
  | .limit => l
  | .steeper => if l.1 < q.1 ∨ (l.1 = q.1 ∧ l.2 < q.2) then q else l
  | .plain => (rd (CTL.DMAX a) d, rd (CTL.JMAX a) d)

/-- One cycle of the generator. -/
def stepAxis (T : Nat) (L : Lim) (ramp : Ramp → Nat × Nat) (x : AxS) : AxS :=
  match x.mv with
  | .still => { x with v := 0, a := 0 }
  | .pos t vm => stepPos T { L with vmax := min L.vmax vm } t x
  | .vel v => stepVel T L (clampI (-(L.vmax : Int)) L.vmax v) x
  | .ramp k => stepRamp T (ramp k).1 (ramp k).2 x

/-! ## Faults (R309, R310, R312, Table 09-4) -/

/-- How severe a fault's reaction is: 4 fall-back, 3 the node's own, 2 limit-stop ramp, 1 quick-stop ramp, 0 none. -/
def severity (code : Nat) : Nat :=
  if code = 0 then 0 else if code ≤ 3 then 4 else if code = 4 then 3 else if code ≤ 8 then 2 else 1

/-- The reaction now in force. -/
def inForce (a : Nat) (x : AxS) (d : Dev) : Nat :=
  if axState a d = 6 then 4 else max (severity (rd (CTL.AXFAULT.CODE a) d)) (if x.limRamp then 2 else 0)

/-- A capture accepted in this servo cycle is discarded: OFS and CAPPOS as they were before it (R330). -/
def captUndo (a : Nat) (d : Dev) : Dev :=
  let x := axOf a d
  match x.undo with
  | some (ofs, cp) => wr (CTL.CAPPOS a) cp (axPut a { x with p := x.p - x.ofs + ofs, ofs := ofs, undo := none } d)
  | none => d

/-- A homing sequence ends without its reference (R330). -/
def homeAbort (a : Nat) (d0 : Dev) : Dev :=
  if (axOf a d0).ph = .none then d0
  else
    let d := captUndo a d0
    wrB (CTL.AXSTAT.HABORT a) true (axSet a { axOf a d with ph := .none, capt := none } d)

/-- The quick-stop ramp, or the steeper one where a limit-stop ramp runs (R308). -/
def quickStop (a : Nat) (d : Dev) : Dev :=
  let x := axOf a d
  if x.mv = .still then d else axSet a { x with mv := .ramp (if x.limRamp then .steeper else .quick) } d

/-- The limit-stop ramp (R303). -/
def limitStop (a : Nat) (d : Dev) : Dev :=
  wrB (CTL.AXSTAT.LIMSTOP a) true (axSet a { axOf a d with mv := .ramp .limit, limRamp := true } d)

/-- The fall-back (R309, R310). -/
def axAbort (a : Nat) (d : Dev) : Dev :=
  let x := axOf a d
  let r := axInp a d
  let keeps := if axClass a d = 0 then decide (x.boot = none ∨ x.boot = some r.boot) && decide (r.byte 1 ≠ 5) else x.kept
  let d := axPut a { x with v := 0, a := 0, mv := .still, limRamp := false, delay := 0 } d
  wrB (CTL.AXSTAT.PVALID a) (on (CTL.AXSTAT.PVALID a) d && keeps) d

/-- The reaction of a fault (Table 09-4). -/
def axReact (a code : Nat) (d0 : Dev) : Dev :=
  let d := homeAbort a d0
  let x := axOf a d
  if code ≤ 3 then axAbort a d
  else if code = 4 then axPut a { x with v := 0, a := 0, mv := .still, cut := true } d
  else if code ≤ 8 then limitStop a d
  else quickStop a d

/-- A fault that loses the position, whatever its reaction (Table 09-4). -/
def losesPos (a code : Nat) (d : Dev) : Bool :=
  code == 9 || (code == 4 && (axClass a d != 0 || (axInp a d).byte 1 == 5))

/-- A fault of an enabled axis (R312): the first latches, of one cycle the lowest; a later one sets MORE and acts if it is
more severe. A ramp fault that finds a limit-stop ramp running keeps the steeper (R308). -/
def axFault (a code : Nat) (d0 : Dev) : Dev :=
  if axState a d0 = 0 then d0
  else
    let x := axOf a d0
    let cur := rd (CTL.AXFAULT.CODE a) d0
    let latch (d : Dev) : Dev := wr (CTL.AXFAULT.NFCODE a) ((axInp a d).byte 1) (wr (CTL.AXFAULT.CODE a) code d)
    let d := if cur = 0 then latch (axSet a { x with fltNow := true } d0)
             else if x.fltNow then (if code < cur then latch d0 else d0)
             else wrB (CTL.AXFAULT.MORE a) true d0
    let d := whenB (losesPos a code d0) (wrB (CTL.AXSTAT.PVALID a) false) d
    let d := if inForce a x d0 < severity code then axReact a code d
             else if severity code = 1 ∧ x.limRamp = true then quickStop a d else d
    let st := if code ≤ 3 ∨ axState a d = 6 then 6 else 5
    let d' := wr (CTL.AXSTAT.STATE a) st d
    if axState a d0 = st then d' else axToken d'

/-! ## Stops and commands (R302–R308, R311, R313, R317, R318, R323, R324) -/

/-- The axis's zone is granted in ZGMIR (R306). -/
def zoneOk (a : Nat) (d : Dev) : Bool := bit (rd CTL.ZGMIR d) (rd (CTL.AXCFG.ZONE a) d)

/-- A stop of the main path (R308, R330): one that finds a limit-stop ramp running, which it does in FAULT, keeps the steeper. -/
def axStop (a : Nat) (d0 : Dev) : Dev :=
  if axState a d0 = 5 ∧ (axOf a d0).limRamp = true then quickStop a d0
  else if axState a d0 ≠ 2 ∧ axState a d0 ≠ 4 then d0
  else
    let d := quickStop a (homeAbort a d0)
    wr (CTL.AXSTAT.STATE a) 3 d

/-- A command refused (R305, Table 09-3). -/
def refuse (a why : Nat) (d : Dev) : Dev := inc CTL.AXCMDREF (wr (CTL.AXSTAT.CMDERR a) why d)

/-- A command accepted. -/
def accept (a : Nat) (d : Dev) : Dev := wr (CTL.AXSTAT.CMDERR a) 0 d

/-- A command moves the axis: a driver that is down comes back first, and the axis stands still until its first cycle of motion
(R315). -/
def beginMove (a : Nat) (mv : Mv) (st : Nat) (d0 : Dev) : Dev :=
  let x := axOf a d0
  let off := on (CTL.AXSTAT.DRVOFF a) d0
  let d := axSet a { x with mv := mv, limRamp := false, delay := if off then 1 else x.delay } d0
  let d := wrB (CTL.AXSTAT.DRVOFF a) false d
  accept a (wr (CTL.AXSTAT.STATE a) st d)

/-- The keep entry says what R317 asks, and the position and OFS it gives. -/
def keepGood (a : Nat) (d : Dev) : Option (Int × Int) :=
  let k := retRead (0x4000 + 32 * a) 32 d
  let fl := k.getD 21 0
  let r := axInp a d
  let cls := axClass a d
  let okAll := ofLe (sub k 28 4) == crc32 (k.take 28) && bit fl 0 && bit fl 2 && k.getD 20 0 == axMember a d &&
    bits fl 3 2 == cls && ofLe (sub k 16 2) == r.boot &&
    (cls == 0 || (bit fl 1 && ofLe (sub k 18 2) % 1024 == r.msidx))
  let ofs := toS 64 (ofLe (sub k 8 8))
  if okAll then some (if cls = 0 then r.actPos + ofs else toS 64 (ofLe (sub k 0 8)), ofs) else none

/-- ENABLE (R293, R298, R307, R313, R317, R356). -/
def cmdEnable (a : Nat) (d : Dev) : Dev :=
  let m := axMember a d
  let cls := axClass a d
  let z (f : Nat → Fld) : Bool := rd (f a) d == 0
  if axState a d ≠ 0 then refuse a 1 d
  else if !on (CTL.AXCFG.BOUND a) d || m == 0 || cls == 3 || axes.any (fun b => b != a && axisOn m b d) ||
      rd (NET.MSTAT.STATE m) d != 2 then refuse a 6 d
  else if z CTL.VMAX || z CTL.AMAX || z CTL.DMAX || z CTL.JMAX || z CTL.QSDEC || z CTL.QSJERK || z CTL.DMAXL || z CTL.JMAXL ||
      decide (rd (CTL.DMAXL a) d < rd (CTL.DMAX a) d) || decide (rd (CTL.JMAXL a) d < rd (CTL.JMAX a) d) ||
      (on (CTL.AXCFG.SLEN a) d && decide (rdS (CTL.SLMAX a) d < rdS (CTL.SLMIN a) d)) ||
      (cls == 2 && decide (256 * 1000000000 < rd (CTL.VMAX a) d * cycNs d)) then refuse a 5 d
  else
    let x := axOf a d
    let fresh : AxS := { mv := .still, tgt := x.tgt, boot := some (axInp a d).boot, act := x.act, hoP := x.hoP, hoT := x.hoT }
    let d := match keepGood a d with
      | some (p, ofs) =>
        wrB (CTL.AXSTAT.KEPT a) true (wrB (CTL.AXSTAT.PVALID a) true (axPut a { fresh with p := p, ofs := ofs } d))
      | none =>
        let p := if cls = 0 then (axInp a d).actPos else x.p - x.ofs
        wrB (CTL.AXSTAT.KEEPBAD a) true (wrB (CTL.AXSTAT.KEPT a) false
          (wrB (CTL.AXSTAT.PVALID a) false (axPut a { fresh with p := p } d)))
    let d := wrB (CTL.AXSTAT.CMODE a) false (wrB (CTL.AXSTAT.STANDSTILL a) false (wrB (CTL.AXSTAT.DRVOFF a) false d))
    let d := if cls = 0 then wr (CTL.LOADANG.ANGLE a) 0 (wrB (CTL.LOADANG.BLIND a) true (wrB (CTL.AXSTAT.BLIND a) true d)) else d
    accept a (wr (CTL.AXSTAT.STATE a) 1 d)

/-- DISABLE. -/
def cmdDisable (a : Nat) (d : Dev) : Dev :=
  if axState a d ≠ 1 then refuse a 1 d
  else accept a (wr (CTL.AXSTAT.STATE a) 0 (axSet a { axOf a d with leave := true, mv := .still } d))

/-- A limit switch that HLEN honours is active in a direction (R304). -/
def atSwitch (a : Nat) (s : Int) (d : Dev) : Bool :=
  let din := (axInp a d).din (axClass a d)
  (decide (0 < s) && bit din 0) || (decide (s < 0) && bit din 1)

/-- A target held within the soft limits while they apply (R302). -/
def softClamp (a : Nat) (t : Int) (d : Dev) : Int :=
  if on (CTL.AXCFG.SLEN a) d && on (CTL.AXSTAT.PVALID a) d then clampI (rdS (CTL.SLMIN a) d) (rdS (CTL.SLMAX a) d) t else t

/-- MOVE (R299, R302, R304, R306, R318). -/
def cmdMove (a : Nat) (d : Dev) : Dev :=
  let x := axOf a d
  let t := rdS (CTL.TGT a) d
  if axState a d ≠ 1 ∧ axState a d ≠ 2 then refuse a 1 d
  else if x.stopNow || !zoneOk a d then refuse a 3 d
  else if !on (CTL.AXSTAT.PVALID a) d then refuse a 2 d
  else
    let c := softClamp a t d
    if on (CTL.AXCFG.HLEN a) d && atSwitch a (c - x.p) d then refuse a 4 d
    else
      let d := whenB (c != t) (wrB (CTL.AXSTAT.TGTCLAMP a) true) (axSet a { x with tgt := c } d)
      beginMove a (.pos c (2 ^ 48)) 2 d

/-- JOG (R299, R302, R304, R306, R318). -/
def cmdJog (a : Nat) (d : Dev) : Dev :=
  let x := axOf a d
  let v := rdS (CTL.TGT a) d
  if axState a d ≠ 1 ∧ axState a d ≠ 2 then refuse a 1 d
  else if x.stopNow || !zoneOk a d then refuse a 3 d
  else if on (CTL.AXCFG.HLEN a) d && atSwitch a v d then refuse a 4 d
  else if !on (CTL.AXSTAT.PVALID a) d then
    let h : Int := (rd (CTL.HVSLOW a) d * 65536 : Nat)
    beginMove a (.vel (clampI (-h) h v)) 2 d
  else if on (CTL.AXCFG.SLEN a) d && decide (v ≠ 0) then
    let lim := if v < 0 then rdS (CTL.SLMIN a) d else rdS (CTL.SLMAX a) d
    beginMove a (.pos lim v.natAbs) 2 d
  else beginMove a (.vel v) 2 d

/-- STOP (R305, R308). -/
def cmdStop (a : Nat) (d : Dev) : Dev :=
  if axState a d ≠ 2 ∧ axState a d ≠ 4 then refuse a 1 d else accept a (axStop a d)

/-- The direction of a homing search (R323). -/
def homeDir (a : Nat) (d : Dev) : Int := if on (CTL.HOMECFG.HDIR a) d then -1 else 1

/-- A homing sequence completes (R323). -/
def homeDone (a : Nat) (d : Dev) : Dev :=
  let x := axOf a d
  let d := wrB (CTL.AXSTAT.HOMED a) true (wrB (CTL.AXSTAT.PVALID a) true (axSet a { x with ph := .none, capt := none } d))
  axToken (wr (CTL.AXSTAT.STATE a) 1 d)

/-- OFS set so that a node position is HOMEPOS; the node's set-point does not move (R294, R324–R326). -/
def setRef (a : Nat) (ref : Int) (d : Dev) : Dev :=
  let x := axOf a d
  let ofs := rdS (CTL.HOMEPOS a) d - ref
  axPut a { x with p := x.p - x.ofs + ofs, ofs := ofs } d

/-- HOME (R306, R323–R326). -/
def cmdHome (a : Nat) (d : Dev) : Dev :=
  let x := axOf a d
  let cls := axClass a d
  let md := rd (CTL.HOMECFG.MODE a) d
  let fast : Int := (rd (CTL.HVFAST a) d * 65536 : Nat)
  let slow : Int := (rd (CTL.HVSLOW a) d * 65536 : Nat)
  let dir := homeDir a d
  if axState a d ≠ 1 then refuse a 1 d
  else if x.stopNow || !zoneOk a d then refuse a 3 d
  else if fast = 0 ∨ slow = 0 ∨ (md = 2 ∧ cls ≠ 0) ∨ (md = 3 ∧ cls ≠ 0 ∧ rd (CTL.HVSLOW a) d < rd (CTL.VEMF a) d) then refuse a 5 d
  else if md = 0 then accept a (homeDone a (setRef a (x.p - x.ofs) d))
  else
    let d := wrB (CTL.AXSTAT.PVALID a) false d
    let start (ph : HomePh) (v : Int) (d : Dev) : Dev :=
      beginMove a (.vel v) 4 (axSet a { x with ph := ph, homeMode := md, active := 0, capt := none, edges := [], trqN := 0, stallN := 0 } d)
    if md = 3 then start .hard (dir * slow) d
    else if bit ((axInp a d).din cls) 2 then start .edge (-dir * slow) d
    else start .seek (dir * fast) d

/-- FRST (R311). -/
def cmdFrst (a : Nat) (d : Dev) : Dev :=
  let x := axOf a d
  if (axState a d ≠ 5 ∧ axState a d ≠ 6) ∨ x.v ≠ 0 ∨ x.a ≠ 0 ∨ x.mv ≠ .still then refuse a 1 d
  else if rd (NET.MSTAT.STATE (axMember a d)) d = 3 then refuse a 6 d
  else
    let d := axSet a { x with frst := true, leave := true, limRamp := false } d
    let d := wrB (CTL.AXFAULT.MORE a) false (wr (CTL.AXFAULT.NFCODE a) 0 (wr (CTL.AXFAULT.CODE a) 0 d))
    accept a (wr (CTL.AXSTAT.STATE a) 0 d)

/-- A command written to AXCMD (R305, R356): the last before the servo cycle stands, but a STOP always. -/
def cmdPost (a c : Nat) (d : Dev) : Dev :=
  if c = 1 ∧ on CTL.CTLCTL.EN d = false then refuse a 1 d
  else
    let x := axOf a d
    if x.cmd = some 5 then d else axSet a { x with cmd := some c } d

/-- The command that waits is taken (R305). -/
def cmdTake (a : Nat) (d0 : Dev) : Dev :=
  let x := axOf a d0
  match x.cmd with
  | none => d0
  | some c =>
    let d := axSet a { x with cmd := none } d0
    if c = 1 then cmdEnable a d else if c = 2 then cmdDisable a d else if c = 3 then cmdMove a d
    else if c = 4 then cmdJog a d else if c = 5 then cmdStop a d else if c = 6 then cmdHome a d
    else if c = 7 then cmdFrst a d else d

/-- Stops and commands at the beginning of the servo cycle's work (R295, R305, R306): a command that moves the axis is refused with
ZONESTOP where a stop is taken with it, and the stop then acts. -/
def takeAll (d0 : Dev) : Dev :=
  if d0.ctl.took then d0
  else
    let st := d0.ctl.stops
    let d := { d0 with ctl := { d0.ctl with stops := [], took := true } }
    forAll axes (fun a d =>
      let hit := st.any (fun z => match z with | none => true | some z => z == rd (CTL.AXCFG.ZONE a) d)
      let d := axSet a { axOf a d with stopNow := hit, undo := none } d
      let d := wrB (CTL.AXSTAT.ZSTOP a) (on (CTL.AXCFG.BOUND a) d && !zoneOk a d) d
      let d := cmdTake a d
      if hit || !zoneOk a d then axStop a d else d) d

/-! ## Limits (R303, R304, R329) -/

/-- The direction the axis moves in, or is about to. -/
def heading (x : AxS) : Int :=
  travel x.v x.a (match x.mv with | .pos t _ => t - x.p | .vel v => v | _ => 0)

/-- The limit switches (R304, R329). A switch whose fault is latched already is not a further one, nor is the one that ended a homing,
towards which its quick-stop ramp still runs. -/
def switchCheck (a : Nat) (d : Dev) : Dev :=
  let x := axOf a d
  let s := heading x
  let code := if axState a d = 4 then 0x0B else if 0 < s then 0x05 else 0x06
  let cur := rd (CTL.AXFAULT.CODE a) d
  if x.mv = .still || !atSwitch a s d || cur == code || cur == 0x0B then d
  else if axState a d = 4 || on (CTL.AXCFG.HLEN a) d then axFault a code d
  else d

/-- The stopping point against the soft limit ahead, beyond it by more than a landing may miss its target (R303, log 7). A limit
stop that is latched already is not a further one. -/
def softCheck (a : Nat) (d : Dev) : Dev :=
  let x := axOf a d
  let cur := rd (CTL.AXFAULT.CODE a) d
  if !on (CTL.AXCFG.SLEN a) d || !on (CTL.AXSTAT.PVALID a) d || cur == 7 || cur == 8 || decide (x.v = 0) then d
  else
    let s := x.v.sign
    let ends (k : Ramp) : Int :=
      let r := rampAt a k d
      x.p + s * ((motionOf s x).stops ⟨0, r.1, r.1, r.2⟩ / fine)
    let beyond (e : Int) : Bool :=
      if 0 < s then decide (rdS (CTL.SLMAX a) d + 64 < e) else decide (e < rdS (CTL.SLMIN a) d - 64)
    if !beyond (ends .plain) then d
    else if beyond (ends .limit) then axFault a 0x07 d
    else axFault a 0x08 d

/-! ## Homing (R325–R329) -/

/-- The integer nearest a position that agrees with a captured value (R327). -/
def nearest (est : Int) (r m : Int) : Int :=
  let e := est / 65536
  e + ((r - e + m / 2) % m) - m / 2

/-- The captured 64-bit node position (R327). -/
def captured (a : Nat) (d : Dev) : Int :=
  let x := axOf a d
  let r := axInp a d
  let cls := axClass a d
  let base := if cls = 0 then r.actPos else x.p - x.ofs
  let est := base + x.v * r.capT cls / 10000000
  if cls = 2 then 65536 * nearest est ((r.capPos cls % 1024 : Nat) - (rd (CTL.AXCFG.PHOFF a) d : Int)) 1024
  else 65536 * nearest est (r.capPos cls) (2 ^ 32)

/-- DEBOUNCE has passed over so many cycles (R328). -/
def debounced (a n : Nat) (d : Dev) : Bool := decide (rd (CTL.HOMECFG.DEBOUNCE a) d * 1000000 ≤ n * cycNs d)

/-- What a capture changes, kept until the servo cycle ends (R330). -/
def captKeep (a : Nat) (d : Dev) : Dev :=
  let x := axOf a d
  axSet a { x with undo := some (x.ofs, rd (CTL.CAPPOS a) d) } d

/-- A capture is accepted: CAPPOS shows it (R327), OFS is set from it, and the axis brakes (R325). -/
def homeRef (a : Nat) (ref : Int) (d : Dev) : Dev :=
  let d := setRef a ref (captKeep a d)
  let x := axOf a d
  wrS (CTL.CAPPOS a) (ref + x.ofs) (axSet a { x with ph := .brake, capt := none, mv := .ramp .plain } d)

/-- The switch edge is accepted (R325): mode 2 goes on to the index. -/
def homeEdge (a : Nat) (ref : Int) (d0 : Dev) : Dev :=
  if (axOf a d0).homeMode = 2 then
    let d := captKeep a d0
    let x := axOf a d
    wrS (CTL.CAPPOS a) (ref + x.ofs) (axSet a { x with ph := .index, capt := none } d)
  else homeRef a ref d0

/-- Back off HBACKOFF at HVSLOW (R325, R326). -/
def homeBack (a : Nat) (d : Dev) : Dev :=
  let x := axOf a d
  axSet a { x with ph := .back
                   mv := .pos (x.p - homeDir a d * (rd (CTL.HBACKOFF a) d * 65536 : Nat)) (rd (CTL.HVSLOW a) d * 65536) } d

/-- The reference of a hard stop (R326): the set-point stops at once, then backs off. -/
def homeHard (a : Nat) (d : Dev) : Dev :=
  let x := axOf a d
  homeBack a (setRef a (x.p - x.ofs) (axPut a { x with v := 0, a := 0, mv := .still } d))

/-- Edges of the home switch within CHATWIN (R328). -/
def chatter (a : Nat) (d0 : Dev) : Dev :=
  let x := axOf a d0
  let r := axInp a d0
  let now := d0.ctl.cyc
  let n := if r.fresh then bits (r.capStat (axClass a d0)) 4 4 else 0
  let win := rd (CTL.HOMECFG.CHATWIN a) d0 * 10000000 / cycNs d0
  let es := (x.edges ++ [(now, n)]).filter (fun e => decide ((now + 2 ^ 32 - e.1) % 2 ^ 32 < win))
  let d := axSet a { x with edges := es } d0
  if rd (CTL.HOMECFG.CHATN a) d < (es.map (·.2)).sum then axFault a 0x0C d else d

/-- One cycle of a homing sequence (R325–R328). -/
def homeStep (a : Nat) (d0 : Dev) : Dev :=
  let x0 := axOf a d0
  if axState a d0 ≠ 4 ∨ x0.ph = .none then d0
  else
    let d := chatter a d0
    let x := axOf a d
    let r := axInp a d
    let cls := axClass a d
    let sw := bit (r.din cls) 2
    let cs := r.capStat cls
    let dir := homeDir a d
    let slow : Int := (rd (CTL.HVSLOW a) d * 65536 : Nat)
    let rest := decide (x.v = 0 ∧ x.a = 0)
    match x.ph with
    | .none => d
    | .seek =>
      let n := if sw then x.active + 1 else 0
      if sw && debounced a (n - 1) d then
        axSet a { x with active := 0, ph := .turn, mv := .ramp .plain } d
      else axSet a { x with active := n } d
    | .turn => if rest then axSet a { x with ph := .edge, mv := .vel (-dir * slow) } d else d
    | .edge =>
      match x.capt with
      | none =>
        if r.fresh && bit cs 0 && !bit cs 2 then
          let ref := captured a d
          if debounced a 0 d then homeEdge a ref d else if sw then d else axSet a { x with capt := some (ref, 0) } d
        else d
      | some (ref, n) =>
        if sw then axSet a { x with capt := none } d
        else if debounced a (n + 1) d then homeEdge a ref d
        else axSet a { x with capt := some (ref, n + 1) } d
    | .index => if r.fresh && bit cs 1 then homeRef a (captured a d) d else d
    | .brake => if rest then homeBack a d else d
    | .back => if x.mv = .still then homeDone a d else d
    | .hard =>
      if cls ≠ 0 then d
      else
        let trq := (toS 16 (r.word 12 2)).natAbs
        let n := if rd (CTL.HTRQ.LEVEL a) d ≤ trq then x.trqN + 1 else 0
        let d := axSet a { x with trqN := n } d
        if rd (CTL.HTRQ.N a) d ≤ n ∧ 0 < n then homeHard a d else d

/-! ## PROFILE: a cycle of an enabled axis (R299–R304, R308, R315, R325–R329) -/

/-- Standstill, and the states that end at it (R308, R315). -/
def restCheck (a : Nat) (was : Bool) (d0 : Dev) : Dev :=
  let x := axOf a d0
  let rest := decide (x.v = 0 ∧ x.a = 0)
  let n := if rest && was then x.still + 1 else 0
  let d := wrB (CTL.AXSTAT.STANDSTILL a) (n != 0) (axSet a { x with still := n } d0)
  if rest && decide (x.mv = .still) then
    let d := axSet a { axOf a d with limRamp := false } d
    if axState a d = 2 ∨ axState a d = 3 then wr (CTL.AXSTAT.STATE a) 1 d else d
  else if rest && axState a d == 2 && decide (x.mv = .vel 0) then
    wr (CTL.AXSTAT.STATE a) 1 (axSet a { axOf a d with mv := .still } d)
  else d

/-- The generator's cycle for one axis, made once. -/
def profile (a : Nat) (d0 : Dev) : Dev :=
  let x0 := axOf a d0
  if x0.prof || axState a d0 == 0 then d0
  else
    let d := axSet a { x0 with prof := true } d0
    let was := decide (x0.v = 0 ∧ x0.a = 0)
    if 0 < x0.delay then axSet a { axOf a d with delay := x0.delay - 1 } d
    else
      let d := softCheck a (homeStep a (switchCheck a d))
      restCheck a was (axPut a (stepAxis (cycNs d) (axLim a d) (fun k => rampAt a k d) (axOf a d)) d)

/-! ## Current mode (R313) -/

/-- The current-mode logic, made once a cycle. -/
def modeSwitch (a : Nat) (d0 : Dev) : Dev :=
  let x := axOf a d0
  if x.msw || axState a d0 == 0 || axClass a d0 == 0 then d0
  else
    let cur := on (CTL.AXSTAT.CMODE a) d0
    let sel := rd (CTL.AXCFG.CMSEL a) d0
    let vq := rd (CTL.VQ a) d0 * 65536
    let new := if sel = 1 then false else if sel = 2 then true
      else if cur then !decide (10 * x.v.natAbs < 9 * vq) else decide (vq < x.v.natAbs)
    wrB (CTL.AXSTAT.CMODE a) new (axSet a { x with msw := true, modeChg := new != cur } d0)

/-! ## Load angle (R319–R322) -/

/-- atan(2^-i) in 10^-9 degrees. -/
def atanTab : List Int :=
  [45000000000, 26565051177, 14036243468, 7125016349, 3576334375, 1789910608, 895173710, 447614171, 223810500,
   111905677, 55952892, 27976453, 13988227, 6994114, 3497057, 1748528, 874264, 437132, 218566, 109283, 54642, 27321,
   13660, 6830, 3415, 1708, 854, 427, 213, 107, 53, 27, 13, 7]

/-- The angle of a vector in the right half-plane, by successive rotations. -/
def atanAux : List Int → Nat → Int → Int → Int → Int
  | [], _, _, _, z => z
  | t :: r, i, x, y, z =>
    if 0 ≤ y then atanAux r (i + 1) (x + y / 2 ^ i) (y - x / 2 ^ i) (z + t)
    else atanAux r (i + 1) (x - y / 2 ^ i) (y + x / 2 ^ i) (z - t)

/-- atan2 in 10^-9 degrees, (−180°, 180°]. -/
def atan2 (y x : Int) : Int :=
  if x = 0 ∧ y = 0 then 0
  else
    let k : Int := 2 ^ 40
    if 0 < x ∨ (x = 0) then (if x = 0 then (if 0 < y then 90000000000 else -90000000000) else atanAux atanTab 0 (x * k) (y * k) 0)
    else
      let z := atanAux atanTab 0 (-x * k) (-y * k) 0
      if 0 ≤ y then z + 180000000000 else z - 180000000000

/-- An angle wrapped to (−180°, 180°]. -/
def wrapDeg (z : Int) : Int :=
  let m := z % 360000000000
  if 180000000000 < m then m - 360000000000 else m

/-- delta of R319 in 10^-9 degrees. -/
def loadDelta (a : Nat) (ia0 ib0 : Int) (d : Dev) : Int :=
  let x := axOf a d
  let r := axInp a d
  let T : Int := cycNs d
  let R : Int := rd (CTL.MOTRL.RES a) d
  let L : Int := rd (CTL.MOTRL.IND a) d
  let emf (u i i0 : Int) : Int := u * 10000 * T - R * i * T - L * (i - i0) * 10000000
  let ia := toS 16 (r.word 8 2)
  let ib := toS 16 (r.word 10 2)
  let ea := emf (toS 16 (r.word 4 2)) ia ia0
  let eb := emf (toS 16 (r.word 6 2)) ib ib0
  let theta := 360000000000 * (r.msidx : Int) / 1024 - 360 * x.v * T / (2 * 65536 * 1024)
  let phi := wrapDeg (atan2 eb ea - theta)
  wrapDeg (90000000000 - x.v.sign * phi)

/-- A stall is declared (R321, R326): the reference of homing mode 3, no fault in the rest of that mode. -/
def stalled (a : Nat) (d : Dev) : Dev :=
  let x := axOf a d
  if x.ph = .hard then homeHard a d else if x.ph ≠ .none ∧ x.homeMode = 3 then d else axFault a 0x09 d

/-- The load-angle estimator and stall detection, made once a cycle. The last hundredth of a degree is rounded freely
(log 31). -/
def loadAngle (a : Nat) (d0 : Dev) : Dev :=
  let x := axOf a d0
  if x.loads || axState a d0 == 0 || axClass a d0 == 0 then d0
  else
    let r := axInp a d0
    let now := (toS 16 (r.word 8 2), toS 16 (r.word 10 2))
    let blind := decide (x.v.natAbs < rd (CTL.VEMF a) d0 * 65536) || x.chgPrev || !r.fresh || x.iPrev.isNone
    let prev := x.iPrev.getD (0, 0)
    let del := loadDelta a prev.1 prev.2 d0
    let d := axSet a { x with loads := true, iPrev := if r.fresh then some now else none } d0
    let d := wrB (CTL.AXSTAT.BLIND a) blind (wrB (CTL.LOADANG.BLIND a) blind d)
    if blind then axSet a { axOf a d with stallN := 0 } d
    else
      let d := drawn (wrS (CTL.LOADANG.ANGLE a) (del / 10000000 + (if bit (freeOf d).toNat 0 then 1 else 0)) d)
      let n := if (rd (CTL.STALLCFG.STALLANG a) d : Int) * 1000000000 < del then x.stallN + 1 else 0
      let d := axSet a { axOf a d with stallN := n } d
      if (on (CTL.STALLCFG.EN a) d || decide (x.ph = .hard)) && decide (rd (CTL.STALLCFG.STALLN a) d ≤ n) then
        stalled a (axSet a { axOf a d with stallN := 0 } d)
      else d

/-! ## What the node's record says (R309, R312, R322) -/

/-- The positions a class S node has reported last, this cycle's record with them (R354). -/
def actNow (a : Nat) (d : Dev) : List (Nat × Int) :=
  let x := axOf a d
  let r := axInp a d
  if !x.ruled && r.fresh && axClass a d == 0 then (d.ctl.cyc, r.actPos) :: x.act.take 1 else x.act

/-- The mode an axis is in: 0 POS, 1 VEL, 2 TRQ. -/
def axMode (a : Nat) (d : Dev) : Nat := if axClass a d = 0 then rd (CTL.AXLOOP.MODE a) d else 0

/-- The following-error check of a class S axis (R322): a cycle in which it cannot be made ends a row. -/
def followCheck (a : Nat) (d : Dev) : Dev :=
  let x := axOf a d
  let r := axInp a d
  let lim := rd (CTL.FOLLERR a) d
  if axClass a d ≠ 0 ∨ axMode a d ≠ 0 ∨ lim = 0 ∨ r.fresh = false then axSet a { x with followN := 0 } d
  else
    let n := if lim * 65536 < (x.p - x.ofs - r.actPos).natAbs then x.followN + 1 else 0
    let d := axSet a { x with followN := n } d
    if rd (CTL.STALLCFG.STALLN a) d ≤ n ∧ 0 < n then axFault a 0x0A (axSet a { axOf a d with followN := 0 } d) else d

/-- The rules an enabled axis is under each cycle, beside its three sequences; applied once. A class S node that restarts,
or reports a position feedback fault, loses its position (R310). -/
def axRules (a : Nat) (d0 : Dev) : Dev :=
  if axState a d0 == 0 || (axOf a d0).ruled then d0
  else
    let x := { axOf a d0 with ruled := true }
    let r := axInp a d0
    let stat := r.byte 0
    let alive := x.alive || (r.fresh && !bit stat 5)
    let d := axSet a { x with alive := alive
                              act := actNow a d0 } d0
    let d := if r.fresh && bit stat 5 && alive && axState a d != 6 then axFault a 0x03 d else d
    let d := if r.fresh && bit stat 6 && !(axOf a d).nodeFlt then axFault a 0x04 d else d
    let d := if r.fresh then axSet a { axOf a d with nodeFlt := bit stat 6 } d else d
    let d := followCheck a d
    let x := axOf a d
    let restarted := r.fresh && axClass a d == 0 && x.boot.isSome && x.boot != some r.boot
    let feedback := r.fresh && axClass a d == 0 && (bit stat 6 || axState a d == 6) && r.byte 1 == 5
    let d := whenB (restarted || feedback) (wrB (CTL.AXSTAT.PVALID a) false) d
    axSet a { x with boot := if r.fresh then some r.boot else x.boot } d

/-- The member is LOST: the fall-back (R309). -/
def memberLost (m : Nat) (d : Dev) : Dev :=
  forAll axes (fun a d => if axisOn m a d then axFault a 0x02 d else d) d

/-! ## The keep entry (R316, Table 09-5) -/

/-- A keep entry written. -/
def keepWrite (a : Nat) (still : Bool) (d : Dev) : Dev :=
  let x := axOf a d
  let r := axInp a d
  let cls := axClass a d
  let b := leBytes 8 (ofS 64 x.p) ++ leBytes 8 (ofS 64 x.ofs) ++ leBytes 2 r.boot ++
    (if cls = 0 then [0, 0] else leBytes 2 r.msidx) ++
    [axMember a d, 1 + 2 * b2n still + 4 * b2n (on (CTL.AXSTAT.PVALID a) d) + 8 * cls] ++ List.replicate 6 0
  retWrite (0x4000 + 32 * a) (b ++ leBytes 4 (crc32 b)) d

/-- The keep entry in a cycle (R316). After an abort the entry of a class P or H axis stands, for R317 to judge (R310). -/
def keepCycle (a : Nat) (d : Dev) : Dev :=
  if axState a d = 0 ∨ (axState a d = 6 ∧ axClass a d ≠ 0) then d
  else
    let x := axOf a d
    let still := on (CTL.AXSTAT.STANDSTILL a) d
    if axClass a d = 0 || still || x.kept then axSet a { x with kept := still } (keepWrite a still d) else d

/-! ## The output record (R296–R298, R311, R314, R315, Tables 08-6 and 08-7) -/

/-- The record of an axis, fields as NET holds them; trq is SETPT in TRQ mode (R353). -/
def axRecord (a : Nat) (trq : Int) (d : Dev) : List Nat :=
  let x := axOf a d
  let st := axState a d
  let cls := axClass a d
  let off := on (CTL.AXSTAT.DRVOFF a) d
  let node := x.p - x.ofs
  let en := st != 0 && !x.cut && !(cls == 0 && off)
  let cap := if x.ph = .edge then 5 else if x.ph = .index then 2 else 0
  if st = 6 then holdRec
  else if cls = 0 then
    let md := axMode a d
    let ctrl := 0x80 * b2n en + 0x20 * b2n x.frst + 8 * md
    let set := if md = 2 then leBytes 4 (ofS 32 trq) ++ List.replicate 4 0
               else if md = 1 then leBytes 8 (ofS 64 x.v) else leBytes 8 (ofS 64 node)
    let vff := if md = 0 then leBytes 4 (ofS 32 (x.v / 65536)) else [0, 0, 0, 0]
    [ctrl, cap] ++ set ++ vff ++ leBytes 2 (rd (CTL.CURCFG.ILIM a) d)
  else
    let strong := on (CTL.AXSTAT.CMODE a) d
    let ctrl := 0x80 * b2n en + 0x20 * b2n x.frst + 8 * b2n strong
    if cls = 1 then
      [ctrl, cap] ++ leBytes 8 (ofS 64 node) ++
        [rd (CTL.CURCFG.IRUN a) d, if off then 0 else rd (CTL.CURCFG.IHOLD a) d, 0, 0, 0, 0]
    else
      let taddr := ((node / 65536 + rd (CTL.AXCFG.PHOFF a) d) % 1024).toNat
      let amp := if off then 0 else if on (CTL.AXSTAT.STANDSTILL a) d then rd (CTL.IDLECFG.AMPH a) d
                 else if strong then rd (CTL.CURCFG.IRUN a) d else rd (CTL.CURCFG.IHOLD a) d
      [ctrl, cap] ++ leBytes 2 taddr ++ [amp] ++ List.replicate 11 0

/-- The record is committed: every bound axis that is enabled, and once as it leaves (Table 09-1); after the one with FRST once
more without it (R311). -/
def axCommit (a : Nat) (trq : Int) (d0 : Dev) : Dev :=
  let x := axOf a d0
  if !on (CTL.AXCFG.BOUND a) d0 || (axState a d0 == 0 && !x.leave) then d0
  else axSet a { x with frst := false, leave := x.frst } (setOutRec (axMember a d0) (axRecord a trq d0) d0)

/-- IDLE_POWERDOWN (R315), the delay counted from the cycle in which STANDSTILL set. -/
def idleDown (a : Nat) (d : Dev) : Dev :=
  let x := axOf a d
  if on (CTL.IDLECFG.PDEN a) d && on (CTL.AXSTAT.STANDSTILL a) d && axState a d != 0 &&
      decide (x.mv = .still ∧ rd (CTL.IDLECFG.IDLEDLY a) d * 1000000 ≤ (x.still - 1) * cycNs d) then wrB (CTL.AXSTAT.DRVOFF a) true d
  else d

end Sys2Proof.Machine
end

