-- ==== Sys2Proof/Machine/Permission.lean ====
section
/-! DEFINITION. Machine/Permission.lean: J6, the permission monitor and the stop chain in SEC (The seven openings: Stop
and time connector; Permission to move and stopping the fleet; Single-fault coverage: Critical faults, The stop chain). -/

namespace Sys2Proof.Machine

/-! ## Causes (Table 04-4) -/

def cJ6 : Nat := 1
def cJ6Fault : Nat := 2
def cNoToken : Nat := 3
def cMoss : Nat := 4
def cFwStop : Nat := 5
def cNetStop : Nat := 6
def cHeartbeat : Nat := 7
def cCritFault : Nat := 8
def cGraceEnd : Nat := 9
def cNoKey : Nat := 10

/-- The causes that latch (R142). -/
def latches (c : Nat) : Bool := c == cJ6 || c == cJ6Fault || c == cFwStop || c == cNetStop || c == cGraceEnd

/-! ## Conditions of R127 -/

/-- A J6 fault is latched: STOP_DISCREPANCY or a test fault (R31). -/
def j6Fault (d : Dev) : Bool := on SEC.J6STAT.DISCREP d || on SEC.J6STAT.TFAULTA d || on SEC.J6STAT.TFAULTB d

/-- Both filtered states are closed and no J6 fault is latched. -/
def j6Ok (d : Dev) : Bool := on SEC.J6STAT.ACLOSED d && on SEC.J6STAT.BCLOSED d && !j6Fault d

/-- A heartbeat within the last 30 ms; exactly 30 ms still counts (R127, R128). -/
def within30 (r : Option Nat) (d : Dev) : Bool :=
  match r with
  | none => false
  | some x => decide (d.raw ≤ x + 30 * rawPerMs)

def appHbOk (d : Dev) : Bool := within30 d.sec.hbRaw d
def schHbOk (d : Dev) : Bool := within30 d.sec.schRaw d

/-- NOCRIT: every bit of CRITSTAT is 0 (Critical faults). -/
def noCrit (d : Dev) : Bool :=
  !(on SEC.CRITSTAT.J6 d || on SEC.CRITSTAT.PSTUCK d || on SEC.CRITSTAT.DRBG d || on SEC.CRITSTAT.DECIDE d ||
    on SEC.CRITSTAT.BCNCHK d || on SEC.CRITSTAT.CLOCK d || on SEC.CRITSTAT.RAIL d || on SEC.CRITSTAT.RAWCNT d ||
    on SEC.CRITSTAT.TCXO d || on SEC.CRITSTAT.SQECC d)

/-- The beacon-key generation in use for a superframe (R517). -/
def genFor (sf : Nat) (d : Dev) : Nat :=
  if on SEC.BKGEN.NEXTPEND d && decide (0 ≤ toS 32 (ofS 32 ((sf : Int) - rd SEC.BKFIRST d))) then rd SEC.BKGEN.NEXT d
  else rd SEC.BKGEN.CUR d

/-- The fixed slot of the beacon key in use for a superframe (Table 16-4). -/
def genSlot (sf : Nat) (d : Dev) : Nat :=
  if on SEC.BKGEN.NEXTPEND d && decide (0 ≤ toS 32 (ofS 32 ((sf : Int) - rd SEC.BKFIRST d))) then 3 else 2

/-- The beacon key of the coming superframe is held in its fixed slot. -/
def keyOk (d : Dev) : Bool := (slotAt (genSlot ((sfNow d + 1) % 2 ^ 32) d) d).isSome

/-- The first condition of R127 that fails, as a cause (none: all hold). The order among conditions that fail together
is the model's (log 10); J6FAULT before J6 is R142's, and NOKEY last is R127's. -/
def condFail (d : Dev) : Option Nat :=
  if j6Fault d then some cJ6Fault
  else if !j6Ok d then some cJ6
  else if on SEC.PMSTAT.MOSS d then some cMoss
  else if !noCrit d then some cCritFault
  else if !(appHbOk d || on SEC.PMSTAT.GRACE d) then some cHeartbeat
  else if !schHbOk d then some cHeartbeat
  else if on SEC.PMSTAT.LATCH d then some (rd SEC.PMSTAT.CAUSE d)
  else if !keyOk d then some cNoKey
  else none

/-- The status bits of PMSTAT that mirror the conditions. -/
def pmMirror (d : Dev) : Dev :=
  let d := wrB SEC.PMSTAT.NOCRIT (noCrit d) d
  let d := wrB SEC.PMSTAT.SCHHB (schHbOk d) d
  let d := wrB SEC.PMSTAT.APPHBOK (appHbOk d) d
  wrB SEC.PMSTAT.J6OK (j6Ok d) d

/-! ## PERMIT (R32–R34) -/

/-- PERMIT follows the grant, unless overloaded, unsupplied or in reset (R32, R34, R132); the pin reads high too while it is
held high from outside (R33). -/
def permitFollow (d : Dev) : Dev :=
  let v := on SEC.PMSTAT.GRANT d && !on SEC.J6STAT.POVLD d && d.sec.ioSup && isUp SECi d
  let low := if d.sec.permit && !v then d.raw else d.sec.permLow
  wrB SEC.J6STAT.PERMITRB (v || d.sec.pinHigh) { d with sec := { d.sec with permit := v, permLow := low } }

/-! ## Falls and latched stops (R131, R142, R145) -/

/-- The withdrawal to RAD and CTL: cause, LATCH, and the last superframe whose token it covers (R131). -/
def withdraw (cause : Nat) (latch : Bool) (d : Dev) : Dev :=
  let upto := rd SEC.LASTDEC d
  let d := hwPush 11 [0, BitVec.ofNat 64 cause, BitVec.ofNat 64 (b2n latch), BitVec.ofNat 64 upto] d
  let d := hwPush 12 [0, BitVec.ofNat 64 cause, BitVec.ofNat 64 (b2n latch)] d
  { d with sec := { d.sec with wdSf := some (sfNow d) } }

/-- The record GRANT_FALL (Table 17-3). -/
def fallRecord (cause : Nat) (d : Dev) : Dev :=
  lichen 1 0x0201 (leBytes 1 cause ++ leBytes 4 (rd SEC.STOPSEQ d)) d

/-- STOPSEQ and LATCH as a global stop latches (R142, R145). -/
def latchBits (cause : Nat) (d : Dev) : Dev :=
  wr SEC.PMSTAT.CAUSE cause (wrB SEC.PMSTAT.LATCH true (inc SEC.STOPSEQ d))

/-- The grant falls with a cause; `lat` says whether the cause latches now (R131, R132, R142). -/
def fall (cause : Nat) (lat : Bool) (d : Dev) : Dev :=
  let up := on SEC.PMSTAT.GRANT d
  let d := if lat then latchBits cause d else wr SEC.PMSTAT.CAUSE cause d
  let d := wrB SEC.PMSTAT.GRANT false d
  let d := if up then wrB SEC.PMSTAT.FALLEVT true d else d
  let d := permitFollow (withdraw cause (on SEC.PMSTAT.LATCH d) d)
  if up then token 1 1 0xF4 cause (fallRecord cause d) else d

/-- A global stop latches with a cause, whether SEC was granting or not (R142, R145). -/
def latchStop (cause : Nat) (d : Dev) : Dev := fall cause true d

/-- A critical fault sets: NOCRIT clears and a grant falls with cause CRITFAULT (Critical faults). -/
def critSet (f : Fld) (d : Dev) : Dev :=
  let d := pmMirror (wrB f true { d with sec := { d.sec with critRaw := tset d.sec.critRaw f.lo d.raw 0 } })
  if on SEC.PMSTAT.GRANT d then fall cCritFault false d else d

/-- WRATE lies beyond ±5 ppm with a time source selected (R564). -/
def wrateOut (d : Dev) : Bool :=
  rd AON.WCTL.SRC d != 0 && decide (5 * 2 ^ 40 < (rdS AON.WRATE d).natAbs * 1000000)

/-- CRITSTAT.TCXO for such a rate (R564), and the count at which the rate comes back, from which R557 asks for 1 s without it. -/
def wrateGuard (d : Dev) : Dev :=
  if !isUp SECi d then d
  else if wrateOut d then
    let d := { d with sec := { d.sec with rateBad := true } }
    if on SEC.CRITSTAT.TCXO d then d else critSet SEC.CRITSTAT.TCXO d
  else if d.sec.rateBad then
    { d with sec := { d.sec with rateBad := false, critRaw := tset d.sec.critRaw SEC.CRITSTAT.TCXO.lo d.raw 0 } }
  else d

/-! ## Evaluation by the two halves (R127, R558) -/

/-- The two halves' verdicts on the conditions. -/
def verdicts (flt : Option HalfFault) (d : Dev) : Option Nat × Option Nat :=
  let v := condFail d
  match flt with
  | none => (v, v)
  | some h => if h.half = 0 then (h.tells.map (·.val), v) else (v, (h.tells.map (·.val)))

/-- The two halves' falls settled: the same latching cause latches, a difference is a disagreement (R558). -/
def settleSolo (half cause : Nat) (v : Option Nat × Option Nat) (d : Dev) : Dev :=
  let other := if half = 0 then v.2 else v.1
  let d := { d with sec := { d.sec with solo := none } }
  if other = some cause then
    if latches cause && !on SEC.PMSTAT.LATCH d then withdraw cause true (latchBits cause d) else d
  else withdraw cCritFault (on SEC.PMSTAT.LATCH d) (wr SEC.PMSTAT.CAUSE cCritFault d)

/-- The evaluation of R127 every 1 ms and at each J6 change: a failed condition takes the grant away (R127, R131, R558). -/
def evalGrant (flt : Option HalfFault) (d0 : Dev) : Dev :=
  let d := pmMirror d0
  let v := verdicts flt d
  let d := match d.sec.solo with
    | some (h, c) => settleSolo h c v d
    | none => d
  if on SEC.PMSTAT.GRANT d then
    match v with
    | (none, none) => d
    | (some a, some b) => if a = b then fall a (latches a && !on SEC.PMSTAT.LATCH d) d else fall cCritFault false d
    | (some a, none) => fall a false { d with sec := { d.sec with solo := some (0, a) } }
    | (none, some b) => fall b false { d with sec := { d.sec with solo := some (1, b) } }
  else if v = (some cNoKey, some cNoKey) then wr SEC.PMSTAT.CAUSE cNoKey d
  else d

/-! ## J6 filters, faults and their clearing (R27–R31, R142) -/

/-- The raw counts between two samples of the STOP inputs, and in a test period (R27). -/
def j6Sample : Nat := 2600
def j6Period : Nat := 520000

/-- Where in a test period a channel's TEST output goes low, for 13,000 counts (R27). -/
def testStart (chB : Bool) : Nat := if chB then 260000 else 0

/-- Test pulses have begun: the test period of a raw count started at or after SEC's release (R569). -/
def testsRun (d : Dev) : Bool := decide (d.sec.j6From ≤ d.raw / j6Period * j6Period)

/-- A TEST output's level (R27, R569): high but for its pulse, and high throughout while SEC is in reset. -/
def testHigh (chB : Bool) (d : Dev) : Bool :=
  let at_ := d.raw % j6Period
  !(isUp SECi d && testsRun d && decide (testStart chB ≤ at_ ∧ at_ < testStart chB + 13000))

/-- How many of the first n sample instants from raw count 0 are a channel's test samples: the five while its TEST output is
low and the two of the 200 µs after, of 200 in each period (R27). -/
def testSamples (chB : Bool) (n : Nat) : Nat := n / 200 * 7 + min 7 (n % 200 - testStart chB / j6Sample)

/-- How many state samples of a channel lie after one raw count, up to another (R27). Before the first test period that
follows SEC's release there are no test samples. -/
def stateSamples (chB : Bool) (lo hi : Nat) (d : Dev) : Nat :=
  let a := lo / j6Sample + 1
  let b := hi / j6Sample + 1
  let t0 := max a ((d.sec.j6From + j6Period - 1) / j6Period * 200)
  b - a - (if t0 < b then testSamples chB b - testSamples chB t0 else 0)

/-- A change of a channel's filtered state is due: this count is one of its state samples, and 2 ms of them, that is twenty,
have been taken since its last change or SEC's release (R27). -/
def filterDue (chB : Bool) (d : Dev) : Bool :=
  let since := if chB then d.sec.fltB else d.sec.fltA
  decide (d.raw % j6Sample = 0) && decide (stateSamples chB (d.raw - 1) d.raw d = 1) && decide (20 ≤ stateSamples chB since d.raw d)

/-- Both filtered states read open, as at SEC's release. -/
def bothOpen (d : Dev) : Bool := !on SEC.J6STAT.ACLOSED d && !on SEC.J6STAT.BCLOSED d

/-- The clearing sequence of R31 begins again; filtered states that are open together now count as open together. One sequence
serves every latched fault (DEDUCED, log 122). -/
def clrRestart (d : Dev) : Dev :=
  { d with sec := { d.sec with clrPhase := b2n (bothOpen d), clrA := 0, clrB := 0 } }

/-- A stop of J6 latches. What SEC sees at one evaluation, that is at one raw count, is one stop, with cause J6FAULT where
a fault is among it (R142). -/
def j6Latch (cause : Nat) (d : Dev) : Dev :=
  if d.sec.j6Raw = some d.raw then
    if cause = cJ6Fault ∧ rd SEC.PMSTAT.CAUSE d ≠ cJ6Fault then withdraw cJ6Fault true (wr SEC.PMSTAT.CAUSE cJ6Fault d) else d
  else latchStop cause { d with sec := { d.sec with j6Raw := some d.raw } }

/-- A J6 fault latches: the fault is critical, and a global stop latches with cause J6FAULT (R31, R142). -/
def j6FaultLatch (d : Dev) : Dev := j6Latch cJ6Fault (pmMirror (wrB SEC.CRITSTAT.J6 true (clrRestart d)))

/-- The clearing sequence follows the filtered states: both open together, then both closed together (R31). A channel that
opens alone after both have closed sends it back to its beginning (DEDUCED, log 122). -/
def clrFollow (d : Dev) : Dev :=
  let a := on SEC.J6STAT.ACLOSED d
  let b := on SEC.J6STAT.BCLOSED d
  let ph := if !a && !b then 1 else if a && b && d.sec.clrPhase = 1 then 2
            else if d.sec.clrPhase = 2 then (if a && b then 2 else 0) else d.sec.clrPhase
  { d with sec := { d.sec with clrPhase := ph, clrA := if ph = 2 then d.sec.clrA else 0, clrB := if ph = 2 then d.sec.clrB else 0 } }

/-- The faults clear once three successive test windows on each channel have passed (R31). -/
def clrDone (d : Dev) : Dev :=
  if j6Fault d && d.sec.clrPhase == 2 && decide (3 ≤ d.sec.clrA) && decide (3 ≤ d.sec.clrB) then
    pmMirror (wrB SEC.CRITSTAT.J6 false (wrB SEC.J6STAT.DISCREP false (wrB SEC.J6STAT.TFAULTA false
      (wrB SEC.J6STAT.TFAULTB false (clrRestart d)))))
  else d

/-- A channel's filtered state changes or first settles (R27, R28, R30, R142); the samples of its next change count from here. -/
def j6Change (chB closed : Bool) (d0 : Dev) : Dev :=
  let f := if chB then SEC.J6STAT.BCLOSED else SEC.J6STAT.ACLOSED
  let was := on f d0
  let set_ := if chB then d0.sec.setB else d0.sec.setA
  let d := wrB f closed d0
  let d := if chB then { d with sec := { d.sec with setB := true, fltB := d.raw } }
           else { d with sec := { d.sec with setA := true, fltA := d.raw } }
  let a := on SEC.J6STAT.ACLOSED d
  let b := on SEC.J6STAT.BCLOSED d
  let disc := if a == b then none else match d.sec.discFrom with
    | some r => some r
    | none => some d.raw
  let cl := if a && b then (match d.sec.closedAt with
    | some r => some r
    | none => some d.raw) else none
  let d := clrFollow { d with sec := { d.sec with discFrom := disc, closedAt := cl } }
  let opens := !closed && (was || !set_)
  evalGrant none (if opens then j6Latch cJ6 d else d)

/-- A channel's filtered state takes a value, where its samples make that due (R27). -/
def filterChange (chB closed : Bool) (d : Dev) : Dev :=
  let was := if chB then on SEC.J6STAT.BCLOSED d else on SEC.J6STAT.ACLOSED d
  let settled := if chB then d.sec.setB else d.sec.setA
  if (settled && was == closed) || !filterDue chB d then d else j6Change chB closed d

/-- STOP_DISCREPANCY after more than 50 ms (R30). -/
def discrepancy (d : Dev) : Dev :=
  match d.sec.discFrom with
  | none => d
  | some r =>
    if decide (r + 50 * rawPerMs < d.raw) && !on SEC.J6STAT.DISCREP d then
      j6FaultLatch (wrB SEC.J6STAT.DISCREP true d)
    else d

/-- The part of a test window that a raw count decides (R27, R29), numbered on from window to window of one channel: 2p at its
decisive sample, the last with its TEST output low, and 2p + 1 at the first sample after its test samples. -/
def windowPart (chB : Bool) (d : Dev) : Option Nat :=
  let at_ := d.raw % j6Period
  if !testsRun d then none
  else if at_ = testStart chB + 10400 then some (2 * (d.raw / j6Period))
  else if at_ = testStart chB + 18200 then some (2 * (d.raw / j6Period) + 1)
  else none

/-- A test window judged (R29, R31): the channel under test, whether it reads closed at the decisive sample, and whether the
other channel reads closed at that sample, at its last sample before and at its first sample after. A short shows at the
decisive sample; a cross-short, and that the window passed, with the first sample after. -/
def testWindow (chB own other before after : Bool) (late : Bool) (d : Dev) : Dev :=
  let cross := late && !other && before && after
  let setF (b : Bool) (d : Dev) : Dev := wrB (if b then SEC.J6STAT.TFAULTB else SEC.J6STAT.TFAULTA) true d
  if own || cross then
    let new := if cross then !(on SEC.J6STAT.TFAULTA d && on SEC.J6STAT.TFAULTB d)
               else !(if chB then on SEC.J6STAT.TFAULTB d else on SEC.J6STAT.TFAULTA d)
    let d := if cross then setF true (setF false d) else setF chB d
    if new then j6FaultLatch d else clrRestart d
  else if late && d.sec.clrPhase == 2 then
    let d := if chB then { d with sec := { d.sec with clrB := d.sec.clrB + 1 } } else { d with sec := { d.sec with clrA := d.sec.clrA + 1 } }
    clrDone d
  else d

/-- The check of a window, once for each of its two parts (R29). -/
def windowCheck (chB own other before after : Bool) (d : Dev) : Dev :=
  match windowPart chB d with
  | none => d
  | some w =>
    let last := if chB then d.sec.winB else d.sec.winA
    if last.any (w ≤ ·) then d
    else testWindow chB own other before after (w % 2 == 1)
      (if chB then { d with sec := { d.sec with winB := some w } } else { d with sec := { d.sec with winA := some w } })

/-! ## The decision instant (R129, R135, R143, R148, R558) -/

/-- The speed cap of the next token (R148). -/
def speedCap (d : Dev) : Nat :=
  if on SEC.PMSTAT.CRAWL d then min (rd SEC.SPEEDCAP d) (rd SEC.MOSSCAP d) else rd SEC.SPEEDCAP d

/-- The singled set as (member, zone) pairs (R136). -/
def singled (d : Dev) : List (Nat × Nat) :=
  (List.range 8).filterMap (fun i =>
    if on (SEC.SGL.VALID i) d then some (rd (SEC.SGL.MEMBER i) d, rd (SEC.SGL.ZONE i) d) else none)

/-- The singled set written back, entries from 0 on. -/
def setSingled (l : List (Nat × Nat)) (d : Dev) : Dev :=
  forAll (List.range 8) (fun i d =>
    match l[i]? with
    | some (m, z) => wrB (SEC.SGL.VALID i) true (wr (SEC.SGL.MEMBER i) m (wr (SEC.SGL.ZONE i) z d))
    | none => wrB (SEC.SGL.VALID i) false (wr (SEC.SGL.MEMBER i) 0 (wr (SEC.SGL.ZONE i) 0 d))) d

/-- Ten-bit IDs packed eight to ten bytes, entry 0 first (Table 04-1). -/
def packIds (ids : List Nat) : List Nat :=
  beBytes 10 ((List.range 8).foldl (fun acc i => acc * 1024 + (ids.getD i 0) % 1024) 0)

/-- The message the token is computed over (R124, Table 04-1): 30 bytes. -/
def tokenMsg (sys base sf epoch zones cap : Nat) (ids : List Nat) : List Nat :=
  beBytes 2 sys ++ [base] ++ beBytes 4 sf ++ beBytes 2 epoch ++ beBytes 8 zones ++
  [ids.length] ++ packIds ids ++ beBytes 2 cap

/-- The token for a superframe from the present grant state (R124). -/
def tokenFor (fu : Fuses) (sf : Nat) (d : Dev) : Nat :=
  match slotKey (genSlot sf d) d, fu.settings with
  | some k, some st =>
    ofBe ((cmac k (tokenMsg st.sys st.base sf (rd SEC.EPOCH d) (rd SEC.ZGRANT d) (speedCap d) ((singled d).map (·.1)))).take 4)
  | _, _ => 0

/-- Token and snapshot to RAD on SQ10 (R129): superframe, token, epoch, zones, cap, flags KG, CRAWL and GRACE, and the
singled members with their zones. -/
def sendToken_ (sf tok : Nat) (d : Dev) : Dev :=
  let fl := genFor sf d % 2 + 2 * b2n (on SEC.PMSTAT.CRAWL d) + 4 * b2n (on SEC.PMSTAT.GRACE d)
  let sg := (singled d).map (fun e => BitVec.ofNat 64 (e.1 + e.2 * 1024))
  hwPush 10 ([BitVec.ofNat 64 sf, BitVec.ofNat 64 tok, BitVec.ofNat 64 (rd SEC.EPOCH d), BitVec.ofNat 64 (rd SEC.ZGRANT d),
              BitVec.ofNat 64 (speedCap d), BitVec.ofNat 64 fl] ++ sg) d

/-- UNSINGLE writes take effect (R135). -/
def applyUnsingle (d : Dev) : Dev :=
  let l := (singled d).filter (fun e => !d.sec.unsingle.contains e.1)
  setSingled l { d with sec := { d.sec with unsingle := [] } }

/-- The decision instant for the next superframe (R129, R143, R148, R306, R558). -/
def decide_ (fu : Fuses) (flt : Option HalfFault) (d0 : Dev) : Dev :=
  let d := applyUnsingle d0
  let d := if !d.sec.fixq && !on SEC.PMSTAT.MOSS d then wrB SEC.PMSTAT.CRAWL true d else d
  let d := evalGrant flt d
  let v := verdicts flt d
  let sf := (sfNow d + 1) % 2 ^ 32
  let same := decide (v.1 = none ↔ v.2 = none) && !(decide (v = (none, none)) && flt.any (·.snap))
  let d := if same then { d with sec := { d.sec with disRun := 0 } }
           else
             let d := inc SEC.DECMIS { d with sec := { d.sec with disRun := d.sec.disRun + 1 } }
             if 2 ≤ d.sec.disRun then critSet SEC.CRITSTAT.DECIDE d else d
  let zones (d : Dev) : Nat := if on SEC.PMSTAT.GRANT d then rd SEC.ZGRANT d else 0
  let d := if v = (none, none) ∧ same = true then
      let d := if on SEC.PMSTAT.GRANT d then d
               else permitFollow (inc SEC.EPOCH (wrB SEC.PMSTAT.GRANT true d))
      let tok := tokenFor fu sf d
      let d := sendToken_ sf tok (redraw (genSlot sf d) d)
      let d := wr SEC.LASTDEC sf (wr SEC.ZTOKEN (rd SEC.ZGRANT d) d)
      { d with sec := { d.sec with tokens := (d.sec.tokens ++ [(sf, tok)]).drop (d.sec.tokens.length + 1 - 4), wdSf := none } }
    else inc SEC.TOKMISS d
  hwPush 12 [1, BitVec.ofNat 64 (zones d)] d

/-! ## Stop requests taken by SEC (R134, R136, R142) -/

/-- SEC remembers which zones and members were stopped at this raw count: a grant write of the same cycle leaves them stopped
(R135). -/
def noteCut (zs ms : List Nat) (d : Dev) : Dev :=
  let now := d.sec.cutRaw == some d.raw
  { d with sec := { d.sec with cutRaw := some d.raw, cutZones := zs ++ (if now then d.sec.cutZones else []),
                               cutMembs := ms ++ (if now then d.sec.cutMembs else []) } }

/-- A zone stop clears the zone's bit in ZGRANT (R134, R135). -/
def secZoneStop (z : Nat) (d : Dev) : Dev := noteCut [z] [] (wrBit SEC.ZGRANT z false d)

/-- ZGRANT written: ignored during grace (R150); a zone stopped in the same cycle stays stopped (R135). -/
def zgrantWrite (v : Nat) (d : Dev) : Dev :=
  if on SEC.PMSTAT.GRACE d then d
  else (if d.sec.cutRaw = some d.raw then d.sec.cutZones else []).foldl (fun d z => wrBit SEC.ZGRANT z false d) (wr SEC.ZGRANT v d)

/-- UNSINGLE written: ignored during grace (R150); a member singled in the same cycle stays singled (R135). The write waits for
the next decision instant. -/
def unsingleWrite (m : Nat) (d : Dev) : Dev :=
  if on SEC.PMSTAT.GRACE d || (d.sec.cutRaw == some d.raw && d.sec.cutMembs.contains m) then d
  else { d with sec := { d.sec with unsingle := d.sec.unsingle ++ [m] } }

/-- A singling enters the set, or clears the zone's bit where the set is full (R136). -/
def secSingle (m z : Nat) (d : Dev) : Dev :=
  let d := noteCut [] [m] { d with sec := { d.sec with unsingle := d.sec.unsingle.filter (· ≠ m) } }
  let l := singled d
  if l.any (fun e => e.1 == m) then d
  else if l.length < 8 then setSingled (l ++ [(m, z)]) d
  else secZoneStop z (wrB SEC.PMSTAT.SGLOVF true d)

/-- A forwarded stop request: kind 1 global, 2 zone, 3 single (Table 04-14). -/
def secStop (kind zone member cause : Nat) (d : Dev) : Dev :=
  if kind = 1 then latchStop cause d
  else if kind = 2 then secZoneStop zone d
  else if kind = 3 then secSingle member zone d
  else d

/-! ## Heartbeats, grace, resume, crawl -/

/-- An accepted APP heartbeat (R128, R149): it ends grace, and steadiness is counted from the last gap over 30 ms. -/
def hbAccept (v : W32) (d : Dev) : Dev :=
  let steady := match d.sec.hbRaw with
    | some r => if d.raw ≤ r + 30 * rawPerMs then d.sec.hbSteady else d.raw
    | none => d.raw
  let d := { d with sec := { d.sec with hbLast := some v, hbRaw := some d.raw, hbSteady := steady, hbAny := false } }
  pmMirror (if on SEC.PMSTAT.GRACE d then
    wrB SEC.PMSTAT.GRACE false { d with sec := { d.sec with graceAt := none, graceEnd := some d.raw } }
  else d)

/-- APPHB written (R128, R565). -/
def appHb (v : W32) (d : Dev) : Dev :=
  match d.sec.hbLast with
  | none => hbAccept v d
  | some p => if d.sec.hbAny || v == p + 1 then hbAccept v d else inc SEC.HBERR d

/-- Grace requested at M level (R149). -/
def graceReq (d : Dev) : Dev :=
  let steady := appHbOk d && decide (d.sec.hbSteady + rawPerS ≤ d.raw)
  let clear := match d.sec.graceEnd with
    | none => true
    | some r => decide (r + 10 * rawPerS ≤ d.raw)
  if steady && clear then
    wrB SEC.PMSTAT.GRACEARM true { d with sec := { d.sec with graceArm := some d.raw } }
  else d

/-- An armed grace lapses when no APP reset has come within 100 ms (R149). -/
def graceLapse (d : Dev) : Dev :=
  match d.sec.graceArm with
  | none => d
  | some r =>
    if r + 100 * rawPerMs < d.raw then wrB SEC.PMSTAT.GRACEARM false { d with sec := { d.sec with graceArm := none } } else d

/-- The APP island reset starts an armed grace (R149). -/
def graceStart (d0 : Dev) : Dev :=
  let d := graceLapse d0
  match d.sec.graceArm with
  | none => d
  | some _ =>
    inc SEC.GRACECNT (wrB SEC.PMSTAT.GRACE true (wrB SEC.PMSTAT.GRACEARM false
      { d with sec := { d.sec with graceArm := none, graceAt := some d.raw, hbAny := true } }))

/-- 500 ms of grace without an accepted heartbeat (R149). -/
def graceTimeout (d : Dev) : Dev :=
  match d.sec.graceAt with
  | none => d
  | some r =>
    if r + 500 * rawPerMs ≤ d.raw then
      latchStop cGraceEnd (wrB SEC.PMSTAT.GRACE false
        { d with sec := { d.sec with graceAt := none, graceEnd := some d.raw } })
    else d

/-- The conditions of a resume (R144). -/
def resumeOk (seq : Nat) (d : Dev) : Bool :=
  let closed := match d.sec.closedAt with
    | none => false
    | some r => decide (r + 500 * rawPerMs ≤ d.raw)
  closed && !j6Fault d && noCrit d && seq == rd SEC.STOPSEQ d && on SEC.PMSTAT.LATCH d

/-- A resume naming a stop: accepted or refused (R144, R145). -/
def resume (seq : Nat) (d : Dev) : Dev :=
  if resumeOk seq d then
    lichen 1 0x0202 (leBytes 4 seq) (wrB SEC.PMSTAT.LATCH false d)
  else lichen 1 0x0203 (leBytes 4 seq) (wrB SEC.PMSTAT.RESREF true d)

/-- SEC enters moss stop: the grant falls with cause MOSS, unlatched (R479, R481). -/
def secMoss (d : Dev) : Dev :=
  let d := wrB SEC.PMSTAT.CRAWL false (wrB SEC.PMSTAT.MOSS true d)
  fall cMoss false d

/-! ## The beacon check (R559, R560) -/

/-- A mismatch in a superframe counted; superframes with one, three in a row, are a critical fault. -/
def bcnMismatch (sf : Nat) (d : Dev) : Dev :=
  let run := if d.sec.bcnBad = some sf then d.sec.bcnRun
             else if d.sec.bcnBad = some ((sf + 2 ^ 32 - 1) % 2 ^ 32) then d.sec.bcnRun + 1 else 1
  let d := inc SEC.BCNMIS { d with sec := { d.sec with bcnBad := some sf, bcnRun := run } }
  if 3 ≤ run then critSet SEC.CRITSTAT.BCNCHK d else d

/-- A beacon report compared with what SEC delivered (R560). -/
def bcnReport (sf stat tok : Nat) (none_ : Bool) (d0 : Dev) : Dev :=
  let d := { d0 with sec := { d0.sec with bcnSf := some sf } }
  let withTok := bit stat 0
  let gstop := bit stat 1
  let bad1 := withTok && !d.sec.tokens.any (fun e => e.1 == sf && e.2 == tok)
  let bad2 := !gstop && (match d.sec.wdSf with
    | none => false
    | some w => decide (0 < toS 32 (ofS 32 ((sf : Int) - w))))
  if !none_ && (bad1 || bad2) then bcnMismatch sf d else d

/-- A report of this superframe's beacon is overdue: CYCLE stands 2 ms or more after the beacon's end, and none came (R74, R560). -/
def bcnLate (d : Dev) : Bool := d.sec.bcnSf != some (sfNow d) && decide (2432000 ≤ cycle d % 10000000)

/-- No report came for this superframe's beacon (R560); it counts once. -/
def bcnMissing (d : Dev) : Dev :=
  if bcnLate d then bcnMismatch (sfNow d) { d with sec := { d.sec with bcnSf := some (sfNow d) } } else d

end Sys2Proof.Machine
end

