-- ==== Sys2Proof/Machine/Radio.lean ====
section
/-! DEFINITION. Machine/Radio.lean: RAD's lanes, hopping, dwell time, beacons, contexts, frames and joins, and the stop
indications it adds (Fleet radio; Permission to move: The beacon, Stop requests). -/

namespace Sys2Proof.Machine

/-! ## Channels, region and dwell time (R73–R90) -/

/-- The region in force: as commissioned, 0 before DEPLOYED even once it is fused, and silent in RETIRED (R87, R504). -/
def region (fu : Fuses) : Nat :=
  match fu.settings with
  | some st => if fu.retired ∨ !fu.deployed then 0 else st.region
  | none => 0

/-- The region maximum of conducted power, dBm (Table 03-5). Without a region nothing is sent; the model then reads +20. -/
def regionMax (fu : Fuses) : Int := if region fu = 2 then 14 else 20

/-- PWRCAP in dBm. Its reset value, the region maximum, is held as a number above every region's. -/
def pwrCap (fu : Fuses) (d : Dev) : Int := min (rdS RAD.PWRCAP d) (regionMax fu)

/-- A power write (R75): clamped to −10 dBm and to the effective cap, with PWRCLAMP. -/
def powerWrite (fu : Fuses) (l : Nat) (bcn : Bool) (v : Int) (d : Dev) : Dev :=
  let c := max (-10) (min v (pwrCap fu d))
  let d := wrS (if bcn then RAD.BCNPWR l else RAD.TXPWR l) c d
  if c = v then d else wrB (RAD.LSTAT.PWRCLAMP l) true d

/-- The channels of a map, in rising order. -/
def mapChans (m : Nat) : List Nat := (List.range 37).filter (fun k => bit m k)

/-- The channel of a lane in a superframe (R82). -/
def chanOf (fu : Fuses) (l n : Nat) (d : Dev) : Nat :=
  let used := mapChans (rd RAD.CHMAP d)
  let b := match fu.settings with
    | some st => st.base
    | none => 0
  used.getD ((11 * n % 37 + 4 * b + l) % max 1 used.length) 0

/-- The dwell window in superframes, a part of one counting whole. -/
def dwellWin (d : Dev) : Nat := (rd RAD.DWELLWIN d * rd RAD.USED d + 9) / 10

/-- A superframe lies in the window that ends with the present one (R88). -/
def inDwell (sf : Nat) (d : Dev) : Bool := decide ((sfNow d + 2 ^ 32 - sf) % 2 ^ 32 < dwellWin d)

/-- Transmit time on a channel in the window, µs (R88). -/
def dwellSum (k : Nat) (d : Dev) : Nat :=
  ((d.aon.dwell.filter (fun e => e.ch == k && inDwell e.at_ d)).map Dwell.us).sum

/-- A transmission of some µs on a channel is within the limit (R88). -/
def dwellOk (k us : Nat) (d : Dev) : Bool := decide (dwellSum k d + us ≤ rd RAD.DWELLLIM d * 1000)

/-- Transmit time added to the present superframe's. -/
def dwellAdd (k us : Nat) (d : Dev) : Dev :=
  let keep := d.aon.dwell.filter (fun e => inDwell e.at_ d)
  { d with aon := { d.aon with dwell := keep ++ [⟨sfNow d, k, us⟩] } }

/-- The largest number of superframes in any dwell window in which one lane sits on one channel (R89). The offset 4b + l of R82
only permutes the channels, so it is the same for every base and lane. -/
def vMax (d : Dev) : Nat :=
  let u := max 1 (rd RAD.USED d)
  let w := dwellWin d
  let visits (j n0 len : Nat) : Nat := ((List.range len).filter (fun i => 11 * (n0 + i) % 37 % u == j)).length
  ((List.range u).flatMap (fun j => (List.range 37).map (fun n0 =>
    w / 37 * visits j 0 37 + visits j n0 (w % 37)))).foldl max 1

/-- TXBUDGET recomputed (R89): DWELLLIM / (4 × Vmax), µs, with the Vmax of the map in force. -/
def budget (d : Dev) : Dev := wr RAD.TXBUDGET (rd RAD.DWELLLIM d * 1000 / (4 * max 1 d.rad.vmax)) d

/-- Airtime in µs of a frame with p payload and m MIC bytes (R76). -/
def airtime (m1c : Bool) (p m : Nat) : Nat := if m1c then 8 * (12 + p + m) else 4 * (13 + p + m)

/-- A write of PWRCAP, DWELLWIN or DWELLLIM, clamped to the region value; 0 is ignored for the last two (R87). -/
def limitWrite (fu : Fuses) (r : DwellReg) (v : Nat) (d : Dev) : Dev :=
  match r with
  | .pwrcap => wrS RAD.PWRCAP (min (toS 32 v) (regionMax fu)) d
  | .dwellwin => if v = 0 then d else wr RAD.DWELLWIN (min v 400) d
  | .dwelllim => if v = 0 then d else budget (wr RAD.DWELLLIM (min v 400) d)

/-- A write of REJOINCH (R84), with its copy in AON (Table 03-18, note 2). -/
def rejoinWrite (v : Nat) (armedAny : Bool) (d : Dev) : Dev :=
  if on RAD.RADCTL.MOSS d && !armedAny && decide (v ≤ 36) then
    wr RAD.REJOINCH v { d with aon := { d.aon with mapCopy := some (rd RAD.CHMAP d, v) } }
  else d

/-! ## Frames (R99–R101) -/

/-- The header of a frame (Table 03-8). -/
def hdrWord (typ s e md len : Nat) : Nat := typ * 2 ^ 12 + s * 2 ^ 11 + e * 2 ^ 10 + md * 2 ^ 9 + len

/-- A frame from its header, payload and MIC, with its CRC (R100). -/
def frameBytes (hdr : Nat) (payMic : List Nat) : List Nat :=
  let b := beBytes 2 hdr ++ payMic
  b ++ beBytes 3 (crc24 0x65B 0x555555 b)

/-- The CCM nonce (Table 03-11). -/
def ccmNonce (sys id ctx dir evx : Nat) : List Nat :=
  beBytes 2 sys ++ beBytes 2 id ++ [ctx % 256, dir] ++ beBytes 5 evx ++ [0, 0]

/-- System ID and access code as commissioned. -/
def sysId (fu : Fuses) : Nat := match fu.settings with
  | some st => st.sys
  | none => 0
def accessCode (fu : Fuses) : Nat := match fu.settings with
  | some st => st.access
  | none => 0
def baseId (fu : Fuses) : Nat := match fu.settings with
  | some st => st.base
  | none => 0

/-- The connector a lane transmits on: J2 for lanes 0 and 1, J3 for lanes 2 and 3 (R77). -/
def antenna (l : Nat) : Nat := if l < 2 then 2 else 3

/-- Bits cut into eights; the first argument bounds their number. -/
def bitOctets : Nat → List Bool → List (List Bool)
  | 0, _ => []
  | n + 1, l => if l = [] then [] else l.take 8 :: bitOctets n (l.drop 8)

/-- The bits of bytes, most significant first, and bytes of such bits. -/
def msbBits (l : List Nat) : List Bool := l.flatMap (fun b => (List.range 8).map (fun i => bit b (7 - i)))
def msbBytes (l : List Bool) : List Nat := (bitOctets l.length l).map (fun b => b.foldl (fun a x => 2 * a + b2n x) 0)

/-- M1C's code (Table 03-1): rate 1/2, constraint length 7, generators 171 and 133 octal, the first generator's bit first. -/
def convCode (l : List Bool) : List Bool :=
  let step (s : Nat × List Bool) (x : Bool) : Nat × List Bool :=
    let w := (s.1 / 2 + 64 * b2n x) % 128
    let par (g : Nat) : Bool := ((List.range 7).filter (fun i => bit (w &&& g) i)).length % 2 == 1
    (w, par 0o133 :: par 0o171 :: s.2)
  (l.foldl step (0, [])).2.reverse

/-- The 4-byte preamble: alternating bits that end opposite to the access code's first bit (Table 03-7). -/
def preamble (code : Nat) : List Nat := List.replicate 4 (if bit code 31 then 0xAA else 0x55)

/-- What a lane radiates: the preamble, then access code and frame, in M1C coded with 8 zero tail bits (R74, R99). -/
def airBytes (coded : Bool) (code : Nat) (frame : List Nat) : List Nat :=
  let b := beBytes 4 code ++ frame
  preamble code ++ (if coded then msbBytes (convCode (msbBits b ++ List.replicate 8 false)) else b)

/-- A frame on the air: channel, power, connector, mode, then what is radiated. It counts as transmit time (R74, R77, R88). -/
def onAir (fu : Fuses) (l ch : Nat) (pwr : Int) (us : Nat) (coded bcn : Bool) (frame : List Nat) (d : Dev) : Dev :=
  let d := dwellAdd ch us d
  let d := { d with rad := { d.rad with txAcc := tset d.rad.txAcc l (tget d.rad.txAcc l 0 + us) 0
                                        air := tset d.rad.air l ⟨d.raw + us * 26, bcn⟩ {} } }
  emit (0x10 + l) ([ch, ofS 8 pwr, antenna l, b2n coded] ++ airBytes coded (accessCode fu) frame) d

/-- A lane is sending (R21, R77). -/
def sending (l : Nat) (d : Dev) : Bool := decide (d.raw < (tget d.rad.air l {}).til)

/-- A frame that a lane is sending is cut off and lost (R21): port 0x18 + lane tells that the lane falls silent, and the frame no
longer counts as one sent (DESIGN CHOICE, log 149). -/
def airCut (l : Nat) (d : Dev) : Dev :=
  if !sending l d then d
  else
    let f := if (tget d.rad.air l {}).bcn then RAD.BCNTX l else RAD.TXFRM l
    emit (0x18 + l) [] (wr f (rd f d - 1) { d with rad := { d.rad with air := tset d.rad.air l {} {} } })

/-- CYCLE stands at the start of a slot of the superframe, or within 1 µs after it (R79). -/
def atSlot (s : Nat) (d : Dev) : Bool :=
  let p := (cycle d % 10000000).toNat
  decide (s * 125000 ≤ p ∧ p ≤ s * 125000 + 1000)

/-- CYCLE stands in a slot or a later one of the superframe. -/
def fromSlot (s : Nat) (d : Dev) : Bool := decide (s * 125000 ≤ (cycle d % 10000000).toNat)

/-- The power an event frame is sent with (R75). -/
def txPower (fu : Fuses) (l : Nat) (bcn : Bool) (d : Dev) : Int :=
  min (rdS (if bcn then RAD.BCNPWR l else RAD.TXPWR l) d) (pwrCap fu d)

/-! ## Contexts (R91–R98, Tables 03-22 to 03-24) -/

def lIdle : Nat := 0
def lJoining : Nat := 1
def lActive : Nat := 2
def lLost : Nat := 3
def lMigrating : Nat := 4

def ctxOf (c : Nat) (d : Dev) : CtxS := tget d.rad.ctx c {}
def ctxSet (c : Nat) (v : CtxS) (d : Dev) : Dev := { d with rad := { d.rad with ctx := tset d.rad.ctx c v {} } }
def link (c : Nat) (d : Dev) : Nat := rd (RAD.STATE.LINK c) d
def setLink (c v : Nat) (d : Dev) : Dev := wr (RAD.STATE.LINK c) v d
/-- A context without a placement in force: MIGRATING, or lost as it was (R98, R118). -/
def displaced (c : Nat) (d : Dev) : Bool := link c d == lMigrating || (link c d == lLost && (ctxOf c d).adrift)
/-- A context is armed in every link state but IDLE (R94). -/
def armed (c : Nat) (d : Dev) : Bool := link c d != lIdle
def anyArmed (d : Dev) : Bool := (List.range 144).any (fun c => armed c d)
def bcast (c : Nat) (d : Dev) : Bool := rd (RAD.CTXCTL.KIND c) d == 2
def m1c (c : Nat) (d : Dev) : Bool := on (RAD.CTXCTL.MODE c) d
def laneOf (c : Nat) (d : Dev) : Nat := rd (RAD.PLACE.LANE c) d
/-- A two-way connection: not broadcast and with a down part (R105). -/
def twoWay (c : Nat) (d : Dev) : Bool := !bcast c d && rd (RAD.PLACE.DOWN c) d != 0

/-- An interval by its code, in superframes; 0 where reserved (Table 03-23). -/
def ivlOf (v : Nat) : Nat := [1, 2, 5, 10, 20, 50, 100, 0].getD v 0

/-- The words PLACE, TIMERS and their staged copies. -/
def placeWord (c : Nat) (d : Dev) : Nat :=
  rd (RAD.PLACE.LANE c) d + rd (RAD.PLACE.ANCHOR c) d * 2 ^ 2 + rd (RAD.PLACE.LEN c) d * 2 ^ 9 +
  rd (RAD.PLACE.DOWN c) d * 2 ^ 14 + rd (RAD.PLACE.IVL c) d * 2 ^ 19
def timersWord (c : Nat) (d : Dev) : Nat :=
  rd (RAD.TIMERS.SUPV c) d + rd (RAD.TIMERS.STOPTO c) d * 2 ^ 10 + rd (RAD.TIMERS.PPM c) d * 2 ^ 14
def placeNxt (c : Nat) (d : Dev) : Nat :=
  rd (RAD.PLACENXT.LANE c) d + rd (RAD.PLACENXT.ANCHOR c) d * 2 ^ 2 + rd (RAD.PLACENXT.LEN c) d * 2 ^ 9 +
  rd (RAD.PLACENXT.DOWN c) d * 2 ^ 14 + rd (RAD.PLACENXT.IVL c) d * 2 ^ 19
def timersNxt (c : Nat) (d : Dev) : Nat :=
  rd (RAD.TIMERSNXT.SUPV c) d + rd (RAD.TIMERSNXT.STOPTO c) d * 2 ^ 10 + rd (RAD.TIMERSNXT.PPM c) d * 2 ^ 14
def setPlace (c p : Nat) (d : Dev) : Dev :=
  wr (RAD.PLACE.IVL c) (bits p 19 3) (wr (RAD.PLACE.DOWN c) (bits p 14 5) (wr (RAD.PLACE.LEN c) (bits p 9 5)
    (wr (RAD.PLACE.ANCHOR c) (bits p 2 7) (wr (RAD.PLACE.LANE c) (bits p 0 2) d))))
def setTimers (c t : Nat) (d : Dev) : Dev :=
  wr (RAD.TIMERS.PPM c) (bits t 14 8) (wr (RAD.TIMERS.STOPTO c) (bits t 10 4) (wr (RAD.TIMERS.SUPV c) (bits t 0 10) d))

/-- A lane sends: enabled, and not fenced for any cause (R117). -/
def laneLive (l : Nat) (d : Dev) : Bool :=
  on (RAD.LCTL.EN l) d && !on (RAD.LSTAT.FENCED l) d && !on (RAD.LSTAT.PWRLIM l) d

/-- The phase a superframe falls in (R81). -/
def phaseOf (sf : Nat) (d : Dev) : Nat := (((d.rad.phase : Int) + toS 32 (ofS 32 ((sf : Int) - sfNow d))) % 100).toNat

/-- A placement word's claim from a first superframe on. -/
def claimOf (p sf : Nat) (d : Dev) : Claim :=
  ⟨bits p 0 2, bits p 2 7, bits p 9 5, bits p 14 5, phaseOf sf d, ivlOf (bits p 19 3)⟩

/-- The superframe of the event whose counter value is an instant. -/
def instSf (c inst : Nat) (d : Dev) : Nat :=
  (rd (RAD.NEXTSF c) d + (toS 16 (ofS 16 ((inst : Int) - rd (RAD.EVC.EVENT c) d))).toNat * ivlOf (rd (RAD.PLACE.IVL c) d)) % 2 ^ 32

/-- Every claim on the plan but one context's own (R81, R96, R106, R117, R121). -/
def claims (skip : Nat) (d : Dev) : List Claim :=
  let own := (List.range 144).flatMap (fun c =>
    if c = skip ∨ !armed c d then []
    else
      let cur := if displaced c d then [] else [claimOf (placeWord c d) (rd (RAD.NEXTSF c) d) d]
      let nxt := match (ctxOf c d).upd with
        | some u => [claimOf u.place (instSf c u.inst d) d]
        | none => []
      (cur ++ nxt).filter (fun k => !on (RAD.LSTAT.FENCED k.lane) d))
  let join := if on RAD.JOINCFG.EN d then (List.range 4).map (fun l => ⟨l, 76, 4, 2, 0, 1⟩) else []
  own ++ d.rad.freeing ++ join

/-- Whether a claim has an event in a phase. -/
def Claim.hits (k : Claim) (p : Nat) : Bool := k.ivl != 0 && p % k.ivl == k.ph % k.ivl

/-- R96's RANGE check of a placement and timers with its first superframe. -/
def rangeBad (c p t sf : Nat) (d : Dev) : Bool :=
  let l := bits p 9 5; let dn := bits p 14 5; let a := bits p 2 7; let iv := ivlOf (bits p 19 3)
  let kind := rd (RAD.CTXCTL.KIND c) d
  let id := rd (RAD.CTXCTL.ID c) d
  let sv := bits t 0 10; let st := bits t 10 4; let pp := bits t 14 8
  let place := iv == 0 || l < 2 || 16 < l || a < 4 || 79 < a + l - 1 ||
    (if kind = 2 then dn != l else !(dn == 0 || (2 ≤ dn && dn + 2 ≤ l)))
  let timers := kind != 2 && (sv < 10 || 1000 < sv || sv < 3 * iv || st < 2 || 10 < st || sv ≤ st || pp < 1 || 250 < pp)
  let who := kind == 3 || (kind == 0 && (128 ≤ c || id % 128 != c)) || (kind == 1 && c < 128)
  let first := decide (toS 32 (ofS 32 ((sf : Int) - sfNow d)) < 1)
  place || timers || who || first

/-- Base transmit time planned on a lane by claims in a phase, µs, the beacon included (R89). -/
def planned (lane : Nat) (ks : List Claim) (p : Nat) : Nat :=
  432 + ((ks.filter (fun k => k.lane == lane && k.hits p && k.down != 0)).map (fun k => 125 * k.down - 60)).sum

/-- The placement check (R96): 0, or the first reason of Table 03-24 that applies. -/
def placeErr (c p t sf : Nat) (d : Dev) : Nat :=
  if rangeBad c p t sf d then 1
  else
    let me := claimOf p sf d
    let ks := claims c d
    let phases := (List.range 100).filter me.hits
    let slots (k : Claim) : List Nat := (List.range k.len).map (· + k.anch)
    let shares (k : Claim) : Bool := (slots me).any (fun s => (slots k).contains s)
    let down (k : Claim) (s : Nat) : Bool := decide (s < k.anch + k.down)
    let meets (k : Claim) : Bool := phases.any k.hits
    if ks.any (fun k => k.lane == me.lane && meets k && shares k) then 2
    else if ks.any (fun k => meets k && (slots me).any (fun s => (slots k).contains s && down k s != down me s)) then 3
    else if phases.any (fun p => decide (rd RAD.TXBUDGET d < planned me.lane (me :: ks) p)) then 4
    else if on (RAD.LSTAT.FENCED me.lane) d then 5
    else 0

/-- Everything of a link back at its start: event counters, sequence bits, frames (R118). A session key that has served frames serves
no more, for EVX starts again (R101). -/
def linkReset (c : Nat) (d : Dev) : Dev :=
  let d := wr (RAD.STATE.TXSEQ c) 0 (wr (RAD.STATE.RXEXP c) 0 (wr (RAD.EVX c) 0 (wr (RAD.EVC.EVENT c) 0 d)))
  let v := ctxOf c d
  wrB (RAD.STATE.MAPPEND c) false
    (ctxSet c { v with cur := none, sent := false, nxt := none, ctrl := [], supRaw := d.raw, told := false, isOpen := false,
                       ackRaw := none, mapAt := none, adrift := false, hold := v.hold || v.keyUsed } d)

/-- A frame of so many payload and MIC bytes fits a context's down part as it stands (R76, R90). -/
def fits (c pay mic : Nat) (d : Dev) : Bool :=
  decide (airtime (m1c c d) pay mic + 60 ≤ 125 * rd (RAD.PLACE.DOWN c) d)

/-- A control frame queued for a context; one that its down part does not take is refused and counted (R76, R120). -/
def queueCtl (c : Nat) (pay : List Nat) (d : Dev) : Dev :=
  if !twoWay c d then d
  else if fits c pay.length 4 d then
    ctxSet c { ctxOf c d with ctrl := (ctxOf c d).ctrl ++ [{ typ := 2, pay := pay, tag := 0 }] } d
  else inc (RAD.FITERR (laneOf c d)) d

/-- A BKEY packet as RAD queues it for its context (R126, Table 04-9). -/
def bkeyTaken (l : List W64) (d : Dev) : Dev :=
  let x := (l.getD 0 0).toNat
  let c := bits x 8 8
  if armed c d then
    queueCtl c ([0x06, bits x 16 8] ++ beBytes 4 (bits x 32 32) ++ (l.drop 1).flatMap (fun y => leBytes 8 y.toNat)) d
  else d

/-- SEC hands RAD a BKEY frame on SQ11: context, generation, first superframe, key (R126). RAD takes it as it is presented. -/
def bkeySend (c g f : Nat) (k : List Nat) (d : Dev) : Dev :=
  hwPush 11 (BitVec.ofNat 64 (1 + c * 2 ^ 8 + g % 256 * 2 ^ 16 + f % 2 ^ 32 * 2 ^ 32) ::
    (blocks 8 k).map (fun b => BitVec.ofNat 64 (ofLe b))) d

/-- BKEY for an armed context: the current or the next generation (R126, Table 04-9). -/
def bkeyFor (c : Nat) (nxt : Bool) (d : Dev) : Dev :=
  match slotKey (if nxt then 3 else 2) d with
  | none => d
  | some k =>
    if !armed c d || rd (RAD.CTXCTL.KIND c) d != 0 || (nxt && !on SEC.BKGEN.NEXTPEND d) then d
    else if nxt then bkeySend c (rd SEC.BKGEN.NEXT d) (rd SEC.BKFIRST d) k (redraw 3 d)
    else bkeySend c (rd SEC.BKGEN.CUR d) d.keep.nor.genSf k (redraw 2 d)

/-- SEC sends a member its beacon keys after its join: the current one, and a next one that is pending (R126). -/
def bkeyJoin (c : Nat) (d : Dev) : Dev := whenUp SECi (fun d => bkeyFor c true (bkeyFor c false d)) d

/-- How many events lie before the first one at or after a superframe: at the present interval up to the instant of a pending
update, at the update's from there (R85, R94). -/
def eventsTo (c at_ : Nat) (d : Dev) : Nat :=
  let count (from_ iv : Nat) : Nat :=
    let gap := toS 32 (ofS 32 ((at_ : Int) - from_))
    if gap ≤ 0 then 0 else (gap.toNat + max 1 iv - 1) / max 1 iv
  let k := count (rd (RAD.NEXTSF c) d) (ivlOf (rd (RAD.PLACE.IVL c) d))
  match (ctxOf c d).upd with
  | none => k
  | some u =>
    let ku := (toS 16 (ofS 16 ((u.inst : Int) - rd (RAD.EVC.EVENT c) d))).toNat
    if k ≤ ku then k else ku + count (instSf c u.inst d) (ivlOf (bits u.place 19 3))

/-- MAP_UPDATE to a context, for its first event at or after the map's superframe (R85, R119). It takes the place of one told
before. -/
def mapTell (m at_ c : Nat) (d : Dev) : Dev :=
  if !twoWay c d || displaced c d then d
  else
    let inst := (rd (RAD.EVC.EVENT c) d + eventsTo c at_ d) % 2 ^ 16
    let v := ctxOf c d
    let d := wrB (RAD.STATE.MAPPEND c) true
      (ctxSet c { v with mapAt := some inst, ctrl := v.ctrl.filter (fun f => f.fw || f.pay.head? != some 2) } d)
    queueCtl c ([0x02] ++ beBytes 5 m ++ beBytes 2 inst) d

/-- A pending map told to a context that was armed, placed or given an update after the map was armed (R85): once its instant lies
6 to 32,767 events ahead (R94; DESIGN CHOICE, log 149). -/
def mapRetell (c : Nat) (d : Dev) : Dev :=
  match d.rad.mapArm with
  | none => d
  | some (m, at_) =>
    let k := eventsTo c at_ d
    if armed c d && decide (6 ≤ k ∧ k ≤ 32767) then mapTell m at_ c d else d

/-- A context becomes MIGRATING: any update pending on it is dropped (R118, R119). -/
def toMigrating (c : Nat) (d : Dev) : Dev :=
  let v := ctxOf c d
  let d := ctxSet c { v with upd := none, mapAt := none, isOpen := false, adrift := false,
                             ctrl := v.ctrl.filter (fun f => f.fw || (f.pay.head? != some 1 && f.pay.head? != some 2)) } d
  setLink c lMigrating (wrB (RAD.STATE.UPDPEND c) false (wrB (RAD.STATE.MAPPEND c) false d))

/-- ARM (R96, R109): a context armed, or refused with ERR. A broadcast context, which never hears an uplink, is ACTIVE at once
(DESIGN CHOICE, log 127). -/
def armCtx (c : Nat) (d : Dev) : Dev :=
  if armed c d then d
  else
    let e := placeErr c (placeWord c d) (timersWord c d) (rd (RAD.FIRSTSF c) d) d
    if e ≠ 0 then wr (RAD.STATE.ERR c) e d
    else
      let d := linkReset c (wrB (RAD.CTXCTL.ARM c) true d)
      mapRetell c (setLink c (if bcast c d then lActive else lJoining) (wr (RAD.NEXTSF c) (rd (RAD.FIRSTSF c) d) d))

/-- The byte a placement's lane and mode share in control frames and joins: lane below, mode at bit 2. -/
def laneMode (c p : Nat) (d : Dev) : Nat := bits p 0 2 + 4 * b2n (m1c c d)

/-- PARAM_UPDATE (Table 03-10). -/
def paramUpdate (c : Nat) (u : Upd) (d : Dev) : List Nat :=
  [0x01, laneMode c u.place d, bits u.place 2 7, bits u.place 9 5, bits u.place 14 5, ivlOf (bits u.place 19 3)] ++
  beBytes 2 (bits u.timers 0 10) ++ [bits u.timers 10 4] ++ beBytes 2 u.inst

/-- UPDARM (R94, R118): a staged update armed at its instant, or a MIGRATING context placed as a new join. EVX then restarts, so
a session key it has used serves no further frame: the rejoin brings a fresh one (R101, R108). -/
def updArm (c : Nat) (d : Dev) : Dev :=
  if !armed c d then inc RAD.CTXWERR d
  else if displaced c d then
    let e := placeErr c (placeNxt c d) (timersNxt c d) (rd (RAD.FIRSTSF c) d) d
    if e ≠ 0 then wr (RAD.STATE.ERR c) e d
    else
      let d := setTimers c (timersNxt c d) (setPlace c (placeNxt c d) d)
      let d := if (ctxOf c d).keyUsed then wrB (RAD.KEYH.VALID c) false d else d
      mapRetell c (setLink c lJoining (wr (RAD.NEXTSF c) (rd (RAD.FIRSTSF c) d) (linkReset c d)))
  else if (ctxOf c d).upd.isSome then wr (RAD.STATE.ERR c) 6 d
  else
    let inst := rd (RAD.EVC.INSTANT c) d
    let diff := toS 16 (ofS 16 ((inst : Int) - rd (RAD.EVC.EVENT c) d))
    if diff < 6 then wr (RAD.STATE.ERR c) 1 d
    else
      let e := placeErr c (placeNxt c d) (timersNxt c d) (instSf c inst d) d
      if e ≠ 0 then wr (RAD.STATE.ERR c) e d
      else
        let u : Upd := ⟨placeNxt c d, timersNxt c d, inst⟩
        let d := wrB (RAD.STATE.UPDPEND c) true (ctxSet c { ctxOf c d with upd := some u } d)
        mapRetell c (queueCtl c (paramUpdate c u d) d)

/-- A context back to IDLE; its slots leave the plan at the next superframe boundary (R121). -/
def freeCtx (c : Nat) (d : Dev) : Dev :=
  let k := if displaced c d then [] else [claimOf (placeWord c d) (rd (RAD.NEXTSF c) d) d]
  let k := k ++ (match (ctxOf c d).upd with
    | some u => [claimOf u.place (instSf c u.inst d) d]
    | none => [])
  let d := { d with rad := { d.rad with freeing := d.rad.freeing ++ k } }
  let d := wrB (RAD.KEYH.VALID c) false (wrB (RAD.CTXCTL.ARM c) false (setLink c lIdle d))
  let d := wrB (RAD.STATE.UPDPEND c) false (wrB (RAD.STATE.MAPPEND c) false d)
  let d := linkReset c d
  ctxSet c { keyUsed := (ctxOf c d).keyUsed, hold := (ctxOf c d).hold } d

/-- TERM (R121): IDLE at the next event; a MIGRATING context has none and goes at the boundary. -/
def termCtx (c : Nat) (d : Dev) : Dev :=
  if armed c d then ctxSet c { ctxOf c d with term := true } d else d

/-- What is due at an instant: the map update first, then the parameters (R94, R95, R119). -/
def atInstant (c : Nat) (d0 : Dev) : Dev :=
  let ev := rd (RAD.EVC.EVENT c) d0
  let d := if (ctxOf c d0).mapAt = some ev then
      wrB (RAD.STATE.MAPPEND c) false (ctxSet c { ctxOf c d0 with mapAt := none } d0) else d0
  match (ctxOf c d).upd with
  | none => d
  | some u =>
    if u.inst ≠ ev then d
    else
      let d := wrB (RAD.STATE.UPDPEND c) false (ctxSet c { ctxOf c d with upd := none } d)
      let d := setTimers c u.timers (setPlace c u.place d)
      if on (RAD.LSTAT.FENCED (laneOf c d)) d then toMigrating c d else d

/-- An event is over: the counters advance (R93), and a pending map that lay too far ahead may be told (R85, R94). -/
def advance (c : Nat) (d : Dev) : Dev :=
  let x := (rd (RAD.EVX c) d + 1) % 2 ^ 40
  whenB (ctxOf c d).mapAt.isNone (mapRetell c)
    (wr (RAD.NEXTSF c) (rd (RAD.NEXTSF c) d + ivlOf (rd (RAD.PLACE.IVL c) d)) (wr (RAD.EVC.EVENT c) x (wr (RAD.EVX c) x d)))

/-- The event ends: counters advance, and a missing uplink counts (R93). -/
def endEvent (c : Nat) (got : Bool) (d : Dev) : Dev :=
  if !(ctxOf c d).isOpen then d
  else
    let d := if got || bcast c d then d else inc (RAD.MISS c) d
    ctxSet c { ctxOf c d with isOpen := false } (advance c d)

/-- An event that passes unused (R93): it counts, and what is due at it takes effect. A TERM that waits frees the context then, with no
TERMINATE, ACTIVE or not (R121; DESIGN CHOICE, log 149). -/
def passEvent (c : Nat) (d0 : Dev) : Dev :=
  let d := atInstant c d0
  if displaced c d then d
  else if (ctxOf c d).term then freeCtx c d
  else advance c (if bcast c d then d else inc (RAD.MISS c) d)

/-- Events of a context that lie before superframe n and were not held (R93). -/
def passEvents (n c : Nat) (d : Dev) : Dev :=
  let behind := (toS 32 (ofS 32 ((n : Int) - rd (RAD.NEXTSF c) d))).toNat
  let iv := max 1 (ivlOf (rd (RAD.PLACE.IVL c) d))
  forAll (List.range ((behind + iv - 1) / iv)) (fun _ d =>
    if armed c d && !displaced c d && decide (0 < toS 32 (ofS 32 ((n : Int) - rd (RAD.NEXTSF c) d))) then passEvent c d
    else d) d

/-- The session key of a context, if SEC has placed it at the context's own entry (R521). -/
def sessKey (c : Nat) (d : Dev) : Option (List Nat) :=
  if on (RAD.KEYH.VALID c) d && rd (RAD.KEYH.ENTRY c) d == c then
    (tget d.rad.sess c none).map (fun s => xorBytes s.mask s.share)
  else none

/-- A link frame encrypted for the event at hand (R101). -/
def linkFrame (fu : Fuses) (c : Nat) (key : List Nat) (f : RFrame) (md : Bool) (d : Dev) : List Nat :=
  let h := hdrWord f.typ (rd (RAD.STATE.TXSEQ c) d) (rd (RAD.STATE.RXEXP c) d) (b2n md) f.pay.length
  let n := ccmNonce (sysId fu) (rd (RAD.CTXCTL.ID c) d) c 0 (rd (RAD.EVX c) d)
  frameBytes h (ccmCrypt key n f.pay ++ ccmTag key n (beBytes 2 h) f.pay 4)

/-- The frame a two-way context sends: the one in flight, else a control frame, the next frame, or LEN 0 (R102). -/
def pickFrame (c : Nat) (d : Dev) : Dev :=
  let v := ctxOf c d
  match v.cur with
  | some _ => d
  | none =>
    match v.ctrl with
    | f :: r => ctxSet c { v with cur := some f, sent := false, ctrl := r } d
    | [] => match v.nxt with
      | some f => ctxSet c { v with cur := some f, sent := false, nxt := none } d
      | none => ctxSet c { v with cur := some { typ := 1, pay := [], tag := 0 }, sent := false } d

/-- A frame of firmware's that no longer fits its part is discarded, counted and reported as FIT (R76, Table 03-17). -/
def fitLost (c : Nat) (f : RFrame) (d : Dev) : Dev :=
  if f.fw then
    hwPush 9 [BitVec.ofNat 64 (c + f.pay.length * 2 ^ 8 + f.typ * 2 ^ 16 + 3 * 2 ^ 20 + f.tag * 2 ^ 40)] (inc (RAD.FITERR (laneOf c d)) d)
  else d

/-- The buffered frames of a context that still fit its down part; the others go (R76, R90). -/
def dropUnfit (c mic : Nat) (d0 : Dev) : Dev :=
  let v := ctxOf c d0
  let ok (f : RFrame) : Bool := fits c f.pay.length mic d0
  let gone := (v.cur.toList ++ v.nxt.toList).filter (fun f => !ok f)
  let d := ctxSet c { v with cur := v.cur.filter ok, nxt := v.nxt.filter ok, ctrl := v.ctrl.filter ok } d0
  forAll gone (fitLost c) d

/-- The down part of an event (R76, R88, R101–R103, R105). -/
def sendDown (fu : Fuses) (c : Nat) (d00 : Dev) : Dev :=
  let d0 := dropUnfit c (if bcast c d00 then 0 else 4) d00
  let l := laneOf c d0
  let ch := chanOf fu l (sfNow d0) d0
  if !laneLive l d0 || region fu == 0 || d0.aon.power != .run then d0
  else if bcast c d0 then
    match (ctxOf c d0).cur with
    | none => d0
    | some f =>
      let us := airtime (m1c c d0) f.pay.length 0
      if !dwellOk ch us d0 then inc (RAD.DEFER l) d0
      else
        let d := onAir fu l ch (txPower fu l false d0) us (m1c c d0) false (frameBytes (hdrWord 5 0 0 0 f.pay.length) f.pay) d0
        let v := ctxOf c d
        inc (RAD.TXFRM l) (ctxSet c { v with cur := v.nxt, nxt := none } d)
  else if !twoWay c d0 || link c d0 == lLost || (ctxOf c d0).hold then d0
  else match sessKey c d0 with
    | none => d0
    | some key =>
      let d := pickFrame c d0
      let v := ctxOf c d
      match v.cur with
      | none => d
      | some f =>
        let us := airtime (m1c c d) f.pay.length 4
        if !dwellOk ch us d then inc (RAD.DEFER l) d
        else
          let md := v.nxt.isSome || !v.ctrl.isEmpty
          let d := onAir fu l ch (txPower fu l false d) us (m1c c d) false (linkFrame fu c key f md d) d
          let d := redrawSess c (if v.sent then inc (RAD.RPTTX l) d else d)
          inc (RAD.TXFRM l) (ctxSet c { v with sent := true, sentRaw := d.raw, keyUsed := true } d)

/-- The air time of a TERMINATE frame. -/
def termUs (c : Nat) (d : Dev) : Nat := airtime (m1c c d) 2 4

/-- An ACTIVE link is told that it ends (R121). -/
def tellsEnd (c : Nat) (d : Dev) : Bool :=
  link c d == lActive && twoWay c d && laneLive (laneOf c d) d && (sessKey c d).isSome && !(ctxOf c d).hold

/-- TERMINATE is held for the next event, for its channel's dwell time (R88). -/
def termHeld (fu : Fuses) (c : Nat) (d : Dev) : Bool :=
  tellsEnd c d && !dwellOk (chanOf fu (laneOf c d) (sfNow d) d) (termUs c d) d

/-- TERMINATE sent before a context goes; the reason is not stated and free (R121). -/
def sendTerminate (fu : Fuses) (c : Nat) (d0 : Dev) : Dev :=
  let l := laneOf c d0
  match sessKey c d0 with
  | none => d0
  | some key =>
    if !tellsEnd c d0 then d0
    else
      let f : RFrame := { typ := 2, pay := [0x03, (freeOf d0).toNat % 256], tag := 0 }
      inc (RAD.TXFRM l) (onAir fu l (chanOf fu l (sfNow d0) d0) (txPower fu l false d0) (termUs c d0) (m1c c d0) false
        (linkFrame fu c key f false d0) (redrawSess c (drawn d0)))

/-- Join events take slots 76–79 from a placement that uses them (R77, R106). -/
def joinTakes (c : Nat) (d : Dev) : Bool :=
  on RAD.JOINCFG.EN d && decide (76 < rd (RAD.PLACE.ANCHOR c) d + rd (RAD.PLACE.LEN c) d)

/-- A context's event is due: its superframe has begun, and CYCLE is at its anchor slot (R79, R93). -/
def eventDue (c : Nat) (d : Dev) : Bool :=
  armed c d && !displaced c d && !(ctxOf c d).isOpen && rd (RAD.NEXTSF c) d == sfNow d && d.rad.sfLast == some (sfNow d) &&
    atSlot (rd (RAD.PLACE.ANCHOR c) d) d

/-- An open event that join events have cut at slot 76 (R106): no lane sends or expects a frame of it there. -/
def joinCuts (c : Nat) (d : Dev) : Bool := (ctxOf c d).isOpen && joinTakes c d && fromSlot 76 d

/-- A connection's event (R77, R92, R93, R106, R121). -/
def connEvent (fu : Fuses) (c : Nat) (d0 : Dev) : Dev :=
  if !eventDue c d0 then d0
  else
    let d := atInstant c d0
    let opened (d : Dev) : Dev := ctxSet c { ctxOf c d with isOpen := true } d
    if displaced c d then d
    else if joinTakes c d then passEvent c d
    else if (ctxOf c d).term && !termHeld fu c d then freeCtx c (sendTerminate fu c d)
    else if (ctxOf c d).term then opened (inc (RAD.DEFER (laneOf c d)) d)
    else
      let d := opened (sendDown fu c d)
      if bcast c d then endEvent c false d else d

/-! ## Packets from and to firmware (R104, R120, Tables 03-16, 03-17) -/

/-- The items of a packet's payload bytes, eight to an item. -/
def payItems (l : List Nat) : List W64 := (blocks 8 l).map (fun b => BitVec.ofNat 64 (ofLe b))

/-- A status report for a transmit packet. Its lane and RSSI fields are 0 (DESIGN CHOICE, log 149). -/
def txReport (desc : Nat) (st : Nat) (d : Dev) : Dev :=
  hwPush 9 [BitVec.ofNat 64 (bits desc 0 20 + st * 2 ^ 20 + bits desc 40 24 * 2 ^ 40)] d

/-- A transmit packet's items carried out (R120). The order in which its faults are looked for is the model's; one with fewer payload
bytes than its LEN is answered as one that does not fit (DESIGN CHOICE, log 149). A frame that waits is not overtaken. -/
def txItems (items : List W64) (d : Dev) : Dev :=
  let desc := (items.getD 0 0).toNat
  let c := bits desc 0 8
  let len := bits desc 8 8
  let typ := bits desc 16 4
  let pay := ((items.drop 1).flatMap (fun x => leBytes 8 x.toNat)).take len
  if 144 ≤ c ∨ !armed c d then txReport desc 2 d
  else if !(if bcast c d then typ == 5 else typ == 1 || typ == 2) then txReport desc 4 d
  else
    let mic := if bcast c d then 0 else 4
    if pay.length ≠ len ∨ 250 < len ∨ fits c len mic d = false then
      txReport desc 3 (inc (RAD.FITERR (laneOf c d)) d)
    else
      let v := ctxOf c d
      let f : RFrame := { typ := typ, pay := pay, tag := bits desc 40 24, fw := true }
      if v.cur.isNone ∧ v.nxt.isNone ∧ v.ctrl = [] then ctxSet c { v with cur := some f, sent := false } d
      else if v.nxt.isNone then ctxSet c { v with nxt := some f } d
      else txReport desc 1 d

/-- A transmit packet taken from SQ08 (R120, R370). -/
def txPacket (d : Dev) : Dev := hwTry 8 id (fun p d => txItems p.items (hwTaken 8 d)) d

/-- A received frame delivered to firmware on SQ09. -/
def rxDeliver (c lane typ : Nat) (pair : Bool) (rssi : Nat) (pay : List Nat) (d : Dev) : Dev :=
  if pay = [] then d
  else
    let desc := c + pay.length * 2 ^ 8 + typ * 2 ^ 16 + lane * 2 ^ 24 + b2n pair * 2 ^ 26 + rssi % 256 * 2 ^ 32 + sfNow d % 2 ^ 24 * 2 ^ 40
    hwPush 9 (BitVec.ofNat 64 desc :: payItems pay) d

/-- The frame that waits takes the place of one acknowledged: a control frame, or else the next (R102, R120). -/
def follow (v : CtxS) : CtxS :=
  match v.ctrl with
  | f :: r => { v with cur := some f, ctrl := r }
  | [] => { v with cur := v.nxt, nxt := none }

/-- An accepted uplink: supervision restarts, the link becomes ACTIVE, and R102 acts (R98, R102, R104, R109). -/
def acceptUp (c lane hdr : Nat) (pair : Bool) (rssi : Nat) (pay : List Nat) (d0 : Dev) : Dev :=
  let d := inc (RAD.RXFRM lane) d0
  let d := wr (RAD.RSSIAVG lane) (freeOf d).toNat (drawn d)
  let d := wr (RAD.RSSI c) (ofS 32 (toS 8 rssi)) (wr (RAD.LASTRX c) (sfNow d) d)
  let d := ctxSet c { ctxOf c d with supRaw := d.raw, told := false } d
  let joined := link c d = lJoining
  let d := if joined ∨ link c d = lLost then setLink c lActive d else d
  let d := if joined then bkeyJoin c d else d
  let d := if bit hdr 9 then token 5 7 0xED c (wrB (RAD.STATE.MDRX c) true d) else d
  if !twoWay c d then rxDeliver c lane (bits hdr 12 4) pair rssi pay d
  else
    let v := ctxOf c d
    let d := if b2n (bit hdr 10) ≠ rd (RAD.STATE.TXSEQ c) d then
        let acked := { v with cur := none, sent := false, ackRaw := some v.sentRaw }
        wr (RAD.STATE.TXSEQ c) (1 - rd (RAD.STATE.TXSEQ c) d) (ctxSet c (if v.sent then follow acked else { v with sent := false }) d)
      else d
    if b2n (bit hdr 11) = rd (RAD.STATE.RXEXP c) d then
      rxDeliver c lane (bits hdr 12 4) pair rssi pay (wr (RAD.STATE.RXEXP c) (1 - rd (RAD.STATE.RXEXP c) d) d)
    else inc (RAD.RPTRX lane) d

/-- A frame whose access code was heard in a context's event (R100–R103): header, payload and MIC, CRC, as they came. -/
def frameHeard (fu : Fuses) (c : Nat) (frame : List Nat) (pair : Bool) (rssi : Nat) (d : Dev) : Dev :=
  let lane := laneOf c d
  let hdr := ofBe (frame.take 2)
  let len := bits hdr 0 8
  let typ := bits hdr 12 4
  if 250 < len ∨ 6 ≤ typ then inc (RAD.ACERR lane) d
  else if frame.length ≠ len + 9 ∨ ofBe (frame.drop (len + 6)) ≠ crc24 0x65B 0x555555 (frame.take (len + 6)) then
    inc (RAD.CRCERR lane) d
  else match sessKey c d with
    | none => inc (RAD.MICERR lane) d
    | some key =>
      let n := ccmNonce (sysId fu) (rd (RAD.CTXCTL.ID c) d) c 1 (rd (RAD.EVX c) d)
      let pay := ccmCrypt key n (sub frame 2 len)
      let d := redrawSess c d
      if !(typ == 1 || typ == 2) || ccmTag key n (frame.take 2) pay 4 != sub frame (len + 2) 4 then inc (RAD.MICERR lane) d
      else endEvent c true (acceptUp c lane hdr pair rssi pay d)

/-- Which copy of a frame the lane kept, counted while it receives on both antennas (R78). -/
def divCount (lane : Nat) (pair : Bool) (d : Dev) : Dev :=
  if on (RAD.LCTL.DIVEN lane) d then inc (if pair then RAD.DIVPAIR lane else RAD.DIVOWN lane) d else d

/-- The lane can hold such a copy: the pair antenna's only while DIVEN is 1 (R78). -/
def divHears (lane : Nat) (pair : Bool) (d : Dev) : Bool := !pair || on (RAD.LCTL.DIVEN lane) d

/-- An uplink so many ns from the up part's start lies within ±Wb (R116): (1 ppm + p) × Δtb + 8 µs, at most 62 µs, Δtb the time
since the last down frame that the member has acknowledged, taken as the last copy sent before (log 131). -/
def rxWindow (c : Nat) (off : Int) (d : Dev) : Bool :=
  let o := off.natAbs
  decide (o ≤ 62000) && (match (ctxOf c d).ackRaw with
    | none => true
    | some r => decide ((o - 8000) * (13 * 1000000) ≤ (1 + rd (RAD.TIMERS.PPM c) d) * ((d.raw - r) * 500)))

/-- RAD receives link frames: not in Standby (R494). -/
def hears (d : Dev) : Bool := d.aon.power == .run

/-- A frame in a context's event, in its window, counts as heard with at most two wrong access-code bits (R78, R100, R106, R116). -/
def frameReceive (fu : Fuses) (c : Nat) (frame : List Nat) (accBits : Nat) (pair : Bool) (rssi : Nat) (off : Int) (d : Dev) : Dev :=
  let lane := laneOf c d
  if !hears d || !(ctxOf c d).isOpen || joinCuts c d || decide (2 < accBits) || !rxWindow c off d || !divHears lane pair d then d
  else frameHeard fu c frame pair rssi (divCount lane pair d)

/-! ## Supervision (R98, R109) -/

/-- The supervision timeout has passed; the timers stand still in Standby (R494). -/
def supDue (c : Nat) (d : Dev) : Bool :=
  armed c d && !bcast c d && d.aon.power == .run &&
  decide ((ctxOf c d).supRaw + rd (RAD.TIMERS.SUPV c) d * 10 * rawPerMs ≤ d.raw)

/-- LINK_LOST (R98). A MIGRATING context is LOST too; firmware can still place it (R118). -/
def linkLost (c : Nat) (d : Dev) : Dev :=
  if !supDue c d || link c d == lJoining || link c d == lLost || (ctxOf c d).told then d
  else
    let id := rd (RAD.CTXCTL.ID c) d
    let d := setLink c lLost (ctxSet c { ctxOf c d with told := true, adrift := link c d == lMigrating } d)
    let d := if rd (RAD.CTXCTL.KIND c) d = 0 then hwPush 18 [BitVec.ofNat 64 (id % 1024)] d else d
    lichen 7 0x0801 ([c] ++ leBytes 2 id) (token 5 7 0xEB (c + id % 1024 * 2 ^ 16) d)

/-- The supervision timeout of a JOINING context (R109). -/
def joinTimeout (c : Nat) (d : Dev) : Dev := if supDue c d && link c d == lJoining then freeCtx c d else d

/-! ## Joins (R106–R110) -/

/-- The key of a fixed slot of SEC. -/
def sysRoot (d : Dev) : Option (List Nat) := slotKey 1 d

/-- The join key of a member or handheld (Table 16-3). -/
def joinKey (service : Bool) (id : Nat) (d : Dev) : Option (List Nat) :=
  (sysRoot d).map (fun r => frond r (label (if service then [0x4A, 0x48, 0x4E, 0x44] else [0x4A, 0x4F, 0x49, 0x4E]) (beBytes 2 id)) 128)


/-- The label of a radio session key (Table 16-3). -/
def sessLabel (mn bn : List Nat) : List Nat := label [0x53, 0x45, 0x53, 0x53] (mn ++ bn)

/-- SEC derives a session key and places it in RAD's table for a context (R521). -/
def keySess (c : Nat) (jk : List Nat) (l : SessLbl) (d : Dev) : Dev :=
  let r := shareOf (frond jk l.label 128) 0 0 d
  let d := { r.2 with rad := { r.2.rad with sess := tset r.2.rad.sess c (some r.1) none,
                                            sessLbl := tset r.2.rad.sessLbl c (some l) none } }
  wrB (RAD.KEYH.VALID c) true (wr (RAD.KEYH.ENTRY c) c d)

/-- A session key placed for a context by a join or a request (R108, R521). The one it has, placed again, goes on as it was; under
another one the nonces begin anew (R101). For a join no link frame goes out before the JOIN_RSP, with which EVX starts again. -/
def placeSess (c : Nat) (jk : List Nat) (l : SessLbl) (join : Bool) (d : Dev) : Dev :=
  let v := ctxOf c d
  let v := if tget d.rad.sessLbl c none == some l then v else { v with keyUsed := false, hold := join }
  keySess c jk l (ctxSet c v d)

/-- The context that serves an ID (R521): a member's own, unless it is armed for another, or the one armed for a handheld. -/
def ctxFor (service : Bool) (id : Nat) (d : Dev) : Option Nat :=
  if service then
    ((List.range 16).map (· + 128)).find? (fun c => armed c d && rd (RAD.CTXCTL.KIND c) d == 1 && rd (RAD.CTXCTL.ID c) d == id)
  else if armed (id % 128) d && (rd (RAD.CTXCTL.ID (id % 128)) d != id || rd (RAD.CTXCTL.KIND (id % 128)) d != 0) then none
  else some (id % 128)

/-- The context number in a join frame's nonce (Table 03-11): that of the context which serves the ID, and where none does the ID
modulo 128 (DESIGN CHOICE, log 149). -/
def joinNum (service : Bool) (id : Nat) (d : Dev) : Nat := (ctxFor service id d).getD (id % 128)

/-- The join channel is open on a lane in this superframe (R106). -/
def joinOpen (fu : Fuses) (lane : Nat) (d : Dev) : Bool :=
  on RAD.JOINCFG.EN d && chanOf fu lane (sfNow d) d == rd RAD.REJOINCH d

/-- A join request as RAD hands it to SEC, or a reply of SEC's (R108; its layout is the model's, log 149): lane, pair antenna and RSSI;
the join counter its nonce is made with; header, payload and MIC. -/
structure JoinMsg where
  lane  : Nat
  pair  : Bool
  rssi  : Nat
  ctr   : Nat
  frame : List Nat
  deriving DecidableEq, Repr

/-- Its items, five of them. -/
def joinItems (kind : Nat) (m : JoinMsg) : List W64 :=
  BitVec.ofNat 64 (kind + m.lane * 2 ^ 8 + b2n m.pair * 2 ^ 10 + m.rssi % 256 * 2 ^ 16) :: BitVec.ofNat 64 m.ctr :: payItems m.frame

/-- The message that items spell. -/
def joinMsg (l : List W64) : JoinMsg :=
  let x := (l.getD 0 0).toNat
  ⟨bits x 8 2, bit x 10, bits x 16 8, (l.getD 1 0).toNat, (((l.drop 2).take 3).flatMap (fun y => leBytes 8 y.toNat)).take 19⟩

/-- The ID, service bit and member nonce of a JOIN_REQ's payload (Table 03-12). -/
def JoinMsg.id (m : JoinMsg) : Nat := ofBe (sub m.frame 2 2)
def JoinMsg.service (m : JoinMsg) : Bool := bit (m.frame.getD 4 0) 1
def JoinMsg.mnonce (m : JoinMsg) : List Nat := sub m.frame 7 8

/-- A JOIN_REQ heard: once it passes its CRC RAD hands it to SEC, on SQ13 at priority 0 (R100, R108, R373). -/
def joinHeard (lane : Nat) (frame : List Nat) (ctr : Nat) (pair : Bool) (rssi : Nat) (d : Dev) : Dev :=
  let hdr := ofBe (frame.take 2)
  if frame.length ≠ 22 ∨ bits hdr 0 8 ≠ 13 ∨ bits hdr 12 4 ≠ 3 then inc (RAD.ACERR lane) d
  else if ofBe (frame.drop 19) ≠ crc24 0x65B 0x555555 (frame.take 19) then inc (RAD.CRCERR lane) d
  else hwPushAt 13 0 0 (joinItems 3 ⟨lane, pair, rssi, ctr, frame.take 19⟩) d

/-- SEC's reply on SQ11: kind 2 where the MIC fails, else kind 3 with the context that took the key plus 1, the base nonce and the join
key. -/
def joinReply (m : JoinMsg) (good : Bool) (cx : Option Nat) (bn jk : List Nat) (d : Dev) : Dev :=
  hwPush 11 (joinItems (if good then 3 else 2) m ++
    (if good then BitVec.ofNat 64 ((cx.map (· + 1)).getD 0) :: payItems (bn ++ jk) else [])) d

/-- SEC takes a join request: it checks the MIC under the join key, draws the base nonce, and places the session key at the context
that serves the sender (R101, R108, R521). -/
def joinCheck (fu : Fuses) (m : JoinMsg) (d0 : Dev) : Dev :=
  match joinKey m.service m.id d0 with
  | none => joinReply m false none [] [] d0
  | some jk =>
    let d := redraw 1 d0
    let n := ccmNonce (sysId fu) m.id (joinNum m.service m.id d) 1 m.ctr
    if ccmTag jk n (m.frame.take 2) (sub m.frame 2 13) 4 != sub m.frame 15 4 then joinReply m false none [] [] d
    else
      let bn := freeBytes 8 d
      let cx := ctxFor m.service m.id d
      let d := drawnN 8 d
      let d := match cx with
        | some c => placeSess c jk ⟨m.id, m.service, sessLabel m.mnonce bn⟩ true d
        | none => d
      joinReply m true cx bn jk d

/-- RAD takes SEC's reply: a failed MIC is counted; a request that passed is queued, and firmware gets it as a received frame
(R100, R108, R110, R120). -/
def joinTaken (l : List W64) (d0 : Dev) : Dev :=
  let m := joinMsg l
  if bits (l.getD 0 0).toNat 0 8 = 2 then inc (RAD.MICERR m.lane) d0
  else
    let k := (l.drop 6).flatMap (fun y => leBytes 8 y.toNat)
    let cx := (l.getD 5 0).toNat
    let d := inc (RAD.RXFRM m.lane) d0
    let q : JoinReq := ⟨m.id, m.service, if cx = 0 then none else some (cx - 1), sub k 8 16, m.mnonce, k.take 8⟩
    rxDeliver (joinNum m.service m.id d) m.lane 3 m.pair m.rssi (sub m.frame 2 13) { d with rad := { d.rad with joinQ := d.rad.joinQ ++ [q] } }

/-- A JOIN_REQ received in slots 78–79, while no lane sends (R77, R78, R106, R108, R110, R494). -/
def joinReq (fu : Fuses) (lane : Nat) (frame : List Nat) (ctr : Nat) (pair : Bool) (rssi : Nat) (d : Dev) : Dev :=
  if hears d && joinOpen fu lane d && fromSlot 78 d && !(List.range 4).any (fun l => sending l d) && divHears lane pair d then
    joinHeard lane frame ctr pair rssi (divCount lane pair d)
  else d

/-- A queued request's session key label. -/
def reqLbl (q : JoinReq) : SessLbl := ⟨q.id, q.service, sessLabel q.mnonce q.nonce⟩

/-- The context holds the key of a queued request, or of a later one of the same sender. -/
def reqKeyed (q : JoinReq) (c : Nat) (d : Dev) : Bool := q.ctx == some c && on (RAD.KEYH.VALID c) d

/-- The armed context that serves a queued request as RAD's turn comes: placed, outside moss stop, its key in place or SEC there to
place it (R108, R110, R118). -/
def joinCtx (q : JoinReq) (d : Dev) : Option Nat :=
  match ctxFor q.service q.id d with
  | some c =>
    if armed c d && !displaced c d && !on RAD.RADCTL.MOSS d && (reqKeyed q c d || isUp SECi d) then some c else none
  | none => none

/-- A context's past events closed before a JOIN_RSP names its next one, and what is due at that one done (R93, R95). -/
def joinReady (q : JoinReq) (d : Dev) : Dev :=
  match ctxFor q.service q.id d with
  | none => d
  | some c =>
    let d := passEvents ((sfNow d + 1) % 2 ^ 32) c (endEvent c false d)
    if armed c d && !displaced c d then atInstant c d else d

/-- The link starts again with a JOIN_RSP, and its supervision timer with it (DESIGN CHOICE, log 149). A parameter update that is
pending keeps its superframe, and its frame goes out again; a pending map is told again (R85, R95). -/
def rejoin (c : Nat) (d0 : Dev) : Dev :=
  let d := linkReset c d0
  let d := match (ctxOf c d0).upd with
    | none => d
    | some u =>
      let u' := { u with inst := (u.inst + 2 ^ 16 - rd (RAD.EVC.EVENT c) d0) % 2 ^ 16 }
      queueCtl c (paramUpdate c u' d) (ctxSet c { ctxOf c d with upd := some u' } d)
  mapRetell c d

/-- A JOIN_RSP on the air, in M2, with its MIC over the Gnodon's join counter (R101, R107, R108, R110). -/
def joinSend (fu : Fuses) (lane : Nat) (q : JoinReq) (pay : List Nat) (cx : Nat) (d0 : Dev) : Dev :=
  let d := { d0 with keep := { d0.keep with joinCtr := d0.keep.joinCtr + 1 } }
  let h := hdrWord 4 0 0 0 29
  let n := ccmNonce (sysId fu) q.id cx 0 ((Config.joinBase.toNat + d0.keep.joinCtr) % 2 ^ 32)
  inc (RAD.TXFRM lane) (onAir fu lane (chanOf fu lane (sfNow d0) d0) (txPower fu lane false d) 184 false
    false (frameBytes h (pay ++ ccmTag q.key n (beBytes 2 h) pay 4)) d)

/-- The map a member needs at its first event (R85). -/
def joinMap (f : Nat) (d : Dev) : Nat :=
  match d.rad.mapArm with
  | some (m, at_) => if toS 32 (ofS 32 ((at_ : Int) - f)) ≤ 0 then m else rd RAD.CHMAP d
  | none => rd RAD.CHMAP d

/-- The payload of an accepting JOIN_RSP (Table 03-12). The first superframe is that of the context's next event: FIRSTSF + k × interval
of the placement checked last (R118; for a context that was not MIGRATING, DESIGN CHOICE, log 149). -/
def joinPay (q : JoinReq) (c : Nat) (d : Dev) : List Nat :=
  let f := rd (RAD.NEXTSF c) d
  let p := placeWord c d
  beBytes 2 q.id ++ [0, c, laneMode c p d, bits p 2 7, bits p 9 5, bits p 14 5, ivlOf (bits p 19 3)] ++
    beBytes 4 f ++ beBytes 2 (rd (RAD.TIMERS.SUPV c) d) ++ [rd (RAD.TIMERS.STOPTO c) d] ++ beBytes 5 (joinMap f d) ++ q.nonce

/-- A request accepted (R106, R108): SEC places the key where none was placed as it came, the link starts again, and frames go out
under the key once no later request of the sender waits. -/
def joinAccept (fu : Fuses) (lane c : Nat) (q : JoinReq) (d0 : Dev) : Dev :=
  let d := if reqKeyed q c d0 then d0 else placeSess c q.key (reqLbl q) true (redraw 1 d0)
  let used := (ctxOf c d).keyUsed
  let last := !d.rad.joinQ.any (fun r => r.id == q.id && r.service == q.service)
  let e := rejoin c d
  joinSend fu lane q (joinPay q c d) c (ctxSet c { ctxOf c e with hold := !last || used } e)

/-- The oldest request answered: its context's placement, or WAIT where no armed context serves it (R106, R110). -/
def joinAnswer (fu : Fuses) (lane : Nat) (q : JoinReq) (d0 : Dev) : Dev :=
  let d := joinReady q d0
  match joinCtx q d with
  | some c => joinAccept fu lane c q d
  | none => joinSend fu lane q (padTo 29 (beBytes 2 q.id ++ [1])) (joinNum q.service q.id d) d

/-- A lane may answer a join request in this superframe (R106, R117, R494). -/
def joinLive (fu : Fuses) (lane : Nat) (d : Dev) : Bool :=
  joinOpen fu lane d && laneLive lane d && region fu != 0 && d.aon.power == .run

/-- A lane's join event is due: at slot 76, once in a superframe (R79, R106). An event that began before EN was set may have a lane
send past slot 76; the lane holds no join event then (R77). -/
def joinDue (fu : Fuses) (lane : Nat) (d : Dev) : Bool :=
  joinLive fu lane d && atSlot 76 d && tget d.rad.joinSf lane 0 != sfNow d + 1 && !sending lane d

/-- A lane has held its join event of this superframe. -/
def joinHeld (lane : Nat) (d : Dev) : Dev := { d with rad := { d.rad with joinSf := tset d.rad.joinSf lane (sfNow d + 1) 0 } }

/-- The oldest request answered, or deferred where the dwell limit is reached (R88, R106, R110). -/
def joinServe (fu : Fuses) (lane : Nat) (d : Dev) : Dev :=
  match d.rad.joinQ with
  | [] => d
  | q :: rest =>
    if dwellOk (chanOf fu lane (sfNow d) d) 184 d then joinAnswer fu lane q { d with rad := { d.rad with joinQ := rest } }
    else inc (RAD.DEFER lane) d

/-- A join event (R77, R106, R110): events that it cuts are over on every lane. -/
def joinEvent (fu : Fuses) (lane : Nat) (d : Dev) : Dev :=
  if joinDue fu lane d then
    joinServe fu lane (joinHeld lane (forAll (List.range 144) (fun c d => if joinCuts c d then endEvent c false d else d) d))
  else d

/-! ## Stop indications (R130–R134, R572) -/

/-- A stop request taken by RAD (R133): it acts on every beacon to come and goes on to SEC and CTL. -/
def radStop (kind zone member cause : Nat) (d : Dev) : Dev :=
  if kind = 0 ∨ 3 < kind then d
  else
    let d := inc RAD.STOPRQCNT d
    let d := { d with rad := { d.rad with adds := d.rad.adds ++ [⟨kind, zone, member, cause, sfNow d⟩] } }
    let it := [BitVec.ofNat 64 kind, BitVec.ofNat 64 zone, BitVec.ofNat 64 member, BitVec.ofNat 64 cause]
    hwPush 14 it (hwPushAt 13 3 0 it d)

/-- A snapshot already carries an addition (R134): it has the zone's bit clear, or lists the member. A global stop is carried once
a token is decided after SEC has it; so is a singling that SEC could only answer by clearing the zone's bit (R136). -/
def carried (t : Tok) (a : Addn) : Bool :=
  if a.kind = 2 then !bit t.zones a.zone
  else if a.kind = 3 then t.sgl.any (fun e => e.1 == a.member) ||
    (!bit t.zones a.zone && decide (2 ≤ toS 32 (ofS 32 ((t.sf : Int) - a.sf))))
  else decide (2 ≤ toS 32 (ofS 32 ((t.sf : Int) - a.sf)))

/-- A token and snapshot arrives (R130, R134, R572). -/
def tokenArrives (t : Tok) (d : Dev) : Dev :=
  let started := match d.rad.sfLast with
    | some n => decide (toS 32 (ofS 32 ((t.sf : Int) - n)) ≤ 0)
    | none => false
  if started then d
  else
    let left := d.rad.adds.filter (fun a => !carried t a)
    let again := left.filter (fun a => a.kind != 1 && decide (2 < toS 32 (ofS 32 ((t.sf : Int) - a.sf))))
    let ended := match d.rad.wd with
      | some (_, _, upto) => decide (0 < toS 32 (ofS 32 ((t.sf : Int) - upto)))
      | none => true
    let d := { d with rad := { d.rad with toks := d.rad.toks ++ [t], adds := left,
                                           wd := if ended then none else d.rad.wd, cause := if ended then none else d.rad.cause } }
    forAll again (fun a d => hwPushAt 13 3 0 [BitVec.ofNat 64 a.kind, BitVec.ofNat 64 a.zone, BitVec.ofNat 64 a.member, BitVec.ofNat 64 a.cause] d) d

/-- A token packet's items (R129). -/
def tokOf (l : List W64) : Tok :=
  let g (i : Nat) : Nat := (l.getD i 0).toNat
  ⟨g 0, g 1, g 2, g 3, g 4, g 5, (l.drop 6).map (fun x => (x.toNat % 1024, x.toNat / 1024))⟩

/-- An uncorrectable stop-chain item as its consumer reads it: the packet is gone, SQECC sets, and the withdrawal goes out
afresh, with the cause in force where the grant was down already (R370, R572). -/
def chainLost (d0 : Dev) : Dev :=
  let d := critSet SEC.CRITSTAT.SQECC d0
  if on SEC.PMSTAT.GRANT d0 then d else withdraw (rd SEC.PMSTAT.CAUSE d) (on SEC.PMSTAT.LATCH d) d

/-- What a stop-chain consumer does with its packet (R370, R572). -/
def chainTry (q : Nat) (e : Ecc) (lost : Dev → Dev) (f : Packet → Dev → Dev) (d : Dev) : Dev :=
  eccTry q e (fun d => lost (chainLost d)) f d

/-- RAD's tokens are void: the next beacons go out without one (R572). -/
def toksVoid (d : Dev) : Dev := { d with rad := { d.rad with toks := [] } }

/-- TOKEN_DELIVERY (R130, R572). -/
def tokenDelivery (e : Ecc) (d : Dev) : Dev :=
  chainTry 10 e toksVoid (fun p d => tokenArrives (tokOf p.items) (hwTaken 10 d)) d

/-- What RAD or SEC takes off a queue by itself: RAD a BKEY frame or a join answer from SQ11, SEC a join request from SQ13 (R108,
R126). -/
def takeOne (fu : Fuses) (q : Nat) (d : Dev) : Dev :=
  if q = 11 then
    whenUp RADi (chainTry 11 .clean toksVoid (fun p d =>
      let k := bits (p.items.getD 0 0).toNat 0 8
      if k = 0 then d else if k = 1 then bkeyTaken p.items (hwTaken 11 d) else joinTaken p.items (hwTaken 11 d))) d
  else if q = 13 then
    whenUp SECi (chainTry 13 .clean (latchStop cFwStop) (fun p d =>
      if p.items.length = 5 then joinCheck fu (joinMsg p.items) (hwTaken 13 d) else d)) d
  else d

/-- All of them that a queue presents, one after the other (R108, R126). -/
def taken (fu : Fuses) (q : Nat) (d : Dev) : Dev := forAll (List.range (qGet q d).pkts.length) (fun _ => takeOne fu q) d

/-- A withdrawal at RAD (R131, R572). -/
def radWithdrawal (fu : Fuses) (e : Ecc) (d : Dev) : Dev :=
  taken fu 11 (chainTry 11 e toksVoid (fun p d =>
    if p.items.getD 0 0 != 0 then d
    else
      let d := hwTaken 11 d
      let cause := (p.items.getD 1 0).toNat
      { d with rad := { d.rad with wd := some (cause, (p.items.getD 2 0) != 0, (p.items.getD 3 0).toNat), cause := some cause } }) d)

/-- Every axis stops at CTL's next servo cycle (none), or a zone's axes (R137); the zones stopped are no longer granted in
CTL's mirror (R306). -/
def ctlStop (z : Option Nat) (d : Dev) : Dev :=
  let d := match z with
    | none => wr CTL.ZGMIR 0 d
    | some z => wrBit CTL.ZGMIR z false d
  { d with ctl := { d.ctl with stops := d.ctl.stops ++ [z] } }

/-- A withdrawal at CTL (R131, R137, R572). -/
def ctlWithdrawal (e : Ecc) (d : Dev) : Dev :=
  chainTry 12 e (ctlStop none) (fun p d => if p.items.getD 0 0 = 0 then ctlStop none (hwTaken 12 d) else d) d

/-- A decision snapshot at CTL: its zone bitmap into ZGMIR (R306). -/
def ctlSnapshot (e : Ecc) (d : Dev) : Dev :=
  chainTry 12 e (ctlStop none) (fun p d => if p.items.getD 0 0 = 1 then wr CTL.ZGMIR (p.items.getD 1 0).toNat (hwTaken 12 d) else d) d

/-- A forwarded stop request at SEC (R134, R572) or CTL (R137). -/
def secForwarded (fu : Fuses) (e : Ecc) (d : Dev) : Dev :=
  taken fu 13 (chainTry 13 e (latchStop cFwStop) (fun p d =>
    if p.items.length = 4 then
      let g (i : Nat) : Nat := (p.items.getD i 0).toNat
      secStop (g 0) (g 1) (g 2) (g 3) (hwTaken 13 d)
    else d) d)
def ctlForwarded (e : Ecc) (d : Dev) : Dev :=
  eccTry 14 e id (fun p d =>
    let g (i : Nat) : Nat := (p.items.getD i 0).toNat
    let d := hwTaken 14 d
    if g 0 = 1 then ctlStop none d else if g 0 = 2 then ctlStop (some (g 1)) d else d) d

/-- A beacon report at SEC (R559, R560, R572). -/
def secReport (fu : Fuses) (e : Ecc) (d : Dev) : Dev :=
  taken fu 13 (chainTry 13 e (latchStop cFwStop) (fun p d =>
    if p.items.length = 2 then
      let a := (p.items.getD 0 0).toNat
      let b := (p.items.getD 1 0).toNat
      bcnReport (a % 2 ^ 32) (a / 2 ^ 32) (b % 2 ^ 32) (bit b 32) (hwTaken 13 d)
    else d) d)

/-! ## Fences (R117–R119) -/

/-- Every armed context of a lane becomes MIGRATING; its pending updates are dropped (R118). -/
def migrate (l : Nat) (d : Dev) : Dev :=
  forAll (List.range 144) (fun c d =>
    if armed c d && laneOf c d == l && !displaced c d then toMigrating c d else d) d

/-- A lane newly fenced: FENCED, FENCEVT, a token, a record, its contexts MIGRATING (R117, R118). -/
def fenceLane (l : Nat) (d : Dev) : Dev :=
  if on (RAD.LSTAT.FENCED l) d then d
  else
    let d := wrB (RAD.LSTAT.ACTIVE l) false (wrB (RAD.LSTAT.FENCEVT l) true (wrB (RAD.LSTAT.FENCED l) true d))
    migrate l (lichen 7 0x0802 [l] (token 5 7 0xEC l d))

/-- A lane's fence at a superframe boundary (R117). -/
def fenceBoundary (l : Nat) (d : Dev) : Dev :=
  let d := if on (RAD.LSTAT.PWRLIM l) d && !on AON.PWRSTAT.LIMITED d then wrB (RAD.LSTAT.PWRLIM l) false d else d
  let want := on (RAD.LCTL.FENCE l) d || on (RAD.LSTAT.LBFAIL l) d || on (RAD.LSTAT.PWRLIM l) d
  if want then fenceLane l d else wrB (RAD.LSTAT.FENCED l) false d

/-- Lanes 1 and 3 stop at once on entry to power-limited operation (R20, R21, R117). -/
def radLimited (d : Dev) : Dev :=
  forAll [1, 3] (fun l d => fenceLane l (wrB (RAD.LSTAT.PWRLIM l) true (airCut l d))) d

/-! ## The superframe (R79–R86, R122–R125, R133, R478) -/

/-- The channel map that takes effect now (R85, R89). -/
def mapBoundary (n : Nat) (d : Dev) : Dev :=
  match d.rad.mapArm with
  | none => d
  | some (m, at_) =>
    if 0 < toS 32 (ofS 32 ((at_ : Int) - n)) then d
    else
      let d := wr RAD.USED (mapChans m).length (wr RAD.CHMAP m (wrB RAD.MAPCTL.PEND false d))
      let d := { d with rad := { d.rad with vmax := vMax d } }
      budget { d with rad := { d.rad with mapArm := none }, aon := { d.aon with mapCopy := some (m, rd RAD.REJOINCH d) } }

/-- The armed contexts. -/
def armedCtxs (d : Dev) : List Nat := (List.range 144).filter (fun c => armed c d)

/-- A map that is refused (R83, R85, R94): too few channels, not led by the rejoin channel, too close with contexts armed, or
more events ahead of one of them than an instant can name. -/
def mapBad (d : Dev) : Bool :=
  let cs := mapChans (rd RAD.MAPNXT d)
  let ahead := toS 32 (ofS 32 ((rd RAD.MAPAT d : Int) - sfNow d))
  let iMax := ((armedCtxs d).map (fun c => ivlOf (rd (RAD.PLACE.IVL c) d))).foldl max 0
  decide (cs.length < 15) || cs.head? != some (rd RAD.REJOINCH d) || (armedCtxs d != [] && decide (ahead < (6 * iMax : Nat))) ||
    (armedCtxs d).any (fun c => twoWay c d && !displaced c d && decide (32767 < eventsTo c (rd RAD.MAPAT d) d))

/-- A map armed: PEND, and every armed two-way context is told (R85). -/
def mapTake (d : Dev) : Dev :=
  forAll (armedCtxs d) (mapTell (rd RAD.MAPNXT d) (rd RAD.MAPAT d))
    (wrB RAD.MAPCTL.PEND true { d with rad := { d.rad with mapArm := some (rd RAD.MAPNXT d, rd RAD.MAPAT d) } })

/-- MAPCTL.ARM (R83, R85). -/
def mapArm (d : Dev) : Dev := if mapBad d then wrB RAD.MAPCTL.REFUSED true d else mapTake d

/-- What a beacon carries (Tables 04-1 to 04-3). -/
structure Bcn where
  flags : Nat
  epoch : Nat
  zones : Nat
  gst   : Nat
  ids   : List Nat
  cap   : Nat
  tok   : Nat
  stat  : Nat
  deriving DecidableEq, Repr

/-- The stop additions applied to a beacon's zones and singled IDs (R133). A singling that finds eight IDs listed clears its
zone's bit, as R136 has SEC do (log 79). -/
def addStops (l : List Addn) (z : Nat) (ids : List Nat) : Nat × List Nat :=
  l.foldl (fun b a =>
    if a.kind = 2 then (setBit b.1 a.zone false, b.2)
    else if a.kind ≠ 3 ∨ b.2.contains a.member then b
    else if b.2.length < 8 then (b.1, b.2 ++ [a.member])
    else (setBit b.1 a.zone false, b.2)) (z, ids)

/-- The beacon of superframe n (R122–R125, R131, R133, R478). Without a token, epoch, CRAWL and KG are those of the last beacon sent
(DESIGN CHOICE, log 149). -/
def beacon (n : Nat) (d : Dev) : Bcn :=
  let moss := on RAD.RADCTL.MOSS d
  let tk := if moss then none else d.rad.toks.find? (fun t => t.sf == n)
  let glob := d.rad.adds.find? (fun a => a.kind == 1)
  let wd := match d.rad.wd with
    | some (c, l, upto) => if decide (toS 32 (ofS 32 ((n : Int) - upto)) ≤ 0) || tk.isNone then some (c, l) else none
    | none => none
  let grace := on SEC.PMSTAT.GRACE d
  let mk (flags epoch zones cap tok : Nat) (ids : List Nat) (gs la : Bool) (cause : Nat) (radd tokok : Bool) : Bcn :=
    let crawl := bit flags 3
    { flags := flags, epoch := epoch, zones := zones, cap := cap, tok := tok, ids := ids
      gst := b2n gs * 2 ^ 15 + b2n la * 2 ^ 14 + cause
      stat := b2n tokok + 2 * b2n gs + 4 * b2n radd + 8 * b2n moss + 16 * b2n crawl + 32 * b2n grace + cause * 2 ^ 8 + epoch * 2 ^ 16 }
  let fl (crawl radd : Bool) (kg : Nat) : Nat := kg % 2 + 2 * b2n radd + 4 * b2n grace + 8 * b2n crawl + 16 * b2n moss
  let gs := glob.isSome || wd.isSome
  let la := glob.isSome || (match wd with
    | some (_, l) => l
    | none => false)
  let cause := match glob, wd with
    | some a, _ => a.cause
    | none, some (c, _) => c
    | none, none => 0
  match tk with
  | some t =>
    let st := addStops d.rad.adds t.zones (t.sgl.map (·.1))
    let z := st.1
    let ids := st.2
    let radd := z != t.zones || ids != t.sgl.map (·.1)
    mk (fl (bit t.flags 1) radd t.flags) t.epoch z t.cap t.tok ids gs la cause radd true
  | none =>
    let c := if moss then cMoss else if glob.isSome then cause else match d.rad.cause with
      | some c => c
      | none => cNoToken
    mk (fl (d.rad.crawl && !moss) false d.rad.kg) d.rad.epoch 0 0 0 [] true la c false false

/-- The 42 bytes of a beacon's payload (Table 04-1). -/
def beaconPay (fu : Fuses) (n : Nat) (b : Bcn) (d : Dev) : List Nat :=
  beBytes 2 (sysId fu) ++ [baseId fu * 32 + b.flags] ++ beBytes 4 n ++ beBytes 2 b.epoch ++ beBytes 8 b.zones ++
  beBytes 2 b.gst ++ [b.ids.length] ++ packIds b.ids ++ beBytes 2 b.cap ++
  beBytes 6 (((wall d).fdiv 1000) % (2 ^ 48 : Nat)).toNat ++ beBytes 4 b.tok

/-- A lane sends the beacon in this superframe (R20, R77, R117, R478). -/
def lanePuts (fu : Fuses) (l : Nat) (d : Dev) : Bool :=
  laneLive l d && region fu != 0 &&
  (!on RAD.RADCTL.MOSS d || l == 0 || l == 2 || (List.range 144).any (fun c => armed c d && laneOf c d == l))

/-- The beacon on one lane, within its dwell time (R80, R88); TXTIME then holds the superframe before (Table 03-20). -/
def laneBeacon (fu : Fuses) (n : Nat) (b : Bcn) (l : Nat) (d0 : Dev) : Dev :=
  let d := wr (RAD.TXTIME l) (tget d0.rad.txAcc l 0) (wrB (RAD.LSTAT.ACTIVE l) (lanePuts fu l d0) d0)
  let d := { d with rad := { d.rad with txAcc := tset d.rad.txAcc l 0 0 } }
  if !lanePuts fu l d then d
  else
    let ch := chanOf fu l n d
    if !dwellOk ch 432 d then inc (RAD.BCNSKIP l) d
    else inc (RAD.BCNTX l) (onAir fu l ch (txPower fu l true d) 432 true true (frameBytes (hdrWord 0 0 0 0 42) (beaconPay fu n b d)) d)

/-- BCNSTAT and its companions after a beacon, and the report to SEC (R559, Table 04-13). -/
def beaconDone (n : Nat) (b : Bcn) (sent : Bool) (d0 : Dev) : Dev :=
  let d := if sent then
      let d := wr RAD.BCNSTAT.EPOCH b.epoch (wr RAD.BCNSTAT.CAUSE (b.gst % 256) (wrB RAD.BCNSTAT.GRACE (bit b.stat 5)
        (wrB RAD.BCNSTAT.CRAWL (bit b.stat 4) (wrB RAD.BCNSTAT.MOSS (bit b.stat 3) d0))))
      let d := wrB RAD.BCNSTAT.RADD (bit b.stat 2) (wrB RAD.BCNSTAT.GSTOP (bit b.stat 1) (wrB RAD.BCNSTAT.TOKOK (bit b.stat 0) d))
      let d := wr RAD.BCNSF n d
      let d := if bit b.stat 0 then d else inc RAD.NOTOK d
      if bit b.stat 2 then inc RAD.RADDCNT d else d
    else d0
  hwPushAt 13 2 0 [BitVec.ofNat 64 (n + b.stat % 2 ^ 32 * 2 ^ 32), BitVec.ofNat 64 (b.tok + b2n (!sent) * 2 ^ 32)] d

/-- Moss stop entered or left at a boundary (R60, R479–R481). -/
def mossBoundary (d : Dev) : Dev :=
  match d.rad.mossNext with
  | none => d
  | some m =>
    let d := wrB RAD.RADCTL.MOSS m { d with rad := { d.rad with mossNext := none } }
    if m then d else wrB AON.CCTL.STEPEN false d

/-- The boundary of superframe n, before its beacon (R79, R81, R117, R563). The skew says that RAD's count and the raw
counter differ by more than 2 µs. -/
def sfBoundary (n : Nat) (skew : Bool) (d0 : Dev) : Dev :=
  let ph := if d0.rad.begun then (d0.rad.phase + 1) % 100 else n % 100
  let d := { d0 with rad := { d0.rad with sfLast := some n, phase := ph, begun := true, freeing := [], lbDue := d0.rad.lbDue || n % 25 == 0 } }
  let d := if skew then critSet SEC.CRITSTAT.RAWCNT d else d
  let d := forAll (List.range 144) (fun c d =>
    let d := passEvents n c (endEvent c false d)
    if (ctxOf c d).term && displaced c d then freeCtx c d else d) d
  mapBoundary n (forAll (List.range 4) fenceBoundary (mossBoundary d))

/-- A beacon on every lane that sends it, and what RAD keeps of it (R80, R122, R130, R559). -/
def sfBeacon (fu : Fuses) (n : Nat) (b : Bcn) (d0 : Dev) : Dev :=
  let d := forAll (List.range 4) (laneBeacon fu n b) d0
  let d := beaconDone n b (decide (d0.sent.length < d.sent.length)) d
  { d with rad := { d.rad with epoch := b.epoch, crawl := if bit b.stat 3 then false else bit b.flags 3, kg := b.flags % 2,
                               toks := d.rad.toks.filter (fun t => decide (0 < toS 32 (ofS 32 ((t.sf : Int) - n)))) } }

/-- A superframe begins at its instant, once, and none within 20 ms of RAD's release (R62, R79). -/
def superframe (fu : Fuses) (skew : Bool) (d0 : Dev) : Dev :=
  let n := sfNow d0
  if d0.rad.sfLast = some n ∨ d0.raw < d0.rad.relRaw + 20 * rawPerMs ∨ atSlot 0 d0 = false then d0
  else
    let d := sfBoundary n skew d0
    sfBeacon fu n (beacon n d) d

/-! ## Loopback (R562) -/

/-- The first slot of 76–79 that is FREE in this superframe (R106, R562). -/
def lbFree (fu : Fuses) (d : Dev) : Option Nat :=
  if on RAD.JOINCFG.EN d then
    if (List.range 4).any (fun l => chanOf fu l (sfNow d) d == rd RAD.REJOINCH d) then none else some 76
  else
    let ks := (claims 999 d).filter (fun k => k.hits d.rad.phase)
    [76, 77, 78, 79].find? (fun s => ks.all (fun k => !(decide (k.anch ≤ s) && decide (s < k.anch + k.len))))

/-- CYCLE stands in that slot (R562). -/
def lbSlot (fu : Fuses) (d : Dev) : Bool :=
  match lbFree fu d with
  | none => false
  | some s => fromSlot s d && !fromSlot (s + 1) d

/-- One lane's check with the loss it reports: within 34–46 dB at first, then within 3 dB of the reference (R562). The lane is fenced
for a failure at the next superframe boundary, and sends until then (R117; DESIGN CHOICE, log 149). -/
def laneLoop (res : Option Nat) (l : Nat) (d : Dev) : Dev :=
  if !on (RAD.LCTL.EN l) d || on (RAD.LSTAT.FENCED l) d || on (RAD.LSTAT.PWRLIM l) d then d
  else
    let ref := tget d.aon.lbRef l 0
    let ok := match res with
      | none => false
      | some x => if ref = 0 then decide (34 ≤ x ∧ x ≤ 46) else decide (x ≤ ref + 3 ∧ ref ≤ x + 3)
    let d := match res with
      | some x => if ref = 0 ∧ x ≠ 0 then { d with aon := { d.aon with lbRef := tset d.aon.lbRef l x 0 } } else d
      | none => d
    let d := wr (RAD.LBSTAT.LOSS l) (res.getD 0) (wrB (RAD.LBSTAT.PASS l) ok d)
    if ok then d else inc (RAD.LBFAILCNT l) (wrB (RAD.LSTAT.LBFAIL l) true d)

/-- The loopback check with the loss each lane reports (none: the burst was not received) (R562). -/
def loopback (fu : Fuses) (res : Nat → Option Nat) (d0 : Dev) : Dev :=
  if !d0.rad.lbDue || !lbSlot fu d0 then d0
  else
    forAll (List.range 4) (fun l => laneLoop (res l) l) { d0 with rad := { d0.rad with lbDue := false } }

end Sys2Proof.Machine
end

