-- ==== Sys2Proof/Machine/PermissionRows.lean ====
section
/-! DEFINITION. Machine/PermissionRows.lean: the commands and events of the permission to move and of the stop chain. -/

namespace Sys2Proof.Machine

/-- An effect on SEC: nothing happens while SEC is down (R357). -/
def onSec (s : State) (f : Fuses → Dev → Dev) : Out := onDev s (fun fu => whenUp SECi (f fu))

/-- DECISION_INSTANT (R129, R558). -/
def execDecisionInstant (flt : Option HalfFault) (s : State) : Out := onSec s (fun fu => decide_ fu flt)

/-- GRANT_EVAL: the reading every 1 ms (R127, R131, R558). -/
def execGrantEval (flt : Option HalfFault) (s : State) : Out := onSec s (fun _ => evalGrant flt)

/-- TOKEN_DELIVERY: RAD takes a token and snapshot from SQ10 (R130, R134, R572). -/
def execTokenDelivery (e : Ecc) (s : State) : Out := onDev s (fun _ => whenUp RADi (tokenDelivery e))

/-- WITHDRAWAL: RAD takes it from SQ11, or CTL from SQ12 (R131, R137, R572). -/
def execWithdrawal (toCtl : Bool) (e : Ecc) (s : State) : Out :=
  onDev s (fun fu => if toCtl then whenUp CTLi (ctlWithdrawal e) else whenUp RADi (radWithdrawal fu e))

/-- DECISION_SNAPSHOT: CTL takes it from SQ12 (R306, R572). -/
def execDecisionSnapshot (e : Ecc) (s : State) : Out := onDev s (fun _ => whenUp CTLi (ctlSnapshot e))

/-- A stop request from its source: the word of a register write, or the packet on SQ16 or SQ17 (Table 04-14). -/
def stopVia (via : StopVia) (kind zone member cause : Nat) (d : Dev) : Dev :=
  match via with
  | .reg => radStop kind zone member cause d
  | v =>
    let q := if v = .sch then 16 else 17
    hwTry q id (fun p d =>
      let x := (p.items.getD 0 0).toNat
      if bits x 0 2 = kind then radStop kind (bits x 2 6) (bits x 8 10) (bits x 18 8) (hwTaken q d) else d) d

/-- GLOBAL_STOP_REQUEST (R133). -/
def execGlobalStopRequest (cause : Byte) (via : StopVia) (s : State) : Out :=
  onDev s (fun _ => whenUp RADi (stopVia via 1 0 0 cause.toNat))

/-- ZONE_STOP (R133). -/
def execZoneStop (z : Fin 64) (via : StopVia) (s : State) : Out :=
  onDev s (fun _ => whenUp RADi (stopVia via 2 z 0 0))

/-- SINGLE_MEMBER (R133). -/
def execSingleMember (m : BitVec 10) (z : Fin 64) (via : StopVia) (s : State) : Out :=
  onDev s (fun _ => whenUp RADi (stopVia via 3 z m.toNat 0))

/-- FORWARDED_STOP: SEC takes it from SQ13, or CTL from SQ14 (R134, R137, R572). -/
def execForwardedStop (toCtl : Bool) (e : Ecc) (s : State) : Out :=
  onDev s (fun fu => if toCtl then whenUp CTLi (ctlForwarded e) else whenUp SECi (secForwarded fu e))

/-- APP_HEARTBEAT: a write of SEC.APPHB (R128, R565). -/
def execAppHeartbeat (v : W32) (w : Who) (s : State) : Out := onSec s (fun _ => whenB (atS w) (appHb v))

/-- The reservation engine's heartbeat taken from SQ15 (R128, R572). -/
def schHeartbeat (e : Ecc) (d : Dev) : Dev :=
  chainTry 15 e id (fun _ d =>
    let d := hwTaken 15 d
    pmMirror { d with sec := { d.sec with schRaw := some d.raw } }) d

/-- SCH_HEARTBEAT (R128). -/
def execSchHeartbeat (e : Ecc) (s : State) : Out := onSec s (fun _ => schHeartbeat e)

/-- ZGRANT_WRITE (R135): ignored during grace (R150). The next decision takes it. -/
def execZgrantWrite (v : W64) (w : Who) (s : State) : Out :=
  onSec s (fun _ => whenB (atS w) (zgrantWrite v.toNat))

/-- UNSINGLE (R135): ignored during grace (R150). -/
def execUnsingle (m : BitVec 10) (w : Who) (s : State) : Out :=
  onSec s (fun _ => whenB (atS w) (unsingleWrite m.toNat))

/-- PMCTL_GSTOP with the GCAUSE written (R142, Table 04-12). -/
def execPmctlGstop (cause : Byte) (w : Who) (s : State) : Out :=
  onSec s (fun _ => whenB (atS w) (latchStop (if cause = 6 then cNetStop else cFwStop)))

/-- FULL (R148, R150). -/
def execFull (w : Who) (s : State) : Out :=
  onSec s (fun _ d => if atS w && d.sec.fixq && !on SEC.PMSTAT.GRACE d then wrB SEC.PMSTAT.CRAWL false d else d)

/-- GRACEREQ (R149, R154). -/
def execGracereq (w : Who) (s : State) : Out := onSec s (fun _ => whenB (atM w) graceReq)

/-- GRACE_LAPSE (R149). -/
def execGraceLapse (s : State) : Out := onSec s (fun _ => graceLapse)

/-- GRACE_TIMEOUT (R149). -/
def execGraceTimeout (s : State) : Out := onSec s (fun _ => graceTimeout)

/-- BKEY: SEC composes the frame of the current or next generation and hands it to RAD over SQ11 (R126, R517). -/
def execBkey (c : Fin 144) (nxt : Bool) (s : State) : Out :=
  onSec s (fun _ => whenUp RADi (bkeyFor c nxt))

/-- BEACON_REPORT: SEC takes RAD's report from SQ13 (R559, R560, R572). -/
def execBeaconReport (e : Ecc) (s : State) : Out := onSec s (fun fu => secReport fu e)

/-- BEACON_REPORT_MISSING: no report 2 ms after the beacon's end (R560). -/
def execBeaconReportMissing (s : State) : Out := onSec s (fun _ => bcnMissing)

end Sys2Proof.Machine
end

