-- ==== Sys2Proof/Machine/AxisRows.lean ====
section
/-! DEFINITION. Machine/AxisRows.lean: the axis commands, as AXCMD takes them (Axis motion, stepping and homing). A command
waits for the next servo cycle (R305), where `takeAll` gives it its effect. -/

namespace Sys2Proof.Machine

/-- An AXCMD write. -/
def onAxis (a c : Nat) (w : Who) (s : State) : Out := onDev s (fun _ => whenUp CTLi (whenB (atS w) (cmdPost a c)))

/-- ENABLE (R293, R305, R307, R313, R317, R356). -/
def execEnable (a : Fin 48) (w : Who) (s : State) : Out := onAxis a 1 w s

/-- DISABLE (R305). -/
def execDisable (a : Fin 48) (w : Who) (s : State) : Out := onAxis a 2 w s

/-- MOVE (R299, R302, R304–R306, R318). -/
def execMove (a : Fin 48) (w : Who) (s : State) : Out := onAxis a 3 w s

/-- JOG (R299, R302, R304–R306, R318). -/
def execJog (a : Fin 48) (w : Who) (s : State) : Out := onAxis a 4 w s

/-- STOP (R305, R308, R330). -/
def execStop (a : Fin 48) (w : Who) (s : State) : Out := onAxis a 5 w s

/-- HOME (R305, R306, R323–R326). -/
def execHome (a : Fin 48) (w : Who) (s : State) : Out := onAxis a 6 w s

/-- FRST (R305, R311). -/
def execFrst (a : Fin 48) (w : Who) (s : State) : Out := onAxis a 7 w s

/-- IDLE_POWERDOWN (R315). -/
def execIdlePowerdown (a : Fin 48) (s : State) : Out := onDev s (fun _ => whenUp CTLi (idleDown a))

end Sys2Proof.Machine
end

