-- ==== Sys2Proof/Machine/CtlCode.lean ====
section
/-! DEFINITION. Machine/CtlCode.lean: the encoding of a cycle program's instructions and its check (Control engine and cycle
programs: Programs and their memory, Instruction formats). -/

namespace Sys2Proof.Machine

/-- A cycle instruction by its format (Table 10-2). -/
inductive COp where
  | fr (op d a b : Nat)
  | fk (d imm : Nat)
  | fm (op d cell : Nat)
  | fp (op d mem off ty bt : Nat)
  | fs (op a ph n : Nat)
  | fb (op d a b unit sub : Nat)
  deriving DecidableEq, Repr

/-- The opcodes of formats R, S and B (Table 10-3). -/
def rOp (op : Nat) : Bool := decide (op = 1 ∨ op = 2 ∨ (8 ≤ op ∧ op ≤ 0x15))
def sOp (op : Nat) : Bool := decide (0x18 ≤ op ∧ op ≤ 0x1A)
def bOp (op : Nat) : Bool := decide (0x20 ≤ op ∧ op ≤ 0x26)

/-- The word of an instruction (Table 10-2). -/
def COp.enc : COp → Nat
  | .fr op d a b => op * 2 ^ 26 + d * 2 ^ 20 + a * 2 ^ 14 + b * 2 ^ 8
  | .fk d imm => 3 * 2 ^ 26 + d * 2 ^ 20 + imm
  | .fm op d cell => op * 2 ^ 26 + d * 2 ^ 20 + cell * 2 ^ 8
  | .fp op d mem off ty bt => op * 2 ^ 26 + d * 2 ^ 20 + mem * 2 ^ 14 + off * 2 ^ 8 + ty * 2 ^ 5 + bt
  | .fs op a ph n => op * 2 ^ 26 + a * 2 ^ 20 + ph * 2 ^ 14 + n * 2 ^ 8
  | .fb op d a b unit sub => op * 2 ^ 26 + d * 2 ^ 20 + a * 2 ^ 14 + b * 2 ^ 8 + unit * 2 ^ 2 + sub

/-- The instruction a word spells: none where its opcode or a reserved field fails R341. -/
def COp.dec (w : Nat) : Option COp :=
  let op := bits w 26 6
  let d := bits w 20 6
  let a := bits w 14 6
  let b := bits w 8 6
  let lo := bits w 0 8
  if rOp op then (if lo = 0 then some (.fr op d a b) else none)
  else if op = 3 then some (.fk d (bits w 0 20))
  else if op = 4 ∨ op = 5 then (if lo = 0 then some (.fm op d (bits w 8 12)) else none)
  else if op = 6 ∨ op = 7 then
    (if bits w 5 3 = 7 ∨ bits w 0 5 = 0 then some (.fp op d a b (bits w 5 3) (bits w 0 5)) else none)
  else if sOp op then
    (if lo = 0 ∧ b ≠ 0 ∧ (op = 0x1A ∨ a = 0) then some (.fs op d a b) else none)
  else if bOp op then
    (if (bits w 0 2 = 0 ∨ (op = 0x20 ∧ bits w 0 2 = 1)) ∧ (op ≠ 0x22 ∨ bits w 2 6 = 0)
     then some (.fb op d a b (bits w 2 6) (bits w 0 2)) else none)
  else none

/-- An instruction that a word can spell: its fields within their widths, its opcode of its format, and what R341 reserves 0. -/
def COp.wf : COp → Bool
  | .fr op d a b => rOp op && decide (d < 64 ∧ a < 64 ∧ b < 64)
  | .fk d imm => decide (d < 64 ∧ imm < 2 ^ 20)
  | .fm op d cell => decide ((op = 4 ∨ op = 5) ∧ d < 64 ∧ cell < 2 ^ 12)
  | .fp op d mem off ty bt =>
    decide ((op = 6 ∨ op = 7) ∧ d < 64 ∧ mem < 64 ∧ off < 64 ∧ ty < 8 ∧ bt < 32 ∧ (ty = 7 ∨ bt = 0))
  | .fs op a ph n => sOp op && decide (a < 64 ∧ ph < 64 ∧ n < 64 ∧ n ≠ 0 ∧ (op = 0x1A ∨ ph = 0))
  | .fb op d a b unit sub =>
    bOp op && decide (d < 64 ∧ a < 64 ∧ b < 64 ∧ unit < 64 ∧ (sub = 0 ∨ (op = 0x20 ∧ sub = 1)) ∧ (op ≠ 0x22 ∨ unit = 0))

/-- CTL clocks of an instruction (Table 10-3). -/
def COp.clocks : COp → Nat
  | .fr op _ _ _ => if op = 0x0C ∨ op = 0x0D then 8 else 1
  | .fk _ _ => 1
  | .fm _ _ _ => 2
  | .fp _ _ _ _ _ _ => 2
  | .fs _ _ _ _ => 1
  | .fb op _ _ _ _ _ => [12, 6, 2, 4, 24, 16, 4].getD (op - 0x20) 0

/-- Bytes of a field type (Table 10-4). -/
def tySize (ty : Nat) : Nat := [1, 1, 2, 2, 4, 4, 8, 1].getD ty 1

/-- Why the word at an index of a program fails R338 (0: it passes). -/
def COp.check (len ix w : Nat) : Nat :=
  match COp.dec w with
  | none => 2
  | some c =>
    let isEnd := match c with | .fr 1 _ _ _ => true | _ => false
    let last := ix + 1 == len
    let body := match c with
      | .fp op _ mem off ty bt =>
        if mem = 0 then 3
        else if op = 6 ∧ ty = 1 ∧ (off = 24 ∨ off = 25) then 0
        else if (if op = 6 then 24 else 16) < off + tySize ty ∨ 7 < bt then 5 else 0
      | .fs _ _ _ n => if len ≤ ix + 1 + n then 4 else 0
      | .fb op d _ _ unit _ =>
        if 0x24 ≤ op ∧ 48 ≤ unit then 3
        else if (op = 0x24 ∨ op = 0x25) ∧ 61 < d then 3 else 0
      | _ => 0
    if body ≠ 0 then body else if isEnd != last then 6 else 0

/-- The check of R338 over a program's words: the first word that fails, with its reason. -/
def checkProg (len : Nat) : Nat → List Nat → Option (Nat × Nat)
  | _, [] => none
  | ix, w :: r => if COp.check len ix w = 0 then checkProg len (ix + 1) r else some (ix, COp.check len ix w)

/-- WCET: the clocks of every word (R337, R338). -/
def wcet (l : List Nat) : Nat := (l.map (fun w => match COp.dec w with | some c => c.clocks | none => 0)).sum

end Sys2Proof.Machine
end

