-- ==== Sys2Proof/Machine/Ctl.lean ====
section
/-! DEFINITION. Machine/Ctl.lean: the control engine: servo cycles, programs, loop blocks, handovers, faults (Control engine
and cycle programs). -/

namespace Sys2Proof.Machine

/-! ## Arithmetic (R342) -/

/-- A result in CTL: its bits, and how many exceptions of R342 it made. -/
structure CV where
  v : Nat
  n : Nat := 0
  deriving DecidableEq, Repr

/-- A result beyond the finite range saturates. -/
def cFix (r : FRes) : CV :=
  match FV.of f32 r.v with
  | .inf s => ⟨maxBits f32 s, 1⟩
  | _ => ⟨r.v, 0⟩

def cAdd (a b : Nat) : CV := cFix (fAdd f32 0 a b)
def cSub (a b : Nat) : CV := cFix (fSub f32 0 a b)
def cMul (a b : Nat) : CV := cFix (fMul f32 0 a b)
def cMad (c a b : Nat) : CV := cFix (fFma f32 0 a b c)
def cZero (a : Nat) : Bool := a % 2 ^ 31 == 0
def cDiv (a b : Nat) : CV := if cZero b then ⟨0, 1⟩ else cFix (fDiv f32 0 a b)
def cLt (a b : Nat) : Bool := (fCmp f32 1 a b).1
def cLe (a b : Nat) : Bool := (fCmp f32 2 a b).1
def cSqrt (a : Nat) : CV := if cLt a 0 then ⟨0, 1⟩ else cFix (fSqrt f32 0 a)
def cMin (a b : Nat) : Nat := (fMinMax f32 false a b).v
def cMax (a b : Nat) : Nat := (fMinMax f32 true a b).v
def cNeg (a : Nat) : Nat := if 2 ^ 31 ≤ a then a - 2 ^ 31 else a + 2 ^ 31
def cOne : Nat := 0x3F800000
def cBool (b : Bool) : Nat := if b then cOne else 0
def cInt (i : Int) : Nat := (ofInt f32 0 i).v

/-- A fixed-point number with k fraction bits as fp32. -/
def cFixed (i : Int) (k : Nat) : Nat := (roundTo f32 0 (decide (i < 0)) i.natAbs (-(k : Int))).v

/-- A NaN or an infinity. -/
def cBad (a : Nat) : Bool := match FV.of f32 a with | .fin _ _ _ => false | _ => true

/-- fp32 times 2^k rounded to nearest, ties away from zero: an infinity lies beyond every type's range; none of a NaN. -/
def cRound (a k : Nat) : Option Int :=
  match FV.of f32 a with
  | .fin s m e =>
    let g := e + k
    let q : Nat := if 0 ≤ g then m * 2 ^ g.toNat else (m + 2 ^ ((-g).toNat - 1)) / 2 ^ (-g).toNat
    some (if s then -(q : Int) else q)
  | .inf s => some (if s then -(2 ^ 200) else 2 ^ 200)
  | _ => none

/-! ## Working registers and counts -/

/-- A working register: f0 reads 0.0 (R340). -/
def fGet (i : Nat) (d : Dev) : Nat := if i = 0 then 0 else (tget d.ctl.f i 0).toNat

/-- A write to a working register: to f0 it is discarded (R340). -/
def fSet (i v : Nat) (d : Dev) : Dev :=
  if i = 0 then d else { d with ctl := { d.ctl with f := tset d.ctl.f i (BitVec.ofNat 32 v) 0 } }

/-- A counted result in a working register. -/
def fPut (i : Nat) (x : CV) (d : Dev) : Dev := addTo CTL.ARITHCNT x.n (fSet i x.v d)

/-! ## Faults (R309, R355) -/

/-- CTL faults: the program stops, nothing more is committed, the axes fall back, NET sends HOLD. -/
def ctlFault (code : Nat) (d0 : Dev) : Dev :=
  if on CTL.CTLSTAT.FAULT d0 then d0
  else
    let d := { d0 with ctl := { d0.ctl with run := none, trig := none, shadow := [] } }
    let d := wrB CTL.CTLSTAT.BUSY false (wrB CTL.CTLSTAT.RUN false (wr CTL.CTLSTAT.FCODE code (wrB CTL.CTLSTAT.FAULT true d)))
    let d := wr CTL.HOLDALL 1 { d with ctl := { d.ctl with holdClr := false } }
    let d := whenB (on CTL.CTLEVT.TOK d) (fun d => token 3 5 (rd CTL.CTLEVT.EVN d) 0 d) d
    forAll axes (axFault · 0x01) (lichen 5 0x0601 [code] d)

/-- What the ECC of a memory word read shows (R356, Table 10-6). -/
def ctlEcc (e : Ecc) (code : Nat) (f : Dev → Dev) (d : Dev) : Dev :=
  match e with
  | .clean => f d
  | .single => f (inc CTL.ECCCNT d)
  | .double => ctlFault code d

/-- CTL runs: enabled and not faulted. -/
def ctlRuns (d : Dev) : Bool := on CTL.CTLCTL.EN d && !on CTL.CTLSTAT.FAULT d

/-! ## The input hand-off (R276, R284, R332) -/

/-- Handed-over records out of a packet's items, four to a record. -/
def takeRecs : Nat → List W64 → Dev → Dev
  | 0, _, d => d
  | n + 1, h :: a :: b :: c :: r, d =>
    let hd := h.toNat
    let rec_ : InRec := { bytes := leBytes 8 a.toNat ++ leBytes 8 b.toNat ++ leBytes 8 c.toNat
                          fresh := bit hd 16, since := bits hd 24 8 }
    takeRecs n r { d with ctl := { d.ctl with inp := tset d.ctl.inp (bits hd 0 6) rec_ {}, cyc := bits hd 32 32, handed := some (cycIdx d) } }
  | _, _, d => d

/-- One packet of SQ29: a member state or input records. -/
def takePacket (items : List W64) (d : Dev) : Dev :=
  match items with
  | [h] => if bits h.toNat 16 2 = 3 then memberLost (bits h.toNat 0 6) d else d
  | l => takeRecs 16 l d

/-- Everything presented on SQ29. -/
def handoffN : Nat → Dev → Dev
  | 0, d => d
  | n + 1, d =>
    hwTry 29 (handoffN n) (fun p d => handoffN n (takePacket p.items (hwTaken 29 d))) d

def inputHandoff (d : Dev) : Dev := handoffN 128 d

/-! ## Loop blocks: registers and reset (R336, R356, Table 10-9) -/

def lbOf (b : Nat) (d : Dev) : LbS := tget d.ctl.lb b {}
def lbSet (b : Nat) (x : LbS) (d : Dev) : Dev := { d with ctl := { d.ctl with lb := tset d.ctl.lb b x {} } }

/-- A parameter as latched at the program start (R336). -/
def lat (f : Fld) (d : Dev) : Nat := (tget d.ctl.lat f.key (BitVec.ofNat 64 f.rst)).toNat

/-- Every parameter latched. -/
def latchAll (d : Dev) : Dev :=
  { d with ctl := { d.ctl with lat := d.regs.filter (fun e => decide (0xF000520000 * 64 ≤ e.1 ∧ e.1 < 0xF000521000 * 64)) } }

/-- A block as RESET leaves it (Table 10-10). -/
def lbReset (b : Nat) (d : Dev) : Dev :=
  let x := lbOf b d
  let d := wrB (CTL.LBSTAT.HOACT b) false (wr (CTL.OUT b) 0 (wr (CTL.INTEG b) 0 d))
  lbSet b { x with dterm := 0, begun := false, rst := false } d

/-- What waits for the program start, for one block (R336). -/
def lbStart (b : Nat) (d0 : Dev) : Dev :=
  let x := lbOf b d0
  let d := if x.rst then lbReset b d0 else d0
  let d := match x.integW with
    | some v => lbSet b { lbOf b d with integW := none } (wr (CTL.INTEG b) v.toNat d)
    | none => d
  wrB (CTL.LBSTAT.RAN b) false d

def blocks64 : List Nat := List.range 64

/-! ## Mode requests of class S axes (R353, R354) -/

/-- The measured state of an axis that leaves TRQ, which then goes on to its target: for one in IDLE, the set-point it stood at; with
a stop taken in the same cycle, or its zone not granted, it stops on its ramp (R354). -/
def axMeasured (a : Nat) (d : Dev) : Dev :=
  let x := axOf a d
  let p := (axInp a d).actPos + x.ofs
  let v : Int := match actNow a d with
    | (c1, p1) :: (c0, p0) :: _ =>
      let n := (c1 + 2 ^ 32 - c0) % 2 ^ 32
      if n = 0 then 0 else (p1 - p0) * 1000000000 / ((n * cycNs d : Nat) : Int)
    | _ => 0
  let go (mv : Mv) (st : Nat) : Dev := wr (CTL.AXSTAT.STATE a) st (axPut a { x with p := p, v := v, a := 0, mv := mv } d)
  if axState a d = 1 ∧ (x.stopNow || !zoneOk a d) = true then go (.ramp .quick) 3
  else if axState a d = 1 then go (.pos x.p (2 ^ 48)) 2
  else go (match x.mv with | .still => if axState a d = 2 then .pos x.tgt (2 ^ 48) else .ramp .quick | m => m) (axState a d)

/-- A mode request taken at the program start (R353). -/
def modeTake (a : Nat) (d : Dev) : Dev :=
  let req := rd (CTL.AXLOOP.MODEREQ a) d
  let cur := rd (CTL.AXLOOP.MODE a) d
  if axClass a d ≠ 0 ∨ req = cur then d
  else if req = 2 ∧ (on (CTL.AXLOOP.PEN a) d && on (CTL.AXLOOP.TEN a) d) = false then refuse a 5 d
  else
    let d := if cur = 2 ∧ axState a d ≠ 0 then axMeasured a d else d
    let d := if req = 2 then axSet a { axOf a d with hoP := true, hoT := true } d
             else axSet a { axOf a d with hoP := false, hoT := false } d
    wr (CTL.AXLOOP.MODE a) req d

/-! ## Programs: start, words, deadline (R331–R339) -/

/-- The words of a program in program memory. -/
def progWords (p : Nat) (d : Dev) : List W32 :=
  (List.range (rd (CTL.PROGTAB.LEN p) d)).map (fun i => BitVec.ofNat 32 (rd (CTL.PMEM (rd (CTL.PROGTAB.START p) d + i)) d))

/-- The start of a program (R331, R332, R336, R337, R340, R353). -/
def progStart (p : Nat) (d0 : Dev) : Dev :=
  let d := takeAll d0
  let d := forAll d.ctl.mreq modeTake { d with ctl := { d.ctl with mreq := [] } }
  let d := latchAll (forAll blocks64 lbStart d)
  let d := { d with ctl := { d.ctl with f := [], trig := none, ran := true, run := some ⟨progWords p d0, 0, cycle d0⟩ } }
  let left := cycNs d - 8000 - cycPhase d
  let d := whenB (decide (2 * left < 5 * rd (CTL.WCET p) d)) (wrB CTL.CTLSTAT.TIGHT true) d
  wr CTL.INSTCNT 0 (wr CTL.PROGWIN left (wrB CTL.CTLSTAT.BUSY true (wr CTL.CTLSTAT.LASTPROG p d)))

/-- PROGRAM_START: the firing taken starts its program once the inputs are handed over, before DL(c). -/
def programStart (e : Ecc) (d : Dev) : Dev :=
  match d.ctl.trig with
  | none => d
  | some p =>
    if !ctlRuns d || d.ctl.handed != some (cycIdx d) || d.ctl.run != none || d.ctl.ran || pastDl d then d
    else if !on (CTL.PROGTAB.VALID p) d then inc CTL.PROGINV { d with ctl := { d.ctl with trig := none } }
    else ctlEcc e 1 (progStart p) d

/-- An axis whose record takes its SETPT from its torque block, and that block's OUT (R345, R353). -/
def trqAxis (a : Nat) (d : Dev) : Bool := on (CTL.AXCFG.BOUND a) d && axState a d != 0 && axClass a d == 0 && axMode a d == 2
def trqOut (a : Nat) (d : Dev) : Nat := rd (CTL.OUT (rd (CTL.AXLOOP.TB a) d)) d

/-- SETPT of an axis in TRQ mode: OUT of its torque block × 100, within ±ILIM (R353), and what R342 counts of it. -/
def trqSet (a : Nat) (d : Dev) : Int × Nat :=
  let lim : Int := 10 * rd (CTL.CURCFG.ILIM a) d
  let x := cMul (trqOut a d) 0x42C80000
  if trqAxis a d then (clampI (-lim) lim ((cRound x.v 0).getD 0), x.n) else (0, 0)

/-- The commit (R333, R345): every owned record to NET. A torque block whose OUT is no number faults CTL, and there is no commit
(R342, R355). -/
def commit (d0 : Dev) : Dev :=
  if axes.any (fun a => trqAxis a d0 && cBad (trqOut a d0)) then ctlFault 3 d0 else
  let d := if isUp NETi d0 then
      let d := forAll axes (fun a d => let t := trqSet a d; addTo CTL.ARITHCNT t.2 (axCommit a t.1 d)) d0
      d.ctl.shadow.foldl (fun d e => if (List.range 48).any (fun a => axisOn e.1 a d) then d else setOutRec e.1 e.2 d) d
    else d0
  { d with ctl := { d.ctl with shadow := [] } }

/-- The implicit pass and the axis rules (R333). -/
def implicitPass (d0 : Dev) : Dev :=
  forAll axes (fun a d => keepCycle a (loadAngle a (modeSwitch a (profile a (axRules a d))))) d0

/-- The end of a program's run (R333): pass, commit and the times of Table 10-7. -/
def progEnd (r : Running) (d0 : Dev) : Dev :=
  let d := commit (implicitPass { d0 with ctl := { d0.ctl with run := none } })
  let t := (cycle d - r.start).toNat
  maxTo CTL.RUNMAX t (wr CTL.LASTRUN t (wrB CTL.CTLSTAT.BUSY false d))

/-- The next servo cycle begins. -/
def nextCycle (d0 : Dev) : Dev :=
  let d := forAll axes (fun a d =>
    let x := axOf a d
    axSet a { x with ruled := false, prof := false, loads := false, msw := false, fltNow := false, chgPrev := x.modeChg, modeChg := false
                     undo := none } d) d0
  { d with ctl := { d.ctl with ran := false, took := false, trig := none } }

/-- What happens at DL(c) (R331–R335): a program still running is stopped; with none, the pass and the commit take place. A cycle
in which CTL does not run ends a row of overruns. -/
def deadline (d0 : Dev) : Dev :=
  if !ctlRuns d0 then nextCycle { d0 with ctl := { d0.ctl with ovr := 0 } }
  else match d0.ctl.run with
  | some r =>
    let d := wrB CTL.CTLSTAT.OVREVT true (inc CTL.OVERRUN { d0 with ctl := { d0.ctl with ovr := d0.ctl.ovr + 1 } })
    let d := whenB (on CTL.CTLEVT.TOK d) (fun d => token 3 5 (rd CTL.CTLEVT.EVN d) 0 d) d
    nextCycle (if rd CTL.CTLCTL.OVRLIM d + 1 ≤ d.ctl.ovr then ctlFault 4 d else progEnd r d)
  | none =>
    let d0 := { d0 with ctl := { d0.ctl with ovr := 0 } }
    if d0.ctl.ran then nextCycle d0
    else
      let d := whenB d0.ctl.trig.isSome (inc CTL.TRGLATE) d0
      nextCycle (commit (implicitPass (takeAll (inc CTL.NOPROG d))))

/-- DL(c), once in a servo cycle; a CYCLE step may have brought the one of the cycle it ended (R61). -/
def cycleDeadline (d : Dev) : Dev :=
  if d.ctl.dlDue then deadline { d with ctl := { d.ctl with dlDue := false } }
  else if !pastDl d || d.ctl.dl == some (cycIdx d) then d
  else deadline { d with ctl := { d.ctl with dl := some (cycIdx d) } }

/-! ## Program table, program memory, CTLCTL, AXLOOP, LBCFG (R336, R338, R339, R353, R356) -/

/-- A PROGTAB entry written (R338); `e` is what the ECC of program memory finds as the check reads it (R355, R356). -/
def progtabWrite (p v : Nat) (e : Ecc) (d0 : Dev) : Dev :=
  let start := bits v 0 12
  let len := bits v 12 10
  let d := wrB (CTL.PROGTAB.VALID p) false (wr (CTL.PROGTAB.LEN p) len (wr (CTL.PROGTAB.START p) start d0))
  let res (ix why : Nat) (d : Dev) : Dev := wr CTL.CHKRES.REASON why (wr CTL.CHKRES.INDEX ix d)
  if !bit v 31 then d
  else if len = 0 ∨ 512 < len ∨ 4096 < start + len then res 0 1 d
  else
    let ws := (progWords p d).map BitVec.toNat
    ctlEcc e 1 (fun d => match checkProg len 0 ws with
      | some (ix, why) => res ix why d
      | none => res 0 0 (wr (CTL.WCET p) (wcet ws) (wrB (CTL.PROGTAB.VALID p) true d))) d

/-- A program-memory word written (R339). -/
def pmemWrite (x v : Nat) (d : Dev) : Dev :=
  if (List.range 16).any (fun p => on (CTL.PROGTAB.VALID p) d && decide (rd (CTL.PROGTAB.START p) d ≤ x ∧
      x < rd (CTL.PROGTAB.START p) d + rd (CTL.PROGTAB.LEN p) d)) then inc CTL.PMWERR d
  else wr (CTL.PMEM x) v d

/-- CTLCTL.EN written (R356): at EN 1 every loop block is reset and HOLDALL is to clear, and a row of overruns begins anew (R334). -/
def ctlEn (v : Bool) (d : Dev) : Dev :=
  if v = on CTL.CTLCTL.EN d then d
  else if v then
    let d := wrB CTL.CTLSTAT.RUN true (wrB CTL.CTLCTL.EN true d)
    let d := wr CTL.CTLSTAT.FCODE 0 (wrB CTL.CTLSTAT.FAULT false d)
    forAll blocks64 lbReset { d with ctl := { d.ctl with holdClr := true, ovr := 0 } }
  else if !on CTL.CTLSTAT.FAULT d && axes.any (fun a => axState a d != 0) then d
  else
    let d := { d with ctl := { d.ctl with run := none, trig := none, shadow := [] } }
    wrB CTL.CTLSTAT.BUSY false (wrB CTL.CTLSTAT.RUN false (wrB CTL.CTLCTL.EN false d))

/-- LBCFG.RESET written (R336). -/
def lbcfgReset (b : Nat) (d : Dev) : Dev := lbSet b { lbOf b d with rst := true } d

/-- AXLOOP.MODEREQ written (R353). -/
def modereq (a m : Nat) (d : Dev) : Dev :=
  if m = 3 then d
  else
    let d := wr (CTL.AXLOOP.MODEREQ a) m d
    if d.ctl.mreq.contains a then d else { d with ctl := { d.ctl with mreq := d.ctl.mreq ++ [a] } }

/-! ## Instructions -/

/-- The next instruction of the running program, if it is the one an encoding gives: executed and counted (R340, R341). A
word that fails R341 faults CTL; an encoding that is not the next word's does nothing. -/
def ctlOp (c : COp) (f : Dev → Dev) (d : Dev) : Dev :=
  match d.ctl.run with
  | none => d
  | some r =>
    match r.prog[r.next]? with
    | none => d
    | some w =>
      if (COp.dec w.toNat).isNone then ctlFault 5 d
      else if w.toNat ≠ c.enc then d
      else f (inc CTL.INSTCNT { d with ctl := { d.ctl with run := some { r with next := r.next + 1 } } })

/-- Skip the next n instructions (R343). -/
def skipN (n : Nat) (d : Dev) : Dev :=
  match d.ctl.run with
  | none => d
  | some r => { d with ctl := { d.ctl with run := some { r with next := r.next + n } } }

/-- END. -/
def opEnd (d : Dev) : Dev :=
  match d.ctl.run with
  | none => d
  | some r => progEnd r { d with ctl := { d.ctl with ovr := 0 } }

/-- The value of an input field as fp32 (R344, Table 10-4). -/
def fieldIn (ty bt : Nat) (b : List Nat) : Nat :=
  let n := ofLe b
  if ty = 0 then cInt (toS 8 n) else if ty = 1 then cInt n
  else if ty = 2 then cInt (toS 16 n) else if ty = 3 then cInt n
  else if ty = 4 then cInt (toS 32 n) else if ty = 5 then cInt n
  else if ty = 6 then cFixed (toS 64 n) 16
  else cBool (bit n bt)

/-- IN. -/
def opIn (dst m off ty bt : Nat) (d : Dev) : Dev :=
  let r := tget d.ctl.inp m {}
  if ty = 1 ∧ off = 24 then fSet dst (cBool r.fresh) d
  else if ty = 1 ∧ off = 25 then fSet dst (cInt r.since) d
  else fSet dst (fieldIn ty bt (sub r.bytes off (tySize ty))) d

/-- The range of a field type. -/
def tyRange (ty : Nat) : Int × Int :=
  if ty = 0 then (-128, 127) else if ty = 1 then (0, 255) else if ty = 2 then (-32768, 32767) else if ty = 3 then (0, 65535)
  else if ty = 4 then (-(2 ^ 31), 2 ^ 31 - 1) else if ty = 5 then (0, 2 ^ 32 - 1)
  else if ty = 6 then (-(2 ^ 63), 2 ^ 63 - 1) else (0, 1)

/-- OUT (R344, R345). A value no integer is near (a NaN) leaves a free one. -/
def opOut (src m off ty bt : Nat) (d : Dev) : Dev :=
  if !bit (rd CTL.OUTOWN d) m || (List.range 48).any (fun a => axisOn m a d) then inc CTL.OUTCONF d
  else
    let (i, d) := match cRound (fGet src d) (if ty = 6 then 16 else 0) with
      | some i => (i, d)
      | none => (toS 64 (freeOf d).toNat, drawn d)
    let (lo, hi) := tyRange ty
    let j := clampI lo hi i
    let d := whenB (j != i) (inc CTL.ARITHCNT) d
    let old := tget d.ctl.shadow m (outRec m d)
    let n := tySize ty
    let new := if ty = 7 then [setBit (old.getD off 0) bt (j == 1)] else leBytes n (ofS (8 * n) j)
    { d with ctl := { d.ctl with shadow := tput d.ctl.shadow m (old.take off ++ new ++ old.drop (off + n)) } }

/-- LD: a NaN or an infinity faults (R342). -/
def opLd (dst cell : Nat) (d : Dev) : Dev :=
  let v := rd (CTL.DMEM cell) d
  if cBad v then ctlFault 3 d else fSet dst v d

/-- The coefficient cells of a FILT2 record are all numbers. -/
def filtOk (f : Nat) (d : Dev) : Bool := (List.range 7).all (fun i => !cBad (rd (CTL.DMEM (0xE00 + 8 * f + i)) d))

/-- One step of a FILT2 record (R349). -/
def filt2 (f x : Nat) (d : Dev) : CV × Dev :=
  let c (i : Nat) : Nat := rd (CTL.DMEM (0xE00 + 8 * f + i)) d
  let b0x := cMul (c 0) x
  let out := cAdd b0x.v (c 5)
  let b1x := cMul (c 1) x
  let a1o := cMul (c 3) out.v
  let t1 := cSub b1x.v a1o.v
  let s1 := cAdd t1.v (c 6)
  let b2x := cMul (c 2) x
  let a2o := cMul (c 4) out.v
  let s2 := cSub b2x.v a2o.v
  let n := b0x.n + out.n + b1x.n + a1o.n + t1.n + s1.n + b2x.n + a2o.n + s2.n
  (⟨out.v, n⟩, wr (CTL.DMEM (0xE00 + 8 * f + 6)) s2.v (wr (CTL.DMEM (0xE00 + 8 * f + 5)) s1.v d))

/-- FILT2. -/
def opFilt2 (dst src f : Nat) (d : Dev) : Dev :=
  if !filtOk f d then ctlFault 3 d
  else
    let (o, d) := filt2 f (fGet src d) d
    fPut dst o d

/-- The feed-forward acceleration of a block (R348). -/
def ffAcc (b : Nat) (d : Dev) : Nat :=
  if lat (CTL.LBCFG.FFA b) d = 1 then cInt (rdS (CTL.CACC (lat (CTL.LBCFG.FFAX b) d)) d) else 0

/-- VBUS in an input record, 0.1 V (Table 08-9). -/
def vbusOf (m : Nat) (d : Dev) : Nat :=
  let r := tget d.ctl.inp m {}
  if rd (NET.MCFG.CLASS m) d = 0 then r.word 14 2 else r.word 12 2

/-- The bus-voltage ratio of a block, whether a fresh good one, and its count (R348). -/
def ffRatio (b : Nat) (d : Dev) : Nat × Bool × Nat :=
  if lat (CTL.LBCFG.FFV b) d = 0 then (cOne, true, 0)
  else
    let m := lat (CTL.LBCFG.FFMEM b) d
    let vn := lat (CTL.VNOM b) d
    let vb := cDiv (cInt (vbusOf m d)) (cInt 10)
    let quarter := cMul 0x3E800000 vn
    if !(tget d.ctl.inp m {}).fresh || rd (NET.MCFG.CLASS m) d == 3 || cLt vb.v quarter.v || !cLt 0 vn then
      ((lbOf b d).ratio.toNat, false, 0)
    else
      let q := cDiv vn vb.v
      (cMin (cMax q.v 0x3E800000) 0x40800000, true, q.n)

/-- The feed-forward registers of a block that R348 reads are numbers (R342). -/
def ffOk (b : Nat) (d : Dev) : Bool :=
  !cBad (lat (CTL.KAFF b) d) && (lat (CTL.LBCFG.FFV b) d != 1 || !cBad (lat (CTL.VNOM b) d))

/-- The registers of a block that a PIDSTEP reads are numbers (R342): KB for back-calculation, HOSTEP while a handover is active,
INTEG unless a handover preloads it, and OUT where an active handover goes on from it. -/
def lbOk (b : Nat) (hand : Bool) (d : Dev) : Bool :=
  ffOk b d &&
  [lat (CTL.KP b) d, lat (CTL.KI b) d, lat (CTL.KD b) d, lat (CTL.OMIN b) d, lat (CTL.OMAX b) d, lat (CTL.DF b) d].all
    (fun v => !cBad v) &&
  (lat (CTL.LBCFG.AW b) d != 2 || !cBad (lat (CTL.KB b) d)) &&
  (!(hand || on (CTL.LBSTAT.HOACT b) d) || !cBad (lat (CTL.HOSTEP b) d)) &&
  (hand || !cBad (rd (CTL.INTEG b) d)) &&
  (hand || !on (CTL.LBSTAT.HOACT b) d || !cBad (rd (CTL.OUT b) d))

/-- The outgoing output of an automatic handover on entry to TRQ, if the block has one to make (R353). -/
def autoHand (b : Nat) (d : Dev) : Option (Nat × Nat × Bool) :=
  match axes.find? (fun a => (axOf a d).hoP && rd (CTL.AXLOOP.PB a) d == b) with
  | some a => some (cFixed (axOf a d).v 16, a, true)
  | none =>
    match axes.find? (fun a => (axOf a d).hoT && rd (CTL.AXLOOP.TB a) d == b) with
    | some a => some ((cDiv (cInt (toS 16 ((axInp a d).word 12 2))) (cInt 10)).v, a, false)
    | none => none

/-- The automatic handover of an axis's block is made. -/
def autoMade (h : Option (Nat × Nat × Bool)) (d : Dev) : Dev :=
  match h with
  | none => d
  | some (_, a, isP) =>
    let x := axOf a d
    axSet a (if isP then { x with hoP := false } else { x with hoT := false }) d

/-- The derivative term and what it is made of (R346): e, dterm and the count. -/
def pidTerms (b r y : Nat) (d : Dev) : CV × CV × CV × Nat :=
  let x := lbOf b d
  let e := cSub r y
  let p := cMul (lat (CTL.KP b) d) e.v
  let e0 := if x.begun then x.e.toNat else e.v
  let y0 := if x.begun then x.y.toNat else y
  let dl := if lat (CTL.LBCFG.DERR b) d = 1 then cSub e.v e0 else (let q := cSub y y0; ⟨cNeg q.v, q.n⟩)
  let ts := (fDiv f32 0 (cInt ((cycNs d * (lat (CTL.LBCFG.RATE b) d + 1) : Nat) : Int)) (cInt 1000000000)).v
  let df := lat (CTL.DF b) d
  let t1 := cMul df x.dterm.toNat
  let t2 := cSub cOne df
  let t3 := cMul t2.v (lat (CTL.KD b) d)
  let t4 := cMul t3.v dl.v
  let t5 := cDiv t4.v ts
  let dt := cAdd t1.v t5.v
  (e, p, ⟨dt.v, e.n + p.n + dl.n + t1.n + t2.n + t3.n + t4.n + t5.n + dt.n⟩, ts)

/-- The integrator's new value (R347). -/
def pidInteg (b e uf u ts : Nat) (d : Dev) : CV :=
  let ki := lat (CTL.KI b) d
  let i0 := rd (CTL.INTEG b) d
  let k := cMul ki ts
  let ke := cMul k.v e
  let plain := cAdd i0 ke.v
  let aw := lat (CTL.LBCFG.AW b) d
  let kie := (cMul ki e).v
  if aw = 1 then
    if (cLt (lat (CTL.OMAX b) d) uf && cLt 0 kie) || (cLt uf (lat (CTL.OMIN b) d) && cLt kie 0) then ⟨i0, 0⟩
    else ⟨plain.v, k.n + ke.n + plain.n⟩
  else if aw = 2 then
    let kb := cMul (lat (CTL.KB b) d) ts
    let du := cSub u uf
    let kd := cMul kb.v du.v
    let s := cAdd plain.v kd.v
    ⟨s.v, k.n + ke.n + plain.n + kb.n + du.n + kd.n + s.n⟩
  else ⟨plain.v, k.n + ke.n + plain.n⟩

/-- A handover preloads the integrator from the outgoing output (R350). -/
def pidHand (b uOut : Nat) (p dt ka ratio : Nat) (d0 : Dev) : Dev :=
  let tgt := cMin (cMax uOut (lat (CTL.OMIN b) d0)) (lat (CTL.OMAX b) d0)
  let q := cDiv tgt ratio
  let q1 := cSub q.v p
  let q2 := cSub q1.v dt
  let q3 := cSub q2.v ka
  let d := addTo CTL.ARITHCNT (q.n + q1.n + q2.n + q3.n) (wr (CTL.INTEG b) q3.v d0)
  let d := wr (CTL.LBSTAT.HOLEFT b) (lat (CTL.HOTIME b) d) (wrB (CTL.LBSTAT.HOACT b) true (wr (CTL.OUT b) uOut d))
  if !cLt tgt uOut && !cLt uOut tgt then d
  else
    let d := lichen 5 0x0602 [b] (wrB (CTL.LBSTAT.HOCLAMP b) true d)
    forAll axes (fun a d =>
      if (on (CTL.AXLOOP.PEN a) d && rd (CTL.AXLOOP.PB a) d == b) || (on (CTL.AXLOOP.TEN a) d && rd (CTL.AXLOOP.TB a) d == b)
      then wrB (CTL.AXLOOP.HOCLAMP a) true d else d) d

/-- The handover's rate limiter (R351). -/
def pidLimit (b u : Nat) (d0 : Dev) : CV × Dev :=
  if !on (CTL.LBSTAT.HOACT b) d0 then (⟨u, 0⟩, d0)
  else
    let prev := rd (CTL.OUT b) d0
    let st := lat (CTL.HOSTEP b) d0
    let du := cSub u prev
    let lim := cMin (cMax du.v (cNeg st)) st
    let o := cAdd prev lim
    let left := rd (CTL.LBSTAT.HOLEFT b) d0 - 1
    let d := wr (CTL.LBSTAT.HOLEFT b) left d0
    let same := !cLt o.v u && !cLt u o.v
    (⟨o.v, du.n + o.n⟩, if left = 0 && same then wrB (CTL.LBSTAT.HOACT b) false d else d)

/-- PIDSTEP (R346–R353). -/
def opPid (dst r y b : Nat) (h : Bool) (d0 : Dev) : Dev :=
  let ofen := lat (CTL.LBCFG.OFEN b) d0 = 1
  let ofil := lat (CTL.LBCFG.OFILT b) d0
  if !lbOk b (h || (autoHand b d0).isSome) d0 || (ofen && !filtOk ofil d0) then ctlFault 3 d0
  else
    let (e, p, dt, ts) := pidTerms b (fGet r d0) (fGet y d0) d0
    let (ratio, good, rn) := ffRatio b d0
    let ka := cMul (lat (CTL.KAFF b) d0) (ffAcc b d0)
    let d := wrB (CTL.LBSTAT.VBUSBAD b) (!good) d0
    let auto := autoHand b d
    let d := match auto with
      | some (uo, _, _) => autoMade auto (pidHand b uo p.v dt.v ka.v ratio d)
      | none => if h then pidHand b (fGet dst d) p.v dt.v ka.v ratio d else d
    let s1 := cAdd p.v (rd (CTL.INTEG b) d)
    let s2 := cAdd s1.v dt.v
    let s3 := cAdd s2.v ka.v
    let uu := cMul s3.v ratio
    let (uf, d) := if ofen then filt2 ofil uu.v d else (⟨uu.v, 0⟩, d)
    let omin := lat (CTL.OMIN b) d
    let omax := lat (CTL.OMAX b) d
    let u := cMin (cMax uf.v omin) omax
    let ig := pidInteg b e.v uf.v u ts d
    let d := wr (CTL.INTEG b) ig.v d
    let (o, d) := pidLimit b u d
    let d := wrB (CTL.LBSTAT.SATHI b) (cLt omax uf.v) (wrB (CTL.LBSTAT.SATLO b) (cLt uf.v omin) d)
    let d := wrB (CTL.LBSTAT.RAN b) true (wr (CTL.UNSAT b) uf.v (wr (CTL.OUT b) o.v d))
    let x := lbOf b d
    let d := lbSet b { x with dterm := BitVec.ofNat 32 dt.v, e := BitVec.ofNat 32 e.v, y := BitVec.ofNat 32 (fGet y d0), begun := true,
                              ratio := if good ∧ lat (CTL.LBCFG.FFV b) d0 = 1 then BitVec.ofNat 32 ratio else x.ratio } d
    addTo CTL.ARITHCNT (dt.n + rn + ka.n + s1.n + s2.n + s3.n + uu.n + uf.n + ig.n + o.n) (fSet dst o.v d)

/-- FFAPPLY (R348). -/
def opFf (dst a b : Nat) (d : Dev) : Dev :=
  if !ffOk b d then ctlFault 3 d
  else
    let (ratio, _, rn) := ffRatio b d
    let ka := cMul (lat (CTL.KAFF b) d) (ffAcc b d)
    let t := cAdd (fGet a d) ka.v
    let o := cMul t.v ratio
    fPut dst ⟨o.v, rn + ka.n + t.n + o.n⟩ d

/-- PROFILE (R295, Table 10-3): the set-point less ACTPOS is stated for class S only. -/
def opProfile (dst a : Nat) (d0 : Dev) : Dev :=
  if axState a d0 = 0 then fSet (dst + 2) 0 (fSet (dst + 1) 0 (fSet dst 0 d0))
  else
    let d := profile a (axRules a d0)
    let x := axOf a d
    let (err, d) := if axClass a d = 0 then (x.p - x.ofs - (axInp a d).actPos, d) else (toS 64 (freeOf d).toNat, drawn d)
    fSet (dst + 2) (cFixed err 16) (fSet (dst + 1) (cFixed x.a 16) (fSet dst (cFixed x.v 16) d))

/-- LOADANG (R319–R322). -/
def opLoadang (dst a : Nat) (d0 : Dev) : Dev :=
  if axState a d0 = 0 then fSet (dst + 1) 0 (fSet dst 0 d0)
  else
    let d := loadAngle a d0
    let cd := rdS (CTL.LOADANG.ANGLE a) d
    fSet (dst + 1) (cBool (on (CTL.AXSTAT.BLIND a) d)) (fSet dst (cDiv (cInt cd) (cInt 100)).v d)

/-- MODESW (R313). -/
def opModesw (dst a : Nat) (d0 : Dev) : Dev :=
  if axState a d0 = 0 then fSet dst 0 d0
  else
    let d := modeSwitch a d0
    fSet dst (cBool (on (CTL.AXSTAT.CMODE a) d)) d

end Sys2Proof.Machine
end

