-- ==== Sys2Proof/Machine/CtlRows.lean ====
section
/-! DEFINITION. Machine/CtlRows.lean: the events of a servo cycle, CTL's register commands and the instructions of cycle
programs (Control engine and cycle programs). -/

namespace Sys2Proof.Machine

/-- An effect on CTL: nothing happens while CTL is down (R357). -/
def onCtl (s : State) (f : Dev → Dev) : Out := onDev s (fun _ => whenUp CTLi f)

/-- INPUT_HANDOFF: what SQ29 presents is taken (R276, R284, R309, R332). -/
def execInputHandoff (s : State) : Out := onCtl s inputHandoff

/-- PROGRAM_START, with what the ECC of program memory finds (R331, R332, R336, R337, R340, R353). -/
def execProgramStart (e : Ecc) (s : State) : Out := onCtl s (programStart e)

/-- CYCLE_DEADLINE: DL(c) (R332–R335). -/
def execCycleDeadline (s : State) : Out := onCtl s cycleDeadline

/-- PROGTAB_WRITE, with what the ECC of program memory finds in the check (R338, R339, R355, R356). -/
def execProgtabWrite (p : Fin 16) (v : W32) (e : Ecc) (w : Who) (s : State) : Out :=
  onCtl s (whenB (atS w) (progtabWrite p v.toNat e))

/-- PMEM_WRITE (R339). -/
def execPmemWrite (x : Fin 4096) (v : W32) (w : Who) (s : State) : Out := onCtl s (whenB (atS w) (pmemWrite x v.toNat))

/-- CTLCTL_EN (R356). -/
def execCtlctlEn (v : Bool) (w : Who) (s : State) : Out := onCtl s (whenB (atS w) (ctlEn v))

/-- LBCFG_RESET (R336). -/
def execLbcfgReset (b : Fin 64) (w : Who) (s : State) : Out := onCtl s (whenB (atS w) (lbcfgReset b))

/-- MODEREQ (R353, R354). -/
def execModereq (a : Fin 48) (m : Fin 4) (w : Who) (s : State) : Out := onCtl s (whenB (atS w) (modereq a m))

/-- END (R333). -/
def execCtlEnd (d a b : Fin 64) (s : State) : Out := onCtl s (ctlOp (.fr 1 d a b) opEnd)

/-- LDK: d := the fp32 whose bits 31:12 are imm20 (R341). -/
def execCtlLdk (d : Fin 64) (imm : BitVec 20) (s : State) : Out :=
  onCtl s (ctlOp (.fk d imm.toNat) (fSet d (imm.toNat * 2 ^ 12)))

/-- LD, with what the ECC of data memory finds (R342, R356). -/
def execCtlLd (d : Fin 64) (cell : BitVec 12) (e : Ecc) (s : State) : Out :=
  onCtl s (ctlOp (.fm 4 d cell.toNat) (ctlEcc e 2 (opLd d cell.toNat)))

/-- ST (R341). -/
def execCtlSt (d : Fin 64) (cell : BitVec 12) (s : State) : Out :=
  onCtl s (ctlOp (.fm 5 d cell.toNat) (fun v => wr (CTL.DMEM cell.toNat) (fGet d v) v))

/-- IN (R344). -/
def execCtlIn (d m off : Fin 64) (ty : Fin 8) (bt : Fin 32) (s : State) : Out :=
  onCtl s (ctlOp (.fp 6 d m off ty bt) (opIn d m off ty bt))

/-- OUT (R344, R345). -/
def execCtlOut (d m off : Fin 64) (ty : Fin 8) (bt : Fin 32) (s : State) : Out :=
  onCtl s (ctlOp (.fp 7 d m off ty bt) (opOut d m off ty bt))

/-- MOV: d := a (R341). -/
def execCtlMov (d a b : Fin 64) (s : State) : Out := onCtl s (ctlOp (.fr 0x2 d a b) (fun v => fSet d (fGet a v) v))

/-- ADD: d := a + b (R342). -/
def execCtlAdd (d a b : Fin 64) (s : State) : Out :=
  onCtl s (ctlOp (.fr 0x8 d a b) (fun v => fPut d (cAdd (fGet a v) (fGet b v)) v))

/-- SUB: d := a − b (R342). -/
def execCtlSub (d a b : Fin 64) (s : State) : Out :=
  onCtl s (ctlOp (.fr 0x9 d a b) (fun v => fPut d (cSub (fGet a v) (fGet b v)) v))

/-- MUL: d := a × b (R342). -/
def execCtlMul (d a b : Fin 64) (s : State) : Out :=
  onCtl s (ctlOp (.fr 0xA d a b) (fun v => fPut d (cMul (fGet a v) (fGet b v)) v))

/-- MAD: d := d + a × b, one rounding (R342). -/
def execCtlMad (d a b : Fin 64) (s : State) : Out :=
  onCtl s (ctlOp (.fr 0xB d a b) (fun v => fPut d (cMad (fGet d v) (fGet a v) (fGet b v)) v))

/-- DIV: d := a / b (R342). -/
def execCtlDiv (d a b : Fin 64) (s : State) : Out :=
  onCtl s (ctlOp (.fr 0xC d a b) (fun v => fPut d (cDiv (fGet a v) (fGet b v)) v))

/-- SQRT: d := √a (R342). -/
def execCtlSqrt (d a b : Fin 64) (s : State) : Out := onCtl s (ctlOp (.fr 0xD d a b) (fun v => fPut d (cSqrt (fGet a v)) v))

/-- MIN: d := min(a, b) (R341). -/
def execCtlMin (d a b : Fin 64) (s : State) : Out :=
  onCtl s (ctlOp (.fr 0xE d a b) (fun v => fSet d (cMin (fGet a v) (fGet b v)) v))

/-- MAX: d := max(a, b) (R341). -/
def execCtlMax (d a b : Fin 64) (s : State) : Out :=
  onCtl s (ctlOp (.fr 0xF d a b) (fun v => fSet d (cMax (fGet a v) (fGet b v)) v))

/-- ABS: d := |a| (R341). -/
def execCtlAbs (d a b : Fin 64) (s : State) : Out := onCtl s (ctlOp (.fr 0x10 d a b) (fun v => fSet d (fGet a v % 2 ^ 31) v))

/-- NEG: d := −a (R341). -/
def execCtlNeg (d a b : Fin 64) (s : State) : Out := onCtl s (ctlOp (.fr 0x11 d a b) (fun v => fSet d (cNeg (fGet a v)) v))

/-- CLT: d := 1.0 if a < b, else 0.0 (R341). -/
def execCtlClt (d a b : Fin 64) (s : State) : Out :=
  onCtl s (ctlOp (.fr 0x12 d a b) (fun v => fSet d (cBool (cLt (fGet a v) (fGet b v))) v))

/-- CLE: d := 1.0 if a ≤ b, else 0.0 (R341). -/
def execCtlCle (d a b : Fin 64) (s : State) : Out :=
  onCtl s (ctlOp (.fr 0x13 d a b) (fun v => fSet d (cBool (cLe (fGet a v) (fGet b v))) v))

/-- CEQ: d := 1.0 if a = b, else 0.0 (R341). -/
def execCtlCeq (d a b : Fin 64) (s : State) : Out :=
  onCtl s (ctlOp (.fr 0x14 d a b) (fun v => fSet d (cBool (fCmp f32 0 (fGet a v) (fGet b v)).1) v))

/-- SEL: d := a if d ≠ 0.0, else b (R341). -/
def execCtlSel (d a b : Fin 64) (s : State) : Out :=
  onCtl s (ctlOp (.fr 0x15 d a b) (fun v => fSet d (if cZero (fGet d v) then fGet b v else fGet a v) v))

/-- SKZ: skip n if fa = 0.0 (R343). -/
def execCtlSkz (a n : Fin 64) (s : State) : Out :=
  onCtl s (ctlOp (.fs 0x18 a 0 n) (fun v => if cZero (fGet a v) then skipN n v else v))

/-- SKNZ: skip n if fa ≠ 0.0 (R343). -/
def execCtlSknz (a n : Fin 64) (s : State) : Out :=
  onCtl s (ctlOp (.fs 0x19 a 0 n) (fun v => if cZero (fGet a v) then v else skipN n v))

/-- EVERY: skip n unless CYCCNT mod k = phase, k − 1 in the word (R343). -/
def execCtlEvery (k ph n : Fin 64) (s : State) : Out :=
  onCtl s (ctlOp (.fs 0x1A k ph n) (fun v => if v.ctl.cyc % (k.val + 1) = ph.val then v else skipN n v))

/-- PIDSTEP, with what the ECC of loop-block state finds (R346–R353). -/
def execCtlPidstep (d a b u : Fin 64) (h : Bool) (e : Ecc) (s : State) : Out :=
  onCtl s (ctlOp (.fb 0x20 d a b u (b2n h)) (ctlEcc e 2 (opPid d a b u h)))

/-- FILT2, with what the ECC of data memory finds (R349). -/
def execCtlFilt2 (d a b u : Fin 64) (e : Ecc) (s : State) : Out :=
  onCtl s (ctlOp (.fb 0x21 d a b u 0) (ctlEcc e 2 (opFilt2 d a u)))

/-- LIMIT: d := min(max(fd, fa), fb) (R341). -/
def execCtlLimit (d a b : Fin 64) (s : State) : Out :=
  onCtl s (ctlOp (.fb 0x22 d a b 0 0) (fun v => fSet d (cMin (cMax (fGet d v) (fGet a v)) (fGet b v)) v))

/-- FFAPPLY, with what the ECC of loop-block state finds (R348, R355, R356). -/
def execCtlFfapply (d a b u : Fin 64) (e : Ecc) (s : State) : Out :=
  onCtl s (ctlOp (.fb 0x23 d a b u 0) (ctlEcc e 2 (opFf d a u)))

/-- PROFILE (R295, R299–R304, R325–R329). -/
def execCtlProfile (d a b : Fin 64) (u : Fin 48) (s : State) : Out := onCtl s (ctlOp (.fb 0x24 d a b u 0) (opProfile d u))

/-- LOADANG (R319–R321, R326). -/
def execCtlLoadang (d a b : Fin 64) (u : Fin 48) (s : State) : Out := onCtl s (ctlOp (.fb 0x25 d a b u 0) (opLoadang d u))

/-- MODESW (R313). -/
def execCtlModesw (d a b : Fin 64) (u : Fin 48) (s : State) : Out := onCtl s (ctlOp (.fb 0x26 d a b u 0) (opModesw d u))

end Sys2Proof.Machine
end

