-- ==== Sys2Proof/Machine/Lichen.lean ====
section
/-! DEFINITION. Machine/Lichen.lean: the Lichen event recorder (Lichen event recorder). -/

namespace Sys2Proof.Machine

/-! ## Slots (R536, R538) -/

/-- Slots of an epoch and of a block (R544). -/
def lSlots : Nat := 2031616
def lBlk : Nat := 2048

/-- The bytes of an erased slot. -/
def lErased : List Nat := List.replicate 32 0xFF

/-- The 32 bytes of a slot as stored. -/
def lSlot (i : Nat) (d : Dev) : List Nat := tget d.aon.lich.flash i lErased

/-- A slot is valid: MARK is 0xA55A and the CRC passes (R538). -/
def lValid (b : List Nat) : Bool := ofLe (sub b 30 2) == 0xA55A && ofLe (sub b 28 2) == crc16 (b.take 28)

/-- The EPOCH bits of a slot. -/
def lEpochOf (b : List Nat) : Nat := bits (ofLe (sub b 2 2)) 13 3

/-- The 32 bytes of a record as it is written (R536). -/
def lBytes (r : LRec) (d : Dev) : List Nat :=
  let srcf := r.srcf % 2 ^ 10 + b2n (on AON.WSTAT.VALID d) * 2 ^ 10 + rd AON.LSTAT.EPOCH d * 2 ^ 13
  let h := leBytes 2 r.code ++ leBytes 2 srcf ++ leBytes 8 r.wall ++ leBytes 4 r.raw ++ padTo 12 r.pay
  h ++ leBytes 2 (crc16 h) ++ [0x5A, 0xA5]

/-- Lichen's own state replaced. -/
def withLich (f : LichenS → LichenS) (d : Dev) : Dev := { d with aon := { d.aon with lich := f d.aon.lich } }

/-- A slot programmed. -/
def lProgram (i : Nat) (b : List Nat) (d : Dev) : Dev :=
  withLich (fun l => { l with flash := tset l.flash i b lErased }) d

/-- Every slot of a block erased. -/
def lEraseBlk (b : Nat) (d : Dev) : Dev :=
  withLich (fun l => { l with flash := tclear l.flash (b * lBlk) ((b + 1) * lBlk) }) d

/-- Whether a block is blank. -/
def lBlank (b : Nat) (d : Dev) : Bool :=
  d.aon.lich.flash.all (fun e => decide (e.1 < b * lBlk ∨ (b + 1) * lBlk ≤ e.1))

/-- The first block at or after one that is not blank, below 992. -/
def lNextBlk (b : Nat) (d : Dev) : Option Nat :=
  (d.aon.lich.flash.find? (fun e => decide (b * lBlk ≤ e.1 ∧ e.1 < lSlots))).map (fun e => e.1 / lBlk)

/-- Block 0 waits for its erase (R551, R542). -/
def lErase0 (d : Dev) : Bool := on AON.LSTAT.ERASING d && rd AON.LERASE d == 0

/-- Whether a record may be written now: no scan, and the write pointer's block is erased (R541, R552). -/
def lWritable (d : Dev) : Bool :=
  !on AON.LSTAT.SCAN d && !on AON.LSTAT.FULL d &&
  (!on AON.LSTAT.ERASING d || decide (rd AON.LWRIDX d / lBlk < rd AON.LERASE d))

/-! ## Storing and writing (R537–R539, R544) -/

/-- A record stamped now: WALL and the raw counter at one count (R537). -/
def lStamp (code srcf : Nat) (pay : List Nat) (d : Dev) : LRec :=
  { code := code, srcf := srcf, wall := ofS 64 (wall d), raw := d.raw % 2 ^ 32, pay := pay }

/-- Records the buffer takes: 64 that wait, beside the one being written (R539). -/
def lCap (d : Dev) : Nat := if lWritable d then 65 else 64

/-- A GAP record once the buffer has room again (R539). -/
def lGapOut (d : Dev) : Dev :=
  let l := d.aon.lich
  if 0 < l.gapN ∧ l.buf.length < lCap d ∧ on AON.LSTAT.FULL d = false then
    let r := lStamp 0x0007 0xF (leBytes 4 l.gapN ++ leBytes 4 l.gapRaw) d
    withLich (fun l => { l with gapN := 0, gapRaw := 0, buf := l.buf ++ [r] }) d
  else d

/-- A stamped record into the buffer, after a GAP record that waits for room, or counted as dropped or lost (R539, R544). -/
def lStore (r : LRec) (d0 : Dev) : Dev :=
  let d := lGapOut d0
  if on AON.LSTAT.FULL d then tally AON.LDROP 1 d
  else if d.aon.lich.buf.length < lCap d then withLich (fun l => { l with buf := l.buf ++ [r] }) d
  else
    let d := tally AON.LGAP 1 d
    withLich (fun l => { l with gapN := l.gapN + 1, gapRaw := if l.gapN = 0 then r.raw else l.gapRaw }) d

/-- A record of Lichen's own (source 0xF). -/
def lOwn (code : Nat) (pay : List Nat) (d : Dev) : Dev := lStore (lStamp code 0xF pay d) d

/-- One record into the next slot; the last slot takes LOG_FULL instead (R538, R544). -/
def lWriteRec (r : LRec) (d : Dev) : Dev :=
  let i := rd AON.LWRIDX d
  if lSlots ≤ i then tally AON.LDROP 1 d
  else if i = lSlots - 1 then
    let d := lProgram i (lBytes (lStamp 0x0005 0xF [] d) d) d
    let d := wrB AON.LSTAT.FULL true (inc AON.LRECCNT (inc AON.LWRIDX d))
    let d := tally AON.LDROP (1 + d.aon.lich.buf.length) d
    withLich (fun l => { l with buf := [] }) d
  else inc AON.LRECCNT (inc AON.LWRIDX (lProgram i (lBytes r d) d))

/-- The record being written is complete (R538). -/
def lWriteDone (d : Dev) : Dev :=
  if !lWritable d then d
  else match d.aon.lich.buf with
    | [] => d
    | r :: rest => lGapOut (lWriteRec r (withLich (fun l => { l with buf := rest }) d))

/-! ## Rate limiting (R545–R547) -/

/-- One token, in the bucket's units: 1/260,000,000 of a token fills per raw count and unit of RATE. -/
def lTok : Nat := 260000000

/-- The first valid entry that names a code; none is the default bucket (R545). -/
def lFind (code : Nat) (d : Dev) : Option Nat :=
  findIx (fun i => on (AON.LBKTC.VALID i) d && rd (AON.LBKTC.CODE i) d == code) (List.range 256)

def lRate (b : Option Nat) (d : Dev) : Nat := match b with
  | none => rd AON.LDEFBKT.RATE d
  | some i => rd (AON.LBKTR.RATE i) d
def lBurst (b : Option Nat) (d : Dev) : Nat := match b with
  | none => rd AON.LDEFBKT.BURST d
  | some i => rd (AON.LBKTR.BURST i) d
def lCntF (b : Option Nat) : Fld := match b with
  | none => AON.LDEFSUP
  | some i => AON.LSUPCNT i
def lBkt (b : Option Nat) (d : Dev) : Bucket := match b with
  | none => d.aon.lich.defB
  | some i => tget d.aon.lich.bkt i {}
def lBktSet (b : Option Nat) (v : Bucket) (d : Dev) : Dev := match b with
  | none => withLich (fun l => { l with defB := v }) d
  | some i => withLich (fun l => { l with bkt := tset l.bkt i v {} }) d

/-- What a bucket holds now: it fills continuously up to its burst (R545). -/
def lLevel (b : Option Nat) (d : Dev) : Nat :=
  let v := lBkt b d
  let top := lBurst b d * lTok
  match v.level with
  | none => top
  | some x => min top (x + lRate b d * (d.raw - v.at_))

/-- A bucket's level as it stands, before its rate or its burst is written (R545). -/
def lSettle (b : Option Nat) (d : Dev) : Dev := lBktSet b { lBkt b d with level := some (lLevel b d), at_ := d.raw } d

/-- A bucket's settings are about to be written at an offset of AON's window: its level is that of the old settings up to here; an
entry that becomes valid starts full (R545). -/
def lBktWrite (o v : Nat) (d : Dev) : Dev :=
  let i := (o - 0x7000) / 8
  if o = 0x6070 then lSettle none d
  else if 0x7000 ≤ o ∧ o < 0x7800 then
    if o % 8 = 4 then whenB (on (AON.LBKTC.VALID i) d) (lSettle (some i)) d
    else whenB (bit v 31 && !on (AON.LBKTC.VALID i) d) (lBktSet (some i) { lBkt (some i) d with level := none }) d
  else d

/-- SUPPRESSED for a bucket's count (R546). -/
def lSuppOut (b : Option Nat) (d : Dev) : Dev :=
  let v := lBkt b d
  let code := match b with
    | none => 0
    | some i => rd (AON.LBKTC.CODE i) d
  let d := lOwn 0x0006 (leBytes 2 code ++ leBytes 4 (rd (lCntF b) d) ++ leBytes 4 v.first ++ leBytes 2 v.last) d
  lBktSet b { v with first := 0, last := 0 } (wr (lCntF b) 0 d)

/-- A bucket with suppressed records that holds a whole token again writes SUPPRESSED at once (R546). -/
def lRefill (b : Option Nat) (d : Dev) : Dev :=
  if rd (lCntF b) d ≠ 0 ∧ lTok ≤ lLevel b d then lSuppOut b d else d

/-- A record passes its bucket or is suppressed (R545, R546). -/
def lLimit (r : LRec) (d0 : Dev) : Dev :=
  if r.code ≤ 0xFF then lStore r d0
  else
    let b := lFind r.code d0
    let d := lRefill b d0
    let lv := lLevel b d
    let v := lBkt b d
    if lTok ≤ lv then lStore r (lBktSet b { v with level := some (lv - lTok), at_ := d.raw } d)
    else
      let v := { v with level := some lv, at_ := d.raw, last := r.code, first := if rd (lCntF b) d = 0 then r.raw else v.first }
      tally AON.LSUPP 1 (inc (lCntF b) (lBktSet b v d))

/-- At WDR, WRM and TMP: SUPPRESSED for each count, every bucket full (R547). -/
def lFlush (d0 : Dev) : Dev :=
  let all := none :: (List.range 256).map some
  let d := forAll all (fun b d => if rd (lCntF b) d = 0 then d else lSuppOut b d) d0
  withLich (fun l => { l with defB := {}, bkt := [] }) d

/-! ## Taking packets (R537, R539, R540) -/

/-- One packet taken from SQ34, else from SQ35. -/
def lTake (d : Dev) : Dev :=
  if on AON.LSTAT.SCAN d then d
  else if (hwPeek 34 d).isSome then
    hwTry 34 id (fun p d =>
      let d := hwTaken 34 d
      let pay := leBytes 8 (p.items.getD 1 0).toNat ++ leBytes 4 (p.items.getD 2 0).toNat
      lLimit (lStamp ((p.items.getD 0 0).toNat % 2 ^ 16) p.who pay d) d) d
  else
    hwTry 35 (tally AON.LFWBAD 1) (fun p d =>
      let d := hwTaken 35 d
      let c := (p.items.getD 0 0).toNat
      let x := (p.items.getD 2 0).toNat
      if p.items.length = 3 ∧ 0x8000 ≤ c ∧ c ≤ 0xEFFF ∧ x < 2 ^ 32 then
        let pay := leBytes 8 (p.items.getD 1 0).toNat ++ leBytes 4 x
        lLimit (lStamp c (0xE + p.who % 16 * 16 + p.who / 16 % 4 * 256) pay d) d
      else tally AON.LFWBAD 1 d) d

/-! ## Scan, start records, brown-out (R541–R543) -/

/-- RSTCAUSE as a word (Table 15-14). -/
def rstCause (d : Dev) : Nat :=
  rd AON.RSTCAUSE.POR d + 2 * rd AON.RSTCAUSE.BOR d + 4 * rd AON.RSTCAUSE.WDR d + 8 * rd AON.RSTCAUSE.WRM d +
  16 * rd AON.RSTCAUSE.TMP d + 32 * rd AON.RSTCAUSE.SECWD d + 128 * rd AON.RSTCAUSE.ISLMASK d +
  2 ^ 16 * rd AON.RSTCAUSE.WDCAP d + 2 ^ 17 * rd AON.RSTCAUSE.HIBWAKE d

/-- The START record that follows every start (R543). -/
def lStart (d : Dev) : Dev := lOwn 0x0008 (leBytes 4 (rstCause d) ++ leBytes 4 (rd AON.STARTCNT d)) d

/-- Blocks from b on whose slot 0 is not erased and carries epoch e: the last of them (R541). -/
def lLastBlk (e : Nat) (d : Dev) : Nat → Nat → Nat
  | 0, b => b
  | n + 1, b =>
    let s := lSlot ((b + 1) * lBlk) d
    if b + 1 < 992 ∧ s ≠ lErased ∧ lEpochOf s = e then lLastBlk e d n (b + 1) else b

/-- The erase of blocks that are not blank, from a block on (R552). -/
def lEraseFrom (b : Nat) (d : Dev) : Dev :=
  match lNextBlk b d with
  | some n => wr AON.LERASE n (wrB AON.LSTAT.ERASING true d)
  | none => wr AON.LERASE 992 (wrB AON.LSTAT.ERASING false d)

/-- The start-up scan (R541, R542). -/
def lScan (d0 : Dev) : Dev :=
  if !on AON.LSTAT.SCAN d0 then d0
  else
    let d := wrB AON.LSTAT.SCAN false d0
    if !lValid (lSlot 0 d) then
      let clr : LRec := { lStamp 0x0001 0xF (leBytes 4 0xFFFFFFFF) d with srcf := 0xF }
      let d := wr AON.LSTAT.EPOCH 0 (wr AON.LWRIDX 0 d)
      let d := withLich (fun l => { l with oldCnt := 0xFFFFFFFF, oldDig := [], buf := clr :: l.buf }) d
      let d := if lBlank 0 d then lEraseFrom 1 d else wr AON.LERASE 0 (wrB AON.LSTAT.ERASING true d)
      lStart d
    else
      let e := lEpochOf (lSlot 0 d)
      let b := lLastBlk e d 992 0
      let used := (d.aon.lich.flash.filter (fun s => decide (s.1 < (b + 1) * lBlk)))
      let last := used.foldl (fun m s => max m s.1) 0
      let okE (s : Nat × List Nat) : Bool := lValid s.2 && lEpochOf s.2 == e
      let lastOk := (used.filter okE).foldl (fun m s => max m s.1) 0
      let nOk := (used.filter okE).length
      let d := wr AON.LWRIDX (last + 1) (wr AON.LSTAT.EPOCH e d)
      let d := wr AON.LTORN (used.length - nOk) (wr AON.LRECCNT nOk d)
      let d := wrB AON.LSTAT.FULL (decide (lSlots ≤ last + 1)) (lEraseFrom (b + 1) d)
      let d := if lastOk < last then lOwn 0x0004 (leBytes 4 (last - lastOk)) d else d
      lStart d

/-- The last valid record before a start is BROWN_OUT (R488). -/
def lBrownLast (d : Dev) : Bool :=
  match (d.aon.lich.flash.filter (fun e => lValid e.2 && lEpochOf e.2 == lEpochOf (lSlot 0 d))).getLast? with
  | some e => ofLe (e.2.take 2) == 0x0101
  | none => false

/-- A BOR with hold-up: the record in flight completes, BROWN_OUT follows, the buffered records are lost (R543). -/
def lBrownOut (d0 : Dev) : Dev :=
  if !lWritable d0 then d0
  else
    let d := match d0.aon.lich.buf with
      | [] => d0
      | r :: _ => lWriteRec r d0
    let d := withLich (fun l => { l with buf := [] }) d
    if on AON.LSTAT.FULL d then d else lWriteRec (lStamp 0x0101 0 [] d) d

/-- A loss of power without hold-up: the record in flight may be torn; what its slot then holds is free (R541, R543). -/
def lTear (d : Dev) : Dev :=
  if !lWritable d then d
  else match d.aon.lich.buf with
    | [] => d
    | _ :: _ => drawnN 32 (lProgram (rd AON.LWRIDX d) (freeBytes 32 d) d)

/-! ## Reading, digest and clearing (R548–R552) -/

/-- The STATE of a slot as LRDSTAT shows it. -/
def lState (i : Nat) (d : Dev) : Nat :=
  let s := lSlot i d
  if lSlots ≤ i ∨ s = lErased then 0
  else if lEpochOf s ≠ rd AON.LSTAT.EPOCH d then 3
  else if lValid s then 2 else 1

/-- A slot read into LRDDATA (R548). -/
def lRead (i : Nat) (d : Dev) : Dev :=
  let s := if lSlots ≤ i then lErased else lSlot i d
  let d := wr AON.LRDSTAT.STATE (lState i d) (wr AON.LRDIDX i d)
  wrB AON.LRDSTAT.READY true (forAll (List.range 8) (fun k => wr (AON.LRDDATA k) (ofLe (sub s (4 * k) 4))) d)

/-- The digest of the current epoch's slots (R550). -/
def lDigest (d : Dev) : List Nat :=
  sha256 ((List.range (rd AON.LWRIDX d)).flatMap (fun i => lSlot i d))

/-- The epoch closes and block 0 is erased (R551). -/
def lClose (d0 : Dev) : Dev :=
  let d := lWriteDone d0
  let dg := lDigest d
  let d := withLich (fun l => { l with oldCnt := rd AON.LRECCNT d, oldDig := dg, clrWait := true }) d
  let d := forAll (List.range 8) (fun k => wr (AON.LDIGEST k) (ofLe (sub dg (4 * k) 4))) d
  let d := wr AON.LSTAT.EPOCH (rd AON.LSTAT.EPOCH d + 1) (wrB AON.LSTAT.CLRPEND false d)
  let d := wr AON.LTORN 0 (wr AON.LRECCNT 0 (wr AON.LWRIDX 0 (wrB AON.LSTAT.FULL false d)))
  wr AON.LERASE 0 (wrB AON.LSTAT.ERASING true d)

/-- A clear handed over by SEC: at once, or once the digest is complete (R551). -/
def lClear (d : Dev) : Dev :=
  if on AON.LSTAT.DIGOK d then lClose d else wrB AON.LSTAT.CLRPEND true d

/-- The digest rebuild is complete; a clear that waited for it goes ahead (R550, R551). -/
def lDigReady (d0 : Dev) : Dev :=
  if on AON.LSTAT.SCAN d0 || on AON.LSTAT.DIGOK d0 then d0
  else
    let d := wrB AON.LSTAT.DIGOK true d0
    if on AON.LSTAT.CLRPEND d then lClose d else d

/-- A block's erase completes. After block 0 of a clear, CLEARED and its companions lead the new epoch (R551, R552). -/
def lEraseDone (d : Dev) : Dev :=
  if !on AON.LSTAT.ERASING d then d
  else
    let b := rd AON.LERASE d
    let d := lEraseFrom (b + 1) (lEraseBlk b d)
    if b = 0 ∧ d.aon.lich.clrWait then
      let l := d.aon.lich
      let r (code : Nat) (p : List Nat) : LRec := lStamp code 0xF p d
      withLich (fun l => { l with clrWait := false }) (withLich (fun _ => { l with buf :=
        [r 0x0001 (leBytes 4 l.oldCnt ++ sub l.oldDig 0 8), r 0x0002 (sub l.oldDig 8 12), r 0x0003 (sub l.oldDig 20 12)] ++ l.buf }) d)
    else d

end Sys2Proof.Machine
end

