-- ==== Sys2Proof/Machine/Sched.lean ====
section
/-! DEFINITION. Machine/Sched.lean: graphs and operations, the ready lists, dispatch, events, the completion table and the
sink (Dataflow operations and the scheduler). -/

namespace Sys2Proof.Machine

/-! ## Cores -/

def coreOf (n : Nat) (d : Dev) : Core := tget d.app.cores n {}
def coreSet (n : Nat) (c : Core) (d : Dev) : Dev := { d with app := { d.app with cores := tset d.app.cores n c {} } }

/-- Register g of a core; g0 reads 0 (R386). -/
def Core.get (c : Core) (r : Nat) : W64 := if r = 0 then 0 else tget c.x.g r 0

/-- Register g of a core written; a write to g0 is discarded (R386). -/
def Core.put (r : Nat) (v : W64) (c : Core) : Core :=
  if r = 0 then c else { c with x := { c.x with g := tset c.x.g r v 0 } }

/-- The exception registers of the current level; U has none. -/
def Core.eact (c : Core) : Bool :=
  match c.x.lvl with
  | .u => false
  | .s => c.es.eact
  | .m => c.em.eact

/-- Whether a core stands in a DFDONE that waits for room (R438). -/
def Core.ending (c : Core) : Bool :=
  match c.stall with
  | some (.done _) => true
  | _ => false

/-- Whether the core stands at a pre-emption point (R413): no section, no handler; a wait in DFDONE is none. -/
def Core.open_ (c : Core) : Bool := !c.np && !c.eact && !c.ending

/-- Core cycles in a number of raw counts: 1.6 GHz against 26 MHz. -/
def coreCycles (n : Nat) : Nat := n * 800 / 13

/-- NPCNT (R410, R416). -/
def Core.npcnt (c : Core) (raw : Nat) : Nat := if c.np || c.eact then coreCycles (raw - c.npAt) else 0

/-- A section ends: NPMAX keeps the longest. -/
def Core.endNp (raw : Nat) (c : Core) : Core := { c with npmax := max c.npmax (c.npcnt raw), np := false }

/-- Whether a core is fenced (R442). -/
def fenced (n : Nat) (d : Dev) : Bool :=
  bit (rd SCH.CFENCE d) n || d.app.stCur == some n || bit d.app.stFence n || (on AON.PWRSTAT.LIMITED d && decide (4 ≤ n)) ||
  (coreOf n d).fatal

/-- The completion entry of the operation a core runs. -/
def Core.entry (c : Core) : Option Nat :=
  match c.run with
  | .op k => some k
  | _ => none

def infOf (k : Nat) (d : Dev) : Option Inf := tget d.sch.inf k none
def infSet (k : Nat) (v : Option Inf) (d : Dev) : Dev := { d with sch := { d.sch with inf := tset d.sch.inf k v none } }

/-! ## Graphs and operations (R419–R422) -/

/-- A graph table entry (Table 13-1). -/
structure Graph where
  at_  : Nat
  ops  : Nat
  nops : Nat
  open_ : Nat
  asid : Nat
  root : Nat
  sink : Nat
  slog : Nat
  sevt : Nat
  sfl  : Nat
  wrp  : Nat
  rdp  : Nat
  deriving DecidableEq, Repr

/-- An edge of a descriptor. -/
structure Edge where
  tgt  : Nat
  slot : Nat
  cond : Bool
  deriving DecidableEq, Repr

/-- An operation descriptor (Table 13-2). -/
structure OpD where
  at_    : Nat
  entry  : Nat
  pri    : Nat
  nin    : Nat
  aff    : Nat
  lvl    : Nat
  sink   : Bool
  valid  : Bool
  edges  : List Edge
  filled : Nat
  state  : Nat
  rearm  : Bool
  cancel : Bool
  deriving DecidableEq, Repr

/-- The graph a handle names, if its number, VALID and index stand (R419). -/
def graphOf (h : Nat) (d : Dev) : Option Graph :=
  let n := bits h 20 12
  let a := rd SCH.GTBASE d + 64 * n
  let b := dramView a 64 d
  let nops := ofLe (sub b 8 4)
  if n < rd SCH.GTCNT d ∧ bit nops 31 ∧ bits h 0 20 < bits nops 0 20 then
    some { at_ := a, ops := bits (ofLe (sub b 0 8)) 0 40, nops := bits nops 0 20, open_ := b.getD 12 0, asid := ofLe (sub b 14 2),
           root := ofLe (sub b 16 8), sink := bits (ofLe (sub b 24 8)) 0 40, slog := bits (b.getD 32 0) 0 5, sevt := b.getD 33 0,
           sfl := b.getD 34 0, wrp := ofLe (sub b 36 4), rdp := ofLe (sub b 40 4) }
  else none

/-- An operation's descriptor. -/
def opRead (a : Nat) (d : Dev) : OpD :=
  let b := dramView a 38 d
  let e (i : Nat) : Nat := ofLe (sub b (16 + 4 * i) 4)
  { at_ := a, entry := bits (ofLe (sub b 0 8)) 0 48, pri := bits (b.getD 8 0) 0 4, nin := b.getD 9 0, aff := b.getD 10 0,
    lvl := bits (b.getD 11 0) 0 2, sink := bit (b.getD 11 0) 2, valid := bit (b.getD 11 0) 3,
    edges := (List.range 4).filterMap (fun i => if bit (e i) 31 then some ⟨bits (e i) 0 20, bits (e i) 20 4, bit (e i) 24⟩ else none),
    filled := ofLe (sub b 32 2), state := b.getD 34 0, rearm := bit (b.getD 35 0) 0, cancel := bit (b.getD 35 0) 1 }

/-- R422. -/
def OpD.ok (g : Graph) (o : OpD) : Bool :=
  o.valid && decide (o.nin ≤ 16) && decide (o.aff ≠ 0) && decide (o.lvl ≠ 3) && decide (o.entry % 4 = 0) &&
  o.edges.all (fun e => decide (e.tgt < g.nops))

/-- The operation a handle names, without counting a malformed descriptor. -/
def opAt (h : Nat) (d : Dev) : Option (Graph × OpD) :=
  match graphOf h d with
  | none => none
  | some g =>
    let o := opRead (g.ops + 256 * bits h 0 20) d
    if o.ok g then some (g, o) else none

/-- The operation a handle names, with the dispatch fields a FAST event entry cached in place of the descriptor's, which is
not read for them (R431). -/
def fastAt (h : Nat) (f : Fast) (d : Dev) : Option (Graph × OpD) :=
  (graphOf h d).map (fun g =>
    (g, { opRead (g.ops + 256 * bits h 0 20) d with entry := f.entry, pri := f.pri, aff := f.aff, lvl := f.lvl }))

/-- What ECC finds as SCH reads a graph's entry and an operation's descriptor (R446): counted, and SCH goes on (log 155). -/
def opLook (h : Nat) (d0 : Dev) : Dev :=
  let d := if bits h 20 12 < rd SCH.GTCNT d0 then eccLook (rd SCH.GTBASE d0 + 64 * bits h 20 12) 64 d0 else d0
  match graphOf h d with
  | none => d
  | some g => eccLook (g.ops + 256 * bits h 0 20) 38 d

/-- The operation a handle names; a malformed descriptor counts in DESCERR (R422). -/
def opFind (h : Nat) (d0 : Dev) : Option (Graph × OpD) × Dev :=
  let d := opLook h d0
  match opAt h d with
  | some r => (some r, d)
  | none => (none, if (graphOf h d).isSome then inc SCH.DESCERR d else d)

/-- Parts of a descriptor as SCH writes them; a part of a word is read first (R447). -/
def opFilled (a v : Nat) (d : Dev) : Dev := spanWrite (a + 32) (leBytes 2 v) d
def opState (a v : Nat) (d : Dev) : Dev := spanWrite (a + 34) [v] d
def opFlags (a : Nat) (rearm cancel : Bool) (d : Dev) : Dev := spanWrite (a + 35) [b2n rearm + 2 * b2n cancel] d
def opEntry (a k : Nat) (d : Dev) : Dev := spanWrite (a + 36) [k] d
def opCore (a n : Nat) (d : Dev) : Dev := spanWrite (a + 37) [n] d
def opSlot (a k : Nat) (v : W64) (d : Dev) : Dev := spanWrite (a + 128 + 8 * k) (leBytes 8 v.toNat) d

/-- Every slot emptied: what it held is read nowhere any more, and the model leaves 0 there (R426, log 157). -/
def opEmptied (a : Nat) (d : Dev) : Dev := spanWrite (a + 128) (List.replicate 128 0) d

/-- Whether slots 0 to NIN − 1 all hold tokens. -/
def inputsIn (nin filled : Nat) : Bool := (List.range nin).all (fun k => bit filled k)

/-! ## Ready lists (R432, R438) -/

/-- Cores that run an operation. -/
def running (d : Dev) : Nat := ((List.range 8).filter (fun n => (coreOf n d).entry.isSome)).length

/-- The lists are FULL (R438). -/
def full (d : Dev) : Bool := decide (1024 ≤ d.sch.ready.length + running d)

def withReady (f : List Ready → List Ready) (d : Dev) : Dev :=
  let r := f d.sch.ready
  maxTo SCH.READYMAX r.length { d with sch := { d.sch with ready := r } }

/-- An operation enters the lists, at the tail of its level, as READY. -/
def makeReady (h : Nat) (o : OpD) (d : Dev) : Dev :=
  withReady (· ++ [{ h := h, pri := o.pri, aff := o.aff, since := d.raw }]) (opState o.at_ 1 d)

/-- What a delivery came to (R424). -/
inductive Deliv where
  | ok | slotFull | bad | stall
  deriving DecidableEq, Repr

/-- A token delivered to a slot (R424, R425, R438). -/
def deliverTo (h slot : Nat) (tok : W64) (d : Dev) : Deliv × Dev :=
  match opFind h d with
  | (none, d) => (.bad, d)
  | (some (_, o), d) =>
    if bit o.filled slot then (.slotFull, d)
    else
      let f := setBit o.filled slot true
      let done := decide (slot < o.nin) && inputsIn o.nin f
      if o.state = 0 ∧ done ∧ full d then (.stall, d)
      else
        let d := opFilled o.at_ f (opSlot o.at_ slot tok d)
        if !done then (.ok, d)
        else if o.state = 0 then (.ok, makeReady h o d)
        else if o.state = 1 then (.ok, d)
        else (.ok, opFlags o.at_ true o.cancel d)

/-- Status values (Table 12-6). -/
def dfOk : Nat := 0
def dfBusy : Nat := 1
def dfBad : Nat := 2
def dfState : Nat := 3
def dfDenied : Nat := 4
def dfSlotFull : Nat := 5

/-- Whether a handle's graph is open at a level (R423); a handle that names nothing is left to the request. -/
def denied (h : Nat) (lvl : Level) (d : Dev) : Bool :=
  match graphOf h d with
  | none => false
  | some g => decide (lvl.num < g.open_)

/-- DFREADY's act (R403, R424, R425): its status, or none while the lists are FULL; a handle that names nothing, or a graph that
is not open, is answered at once. -/
def readyReq (h : Nat) (lvl : Level) (d : Dev) : Option Nat × Dev :=
  match opFind h d with
  | (none, d) => (some dfBad, d)
  | (some (_, o), d) =>
    if denied h lvl d then (some dfDenied, d)
    else if full d then (none, d)
    else if o.state = 0 then (some dfOk, makeReady h o d)
    else if o.state = 1 then (some dfOk, d)
    else (some dfOk, opFlags o.at_ true o.cancel d)

/-- DFPOST's act (R403, R423, R424): its status, or none where it would make an operation ready while the lists are FULL. -/
def postReq (h slot : Nat) (tok : W64) (lvl : Level) (d : Dev) : Option Nat × Dev :=
  if (opAt h d).isSome && denied h lvl d then (some dfDenied, d)
  else match deliverTo h slot tok d with
    | (.ok, d) => (some dfOk, d)
    | (.slotFull, d) => (some dfSlotFull, d)
    | (.bad, d) => (some dfBad, d)
    | (.stall, _) => (none, d)

/-! ## Events (R428–R431) -/

/-- The operation a FAST event entry makes ready with its cached fields: one that is IDLE (R431). -/
def fastIdle (e h : Nat) (d : Dev) : Option (Fast × OpD) :=
  match tget d.sch.fastEv e none with
  | none => none
  | some f => match fastAt h f d with
    | none => none
    | some (_, o) => if o.state = 0 then some (f, o) else none

/-- A token applied to the event table (R428, R430, R431). -/
def eventApply (sec : Bool) (tok : W64) (d : Dev) : Dev :=
  let e := bits tok.toNat 0 8
  let h := rd (SCH.EVH e) d
  if !on (SCH.EVCFG.EN e) d then inc SCH.EVDROP d
  else match fastIdle e h d with
    | some (f, o) =>
      if sec && f.lvl != 2 then inc SCH.EVDROP d
      else if bit o.filled 0 then inc SCH.EVOVFCNT (wrB (SCH.EVCFG.OVF e) true d)
      else
        let d := opFilled o.at_ (setBit o.filled 0 true) (opSlot o.at_ 0 tok d)
        withReady (· ++ [{ h := h, pri := f.pri, aff := f.aff, since := d.raw, fast := some f }]) (opState o.at_ 1 d)
    | none => match opAt h d with
    | none => inc SCH.EVDROP (opFind h d).2
    | some (_, o) =>
      if sec && o.lvl != 2 then inc SCH.EVDROP d
      else match deliverTo h (rd (SCH.EVCFG.SLOT e) d) tok d with
        | (.ok, d) => d
        | (.slotFull, d) => inc SCH.EVOVFCNT (wrB (SCH.EVCFG.OVF e) true d)
        | (_, d) => inc SCH.EVDROP d

/-- The event queue served next: the highest packet priority, then the lowest number. -/
def eventQueue (d : Dev) : Option Nat :=
  let at_ (k : Nat) := (List.range 7).find? (fun q => match hwPeek q d with
    | some p => p.pri == k
    | none => false)
  (at_ 3).or ((at_ 2).or ((at_ 1).or (at_ 0)))

/-- SCH takes one event token, none while the lists are FULL (R428, R438). Tokens that cross without a queue go first: bells,
then SCH's own and CORE_FATAL (log 27). -/
def takeEvent (e : Ecc) (d : Dev) : Dev :=
  if full d then d
  else match d.sch.bells with
    | r :: rest =>
      let d := { d with sch := { d.sch with bells := rest } }
      eventApply false (tokenItem SCHi (0xE0 + r) (rd (BELL.DBELL r) d - (rd (BELL.DBELL r) d &&& rd (BELL.DBMASK r) d))) d
    | [] => match d.sch.evs with
      | t :: rest => eventApply false t { d with sch := { d.sch with evs := rest } }
      | [] => match eventQueue d with
        | none => d
        | some q => eccTry q e (inc SCH.EVDROP) (fun p d => eventApply (q == 1) (p.items.getD 0 0) (hwTaken q d)) d

/-- EVCFG written (R431): SLOT and EN taken, OVF cleared where 1 is written, FAST cached where eligible. -/
def evCfg (e v : Nat) (d : Dev) : Dev :=
  let d := wr (SCH.EVCFG.SLOT e) (bits v 0 4) (wrB (SCH.EVCFG.EN e) (bit v 8) d)
  let d := if bit v 10 then wrB (SCH.EVCFG.OVF e) false d else d
  let fast : Option Fast := if bit v 8 && decide (bits v 0 4 = 0) then
      (opAt (rd (SCH.EVH e) d) d).bind (fun r =>
        if r.2.nin = 1 then some { entry := r.2.entry, pri := r.2.pri, aff := r.2.aff, lvl := r.2.lvl } else none)
    else none
  wrB (SCH.EVCFG.FAST e) fast.isSome { d with sch := { d.sch with fastEv := tset d.sch.fastEv e fast none } }

/-! ## Ends of operations (R435–R440, R444) -/

/-- An event SCH raises itself, or that reaches it without a queue (R361). -/
def ownEvent (src evn pay : Nat) (d : Dev) : Dev :=
  whenUp SCHi (fun d => { d with sch := { d.sch with evs := d.sch.evs ++ [tokenItem src evn pay] } }) d

/-- A sink record (R437, Table 13-5). -/
def sinkWrite (g : Graph) (h status flags core lk ran : Nat) (d : Dev) : Dev :=
  if g.slog < 4 ∨ 16 < g.slog then inc SCH.SINKDROP d
  else
    let n := 2 ^ g.slog
    let wp := ofLe (dramView (g.at_ + 36) 4 d) % n
    if (wp + 1) % n = g.rdp % n then inc SCH.SINKDROP (spanWrite (g.at_ + 34) [setBit g.sfl 1 true] d)
    else
      let b := leBytes 4 h ++ [status, flags, core, lk] ++ leBytes 4 (ofS 32 (cycle d)) ++ leBytes 4 (min ran (2 ^ 32 - 1))
      let d := spanWrite (g.at_ + 36) (leBytes 4 ((wp + 1) % n)) (spanWrite (g.sink + 16 * wp) b d)
      if bit g.sfl 0 then ownEvent SCHi g.sevt 0 d else d

/-- How an operation ends other than by DFDONE. -/
def fCancelled : Nat := 1
def fLost : Nat := 2

/-- The core cycles an entry's operation has run. -/
def ranCycles (k : Nat) (d : Dev) : Nat :=
  match infOf k d with
  | none => 0
  | some i => match i.ctx with
    | some _ => coreCycles i.ran
    | none => coreCycles (i.ran + (d.raw - (coreOf i.core d).from_))

/-- LKCNT of an entry's operation. -/
def lkOf (k : Nat) (d : Dev) : Nat :=
  match infOf k d with
  | none => 0
  | some i => match i.ctx with
    | some x => x.lkcnt
    | none => (coreOf i.core d).x.lkcnt

/-- An operation ends without a completion: its record, its entry and its tokens (R437, R439, R444). -/
def opGone (h : Nat) (k : Option Nat) (why : Nat) (d0 : Dev) : Dev :=
  let core := match k.bind (fun k => infOf k d0) with
    | some i => i.core
    | none => 0xFF
  let lk := match k with
    | some k => lkOf k d0
    | none => 0
  let ran := match k with
    | some k => ranCycles k d0
    | none => 0
  let d := match k with
    | some k => infSet k none d0
    | none => d0
  match graphOf h d with
  | none => d
  | some g =>
    let a := g.ops + 256 * bits h 0 20
    let d := dramPut (a + 36) 0xFF (opState a 0 (opFlags a false false d))
    let d := if why = fCancelled then opFilled a 0 d else d
    sinkWrite g h 0 (why + (if lk = 0 then 0 else 8)) core lk ran d

/-- A core becomes idle. -/
def coreIdle (n : Nat) (d : Dev) : Dev :=
  coreSet n { (coreOf n d).endNp d.raw with run := .idle, from_ := d.raw, stall := none } d

/-- A core's running operation ends cancelled where CANCELPEND is set and the core is at a pre-emption point (R439, R440). -/
def cancelHere (n : Nat) (d : Dev) : Dev :=
  let c := coreOf n d
  match c.entry with
  | none => d
  | some k => match infOf k d with
    | none => d
    | some i => match graphOf i.h d with
      | none => d
      | some g =>
        if (opRead (g.ops + 256 * bits i.h 0 20) d).cancel && c.open_ then coreIdle n (opGone i.h (some k) fCancelled d) else d

/-- The completion entry of an operation in the table. -/
def entryOf (h : Nat) (d : Dev) : Option Nat :=
  (d.sch.inf.find? (fun e => match e.2 with
    | some i => i.h == h
    | none => false)).map (·.1)

/-- Whether an operation completed by DFDONE in this raw count (R441). -/
def doneNow (h : Nat) (d : Dev) : Bool := d.sch.donesAt == d.raw && d.sch.dones.contains h

/-- An operation completed by DFDONE. -/
def noteDone (h : Nat) (d : Dev) : Dev :=
  { d with sch := { d.sch with dones := h :: (if d.sch.donesAt = d.raw then d.sch.dones else []), donesAt := d.raw } }

/-- DFCANCEL's act (R423, R439): its status. A DFDONE of the same cycle wins (R441). -/
def cancelReq (h : Nat) (lvl : Level) (d : Dev) : Nat × Dev :=
  match opAt h d with
  | none => (dfBad, d)
  | some (_, o) =>
    if denied h lvl d then (dfDenied, d)
    else if o.cancel || doneNow h d then (dfState, d)
    else if o.state = 0 then
      if o.filled = 0 then (dfState, d) else (dfOk, opGone h none fCancelled (inc SCH.CANCNT d))
    else if o.state = 1 then
      (dfOk, opGone h none fCancelled (inc SCH.CANCNT (withReady (·.filter (fun e => e.h != h)) d)))
    else
      match entryOf h d with
      | none => (dfState, d)
      | some k =>
        let d := opFilled o.at_ 0 (inc SCH.CANCNT d)
        if o.state = 3 then (dfOk, opGone h (some k) fCancelled (withReady (·.filter (fun e => e.h != h)) d))
        else
          let d := opFlags o.at_ false true d
          match infOf k d with
          | none => (dfOk, d)
          | some i => (dfOk, cancelHere i.core d)

/-- The edges a completion posts, in order (R436): none where one must wait for room (R438); else how many failed. -/
def postEdges (gn : Nat) (v : W64) : List Edge → Dev → Option Nat × Dev
  | [], d => (some 0, d)
  | e :: r, d =>
    if e.cond && decide (v.toNat % 256 ≠ 0) then postEdges gn v r d
    else match deliverTo (gn * 2 ^ 20 + e.tgt) e.slot v d with
      | (.stall, d) => (none, d)
      | (.ok, d) => postEdges gn v r d
      | (_, d) =>
        match postEdges gn v r (inc SCH.EDGEFAIL d) with
        | (some n, d) => (some (n + 1), d)
        | (none, d) => (none, d)

/-- DFDONE's act on the operation a core runs (R405, R425, R436–R438): false where it must wait. An operation with CANCELPEND set ends
cancelled, since DFDONE ends its section (R405, R440). -/
def doneReq (n : Nat) (v : W64) (d0 : Dev) : Bool × Dev :=
  match (coreOf n d0).entry with
  | none => (true, coreIdle n d0)
  | some k => match infOf k d0 with
    | none => (true, coreIdle n d0)
    | some i => match graphOf i.h d0 with
      | none => (true, coreIdle n (infSet k none d0))
      | some g =>
        let a := g.ops + 256 * bits i.h 0 20
        let o := opRead a d0
        if o.cancel then (true, coreIdle n (opGone i.h (some k) fCancelled d0))
        else match postEdges (bits i.h 20 12) v o.edges d0 with
        | (none, _) => (false, d0)
        | (some bad, d) =>
          let ran := ranCycles k d
          let lk := lkOf k d
          let again := (opRead a d).rearm
          let d := noteDone i.h (inc SCH.DONECNT (infSet k none d))
          let fl := (if bad = 0 then 0 else 4) + (if lk = 0 then 0 else 8) + (if again then 16 else 0)
          let d := if o.sink || bad != 0 then sinkWrite ((graphOf i.h d).getD g) i.h (v.toNat % 256) fl n lk ran d else d
          let d := coreIdle n (dramPut (a + 36) 0xFF (opFlags a false false d))
          (true, if again then makeReady i.h (opRead a d) d else opState a 0 d)

/-- A stalled dataflow instruction completes with a status. -/
def stallEnd (n rd_ st : Nat) (d : Dev) : Dev :=
  let c := coreOf n d
  let c' := c.put rd_ (BitVec.ofNat 64 st)
  coreSet n { c' with x := { c'.x with pc := c.x.pc + 4 }, stall := none, iret := c.iret + 1 } d

/-- An instruction that ended its own operation has retired (Table 12-8, IRET). -/
def retired (n : Nat) (d : Dev) : Dev := coreSet n { coreOf n d with iret := (coreOf n d).iret + 1 } d

/-- A DFCANCEL that waited for the deliveries of its cycle. Where the operation it names ran under an entry whose DFDONE came
in that cycle, STATE (R441). -/
def cancelLate (n r h : Nat) (won : Option Nat) (d : Dev) : Dev :=
  let c := coreOf n d
  if won.isSome && entryOf h d != won then stallEnd n r dfState d
  else
    let (st, d) := cancelReq h c.x.lvl d
    if (coreOf n d).entry = c.entry then stallEnd n r st d else retired n d

/-- A stalled dataflow instruction tried again as room appears (R403, R438), or as the deliveries it waited for are done. -/
def serveStall (n : Nat) (d : Dev) : Dev :=
  let c := coreOf n d
  match c.stall with
  | none => d
  | some (.ready r h _) => match readyReq h c.x.lvl d with
    | (some st, d) => stallEnd n r st d
    | (none, d) => d
  | some (.post r h slot tok _) => match postReq h slot tok c.x.lvl d with
    | (some st, d) => stallEnd n r st d
    | (none, d) => d
  | some (.done v) => match doneReq n v (retired n d) with
    | (true, d) => d
    | (false, _) => d
  | some (.cancel r h won) => cancelLate n r h won d

/-- The place of a stalled instruction's act in a cycle: 0 an edge post, 1 DFPOST or DFREADY, 2 DFCANCEL (R427, R441). -/
def stallPlace (n : Nat) (d : Dev) : Option Nat :=
  match (coreOf n d).stall with
  | none => none
  | some (.done _) => some 0
  | some (.cancel ..) => some 2
  | some _ => some 1

/-- The stalled cores that a condition lets go on, in the fixed order of a cycle (R427): edge posts, then an event token where one
waits too, then DFPOST and DFREADY, all by requester number; DFCANCEL after the deliveries (R441). -/
def serveWhere (go : Nat → Bool) (d : Dev) : Dev :=
  let pass (k : Nat) (d : Dev) : Dev :=
    forAll (List.range 8) (fun n d => if go n && stallPlace n d == some k then serveStall n d else d) d
  let d := pass 0 d
  let d := if (List.range 8).any (fun n => go n && stallPlace n d == some 1) then takeEvent .clean d else d
  pass 2 (pass 1 d)

/-- Every stalled core. -/
def serveStalls (d : Dev) : Dev := serveWhere (fun _ => true) d

/-- The choices of a core are taken back (R441). -/
def unchoose (n : Nat) (d : Dev) : Dev := withReady (·.map (fun r => if r.to_ = some n then { r with to_ := none } else r)) d

/-- A core's operation lost, and those pinned to it (R444). -/
def lostAt (n : Nat) (d00 : Dev) : Dev :=
  let d0 := unchoose n d00
  let d := match (coreOf n d0).entry with
    | none => d0
    | some k => match infOf k d0 with
      | none => d0
      | some i => opGone i.h (some k) fLost (inc SCH.LOSTCNT d0)
  let pinned := d.sch.ready.filter (fun e => e.pin == some n)
  let d := withReady (·.filter (fun e => !(e.pin == some n))) d
  serveStalls (forAll pinned (fun e d => opGone e.h e.res fLost (inc SCH.LOSTCNT d)) d)

/-- At an APP island reset every operation RUNNING or PREEMPTED is lost, and dispatch waits for DFCTL.EN (R565). -/
def allLost (d0 : Dev) : Dev :=
  let d := withReady (·.filter (fun e => e.res.isNone)) d0
  let d := withReady (·.map (fun e => { e with to_ := none })) d
  let d := forAll d0.sch.inf (fun e d => match e.2 with
    | none => d
    | some i => opGone i.h (some e.1) fLost (inc SCH.LOSTCNT d)) d
  { d with sch := { d.sch with run := false } }

/-! ## Pre-emption and dispatch (R413, R414, R426, R432–R435) -/

/-- A context block written by a drain: its layout is not stated, so its bytes are free values (log 26). -/
def drain_ (k : Nat) (d : Dev) : Dev := spanWrite (rd SCH.DFCTXBASE d + 2048 * k) (freeBytes 2048 d) (drawnN 2048 d)

/-- The operation a core runs leaves it for the lists: at the head of its level (pre-empted) or at the tail (R406, R434). -/
def leaveCore (n : Nat) (head : Bool) (d0 : Dev) : Dev :=
  let c := coreOf n d0
  match c.entry with
  | none => d0
  | some k => match infOf k d0 with
    | none => coreIdle n d0
    | some i => match opAt i.h d0 with
      | none => coreIdle n (infSet k none d0)
      | some (_, o) =>
        let d := infSet k (some { i with ctx := some c.x, ran := i.ran + (d0.raw - c.from_) }) (drain_ k d0)
        let e : Ready := { h := i.h, pri := o.pri, aff := o.aff, res := some k, pin := if 0 < c.x.lkcnt then some n else none, since := d0.raw }
        let d := opState o.at_ 3 d
        coreIdle n (withReady (fun l => if head then e :: l else l ++ [e]) d)

/-- A core's registers at first dispatch (R426). -/
def firstCtx (h : Nat) (o : OpD) (d : Dev) : Ctx :=
  let tok (k : Nat) : W64 := if bit o.filled k then BitVec.ofNat 64 (ofLe (dramView (o.at_ + 128 + 8 * k) 8 d)) else 0
  let g := (List.range 16).foldl (fun t k => tset t (k + 1) (tok k) 0) ([] : Tbl W64)
  { g := tset g 17 (BitVec.ofNat 64 h) 0, pc := BitVec.ofNat 64 o.entry, lvl := lvlOf o.lvl }

/-- A free completion entry; which one is open (log 3). -/
def freeEntry (d : Dev) : Option Nat :=
  let l := (List.range 64).filter (fun k => (infOf k d).isNone)
  if l = [] then none else some (l.getD ((freeOf d).toNat % l.length) 0)

/-- A core takes up a context. -/
def coreStart (n k : Nat) (g : Graph) (x : Ctx) (d : Dev) : Dev :=
  let c := coreOf n d
  coreSet n { c with x := x, run := .op k, from_ := d.raw, np := false, ptroot := BitVec.ofNat 64 g.root, asid := g.asid, stall := none } d

/-- The operation of an entry that is dispatched. -/
def readyOp (e : Ready) (d : Dev) : Option (Graph × OpD) :=
  match e.fast with
  | some f => fastAt e.h f d
  | none => opAt e.h d

/-- An entry dispatched to a core that is idle. -/
def dispatch (e : Ready) (n : Nat) (d0 : Dev) : Dev :=
  let d := opLook e.h (withReady (fun l => l.erase e) d0)
  let d := if e.pri = 15 ∧ e.res.isNone then maxTo SCH.LAT15MAX ((d.raw - e.since) * 500 / 13) d else d
  match readyOp e d with
  | none => match e.res with
    | some k => infSet k none d
    | none => d
  | some (g, o) =>
    match e.res with
    | some k => match infOf k d with
      | none => d
      | some i => match i.ctx with
        | none => d
        | some x => coreStart n k g x (infSet k (some { i with core := n, ctx := none }) (opCore o.at_ n (opState o.at_ 2 d)))
    | none => match freeEntry d with
      | none => d0
      | some k =>
        let x := firstCtx e.h o d
        let d := infSet k (some { h := e.h, core := n }) (drawn d)
        let d := opFilled o.at_ 0 (opEmptied o.at_ (opState o.at_ 2 (opEntry o.at_ k (opCore o.at_ n d))))
        coreStart n k g x (maxTo SCH.INFMAX d.sch.inf.length (inc SCH.DISPCNT d))

/-- The priority a core runs, if it runs an operation. -/
def corePri (n : Nat) (d : Dev) : Option Nat :=
  ((coreOf n d).entry.bind (fun k => infOf k d)).bind (fun i => (opAt i.h d).map (fun r => r.2.pri))

/-- Cores for which an entry may be chosen (R432): one that is chosen for an entry of its level or above is not. -/
def mayRun (e : Ready) (n : Nat) (d : Dev) : Bool :=
  bit e.aff n && !fenced n d && (match e.pin with
    | some p => p == n
    | none => true) && !d.sch.ready.any (fun r => r.to_ == some n && decide (e.pri ≤ r.pri))

/-- The better of two cores to pre-empt (R433): lower priority, then one at a pre-emption point, then the lower number. -/
def worse (d : Dev) (best : Option (Nat × Nat)) (n p : Nat) : Option (Nat × Nat) :=
  match best with
  | none => some (n, p)
  | some (m, q) => if p < q ∨ (p = q ∧ (coreOf n d).open_ ∧ !(coreOf m d).open_) then some (n, p) else best

/-- The core for an entry (R433). -/
def pickCore (e : Ready) (d : Dev) : Option Nat :=
  let cs := (List.range 8).filter (fun n => mayRun e n d)
  let awake := cs.find? (fun n => (coreOf n d).run == .idle)
  let nap := cs.find? (fun n => (coreOf n d).run == .nap)
  let low := (cs.foldl (fun b n => match corePri n d with
    | some p => if p < e.pri then worse d b n p else b
    | none => b) none).map (·.1)
  match awake with
  | some n => some n
  | none => if e.pri = 15 then low.or nap else nap.or low

/-- The entries in the order they are considered: level by level, oldest first (R432). -/
def inOrder (d : Dev) : List Ready :=
  (List.range 16).flatMap (fun k => d.sch.ready.filter (fun e => e.pri == 15 - k && e.to_.isNone))

/-- First dispatches are paused (R435). -/
def paused (d : Dev) : Bool := decide (64 ≤ d.sch.inf.length)

/-- A first dispatch put off for want of a completion entry counts once in PAUSECNT (R435). -/
def putOff (e : Ready) (d : Dev) : Dev :=
  inc SCH.PAUSECNT (withReady (·.map (fun r => if r = e then { r with put_ := true } else r)) d)

/-- The dispatcher's choice (R432, R433, R435): an idle core takes the entry at once; a core that runs an operation is
chosen and pre-empted at its next pre-emption point. What was chosen for a core that has become free is chosen anew. -/
def choose (d00 : Dev) : Dev :=
  if !on SCH.DFCTL.EN d00 || !d00.sch.run then d00
  else
    let d0 := forAll (List.range 8) (fun n d => if (coreOf n d).entry.isNone then unchoose n d else d) d00
    let l := inOrder d0
    let fits (e : Ready) : Bool := (pickCore e d0).isSome
    let goes (e : Ready) : Bool := fits e && !(e.res.isNone && paused d0)
    let d := forAll ((l.takeWhile (fun e => !goes e)).filter (fun e => fits e && !e.put_)) putOff d0
    match (inOrder d).find? goes with
    | none => d
    | some e => match pickCore e d with
      | none => d
      | some n =>
        if (coreOf n d).entry.isNone then dispatch e n d
        else withReady (·.map (fun r => if r = e then { r with to_ := some n } else r)) (unchoose n d)

/-- A core as a pre-emption point comes (R413, R414, R442): a fenced core loses what was chosen for it (R441), and its operation
leaves it; a chosen core switches. -/
def preempt (n : Nat) (d0 : Dev) : Dev :=
  let c := coreOf n d0
  let d := if fenced n d0 then unchoose n d0 else d0
  if c.fatal || !c.open_ then d
  else if fenced n d then
    if c.entry.isSome then inc SCH.PREEMPT (leaveCore n true d) else d
  else match d.sch.ready.find? (fun r => r.to_ == some n) with
    | none => d
    | some e =>
      if !on SCH.DFCTL.EN d || !d.sch.run then d
      else if c.entry.isNone then choose d
      else if e.res.isNone && paused d then unchoose n (if e.put_ then d else putOff e d)
      else dispatch e n (inc SCH.PREEMPT (leaveCore n true d))

/-- Fences changed: choices of a fenced core are taken back, and its operation leaves it where it stands at a pre-emption
point (R441, R442). -/
def fenceSet (d : Dev) : Dev := forAll (List.range 8) (fun n d => if fenced n d then preempt n d else d) d

/-! ## Self-test (R443, R561) -/

/-- Whether a core may be fenced for self-test (R443). -/
def testable (n : Nat) (d : Dev) : Bool :=
  let c := coreOf n d
  !(c.entry.isSome && decide (0 < c.x.lkcnt)) && !d.sch.ready.any (fun e => e.pin == some n)

/-- The cores a round visits: those that failed before the last reset first, then the rest, ascending (R561). -/
def testRound (d : Dev) : List Nat :=
  let av := (List.range (if on AON.PWRSTAT.LIMITED d then 4 else 8)).filter (fun n => !bit d.app.stFence n && !(coreOf n d).fatal)
  av.filter (fun n => bit (rd APP.STSTAT.FAILED d) n) ++ av.filter (fun n => !bit (rd APP.STSTAT.FAILED d) n)

/-- The raw counts between two turns: 1.5 s (R561). -/
def turnEach : Nat := 1500 * rawPerMs

/-- A turn begins, the round with its first one (R561). -/
def turnBegin (d : Dev) : Dev :=
  let l := d.app.stNext.filter (fun n => (testRound d).contains n)
  let a := { d.app with stTry := some d.raw, stAt := some d.raw }
  let round := match d.app.stAgain, testRound d with
    | some n, f :: t => f :: n :: t
    | _, t => t
  { d with app := if l = [] then { a with stNext := round, stFrom := d.raw, stAgain := none } else { a with stNext := l } }

/-- A round ends (R561). -/
def roundEnd (d : Dev) : Dev := wr APP.STROUND ((d.raw - d.app.stFrom) / rawPerMs) (inc APP.STSTAT.ROUNDS d)

/-- The core of the turn under way is taken as soon as it may be; after 1 ms of waiting the turn is skipped and taken again
after the next core's, which for the round's last core is the first of the next round (R443, R561). -/
def turnTake (since : Nat) (d : Dev) : Dev :=
  match d.app.stNext with
  | [] => { d with app := { d.app with stTry := none } }
  | n :: r =>
    if testable n d then
      let d := { d with app := { d.app with stCur := some n, stNext := r, stTry := none } }
      fenceSet (wr APP.STSTAT.CORE n (wrB APP.STSTAT.BUSY true d))
    else if since + rawPerMs ≤ d.raw then
      match r with
      | [] => roundEnd (inc SCH.STSKIP { d with app := { d.app with stNext := [], stAgain := some n, stTry := none } })
      | m :: t => inc SCH.STSKIP { d with app := { d.app with stNext := m :: n :: t, stTry := none } }
    else d

/-- A turn of the sequencer (R443, R561): a new one 1.5 s after the latest, or a further try of the one that waits. -/
def testTurn (d : Dev) : Dev :=
  if !on APP.STCTL.EN d || d.app.stCur.isSome then d
  else match d.app.stTry with
    | some t => turnTake t d
    | none => if (d.app.stAt.map (· + turnEach)).getD 0 ≤ d.raw then turnTake d.raw (turnBegin d) else d

/-- A test ends (R561). -/
def testDone (pass : Bool) (d0 : Dev) : Dev :=
  match d0.app.stCur with
  | none => d0
  | some n =>
    let d := wrB APP.STSTAT.BUSY false { d0 with app := { d0.app with stCur := none } }
    let d := wrBit APP.STSTAT.FAILED n (!pass) d
    let d := if pass then d
      else
        let d := { d with app := { d.app with stFence := setBit d.app.stFence n true } }
        if on APP.STCTL.TOK d then ownEvent APPi (rd APP.STCTL.EVN d) 0 d else d
    if d.app.stNext = [] then roundEnd d else d

end Sys2Proof.Machine
end

