-- ==== Sys2Proof/Machine/Reset.lean ====
section
/-! DEFINITION. Machine/Reset.lean: start-up, resets of an island and of the module, what each keeps (Table 15-8), the
operation level, the watchdog, the low-power states and the capture (Start-up, moss service, resets and low power; The
seven openings: Power). -/

namespace Sys2Proof.Machine

/-! ## Life cycle (Table 16-1) -/

/-- The life-cycle state the fuses spell (R504, R506). -/
def lcState (fu : Fuses) : Nat :=
  if fu.retired then 4 else if fu.svc % 2 = 1 then 3 else if fu.deployed then 2 else if fu.provisioned then 1 else 0

/-! ## Keys cleared (R522) -/

/-- Every key slot and engine table entry cleared. -/
def clearKeys (d : Dev) : Dev :=
  let d := forAll (List.range 144) (fun c => wrB (RAD.KEYH.VALID c) false) d
  { d with sec := { d.sec with slots := [] }
           rad := { d.rad with sess := [], sessLbl := [] }
           net := { d.net with keys := [], keyLbl := [] } }

/-- Debug access closes: at its time, or at a reset (R534). -/
def debugClose (d : Dev) : Dev :=
  match d.sec.dbgEnd with
  | none => d
  | some _ => lichen 1 0x020C [] { d with sec := { d.sec with dbgEnd := none } }

/-! ## Starts of the islands (R477–R479, R570) -/

/-- FCFG of F8–F15 from the verified image, locked (R380). -/
def setFcfg (d : Dev) : Dev :=
  match d.app.img with
  | none => d
  | some im => forAll (List.range 8) (fun i d =>
      wrB (FERRY.FCFG.LOCK (8 + i)) true (fcfgSet (8 + i) (im.fcfg.getD i 0) d)) d

/-- SEC starts: moss stop, a random epoch, the ferry service open, the storage rows of its slots scrambled afresh, latched J6
faults and a rate of WALL out of range found (R31, R142, R143, R383, R479, R519, R564, R569). -/
def secStart (d0 : Dev) : Dev :=
  let d := wr SEC.EPOCH (freeOf d0).toNat (drawn d0)
  let d := wrB SEC.DRBGSTAT.OK true (wr (BELL.DBMASK 8) 0 d)
  let d := setFcfg { d with sec := { d.sec with spAt := d.raw + 40 * rawPerMs, j6From := d.raw, fltA := d.raw - 1, fltB := d.raw - 1, permLow := d.raw,
                                                 maskAt := d.raw, rows := scramble (freeBytes 64 d) (List.range 64) } }
  let d := drawnN 64 d
  wrateGuard (pmMirror (if j6Fault d then j6FaultLatch d else d))

/-- RAD starts: moss stop, the map from the AON copy with the budget that follows from it, its power-limited lanes off (R89, R117,
R478, Table 03-18). -/
def radStart (d0 : Dev) : Dev :=
  let d := { d0 with rad := { d0.rad with relRaw := d0.raw } }
  let d := match d.aon.mapCopy with
    | some (m, r) =>
      let d := wr RAD.REJOINCH r (wr RAD.USED (mapChans m).length (wr RAD.CHMAP m d))
      budget { d with rad := { d.rad with vmax := vMax d } }
    | none => d
  if on AON.PWRSTAT.LIMITED d then radLimited d else d

/-- FIXQ reported to SEC as it stands, as soon as SQ20 runs again (R179, R371). -/
def fixqReport (d : Dev) : Dev := hwPush 20 [BitVec.ofNat 64 (rd POS.BASESTAT.FIXQ d)] d

/-- An island runs again (R570). -/
def startIsl (i : Nat) (d0 : Dev) : Dev :=
  let d := setIsl i .up d0
  if i = SECi then fixqReport (secStart d)
  else if i = POSi then fixqReport d
  else if i = RADi then radStart d
  else if i = APPi then { d with app := { d.app with boot := if d.keep.tampHold then .hold else .rom, relRaw := d.raw } }
  else d

/-! ## Reset of an island (Table 15-8, R357, R371, R379, R479, R565, R569) -/

/-- J6's fault latches, mirrored in AON, put back after SEC's registers have gone (R569). -/
def keepJ6 (old d : Dev) : Dev :=
  wrB SEC.J6STAT.DISCREP (on SEC.J6STAT.DISCREP old) (wrB SEC.J6STAT.TFAULTA (on SEC.J6STAT.TFAULTA old)
    (wrB SEC.J6STAT.TFAULTB (on SEC.J6STAT.TFAULTB old) d))

/-- The registers and inner state of one island gone, with all that hangs on it. -/
def wipeIsl (i : Nat) (d0 : Dev) : Dev :=
  let d := clearRegs (winBase i) (winBase i + 0x100000) d0
  let d := ferryResetIsl i (lockFreeIsl i (qEmptyIsl i d))
  if i = SECi then
    let d := debugClose d
    let d := keepJ6 d0 (clearKeys { d with sec := { ioSup := d.sec.ioSup } })
    let d := forAll (List.range 8) (fun k d => wr (FERRY.FCFG.SENDER (8 + k)) 0x1E (wr (FERRY.FCFG.RECEIVER (8 + k)) 0x1F (wrB (FERRY.FCFG.LOCK (8 + k)) false d))) d
    let d := wr (BELL.DBMASK 8) 0xFFFFFFFF d
    tpulsePin (permitFollow { d with rad := { d.rad with mossNext := some true }, aon := { d.aon with ppsPin := false } })
  else if i = APPi then wr APP.STSTAT.FAILED (rd APP.STSTAT.FAILED d0) { d with app := {} }
  else if i = SCHi then { d with sch := {}, lock := [] }
  else if i = MEMi then { d with mem := { dram := d.mem.dram, bad := d.mem.bad, soft := d.mem.soft } }
  else if i = CTLi then { d with ctl := {} }
  else if i = NETi then { d with net := {} }
  else if i = RADi then { d with rad := {} }
  else if i = POSi then { d with pos := {} }
  else d

/-- One island enters reset for at least 20 ms (R570). A reset of RAD puts SEC into moss stop (R479). -/
def islReset (i : Nat) (d00 : Dev) : Dev :=
  let d0 := if i = APPi then graceStart (whenUp SCHi allLost d00) else d00
  let d := setIsl i (.held (d0.raw + 20 * rawPerMs)) (wipeIsl i d0)
  let d := raiseBit AON.RSTCAUSE.ISLMASK i d
  if i = RADi then whenUp SECi secMoss d else d

/-- The APP island reset (R149, R487, R565): operations lost, locks freed, armed grace started, the boot ROM run again, unless a
monitor holds the island (R563). -/
def appReset (d0 : Dev) : Dev :=
  let d := graceStart (whenUp SCHi allLost d0)
  let d := wipeIsl APPi d
  let d := raiseBit AON.RSTCAUSE.ISLMASK APPi d
  if tget d.aon.holds APPi 0 = 0 then startIsl APPi d else setIsl APPi (.held d.raw) d

/-! ## Operation level (R19–R23) -/

/-- The highest of two grants: 0 none, 1 Class 0–3, 2 Class 4, 3 Class 5, 4 Class 6. -/
def bestGrant (d : Dev) : Nat := max (rd AON.PWRSTAT.ACLASS d) (rd AON.PWRSTAT.BCLASS d)

/-- The grants of both ports taken into PWRSTAT. -/
def setGrants (a b : Nat) (d : Dev) : Dev :=
  let d := wr AON.PWRSTAT.BCLASS b (wr AON.PWRSTAT.ACLASS a d)
  wrB AON.PWRSTAT.BPG (b != 0) (wrB AON.PWRSTAT.APG (a != 0) d)

/-- LIMITED, and with it the J6 budget that IOLIM shows (R20, R22). -/
def setLimited (v : Bool) (d0 : Dev) : Dev :=
  let d := wrB AON.PWRSTAT.LIMITED v d0
  wrB AON.PWRSTAT.FULLAVL (v && decide (3 ≤ bestGrant d)) d

/-- C4–C7 in power-limited operation: their operations leave them at pre-emption points; a core outside any operation
waits in the boot ROM (R20, R21, R442, R477). -/
def coresLimited (d0 : Dev) : Dev :=
  let d := fenceSet d0
  forAll [4, 5, 6, 7] (fun n d => if (coreOf n d).run = .fw then coreSet n {} d else d) d

/-- Power-limited operation entered from full operation (R21). -/
def enterLimited (d0 : Dev) : Dev :=
  let d := raise AON.PWRSTAT.LIMEVT (setLimited true d0)
  let word := rd AON.PWRSTAT.APG d + 2 * rd AON.PWRSTAT.BPG d + 4 * rd AON.PWRSTAT.ACLASS d + 32 * rd AON.PWRSTAT.BCLASS d +
    256 * rd AON.PWRSTAT.LIMITED d + 512 * rd AON.PWRSTAT.FULLAVL d + 1024 * rd AON.PWRSTAT.LIMEVT d
  coresLimited (whenUp RADi radLimited (lichen 0 0x0102 (leBytes 4 word) d))

/-! ## Resets of the module (Tables 15-6 and 15-8, R476, R488–R492) -/

/-- AON with no power: all is lost but what Table 15-8 keeps in every case. -/
def noPower (d : Dev) : Dev :=
  { keep := d.keep, free := d.free, sent := d.sent, aon := { lich := { flash := d.aon.lich.flash } } }

/-- AON starts at power good after it had no power (R42, R475, R488, R541). -/
def aonStart (a b : Nat) (d0 : Dev) : Dev :=
  let d := setIsl AONi .up (noPower d0)
  let d := if lBrownLast d then wrB AON.RSTCAUSE.BOR true (wrB AON.RSTCAUSE.POR false d) else d
  wrB AON.LSTAT.SCAN true (setGrants a b d)

/-- The islands but AON wiped and held until 20 ms from now (Table 15-1); while the grants stay below Class 4 they stay off (R23). -/
def holdAll (d0 : Dev) : Dev :=
  let low := d0.aon.power == .grantHold
  let m : IslMode := if low then .off else .held (d0.raw + 20 * rawPerMs)
  let d := forAll [8, 7, 6, 5, 4, 3, 2, 1] (fun i d => setIsl i m (wipeIsl i d)) d0
  { d with aon := { d.aon with power := if low then .grantHold else .run } }

/-- The operation level set again from the grant (Table 15-8). -/
def levelAgain (d : Dev) : Dev := setLimited (bestGrant d == 2) d

/-- DRAM and what says that it holds something, lost. -/
def dramLost (d : Dev) : Dev :=
  wrB AON.DUMPCTL.VALID false { d with mem := { d.mem with dram := [], bad := [], soft := [] } }

/-- A capture ends at once (R492). -/
def captureAbort (d : Dev) : Dev :=
  if on AON.DUMPCTL.BUSY d then
    raise AON.DUMPCTL.ABORTED (wrB AON.DUMPCTL.BUSY false { d with aon := { d.aon with capFrom := none, rstWait := [] } })
  else d

/-- The watchdog's settings and count at their defaults (Table 15-8). -/
def wdDefault (d : Dev) : Dev :=
  let d := wr AON.WDCTL.PERIOD 1000 (wrB AON.WDCTL.EN false (wrB AON.WDCTL.CAPEN false (wrB AON.WDCTL.LOCK false d)))
  { d with aon := { d.aon with wdLast := none, wdPer := 0, wdFrom := 0, wdLeft := 0 } }

/-- A start of the whole module with AON kept (R476): counted, recorded (R543), every other island held and released. -/
def moduleStart (cause : Fld) (d0 : Dev) : Dev :=
  let d := raise cause (lFlush d0)
  let d := inc AON.STARTCNT (wdDefault (levelAgain (holdAll d)))
  lStart { d with aon := { d.aon with rstWait := [], tmpDue := false } }

/-- WRM, or WDR with its own cause bit (Table 15-6). -/
def wrm (d : Dev) : Dev := moduleStart AON.RSTCAUSE.WRM d
def wdr (d : Dev) : Dev := moduleStart AON.RSTCAUSE.WDR d

/-- TMP (R489): DRAM lost, TAMPER_HOLD latched. -/
def tmp (d0 : Dev) : Dev :=
  let d := dramLost (moduleStart AON.RSTCAUSE.TMP (captureAbort d0))
  { d with keep := { d.keep with tampHold := true } }

/-- A WRM (0) or island reset asked for: a capture in hand makes it wait (R492). -/
def resetAsk (i : Nat) (d : Dev) : Dev :=
  if on AON.DUMPCTL.BUSY d then { d with aon := { d.aon with rstWait := d.aon.rstWait ++ [i] } }
  else if i = 0 then wrm d
  else if i = APPi then appReset d
  else islReset i d

/-- Requests that waited for a capture, deepest first (R492). -/
def serveWaiting (d0 : Dev) : Dev :=
  let w := d0.aon.rstWait
  let d := { d0 with aon := { d0.aon with rstWait := [] } }
  if w.contains 0 then wrm d else forAll w resetAsk d

/-- The hold-up of R24 is over: no port has had power for 3 ms. -/
def holdUpOver (d : Dev) : Bool :=
  match d.aon.lossRaw with
  | none => false
  | some r => decide (r + 3 * rawPerMs ≤ d.raw)

/-! ## Capture (R499–R502) -/

/-- Whether a capture may start; NOBASE where there is no region. -/
def captureOk (d : Dev) : Bool := rd AON.DUMPBASE d != 0 && !on AON.DUMPCTL.VALID d && !on AON.DUMPCTL.BUSY d

/-- A capture starts: a global stop request to RAD, then the islands in order (R500). -/
def captureStart (cause rq : Nat) (d0 : Dev) : Dev :=
  if !captureOk d0 then (if rd AON.DUMPBASE d0 = 0 then raise AON.DUMPCTL.NOBASE d0 else d0)
  else
    let d := whenUp RADi (radStop 1 0 0 cFwStop) d0
    let d := wrB AON.DUMPCTL.BUSY true (wr AON.DUMPCTL.CAUSE cause (wrB MEM.CAPSTAT.BUSY true d))
    { d with aon := { d.aon with capFrom := some d.raw, capRq := rq, capIsl := 0, capSec := d.raw, capLen := 0 } }

/-- A request served in this AON cycle, by its depth (R492). -/
def rstNote (k : Nat) (d : Dev) : Dev := { d with aon := { d.aon with rstAt := some (d.raw, k) } }

/-- Whether a deeper request has been served in this cycle. -/
def rstLate (k : Nat) (d : Dev) : Bool :=
  match d.aon.rstAt with
  | some (r, j) => r == d.raw && decide (k < j)
  | none => false

/-- A request of a depth that a word written to RSTCTL makes, dropped where a deeper one comes in the same cycle (R492). -/
def rstAct (k : Nat) (f : Dev → Dev) (d : Dev) : Dev := if rstLate k d || decide (k < d.aon.rstAhead) then d else f (rstNote k d)

/-! ## Watchdog (R490) -/

/-- The watchdog's countdown begins. -/
def wdArm (d : Dev) : Dev := { d with aon := { d.aon with wdFrom := d.raw, wdPer := rd AON.WDCTL.PERIOD d } }

/-- A WDCTL write (R490). -/
def wdCtl (v : Nat) (d0 : Dev) : Dev :=
  if on AON.WDCTL.LOCK d0 then d0
  else
    let per := bits v 0 16
    let d := if 10 ≤ per ∧ per ≤ 10000 then wr AON.WDCTL.PERIOD per d0 else d0
    let was := on AON.WDCTL.EN d
    let d := wrB AON.WDCTL.LOCK (bit v 18) (wrB AON.WDCTL.CAPEN (bit v 17) (wrB AON.WDCTL.EN (bit v 16) d))
    if bit v 16 && !was then wdArm { d with aon := { d.aon with wdLast := none } } else d

/-- A kick (R490). -/
def wdKick (v : W32) (d : Dev) : Dev :=
  let ok := match d.aon.wdLast with
    | none => true
    | some p => v == p + 1
  if on AON.WDCTL.EN d && ok then wdArm { d with aon := { d.aon with wdLast := some v } } else d

/-- The watchdog's time is up (R490, R499). -/
def wdExpired (d : Dev) : Bool :=
  on AON.WDCTL.EN d && d.aon.power == .run && d.aon.capFrom.isNone && decide (d.aon.wdFrom + d.aon.wdPer * rawPerMs ≤ d.raw)

/-- A watchdog's capture that has not ended 50 ms after the expiry gives way to the WDR (R499). -/
def captureLate (d : Dev) : Bool :=
  rd AON.DUMPCTL.CAUSE d == 2 && match d.aon.capFrom with
    | some r => decide (r + 50 * rawPerMs ≤ d.raw)
    | none => false

/-- Whether the watchdog's expiry makes a WDR at once (R499). -/
def wdrNow (d : Dev) : Bool := wdExpired d && !(on AON.WDCTL.CAPEN d && captureOk d)

/-! ## Requests in one AON cycle (R492) -/

/-- Whether RSTCTL takes a request (R503). -/
def rstTaken (key : Byte) (w : Who) (d : Dev) : Bool := atM w && key == 0x5A && d.aon.power == .run

/-- Whether ISLGO names an island that it resets (R489). -/
def islTaken (isl : Nat) : Bool := decide (1 ≤ isl ∧ isl ≤ 8)

/-- How deep the reset is that a word written to RSTCTL asks for (R492, Table 15-13): a WRM with an ISLGO beside it is the deeper. -/
def rstWord (v : Nat) : Nat := if bit v 8 then 2 else if bit v 4 && islTaken (bits v 0 4) then 1 else 0

/-! ## Low power (R493–R497) -/

/-- Why a low-power request is refused (R493, R496): 0 where it is not. -/
def lpWhy (hib : Bool) (d : Dev) : Nat :=
  let dma := (List.range 32).any (fun c => rd (MEM.CHSTAT.STATE c) d == 1 || rd (MEM.CHSTAT.STATE c) d == 2)
  let axIn (l : List Nat) : Bool := (List.range 48).any (fun a => l.contains (rd (CTL.AXSTAT.STATE a) d))
  let axes := (List.range 48).any (fun a => rd (CTL.AXSTAT.STATE a) d != 0)
  if axIn [2, 3, 4] then 1
  else if dma then 2
  else if on AON.DUMPCTL.BUSY d then 3
  else if rd AON.SKBASE d = 0 then 5
  else if hib && axes then 4
  else 0

/-- A key record (R493): whose, which entry, ID, label, under the standby record key. Its layout is the model's (log 12). -/
def keyRecord (sk : List Nat) (ring : Bool) (e id : Nat) (service : Bool) (lbl : List Nat) : List Nat :=
  let b := [1, b2n ring, e, b2n service] ++ beBytes 2 id ++ [0, 0] ++ lbl
  b ++ hmac sk b

/-- The standby record key (Table 16-3). -/
def standbyKey (d : Dev) : Option (List Nat) := (slotKey 0 d).map (fun r => frond r (label [0x53, 0x4B, 0x45, 0x59] []) 256)

/-- Step 2 of R493: a record for each session key held, then every slot and entry cleared. -/
def saveKeys (d0 : Dev) : Dev :=
  let base := rd AON.SKBASE d0
  let d : Dev := match standbyKey d0 with
    | none => d0
    | some sk =>
      let rad := (List.range 144).filterMap (fun c => (tget d0.rad.sessLbl c none).map (fun l => keyRecord sk false c l.id l.service l.label))
      let net := d0.net.keyLbl.map (fun e => keyRecord sk true e.1 0 false e.2)
      spanWrite base ((rad ++ net).flatten ++ [0]) d0
  clearKeys { d with net := { d.net with hadKey := d0.net.keyLbl.map (·.1) } }

/-- Steps 1–3 of R493. -/
def lowPrep (d0 : Dev) : Dev :=
  let d := saveKeys (whenUp SECi secMoss d0)
  let d := { d with rad := { d.rad with mossNext := some true } }
  ringOff true d

/-- An island powered off. -/
def powerOff (i : Nat) (d : Dev) : Dev := setIsl i .off (wipeIsl i d)

/-- The count at which both ports lost power, while neither has any (R24). -/
def noteLoss (d : Dev) : Dev :=
  let r := if bestGrant d ≠ 0 then none else some (d.aon.lossRaw.getD d.raw)
  { d with aon := { d.aon with lossRaw := r } }

/-- A change of the grants while AON runs (R19, R21–R24). -/
def grantChange (a b : Nat) (d0 : Dev) : Dev :=
  let d := noteLoss (setGrants a b d0)
  let best := bestGrant d
  if best = 0 then wrB AON.PWRSTAT.FULLAVL false d
  else if best = 1 then
    let d := wrB AON.PWRSTAT.FULLAVL false d
    if d.aon.power = .run ∨ d.aon.power = .starting then
      let d := forAll [8, 7, 6, 5, 4, 3, 2, 1] powerOff d
      lichen 0 0x0103 [] { d with aon := { d.aon with power := .grantHold } }
    else d
  else if d.aon.power ≠ .run ∧ d.aon.power ≠ .starting then d
  else if best = 2 then
    if on AON.PWRSTAT.LIMITED d then wrB AON.PWRSTAT.FULLAVL false d else enterLimited d
  else wrB AON.PWRSTAT.FULLAVL (on AON.PWRSTAT.LIMITED d) d

/-- The grants as they stand, applied at a wake (R21, R497). -/
def grantAgain (d : Dev) : Dev := grantChange (rd AON.PWRSTAT.ACLASS d) (rd AON.PWRSTAT.BCLASS d) d

/-- Standby entered (R493, R494). -/
def standby (d0 : Dev) : Dev :=
  let left := d0.aon.wdFrom + d0.aon.wdPer * rawPerMs - d0.raw
  let img := d0.app.img
  let d := forAll [POSi, CTLi, SCHi, APPi, SECi] powerOff (lowPrep d0)
  { d with app := { d.app with img := img }, aon := { d.aon with power := .standby, wdLeft := left, standbyAt := d.raw } }

/-- Hibernate entered (R496). -/
def hibernate (d0 : Dev) : Dev :=
  let d := forAll [8, 7, 6, 5, 4, 3, 2, 1] powerOff (lowPrep d0)
  dramLost (wdDefault { d with aon := { d.aon with power := .hibernate } })

/-- A wake source is unmasked (R495): 0–15 a trigger unit, 16 a WAKE frame, 17 a change of link. -/
def wakes (src : Nat) (d : Dev) : Bool := bit (rd AON.WAKEMASK d) src

end Sys2Proof.Machine
end

