-- ==== Sys2Proof/Machine/Ahead.lean ====
section
/-! DEFINITION. Machine/Ahead.lean: what the commands that wait are about to do in this raw count, for the ties a rule settles
(log 129). -/

namespace Sys2Proof.Machine

/-- Whether a core issues instructions: APP runs and no capture holds it, and the core runs code and neither has stopped nor is stalled. -/
def canIssue (n : Nat) (d : Dev) : Bool :=
  let c := coreOf n d
  runs APPi d && !c.fatal && c.stall.isNone && !(c.run == .idle || c.run == .nap)

/-- A core's translation (R449, R477). -/
def Core.reach (c : Core) (acc : Acc) (va : Nat) (d : Dev) : Except TFault Reached × Dev :=
  if c.ptroot = 0 ∧ c.x.lvl = .m then (identity va, d) else reachPa c.ptroot.toNat c.x.lvl acc va d

/-- The address of a load or store (M format, R389). -/
def memAddr (base : RegNo) (off : BitVec 12) (c : Core) : Nat := (c.get base + off.signExtend 64).toNat

/-- A 32-bit write of a register that a command makes: who, where and what. -/
structure Write where
  who : Who
  at_ : Nat
  v   : Nat
  deriving DecidableEq, Repr

/-- What a core's aligned store writes, as the core stands now. -/
def storeAhead (n nb va v : Nat) (d : Dev) : Option Write :=
  let c := coreOf n d
  match (c.reach .store va d).1 with
  | .ok r => if canIssue n d && va % nb == 0 then some ⟨⟨Fin.ofNat 16 n, c.x.lvl⟩, r.pa, v⟩ else none
  | .error _ => none

/-- The register write a waiting command makes; of a 64-bit store, the write of the high word, which acts (R10, R358). -/
def writeAhead (d : Dev) : Instr → Option Write
  | .registerWrite a v w => some ⟨w, a.toNat, v.toNat⟩
  | .pairHighWrite a v w => some ⟨w, a.toNat, v.toNat⟩
  | .sw n rd base off _ => storeAhead n 4 (memAddr base off (coreOf n d)) (((coreOf n d).get rd).toNat % 2 ^ 32) d
  | .sd n rd base off _ =>
    (storeAhead n 8 (memAddr base off (coreOf n d)) (((coreOf n d).get rd).toNat / 2 ^ 32) d).map (fun x => { x with at_ := x.at_ + 4 })
  | _ => none

/-- A waiting write that reaches a register at S level or above (R359). -/
def writesAhead (d : Dev) (p : Nat → Nat → Bool) (c : Instr) : Bool :=
  match writeAhead d c with
  | some x => x.who.lvl != .u && p x.at_ x.v
  | none => false

/-- A waiting command that brings a correction of WALL: POS's, or firmware's pair WCORR (R53). -/
def bringsCorrection (d : Dev) : Instr → Bool
  | .wallCorrection _ _ _ => true
  | .timeCorrection => true
  | c => writesAhead d (fun a _ => a == winBase AONi + 0x10B4) c

/-- A waiting command that clears EN of a trigger unit (R68). -/
def clearsEn (n : Nat) (d : Dev) : Instr → Bool
  | .trigctlWrite m v => m.val == n && !bit v.toNat 0
  | c => writesAhead d (fun a v => a == winBase AONi + 0x2000 + 0x20 * n && !bit v 0) c

/-- How deep the reset is that a waiting command asks for (R492): 1 island, 2 WRM, 3 WDR, 4 TMP, 5 BOR; 0 none. -/
def rstDepth (d : Dev) : Instr → Nat
  | .islgo isl key w => if rstTaken key w d && islTaken isl then 1 else 0
  | .appIslandReset w => if atM w then 1 else 0
  | .secWatchdog => 1
  | .wrm key w => if rstTaken key w d then 2 else 0
  | .watchdogExpiry => if wdrNow d || captureLate d then 3 else 0
  | .tmp => if d.aon.tmpDue then 4 else 0
  | .brownOut rail => if rail || holdUpOver d then 5 else 0
  | .railFault isl bad => if isl.val == 0 && bad then 5 else 0
  | c => match writeAhead d c with
    | some x => if x.at_ == winBase AONi + 0x304 && rstTaken (BitVec.ofNat 8 (bits x.v 24 8)) x.who d then rstWord x.v else 0
    | none => 0

/-- Whether a deeper request than k comes in the same AON cycle (R492): it has been served, or waits. -/
def deeper (q : List Instr) (k : Nat) (d : Dev) : Bool := rstLate k d || q.any (fun c => decide (k < rstDepth d c))

/-- A request of a depth, dropped where a deeper one comes (R492). -/
def rstAsk (q : List Instr) (k : Nat) (f : Dev → Dev) (d : Dev) : Dev := if deeper q k d then d else f (rstNote k d)

/-- The block as a command finds it that may write a register: a trigger unit whose EN is cleared in this raw count does not fire
in it (R68), a STEPACC waits while a correction does (R53), and the deepest reset that a waiting command asks for is known (R492). -/
def ties (p : List Instr) (d0 : Dev) : Dev :=
  let d := forAll ((List.range 16).filter (fun n => p.any (clearsEn n d0))) fireLater d0
  { d with aon := { d.aon with accHold := p.any (bringsCorrection d0), rstAhead := (p.map (rstDepth d0)).foldl max 0 } }

end Sys2Proof.Machine
end

