-- ==== Sys2Proof/Machine/Puf.lean ====
section
/-! DEFINITION. Machine/Puf.lean: the decoder of the spore: an inner repetition code of length 7 and an outer BCH(255,131) code
that corrects 18 errors, in two blocks (Life cycle, the frond tree and tamper: The spore, R510). The rule names the codes; the field's
polynomial, the places of the bits and the way the helper data is used are taken from common practice (PRESUMED, log 15). -/

namespace Sys2Proof.Machine

/-! ## The field of 256 elements -/

/-- Times the primitive element, modulo x^8 + x^4 + x^3 + x^2 + 1. -/
def gfTwice (x : Nat) : Nat := if 256 ≤ 2 * x then (2 * x) ^^^ 0x11D else 2 * x

/-- The product of two elements. -/
def gfMul (a b : Nat) : Nat :=
  (List.range 8).foldl (fun z i => gfTwice z ^^^ (if b.testBit (7 - i) then a else 0)) 0

/-- The powers of the primitive element, from the 0th to the 254th. -/
def gfPowers : List Nat := ((List.range 254).foldl (fun l _ => gfTwice (l.headD 1) :: l) [1]).reverse

/-- A power of the primitive element. -/
def gfPow (i : Nat) : Nat := gfPowers.getD (i % 255) 0

/-- The inverse of an element that is not 0. -/
def gfInv (x : Nat) : Nat := gfPow (255 - gfPowers.idxOf x)

/-- The sum of two polynomials, lowest coefficient first. -/
def polyAdd : List Nat → List Nat → List Nat
  | [], q => q
  | p, [] => p
  | a :: p, b :: q => (a ^^^ b) :: polyAdd p q

/-- A polynomial's value at an element. -/
def polyAt (p : List Nat) (x : Nat) : Nat := p.foldr (fun c z => gfMul z x ^^^ c) 0

/-! ## BCH(255,131) -/

/-- The exponents of the generator's roots: the conjugates of the 1st to the 36th power. -/
def bchRoots : List Nat :=
  (List.range 255).filter (fun e => (List.range 36).any (fun j => (List.range 8).any (fun k => (j + 1) * 2 ^ k % 255 == e)))

/-- The generator, of degree 255 − 131 = 124. -/
def bchGen : List Nat := bchRoots.foldl (fun p e => polyAdd (0 :: p) (p.map (gfMul (gfPow e)))) [1]

/-- The 124 check bits of 131 message bits: what the generator leaves of the message. -/
def bchCheck (msg : List Bool) : List Bool :=
  let g := bchGen.foldr (fun c z => c + 2 * z) 0 % 2 ^ 124
  let r := msg.foldr (fun b r => (2 * r % 2 ^ 124) ^^^ (if b != r.testBit 123 then g else 0)) 0
  (List.range 124).map r.testBit

/-- The code word of 131 message bits: the check bits below, the message above. -/
def bchWord (msg : List Bool) : List Bool := bchCheck msg ++ msg

/-- A search for the error locator: the locator, the last one before its length grew, its length, the steps since, and the
discrepancy then (Berlekamp and Massey). -/
structure Locator where
  c : List Nat := [1]
  b : List Nat := [1]
  l : Nat := 0
  m : Nat := 1
  e : Nat := 1
  deriving DecidableEq, Repr

/-- One step of the search, at the nth syndrome. -/
def locate (syn : List Nat) (s : Locator) (n : Nat) : Locator :=
  let del := (List.range (s.l + 1)).foldl (fun z i => z ^^^ gfMul (s.c.getD i 0) (syn.getD (n - i) 0)) 0
  if del = 0 then { s with m := s.m + 1 }
  else
    let c := polyAdd s.c (List.replicate s.m 0 ++ s.b.map (gfMul (gfMul del (gfInv s.e))))
    if 2 * s.l ≤ n then ⟨c, s.c, n + 1 - s.l, 1, del⟩ else { s with c := c, m := s.m + 1 }

/-- The places of the errors in 255 received bits, where they are 18 or fewer. -/
def bchErrors (r : List Bool) : Option (List Nat) :=
  let p := r.map (fun b => if b then 1 else 0)
  let syn := (List.range 36).map (fun j => polyAt p (gfPow (j + 1)))
  let s := (List.range 36).foldl (locate syn) {}
  let es := (List.range 255).filter (fun i => polyAt s.c (gfPow (255 - i)) == 0)
  if es.length = s.l ∧ s.l ≤ 18 then some es else none

/-- 255 received bits as the code word within 18 errors of them. -/
def bchDecode (r : List Bool) : Option (List Bool) :=
  (bchErrors r).map (fun es => (r.zipIdx).map (fun x => x.1 != es.contains x.2))

/-! ## The read-out -/

/-- A number's lowest bits. -/
def bitList (n v : Nat) : List Bool := (List.range n).map v.testBit

/-- Bits as a number, the lowest first. -/
def bitsOf (l : List Bool) : Nat := l.foldr (fun b z => (if b then 1 else 0) + 2 * z) 0

/-- Each bit seven times: 510 code bits as 3,570. -/
def spread (l : List Bool) : List Bool := l.flatMap (List.replicate 7)

/-- So many bits, each by the majority of its seven. -/
def majority : Nat → List Bool → List Bool
  | 0, _ => []
  | n + 1, l => decide (4 ≤ (l.take 7).countP id) :: majority n (l.drop 7)

/-- The 510 code bits of 256: two blocks of 131 message bits, the last six of them 0. -/
def pufWord (secret : Nat) : List Bool :=
  let m := bitList 262 (secret % 2 ^ 256)
  bchWord (m.take 131) ++ bchWord (m.drop 131)

/-- The helper data that ties a read-out to 256 bits (R512). -/
def pufHelper (puf : BitVec 3570) (secret : Nat) : BitVec 3570 := puf ^^^ BitVec.ofNat 3570 (bitsOf (spread (pufWord secret)))

/-- A read-out decoded with the helper data: the 256 bits recovered, and how many of the 3,570 were corrected (R510). -/
def pufDecode (puf helper : BitVec 3570) : Option (Nat × Nat) :=
  let l := bitList 3570 (puf ^^^ helper).toNat
  let m := majority 510 l
  match bchDecode (m.take 255), bchDecode (m.drop 255) with
  | some a, some b =>
    let fixed := (l.zip (spread (a ++ b))).countP (fun x => x.1 != x.2)
    some (bitsOf (a.drop 124 ++ b.drop 124) % 2 ^ 256, fixed)
  | _, _ => none

end Sys2Proof.Machine
end

