-- ==== Sys2Proof/Machine/Keys.lean ====
section
/-! DEFINITION. Machine/Keys.lean: SEC's keys and roots, its ferry protocol, requests and signed commands (Life cycle, the
frond tree and tamper). -/

namespace Sys2Proof.Machine

/-! ## Slots (R518–R522) -/

/-- Usage bits of a slot, in the order of R520. -/
def uDerive : Nat := 0
def uEnc : Nat := 1
def uDec : Nat := 2
def uCmac : Nat := 3
def uHmac : Nat := 4

/-- A slot filled: its fill count advances (R518, R519). -/
def fillSlot (n usage depth : Nat) (key : List Nat) (d : Dev) : Dev :=
  let r := shareOf key usage depth d
  slotPut n (some r.1) { r.2 with sec := { r.2.sec with fills := tset r.2.sec.fills n (tget r.2.sec.fills n 0 + 1) 0 } }

/-- A slot emptied. -/
def emptySlot (n : Nat) (d : Dev) : Dev := slotPut n none d

/-- The handle of a slot (R518). -/
def handleOf (n : Nat) (d : Dev) : Nat := n + tget d.sec.fills n 0 % 4 * 64

/-- The slot a handle names, if its fill count matches (R518). -/
def slotFor (h : Nat) (d : Dev) : Option (Nat × Slot) :=
  let n := h % 64
  if h / 64 % 4 = tget d.sec.fills n 0 % 4 then (slotAt n d).map (fun s => (n, s)) else none

/-- The key in a slot. -/
def keyIn (s : Slot) : List Nat := xorBytes s.mask s.share

/-! ## Roots and fixed keys (R510–R517, Tables 16-3 and 16-4) -/

/-- The tag of the root of a life-cycle state; none where the state has no root (Tables 16-1 and 16-3). -/
def rootTag (fu : Fuses) : Option (List Nat) :=
  match lcState fu with
  | 1 => some [0x57, 0x50, 0x52, 0x56]
  | 2 => some [0x57, 0x46, 0x4C, 0x44]
  | 3 => some [0x57, 0x53, 0x56, 0x43]
  | _ => none

/-- A beacon key (Table 16-3). -/
def beaconKey (sysroot : List Nat) (g : Nat) : List Nat := frond sysroot (label [0x42, 0x43, 0x4E, 0x20] [g % 256]) 128

/-- BEACON_KEY_SWITCH (R517): at the first superframe of the next generation it becomes current. -/
def beaconSwitch (d : Dev) : Dev :=
  if on SEC.BKGEN.NEXTPEND d && decide (0 ≤ toS 32 (ofS 32 ((sfNow d : Int) - rd SEC.BKFIRST d))) then
    let g := rd SEC.BKGEN.NEXT d
    let f := rd SEC.BKFIRST d
    let d := match slotKey 3 d with
      | some k => emptySlot 3 (fillSlot 2 0 2 k d)
      | none => emptySlot 2 d
    let d := wrB SEC.BKGEN.NEXTPEND false (wr SEC.BKGEN.CUR g d)
    { d with keep := { d.keep with nor := { d.keep.nor with gen := g, genSf := f, genNxt := none } } }
  else d

/-- The fixed keys below the system seed, once the seed record's tag passes: the current and the next beacon key among them,
whether or not the next one has its superframe yet (R516). -/
def seedKeys (seed : List Nat) (sys : Nat) (d0 : Dev) : Dev :=
  let n := d0.keep.nor
  let root := frond seed (label [0x53, 0x59, 0x53, 0x52] (beBytes 2 sys)) 256
  let d := fillSlot 1 1 1 root (wrB SEC.LCSTAT.SEEDOK true d0)
  let d := fillSlot 2 0 2 (beaconKey root n.gen) d
  let d := fillSlot 3 0 2 (beaconKey root (n.gen + 1)) (wr SEC.BKGEN.NEXT (n.gen + 1) (wr SEC.BKGEN.CUR n.gen d))
  let d := match n.genNxt with
    | some f => wr SEC.BKFIRST f (wrB SEC.BKGEN.NEXTPEND true d)
    | none => d
  let d := fillSlot 4 0 2 (frond root (label [0x52, 0x53, 0x55, 0x4D] []) 256) d
  beaconSwitch (fillSlot 5 0 2 (frond root (label [0x52, 0x4C, 0x53, 0x45] []) 256) d)

/-- The seed wrap key of a field root. -/
def wrapKey (root : List Nat) : List Nat := frond root (label [0x57, 0x52, 0x41, 0x50] []) 256

/-- The roots derived from the spore, and in DEPLOYED the seed unwrapped (R516). -/
def deriveRoots (fu : Fuses) (spore : List Nat) (d0 : Dev) : Dev :=
  match rootTag fu with
  | none => d0
  | some tag =>
    let root := frond spore (label tag []) 256
    let d := fillSlot 0 1 1 root d0
    if lcState fu ≠ 2 then d
    else match d.keep.nor.seed with
      | none => lichen 1 0x0206 [] d
      | some r =>
        let wk := wrapKey root
        if gcmTag wk r.iv [] r.ct = r.tag then seedKeys (gcmCrypt wk r.iv r.ct) r.sys d
        else lichen 1 0x0206 [] d

/-- The value that is stored to check a spore by (R510, log 15). -/
def checkOf (spore : List Nat) : List Nat := natBe 32 (Config.sporeCheck (BitVec.ofNat 256 (beNat spore))).toNat

/-- The spore that a PUF read-out gives, and how many of its bits were corrected: the read-out is decoded with the helper data, and
the hash of the bits recovered is checked against the stored value (R510, log 15). -/
def sporeOf (puf : BitVec 3570) (d : Dev) : Option (List Nat × Nat) :=
  match d.keep.nor.helper.bind (pufDecode puf) with
  | none => none
  | some r =>
    let sp := sha256 (natBe 32 r.1)
    if d.keep.nor.check = checkOf sp then some (sp, r.2) else none

/-- Decoding failed: three more attempts, then SPORE_FAIL (R511). -/
def sporeFail (d : Dev) : Dev :=
  if d.sec.spTry < 3 then
    let d := { d with sec := { d.sec with spTry := d.sec.spTry + 1, spAt := d.raw + 10 * rawPerMs } }
    wr SEC.SPORESTAT.TRIES d.sec.spTry d
  else lichen 1 0x0205 [] (wrB SEC.SPORESTAT.FAIL true d)

/-- Regeneration may run: no hold, no spore yet, 40 ms after SEC's release or 10 ms after an attempt (R489, R511, R531, R570). -/
def sporeDue (d : Dev) : Bool :=
  !d.keep.tampHold && d.sec.spore.isNone && !on SEC.SPORESTAT.FAIL d && decide (d.sec.spAt ≤ d.raw)

/-- A regeneration ends with what the PUF gave (R510, R511, R516). -/
def sporeTake (fu : Fuses) (puf : BitVec 3570) (d : Dev) : Dev :=
  match sporeOf puf d with
  | none => if d.keep.nor.helper.isNone then d else sporeFail d
  | some sp =>
    let d := wr SEC.SPORESTAT.CORR sp.2 (wrB SEC.SPORESTAT.READY true { d with sec := { d.sec with spore := some sp.1 } })
    deriveRoots fu sp.1 d

/-- SPORE_READY (R510). -/
def sporeReady (fu : Fuses) (puf : BitVec 3570) (d : Dev) : Dev :=
  if sporeDue d then sporeTake fu puf d else d

/-- SPORE_RETRY: the read-out does not decode, or not to the spore that was enrolled (R511). -/
def sporeRetry (puf : BitVec 3570) (d : Dev) : Dev :=
  if sporeDue d ∧ d.keep.nor.helper.isSome ∧ (sporeOf puf d).isNone then sporeFail d else d

/-! ## The ferry protocol (R524–R526) -/

/-- A request SEC serves: its ferry, header and payload words. -/
structure Req where
  f    : Nat
  hdr  : Nat
  w    : List Nat
  deriving DecidableEq, Repr

def Req.code (r : Req) : Nat := bits r.hdr 24 8
def Req.src (r : Req) : Nat := bits r.hdr 10 5
def Req.secure (r : Req) : Bool := decide (r.f < 4)
/-- A payload word. -/
def Req.word (r : Req) (i : Nat) : Nat := r.w.getD i 0
/-- Payload bytes (R525): command byte i is byte i of the little-endian words. -/
def Req.bytes (r : Req) (n : Nat) : List Nat := (r.w.flatMap (leBytes 8)).take n

/-- The request whose turn it is: the oldest SEND to SEC whose doorbell bit is set and unmasked, unless an answer waits (R383, R524).
A SEND is seen from the next raw count on, so that those that arrive together are seen together (log 145). -/
def nextReq (d : Dev) : Option Req :=
  if d.sec.ans.isSome then none
  else
    (d.ferrySeq.find? (fun e => let f := e.2
      decide (e.1 < d.raw) && (f < 4 || 8 ≤ f) && (ferryOf f d).full && ferryRecv f (ferryOf f d).hdr.toNat d == 8 &&
      !bit (rd (BELL.DBMASK 8) d) (bits (ferryOf f d).hdr.toNat 0 5))).map
      (fun e => ⟨e.2, (ferryOf e.2 d).hdr.toNat, ferryWords e.2 d⟩)

/-- Status codes (Table 16-7). -/
def sOk : Nat := 0
def sFormat : Nat := 1
def sBadCode : Nat := 2
def sState : Nat := 3
def sBadAuth : Nat := 4
def sReplay : Nat := 5
def sNoKey : Nat := 6
def sUsage : Nat := 7
def sLabel : Nat := 8
def sDepth : Nat := 9
def sFull : Nat := 10
def sBusy : Nat := 11
def sEntropy : Nat := 12
def sTamper : Nat := 13
def sMismatch : Nat := 14
def sExhausted : Nat := 15
def sRefused : Nat := 16


/-- The answer to a request (R524, R526). -/
def answer (r : Req) (st : Nat) (w0 : Nat) (ws : List Nat) (d0 : Dev) : Dev :=
  let hdr := bits r.hdr 0 5 + bits r.hdr 10 5 % 16 * 2 ^ 16 + (r.code + 0x80) % 256 * 2 ^ 24
  let words := (st + w0) :: ws
  if r.secure then
    if (ferryOf (r.f + 4) d0).full then { d0 with sec := { d0.sec with ans := some ⟨r.f + 4, hdr, words, d0.raw⟩ } }
    else secSend (r.f + 4) hdr words d0
  else
    let d := wr SEC.NSRES.CODE r.code (wr SEC.NSRES.STATUS st d0)
    match (List.range 8).find? (fun i => rd (FERRY.FCFG.SENDER (8 + i)) d == 8 && rd (FERRY.FCFG.RECEIVER (8 + i)) d == r.src) with
    | some i => if (ferryOf (8 + i) d).full then d else secSend (8 + i) (hdr % 2 ^ 16 + bits hdr 24 8 * 2 ^ 24) words d
    | none => d

/-- A request done: taken from its ferry, counted, answered. -/
def finish (r : Req) (st w0 : Nat) (ws : List Nat) (d0 : Dev) : Dev :=
  let d := ferryTaken r.f { d0 with rdata := d0.rdata }
  let d := inc SEC.REQCNT { d with rdata := d0.rdata }
  let d := if st = sOk then d else inc SEC.REQREF d
  let d := if st = sBadAuth ∨ st = sReplay then inc SEC.AUTHFAIL d else d
  answer r st w0 ws d

/-- What a request's act gives: fuses, block, status, further bits of word 0, further words. -/
structure Res where
  fu : Fuses
  d  : Dev
  st : Nat
  w0 : Nat := 0
  ws : List Nat := []
  deriving DecidableEq, Repr

/-- Serve the request whose turn it is if it is one of those asked for; any other waits for its own command. -/
def serve (want : Req → Bool) (act : Req → Fuses → Dev → Res) (fu : Fuses) (d : Dev) : Fuses × Dev :=
  match nextReq d with
  | none => (fu, d)
  | some r =>
    if want r && runs SECi d then
      let x := act r fu d
      (x.fu, finish r x.st x.w0 x.ws x.d)
    else (fu, d)

/-- A request by its code on a secure ferry. -/
def isCode (c : Nat) (r : Req) : Bool := r.secure && r.code == c

/-- Refuse. -/
def no (st : Nat) (fu : Fuses) (d : Dev) : Res := { fu := fu, d := d, st := st }
/-- Done. -/
def ok (fu : Fuses) (d : Dev) : Res := { fu := fu, d := d, st := sOk }

/-! ## Requests on slots (R515, R518, R520) -/

/-- DERIVE (R513, R515, R518): a target slot that is named is filled whatever it held; 0xFF takes a free one (log 120). -/
def reqDerive (r : Req) (fu : Fuses) (d : Dev) : Res :=
  let w0 := r.word 0
  let tgt := bits w0 8 8
  let usage := bits w0 16 5
  let lbl := ((r.w.drop 1).take 4).flatMap (leBytes 8)
  if r.w.length ≠ 5 ∨ bits w0 21 3 ≠ 0 ∨ bits w0 25 39 ≠ 0 ∨ (tgt ≠ 0xFF ∧ (tgt < 8 ∨ 63 < tgt)) then no sFormat fu d
  else match slotFor (bits w0 0 8) d with
    | none => no sNoKey fu d
    | some (n, s) =>
      if n < 8 ∧ n ≠ 0 ∧ n ≠ 1 then no sUsage fu d
      else if !bit s.usage uDerive then no sUsage fu d
      else if lbl.getD 0 0 ≠ 0x46 then no sLabel fu d
      else if 8 ≤ s.depth then no sDepth fu d
      else
        let free := (List.range 56).find? (fun i => (slotAt (8 + i) d).isNone)
        let t := if tgt = 0xFF then free.map (· + 8) else some tgt
        match t with
        | none => no sFull fu d
        | some t =>
          let d := redraw n (fillSlot t usage (s.depth + 1) (frond (keyIn s) lbl (if bit w0 24 then 256 else 128)) d)
          { fu := fu, d := d, st := sOk, w0 := handleOf t d * 2 ^ 8 }

/-- DISCARD (R518). -/
def reqDiscard (r : Req) (fu : Fuses) (d : Dev) : Res :=
  if r.w.length ≠ 1 ∨ bits (r.word 0) 8 56 ≠ 0 ∨ r.word 0 % 64 < 8 then no sFormat fu d
  else match slotFor (bits (r.word 0) 0 8) d with
    | none => no sNoKey fu d
    | some (n, _) => ok fu (emptySlot n d)

/-- The tag as answer words: eight bytes to a word, byte 0 lowest. -/
def wordsOf (l : List Nat) : List Nat := (blocks 8 l).map ofLe

/-- AES on buffers (R520, Table 16-6). The nonce is the first 12 of the 16 bytes in w6–w7 (log 16). -/
def reqAes (r : Req) (fu : Fuses) (d : Dev) : Res :=
  let w0 := r.word 0
  let mode := bits w0 8 3
  let len := r.word 3
  let aadLen := r.word 5
  if r.w.length ≠ (if mode = 1 ∨ mode = 3 then 10 else 8) ∨ bits w0 11 53 ≠ 0 ∨ 4 < mode ∨ 2 ^ 20 < len ∨
     dramSize < r.word 1 + len ∨ (mode ≠ 4 ∧ (dramSize < r.word 2 + len ∨ dramSize < r.word 4 + aadLen)) then no sFormat fu d
  else match slotFor (bits w0 0 8) d with
    | none => no sNoKey fu d
    | some (n, s) =>
      let need := if mode = 4 then uCmac else if mode % 2 = 0 then uEnc else uDec
      if n < 8 ∨ !bit s.usage need then no sUsage fu d
      else
        let key := keyIn s
        let inp := dramView (r.word 1) len d
        let aad := dramView (r.word 4) aadLen d
        let nb := leBytes 8 (r.word 6) ++ leBytes 8 (r.word 7)
        let iv := nb.take 12
        let tagIn := leBytes 8 (r.word 8) ++ leBytes 8 (r.word 9)
        let d := redraw n (eccLook (r.word 4) aadLen (eccLook (r.word 1) len d))
        match mode with
        | 0 => { fu := fu, d := spanWrite (r.word 2) (ccmCrypt key iv inp) d, st := sOk, ws := wordsOf (ccmTag key iv aad inp 16) }
        | 1 =>
          let pt := ccmCrypt key iv inp
          if ccmTag key iv aad pt 16 = tagIn then { fu := fu, d := spanWrite (r.word 2) pt d, st := sOk, ws := wordsOf tagIn }
          else no sBadAuth fu d
        | 2 =>
          let ct := gcmCrypt key iv inp
          { fu := fu, d := spanWrite (r.word 2) ct d, st := sOk, ws := wordsOf (gcmTag key iv aad ct) }
        | 3 =>
          if gcmTag key iv aad inp = tagIn then { fu := fu, d := spanWrite (r.word 2) (gcmCrypt key iv inp) d, st := sOk, ws := wordsOf tagIn }
          else no sBadAuth fu d
        | _ => { fu := fu, d := d, st := sOk, ws := wordsOf (cmac key inp) }

/-- HMAC (R520). -/
def reqHmac (r : Req) (fu : Fuses) (d : Dev) : Res :=
  if r.w.length ≠ 3 ∨ bits (r.word 0) 8 56 ≠ 0 ∨ dramSize < r.word 1 + r.word 2 then no sFormat fu d
  else match slotFor (bits (r.word 0) 0 8) d with
    | none => no sNoKey fu d
    | some (n, s) =>
      if n < 8 ∨ !bit s.usage uHmac then no sUsage fu d
      else { fu := fu, d := redraw n (eccLook (r.word 1) (r.word 2) d), st := sOk
             ws := wordsOf (hmac (keyIn s) (dramView (r.word 1) (r.word 2) d)) }

/-- SHA256. -/
def reqSha (r : Req) (fu : Fuses) (d : Dev) : Res :=
  if r.w.length ≠ 3 ∨ dramSize < r.word 1 + r.word 2 then no sFormat fu d
  else { fu := fu, d := eccLook (r.word 1) (r.word 2) d, st := sOk, ws := wordsOf (sha256 (dramView (r.word 1) (r.word 2) d)) }

/-- VERIFY: an ECDSA P-256 signature. -/
def reqVerify (r : Req) (fu : Fuses) (d : Dev) : Res :=
  if r.w.length ≠ 14 ∨ dramSize < r.word 1 + 64 then no sFormat fu d
  else
    let dig := ((r.w.drop 2).take 4).flatMap (leBytes 8)
    let sig := ((r.w.drop 6).take 8).flatMap (leBytes 8)
    let d' := eccLook (r.word 1) 64 d
    if ecdsaOk (dramView (r.word 1) 64 d) dig sig then ok fu d' else no sBadAuth fu d'

/-- Random numbers are there: the DRBG has not failed (R523). -/
def drbgOk (d : Dev) : Bool := !on SEC.DRBGSTAT.FAIL d

/-- One more DRBG request; every 2^20 it reseeds (R523). -/
def drbgUsed (d : Dev) : Dev :=
  let n := d.sec.drbgReq + 1
  if n = 2 ^ 20 then inc SEC.DRBGSTAT.RESEEDS { d with sec := { d.sec with drbgReq := 0 } }
  else { d with sec := { d.sec with drbgReq := n } }

/-- RANDOM (R523). -/
def reqRandom (r : Req) (fu : Fuses) (d : Dev) : Res :=
  let n := bits (r.word 0) 0 4
  if r.w.length ≠ 1 ∨ bits (r.word 0) 4 60 ≠ 0 ∨ n = 0 then no sFormat fu d
  else if !drbgOk d then no sEntropy fu d
  else { fu := fu, d := drbgUsed (drawnN (8 * n) d), st := sOk, ws := wordsOf (freeBytes (8 * n) d) }

/-- BKEY to every armed member (R126, R517). -/
def bkeyAll (k : List Nat) (g f : Nat) (d : Dev) : Dev :=
  forAll (List.range 128) (fun c d =>
    if armed c d && rd (RAD.CTXCTL.KIND c) d == 0 then bkeySend c g f k d else d) d

/-- BEACON_GEN (R517). A generation whose first superframe has come is current by now. -/
def reqBeaconGen (r : Req) (fu : Fuses) (d0 : Dev) : Res :=
  let d := redraw 1 (beaconSwitch d0)
  if lcState fu ≠ 2 then no sState fu d0
  else if r.w.length ≠ 1 ∨ 2 ^ 32 ≤ r.word 0 then no sFormat fu d0
  else if on SEC.BKGEN.NEXTPEND d then no sBusy fu d
  else match slotKey 1 d with
    | none => no sNoKey fu d
    | some root =>
      let g := (rd SEC.BKGEN.CUR d + 1) % 256
      let k := beaconKey root g
      let d := fillSlot 3 0 2 k d
      let d := wr SEC.BKFIRST (r.word 0) (wrB SEC.BKGEN.NEXTPEND true (wr SEC.BKGEN.NEXT g d))
      let d := { d with keep := { d.keep with nor := { d.keep.nor with genNxt := some (r.word 0) } } }
      { fu := fu, d := bkeyAll k g (r.word 0) d, st := sOk, ws := [g] }

/-! ## Resume, release, challenge, sessions -/

/-- RESUME on a secure ferry (R144, R145). -/
def reqResume (r : Req) (fu : Fuses) (d : Dev) : Res :=
  if lcState fu ≠ 2 then no sState fu d
  else if r.w.length ≠ 1 ∨ 2 ^ 32 ≤ r.word 0 then no sFormat fu d
  else
    let good := resumeOk (r.word 0) d
    { fu := fu, d := resume (r.word 0) d, st := if good then sOk else sRefused }

/-- The stored count of an issuer: resumes and releases apart (R527). -/
def issuerKey (release : Bool) (ctr : Nat) : Nat := ctr / 2 ^ 28 % 16 + 16 * b2n release

/-- The form of a MAC-carrying command: its length and code, this base and this system, a release's reserved bits (R527, Tables
04-5 and 16-8). -/
def macForm (release : Bool) (b : List Nat) (len : Nat) (fu : Fuses) : Bool :=
  len == 4 && b.getD 0 0 == (if release then 0x4C else 0x52) && b.getD 1 0 == baseId fu && ofBe (sub b 2 2) == sysId fu &&
    !(release && decide (1024 ≤ ofBe (sub b 4 2) ∨ 2 ^ 14 ≤ ofBe (sub b 6 2)))

/-- The checks of a MAC-carrying command in the order of R527; the count is stored once the MAC passes. -/
def macCmd (release : Bool) (slot : Nat) (b : List Nat) (len : Nat) (fu : Fuses) (d0 : Dev) : Nat × Dev :=
  let ctr := ofBe (sub b 8 4)
  let key := issuerKey release ctr
  if lcState fu ≠ 2 then (sState, d0)
  else if !macForm release b len fu then (sFormat, d0)
  else match slotKey slot d0 with
    | none => (sNoKey, d0)
    | some k =>
      let d := redraw slot d0
      if (hmac k (b.take 12)).take 16 ≠ sub b 12 16 then (sBadAuth, d)
      else if ctr % 2 ^ 28 ≤ tget d.keep.nor.issuer key 0 then (sReplay, d)
      else (sOk, { d with keep := { d.keep with nor := { d.keep.nor with issuer := tset d.keep.nor.issuer key (ctr % 2 ^ 28) 0 } } })

/-- NETWORK_RESUME (R145, R527, Table 04-5). -/
def reqNetResume (r : Req) (fu : Fuses) (d : Dev) : Res :=
  let b := r.bytes 28
  let (st, d) := macCmd false 4 b r.w.length fu d
  if st ≠ sOk then no st fu d
  else
    let seq := ofBe (sub b 4 4)
    let good := resumeOk seq d
    { fu := fu, d := resume seq d, st := if good then sOk else sRefused }

/-- A fresh nonce made current (R529). -/
def newNonce (d : Dev) : Dev := drbgUsed (drawnN 8 { d with sec := { d.sec with nonce := some (freeBytes 8 d, d.raw) } })

/-- CHALLENGE (R529). -/
def reqChallenge (r : Req) (fu : Fuses) (d : Dev) : Res :=
  if r.w.length ≠ 0 then no sFormat fu d
  else if !drbgOk d then no sEntropy fu d
  else { fu := fu, d := newNonce d, st := sOk, ws := [ofLe (freeBytes 8 d)] }

/-- SESSION (R521): a session key into RAD's entry of a context. -/
def reqSession (r : Req) (fu : Fuses) (d : Dev) : Res :=
  let w0 := r.word 0
  let c := bits w0 0 8
  if lcState fu ≠ 2 then no sState fu d
  else if r.w.length ≠ 3 ∨ bits w0 8 8 ≠ 0 ∨ bits w0 26 5 ≠ 0 ∨ 2 ^ 32 ≤ w0 ∨ 144 ≤ c then no sFormat fu d
  else match joinKey (bit w0 31) (bits w0 16 10) d with
    | none => no sNoKey fu d
    | some jk =>
      ok fu (placeSess c jk ⟨bits w0 16 10, bit w0 31, sessLabel (beBytes 8 (r.word 1)) (beBytes 8 (r.word 2))⟩ false (redraw 1 d))

/-- A ring key placed in NET's table for a member (R521). -/
def placeRing (m : Nat) (root lbl : List Nat) (d : Dev) : Dev :=
  let x := shareOf (frond root lbl 128) 0 0 d
  wr (NET.MKEYH m) m { x.2 with net := { x.2.net with keys := tset x.2.net.keys m (some x.1) none, keyLbl := tset x.2.net.keyLbl m lbl [] } }

/-- The label of a ring key (Table 16-3). -/
def ringLabel (mac : Nat) : List Nat := label [0x52, 0x49, 0x4E, 0x47] (beBytes 6 mac)

/-- RINGKEY (R521). -/
def reqRingKey (r : Req) (fu : Fuses) (d : Dev) : Res :=
  let m := bits (r.word 0) 0 6
  if lcState fu ≠ 2 then no sState fu d
  else if r.w.length ≠ 2 ∨ bits (r.word 0) 6 58 ≠ 0 ∨ m = 0 ∨ 2 ^ 48 ≤ r.word 1 then no sFormat fu d
  else match slotKey 1 d with
    | none => no sNoKey fu d
    | some root => ok fu (placeRing m root (ringLabel (r.word 1)) (redraw 1 d))

/-! ## Provisioning requests (R505–R509, R571) -/

/-- The record LIFECYCLE and the WRM that ends a transition (R505). -/
def transition (old : Nat) (fu : Fuses) (d : Dev) : Res :=
  ok fu (lichen 1 0x0204 [old, lcState fu] d)

/-- SETOWNER (R571). -/
def reqSetOwner (r : Req) (fu : Fuses) (d : Dev) : Res :=
  if lcState fu ≠ 1 then no sState fu d
  else if fu.owner.isSome then no sFull fu d
  else if r.w.length ≠ 8 then no sFormat fu d
  else ok { fu with owner := some (r.bytes 64) } d

/-- SETIMAGEKEY (R571). -/
def reqSetImageKey (r : Req) (fu : Fuses) (d : Dev) : Res :=
  if lcState fu ≠ 1 then no sState fu d
  else if fu.imgKeys ≠ [] then no sFull fu d
  else if r.w.length ≠ 4 then no sFormat fu d
  else ok { fu with imgKeys := [r.bytes 32] } d

/-- DEPLOY (R507), its steps in order: the settings fuses are blown before the field root is derived, so a request that ends there,
for want of a spore or of a random IV, leaves them blown. -/
def reqDeploy (r : Req) (fu0 : Fuses) (d : Dev) : Res :=
  let w0 := r.word 0
  let st : Settings := ⟨bits w0 0 2, bits w0 16 16, bits w0 8 3, bits w0 32 32⟩
  let fu := { fu0 with settings := some st }
  if lcState fu0 ≠ 1 ∨ fu0.owner.isNone ∨ fu0.imgKeys = [] then no sState fu0 d
  else if r.w.length ≠ 5 ∨ bits w0 2 6 ≠ 0 ∨ bits w0 11 5 ≠ 0 ∨ (st.region ≠ 1 ∧ st.region ≠ 2) then no sFormat fu0 d
  else if fu0.settings.isSome ∧ fu0.settings ≠ some st then no sMismatch fu0 d
  else match d.sec.spore with
    | none => no sNoKey fu d
    | some sp =>
      if !drbgOk d then no sEntropy fu d
      else
        let wk := wrapKey (frond sp (label [0x57, 0x46, 0x4C, 0x44] []) 256)
        let seed := ((r.w.drop 1).take 4).flatMap (leBytes 8)
        let iv := freeBytes 12 d
        let d := drbgUsed (drawnN 12 d)
        let ct := gcmCrypt wk iv seed
        let rec_ : SeedRec := ⟨iv, ct, gcmTag wk iv [] ct, st.sys⟩
        let d := { d with keep := { d.keep with nor := { d.keep.nor with seed := some rec_, issuer := [], gen := 0, genSf := 0, genNxt := none } } }
        transition 1 { fu with deployed := true } d

/-- The protected NOR region erased and the RETIRED fuse blown (R508). -/
def retire (fu : Fuses) (d : Dev) : Res :=
  transition (lcState fu) { fu with retired := true } { d with keep := { d.keep with nor := {} } }

/-- RETIRE_LOCAL (R509). -/
def reqRetireLocal (r : Req) (fu : Fuses) (d : Dev) : Res :=
  if lcState fu ≠ 1 ∨ fu.owner.isSome then no sState fu d
  else if r.w.length ≠ 1 ∨ r.word 0 ≠ fu.devid then no sFormat fu d
  else retire fu d

/-! ## Signed commands (R528, Tables 16-9 and 16-10) -/

/-- The life-cycle states a signed command's code is taken in. -/
def signedStates (code lc : Nat) : Bool :=
  match code with
  | 1 => lc == 2
  | 2 => lc == 3
  | 3 | 4 | 5 => lc == 1 || lc == 2 || lc == 3
  | 6 => lc != 4
  | 7 => lc == 2
  | 8 => lc == 2 || lc == 3
  | _ => false

/-- Codes that take the challenge nonce in place of a counter. -/
def takesNonce (code : Nat) : Bool := code == 6 || code == 7

/-- A nonce is current for 60 s (R529). -/
def nonceNow (d : Dev) : Option (List Nat) :=
  match d.sec.nonce with
  | some (n, r) => if d.raw < r + 60 * rawPerS then some n else none
  | none => none

/-- The checks of R528, in order: 0 or the first refusal. -/
def signedCheck (secure rom : Bool) (b : List Nat) (fu : Fuses) (d : Dev) : Nat :=
  let code := b.getD 0 0
  let arg := sub b 24 32
  let unused := match code with
    | 4 => false
    | 1 | 2 | 3 | 6 | 8 => arg.any (· != 0)
    | 5 => (arg.drop 1).any (· != 0)
    | 7 => (arg.drop 3).any (· != 0)
    | _ => false
  let ctr := ofBe (sub b 12 4)
  let nn := sub b 16 8
  if b.length ≠ 120 ∨ b.getD 1 0 ≠ 0 ∨ unused = true then sFormat
  else if code = 0 ∨ 8 < code ∨ (!secure && !(code == 7 || code == 8)) ∨ (rom && code != 6) then sBadCode
  else if !signedStates code (lcState fu) then sState
  else if ofBe (sub b 2 2) ≠ (if fu.deployed then sysId fu else 0) ∨ ofBe (sub b 4 8) ≠ fu.devid then sFormat
  else if (if takesNonce code then decide (nonceNow d ≠ some nn ∨ ctr ≠ 0)
           else decide (ctr ≤ d.keep.nor.cmdCtr) || nn.any (· != 0)) then sReplay
  else match fu.owner with
    | none => sBadAuth
    | some k => if ecdsaOk k (sha256 (b.take 56)) (sub b 56 64) then sOk else sBadAuth

/-- A signed command that has passed: its counter or nonce is used up. -/
def signedUsed (b : List Nat) (d : Dev) : Dev :=
  if takesNonce (b.getD 0 0) then { d with sec := { d.sec with nonce := none } }
  else
    let c := ofBe (sub b 12 4)
    wr SEC.CMDCTR c { d with keep := { d.keep with nor := { d.keep.nor with cmdCtr := c } } }

/-- SERVICE_ENTER (R506): moss stop first. -/
def actServiceEnter (fu : Fuses) (d : Dev) : Res :=
  if 254 ≤ fu.svc then no sExhausted fu d
  else
    let d := secMoss d
    transition 2 { fu with svc := fu.svc + 1 } { d with rad := { d.rad with mossNext := some true } }

/-- SERVICE_EXIT (R506). -/
def actServiceExit (fu : Fuses) (d : Dev) : Res :=
  if 254 ≤ fu.svc then no sExhausted fu d else transition 3 { fu with svc := fu.svc + 1 } d

/-- IMAGEKEY (R528). -/
def actImageKey (arg : List Nat) (fu : Fuses) (d : Dev) : Res :=
  if 4 ≤ fu.imgKeys.length then no sFull fu d else ok { fu with imgKeys := fu.imgKeys ++ [arg] } d

/-- SECVER (R528): above the current, at most 64. -/
def actSecver (v : Nat) (fu : Fuses) (d : Dev) : Res :=
  if v ≤ fu.secver ∨ 64 < v then no sFormat fu d else ok { fu with secver := v } d

/-- TAMPER_CLEAR (R532): the latch cleared, a record, and a WRM. -/
def actTamperClear (fu : Fuses) (d : Dev) : Res :=
  ok fu (lichen 1 0x020A [] { d with keep := { d.keep with tampHold := false, tampLatch := 0 } })

/-- DEBUG_UNLOCK (R534): scope 1 or 2, minutes 1–480. -/
def actDebugUnlock (arg : List Nat) (fu : Fuses) (d : Dev) : Res :=
  let sc := arg.getD 0 0
  let mins := ofBe (sub arg 1 2)
  if (sc ≠ 1 ∧ sc ≠ 2) ∨ mins = 0 ∨ 480 < mins then no sFormat fu d
  else
    let d := { d with sec := { d.sec with dbgEnd := some (d.raw + mins * 60 * rawPerS, sc) } }
    ok fu (lichen 1 0x020B ([sc] ++ leBytes 2 mins) d)

/-- LICHEN_CLEAR (R551). -/
def actLichenClear (fu : Fuses) (d : Dev) : Res :=
  if on AON.LSTAT.ERASING d then no sRefused fu d else ok fu (lClear d)

/-- The act of a signed command's code. -/
def signedAct (b : List Nat) (fu : Fuses) (d : Dev) : Res :=
  let arg := sub b 24 32
  match b.getD 0 0 with
  | 1 => actServiceEnter fu d
  | 2 => actServiceExit fu d
  | 3 => retire fu d
  | 4 => actImageKey arg fu d
  | 5 => actSecver (arg.getD 0 0) fu d
  | 6 => actTamperClear fu d
  | 7 => actDebugUnlock arg fu d
  | _ => actLichenClear fu d

/-- A signed command checked and acted on (R528). -/
def reqSigned (r : Req) (fu : Fuses) (d : Dev) : Res :=
  let b := r.bytes 120
  let st := if r.w.length ≠ 15 then sFormat else signedCheck r.secure false b fu d
  if st ≠ sOk then no st fu d
  else signedAct b fu (signedUsed b d)

/-- A request on a ferry that carries a signed command of one code. -/
def isSigned (c : Nat) (r : Req) : Bool := r.code == 0x0A && r.word 0 % 256 == c

/-- Whether the request whose turn it is is a TAMPER_CLEAR that SEC accepts (R532). -/
def clearsTamper (fu : Fuses) (d : Dev) : Bool :=
  runs SECi d && match nextReq d with
    | some r => isSigned 6 r && r.w.length == 15 && signedCheck r.secure false (r.bytes 120) fu d == sOk
    | none => false

/-- Transitions, and an accepted TAMPER_CLEAR, end with a WRM once the answer is out (R505, R532). -/
def withWrm (r : Fuses × Dev) (fu0 : Fuses) (d0 : Dev) : Fuses × Dev :=
  if lcState r.1 ≠ lcState fu0 ∨ clearsTamper fu0 d0 then (r.1, resetAsk 0 r.2) else r

/-- Codes SEC takes on a ferry: known ones on a secure ferry, the four of R526 on a non-secure one. -/
def codeKnown (r : Req) : Bool :=
  if r.secure then (1 ≤ r.code && r.code ≤ 0x0D) || (0x10 ≤ r.code && r.code ≤ 0x13)
  else r.code == 0x52 || r.code == 0x4C || r.code == 0x0A || r.code == 0x0B

/-! ## Tamper (R530–R533) -/

/-- Requests that read a slot or derive a key (R531). -/
def keyReq (r : Req) : Bool :=
  if r.secure then [0x01, 0x03, 0x04, 0x08, 0x0C, 0x0D, 0x12].contains r.code else r.code == 0x52 || r.code == 0x4C

/-- The output buffer of a request cleared: that of AES, where its mode writes one and it lies in DRAM (Table 16-12). -/
def outCleared (r : Req) (d : Dev) : Dev :=
  if r.secure ∧ r.code = 0x03 ∧ bits (r.word 0) 8 3 < 4 ∧ r.word 3 ≤ 2 ^ 20 ∧ r.word 2 + r.word 3 ≤ dramSize then
    spanWrite (r.word 2) (List.replicate (r.word 3) 0) d
  else d

/-- A key operation cut short by an alarm (Table 16-12): the request of this code, whose turn it is, answered with TAMPER and its
output buffer cleared; or, by code 0, a derivation of SEC's own or a frame being keyed. -/
def keyopAbort (c : Nat) (d : Dev) : Dev :=
  let rec_ (d : Dev) : Dev := lichen 1 0x0209 [c] d
  if c = 0 then rec_ d
  else match nextReq d with
    | some r => if r.code == c && keyReq r then rec_ (finish r sTamper 0 [] (outCleared r d)) else d
    | none => d

/-- An alarm of a source (Table 16-11), with the code of the key operation it cuts short, if it does (Table 16-12). -/
def tamperAlarm (src : Nat) (keyop : Option Nat) (fu : Fuses) (d0 : Dev) : Dev :=
  if lcState fu = 0 then d0
  else
    let d := { d0 with keep := { d0.keep with tampLatch := setBit d0.keep.tampLatch src true } }
    let bits_ := 2 ^ src
    if lcState fu = 4 then lichen 1 0x0208 [bits_] d
    else if d.aon.power == .standby || d.aon.power == .hibernate then d
    else if d.aon.power != .run || (d.sec.spore.isNone && !on SEC.SPORESTAT.FAIL d) then
      lichen 1 0x0208 [bits_] { d with keep := { d.keep with tampHold := true } }
    else
      let d := match keyop with
        | some c => keyopAbort c d
        | none => d
      let d := lichen 1 0x0208 [bits_] (clearKeys d)
      { d with aon := { d.aon with tmpDue := true } }

/-- An Ethernet frame with the Gnodon's EtherType out of a port (R486, R533). -/
def ethOut (port dst : Nat) (b : List Nat) (d : Dev) : Dev :=
  emit port (beBytes 6 dst ++ beBytes 6 (Config.portMac port).toNat ++ [0x88, 0xB5] ++ b) d

/-- TAMPER_INFO is due: the first at once, and then one a second (R533). -/
def infoDue (d : Dev) : Bool :=
  d.keep.tampHold && (match d.app.infoRaw with
    | none => true
    | some r => decide (r + rawPerS ≤ d.raw))

/-- TAMPER_INFO out of each port, once a second under TAMPER_HOLD (R533); a nonce is drawn where none is current (log 17). -/
def tamperInfo (fu : Fuses) (d0 : Dev) : Dev :=
  if !infoDue d0 then d0
  else
    let d := if (nonceNow d0).isSome then d0 else newNonce d0
    let d := { d with app := { d.app with infoRaw := some d.raw } }
    let b := [0x00, 0x12] ++ beBytes 8 fu.devid ++ [d.keep.tampLatch, lcState fu] ++ padTo 8 ((nonceNow d).getD [])
    ethOut 1 0xFFFFFFFFFFFF b (ethOut 0 0xFFFFFFFFFFFF b d)

/-- A TAMPER_CLEAR frame at a port under TAMPER_HOLD (R533, Table 16-13): checked, answered, acted on. -/
def tamperFrame (port src : Nat) (body : List Nat) (fu : Fuses) (d : Dev) : Fuses × Dev :=
  let cmd := body.drop 2
  if !d.keep.tampHold ∨ ofBe (body.take 2) ≠ 0x13 then (fu, d)
  else
    let st := signedCheck true true cmd fu d
    let d := if st = sBadAuth ∨ st = sReplay then inc SEC.AUTHFAIL d else d
    let d := ethOut port src [0x00, 0x14, st] d
    if st ≠ sOk then (fu, d)
    else
      let x := actTamperClear fu (signedUsed cmd d)
      (x.fu, resetAsk 0 x.d)

end Sys2Proof.Machine
end

