-- ==== Sys2Proof/Machine/Boot.lean ====
section
/-! DEFINITION. Machine/Boot.lean: boot records, image slots, recovery, and the entry of firmware (Start-up: Firmware images). -/

namespace Sys2Proof.Machine

/-- A byte of the eMMC user area; a byte nothing has written reads 0 (log 18). -/
def emmcGet (a : Nat) (d : Dev) : Nat := (tget d.keep.emmc a 0).toNat

/-- Bytes of the eMMC. -/
def emmcRead (a n : Nat) (d : Dev) : List Nat := (List.range n).map (fun i => emmcGet (a + i) d)

/-- Bytes written to the eMMC. -/
def emmcWrite (a : Nat) (l : List Nat) (d : Dev) : Dev :=
  { d with keep := { d.keep with emmc := (l.zipIdx).foldl (fun t e => tset t (a + e.2) (BitVec.ofNat 8 e.1) 0) d.keep.emmc } }

/-- The first byte of an image slot: 0 A, 1 B (Table 15-2). -/
def slotBase (sl : Nat) : Nat := (if sl = 0 then 2048 else 526336) * 512

/-- A boot record as it is used: GEN, ACTIVE, TRIAL, TRIES (Table 15-3). -/
structure BootRec where
  gen    : Nat
  active : Nat
  trial  : Bool
  tries  : Nat
  deriving DecidableEq, Repr

/-- A copy of the boot record, if its MAGIC and CRC are right (R483). -/
def bootCopy (k : Nat) (d : Dev) : Option BootRec :=
  let b := emmcRead (k * 1024 * 512) 512 d
  if ofLe (b.take 4) = 0xB0070001 ∧ ofLe (sub b 508 4) = crc32 (b.take 508) then
    some ⟨ofLe (sub b 4 4), b.getD 8 0, bit (b.getD 9 0) 0, b.getD 10 0⟩
  else none

/-- The record in use: the valid copy with the higher GEN (R483). -/
def bootRec (d : Dev) : Option BootRec :=
  match bootCopy 0 d, bootCopy 1 d with
  | some a, some b => if a.gen < b.gen then some b else some a
  | some a, none => some a
  | none, b => b

/-- Both copies written, copy 0 first. -/
def bootWrite (r : BootRec) (d : Dev) : Dev :=
  let h := padTo 508 (leBytes 4 0xB0070001 ++ leBytes 4 r.gen ++ [r.active, b2n r.trial, r.tries])
  let b := h ++ leBytes 4 (crc32 h)
  emmcWrite (1024 * 512) b (emmcWrite 0 b d)

/-- The image-key hash SEC holds: the highest written slot, else Wilyel's provisioning key (R528). -/
def imageKeyHash (fu : Fuses) : List Nat := fu.imgKeys.getLastD (natBe 32 Config.provKeyHash.toNat)

/-- The image a slot's header describes. -/
def slotImage (sl : Nat) (d : Dev) : Image :=
  let h := emmcRead (slotBase sl) 4096 d
  { loadpa := ofLe (sub h 16 8), len := ofLe (sub h 8 4), entry := ofLe (sub h 24 8), wake := ofLe (sub h 32 8),
    hash := sub h 240 32, secver := ofLe (sub h 12 4), fcfg := (List.range 8).map (fun i => ofLe (sub h (48 + 4 * i) 4)) }

/-- The first step of R484 at which a slot fails; 0 where it passes. -/
def slotCheck (sl : Nat) (fu : Fuses) (d : Dev) : Nat :=
  let h := emmcRead (slotBase sl) 4096 d
  let im := slotImage sl d
  let zero (l : List Nat) : Bool := l.all (· == 0)
  let dump := rd AON.DUMPBASE d
  let inBody (a : Nat) : Bool := decide (im.loadpa ≤ a ∧ a < im.loadpa + im.len)
  if ofLe (h.take 4) ≠ 0x474E0001 ∨ ofLe (sub h 4 4) ≠ 1 ∨ !(zero (sub h 40 8) && zero (sub h 80 32) && zero (h.drop 272)) then 1
  else if im.len % 512 ≠ 0 ∨ im.len < 512 ∨ 268431360 < im.len ∨ im.loadpa % 2 ^ 21 ≠ 0 ∨ dramSize < im.loadpa + im.len ∨
    (dump ≠ 0 ∧ im.loadpa < dump + 2 ^ 26 ∧ dump < im.loadpa + im.len) ∨ !(inBody im.entry && inBody im.wake) then 2
  else if sha256 (sub h 112 64) ≠ imageKeyHash fu then 3
  else if im.secver < fu.secver then 4
  else if !ecdsaOk (sub h 112 64) (sha256 (h.take 176 ++ h.drop 240)) (sub h 176 64) then 5
  else if sha256 (emmcRead (slotBase sl + 4096) im.len d) ≠ im.hash then 6
  else 0

/-- A slot that fails: its record and FAILSTEP (R484). -/
def slotBad (sl step : Nat) (d : Dev) : Dev := lichen 2 0x0302 [sl, step] (wr AON.BOOTSTAT.FAILSTEP step d)

/-- A slot's body loaded into DRAM, whole words with fresh check bits (R447). -/
def bodyLoad (sl : Nat) (d : Dev) : Dev :=
  let im := slotImage sl d
  spanWrite im.loadpa (emmcRead (slotBase sl + 4096) im.len d) d

/-- A slot checked: its body is loaded where the first five steps pass (R484). -/
def slotTry (sl : Nat) (fu : Fuses) (d : Dev) : Nat × Dev :=
  let st := slotCheck sl fu d
  (st, if st = 0 ∨ st = 6 then bodyLoad sl d else d)

/-- A slot that has passed: FCFG set and locked from it (R380, Table 15-1). -/
def slotLoad (sl : Nat) (trial : Bool) (d0 : Dev) : Dev :=
  let d := wr AON.BOOTSTAT.SLOT sl (wrB AON.BOOTSTAT.TRIAL trial d0)
  setFcfg { d with app := { d.app with boot := .passed, img := some (slotImage sl d0) } }

/-- The boot ROM chooses a slot, checks it and loads it, falling back to the other (R483, R484). SEC verifies and MEM loads, so
it waits while either is down. -/
def bootCheck (fu : Fuses) (d0 : Dev) : Dev :=
  if d0.app.boot ≠ .rom ∨ d0.keep.tampHold ∨ !isUp SECi d0 ∨ !isUp MEMi d0 then d0
  else
    let d := wr AON.BOOTSTAT.FAILSTEP 0 (wrB AON.BOOTSTAT.FALLBACK false (wrB AON.BOOTSTAT.TRIAL false d0))
    let (sl, trial, d) : Nat × Bool × Dev := match bootRec d with
      | none => (0, false, d)
      | some r =>
        if !r.trial then (r.active % 2, false, d)
        else if 0 < r.tries then (r.active % 2, true, bootWrite { r with gen := r.gen + 1, tries := r.tries - 1 } d)
        else
          let o := 1 - r.active % 2
          (o, false, wrB AON.BOOTSTAT.FALLBACK true (bootWrite ⟨r.gen + 1, o, false, 0⟩ d))
    let (st, d) := slotTry sl fu d
    if st = 0 then slotLoad sl trial d
    else
      let d := wrB AON.BOOTSTAT.FALLBACK true (slotBad sl st d)
      let (st2, d) := slotTry (1 - sl) fu d
      if st2 = 0 then slotLoad (1 - sl) false d
      else
        let d := slotBad (1 - sl) st2 d
        { d with app := { d.app with boot := .failed } }

/-- Both slots have failed (R486). -/
def bootFailed (d : Dev) : Dev :=
  if d.app.boot ≠ .failed then d
  else lichen 2 0x0303 [] (wr AON.BOOTSTAT.SLOT 2 { d with app := { d.app with boot := .recovery 0 } })

/-- A RECOVERY_ACK (Table 15-5). -/
def recoveryAck (port dst off st : Nat) (d : Dev) : Dev := ethOut port dst ([0x00, 0x11] ++ beBytes 4 off ++ [st]) d

/-- A chunk of slot B written: acknowledged, and at the end of the image checked and made active (R486). -/
def recoveryChunk (port src off : Nat) (chunk : List Nat) (fu : Fuses) (d0 : Dev) : Dev :=
  let d := emmcWrite (slotBase 1 + off) chunk d0
  let got := off + chunk.length
  let len := (slotImage 1 d).len
  let total := 4096 + (if 268431360 < len then 0 else len)
  if got < 4096 ∨ got < total then
    recoveryAck port src got 0 { d with app := { d.app with boot := .recovery got } }
  else
    let d := recoveryAck port src got 1 d
    let (st, d) := slotTry 1 fu d
    if st = 0 then
      let g := match bootRec d with
        | some r => r.gen + 1
        | none => 1
      resetAsk 0 (recoveryAck port src got 2 (bootWrite ⟨g, 1, false, 0⟩ d))
    else recoveryAck port src 0 3 (slotBad 1 st { d with app := { d.app with boot := .recovery 0 } })

/-- A frame of the Gnodon's EtherType to the MAC of the port it comes in at (R486, R495). -/
def toPort (f : PortFrame) : Bool := f.etype == 0x88B5 && f.dst == Config.portMac f.port

/-- A RECOVERY frame at a port, from its bytes after the EtherType (R486). -/
def recovery (port src : Nat) (b : List Nat) (fu : Fuses) (d : Dev) : Dev :=
  match d.app.boot with
  | .recovery next =>
    let off := ofBe (sub b 2 4)
    let len := ofBe (sub b 6 2)
    if ofBe (b.take 2) ≠ 0x0010 then d
    else if off ≠ next ∨ off % 1024 ≠ 0 ∨ len = 0 ∨ 1024 < len then recoveryAck port src next 0 d
    else recoveryChunk port src off (sub b 8 len) fu d
  | _ => d

/-- Cores enter firmware at an address, at level M, with PTROOT 0 (R477). -/
def coresEnter (cores : List Nat) (pc : Nat) (d : Dev) : Dev :=
  forAll cores (fun n d => if (coreOf n d).fatal then d else coreSet n { x := { pc := BitVec.ofNat 64 pc }, run := .fw } d) d

/-- The cores available at this operation level (R20). -/
def coresNow (d : Dev) : List Nat := if on AON.PWRSTAT.LIMITED d then [0, 1, 2, 3] else List.range 8

/-- Firmware entered (R477). -/
def firmwareEntry (d : Dev) : Dev :=
  match d.app.boot, d.app.img with
  | .passed, some im => coresEnter (coresNow d) im.entry { d with app := { d.app with boot := .firmware } }
  | _, _ => d

/-- Full operation restored (R22): C4–C7 enter firmware under R477. An operation that still runs there before its pre-emption
point is not waited for (DESIGN CHOICE, log 125). -/
def restore (d : Dev) : Dev :=
  if !on AON.PWRSTAT.FULLAVL d then d
  else
    let d := setLimited false d
    match d.app.boot, d.app.img with
    | .firmware, some im => coresEnter [4, 5, 6, 7] im.entry d
    | _, _ => d

/-! ## Wake (R495, R496, R531) -/

/-- A tamper latched during a low-power state is evaluated on wake, before regeneration (R531). -/
def tamperAtWake (fu : Fuses) (d : Dev) : Dev :=
  if d.keep.tampLatch ≠ 0 ∧ !d.keep.tampHold ∧ lcState fu ≠ 4 then
    lichen 1 0x0208 [d.keep.tampLatch] { d with keep := { d.keep with tampHold := true } }
  else d

/-- A key record's 72 bytes (log 12). -/
def keyRec (i : Nat) (d : Dev) : List Nat := dramView (rd AON.SKBASE d + 72 * i) 72 d

/-- One key record restored into the table entry it names; one whose HMAC fails is skipped. Its context goes on as it was, under the
same key and with its counters (R103, R495). The system root's shares are redrawn after each use (R519). -/
def restoreKey (sk root b : List Nat) (d : Dev) : Dev :=
  if hmac sk (b.take 40) ≠ b.drop 40 then d
  else
    let e := b.getD 2 0
    let lbl := sub b 8 32
    if b.getD 1 0 = 1 then placeRing e root lbl (redraw 1 d)
    else match joinKey (b.getD 3 0 == 1) (ofBe (sub b 4 2)) d with
      | some jk => keySess e jk ⟨ofBe (sub b 4 2), b.getD 3 0 == 1, lbl⟩ (redraw 1 d)
      | none => d

/-- The key records at SKBASE, up to the byte that ends the list (R495, log 12). -/
def restoreKeys (d0 : Dev) : Dev :=
  match standbyKey d0, slotKey 1 d0 with
  | some sk, some root =>
    forAll (((List.range 207).map (fun i => keyRec i d0)).takeWhile (fun b => b.getD 0 0 == 1)) (restoreKey sk root) (redraw 0 d0)
  | _, _ => d0

/-- Ring members whose key no record restored are LOST (R284, R495). -/
def unkeyedLost (d0 : Dev) : Dev :=
  forAll d0.net.hadKey (fun m d =>
    if d.net.keyLbl.any (fun e => e.1 == m) ∨ rd (NET.MSTAT.STATE m) d = 3 then d else ringLost m d)
    { d0 with net := { d0.net with hadKey := [] } }

/-- AON wakes from Standby: the watchdog counts on, the grants apply, a latched tamper is evaluated, and the islands that
Standby had off run again (R490, R495, R497, R531). -/
def wakeIslands (src : Nat) (fu : Fuses) (d0 : Dev) : Dev :=
  let img := d0.app.img
  let d := wr AON.LPSTAT.WAKESRC src d0
  let d := { d with aon := { d.aon with power := .run, wdFrom := d.raw + d.aon.wdLeft - d.aon.wdPer * rawPerMs } }
  let d := grantAgain (tamperAtWake fu d)
  if d.aon.power ≠ .run then d
  else forAll [SECi, APPi, SCHi, CTLi, POSi] startIsl { d with app := { d.app with img := img } }

/-- Supervision after Standby: from full where a context's key is restored, and else from where it was frozen (R494, R495). -/
def thaw (c : Nat) (d : Dev) : Dev :=
  let v := ctxOf c d
  whenB (armed c d) (ctxSet c { v with supRaw := if (sessKey c d).isSome then d.raw else v.supRaw + (d.raw - d.aon.standbyAt) }) d

/-- SEC restores keys, supervision goes on, the body is hashed, the cores enter at WAKE (R495). -/
def wakeFirmware (puf : BitVec 3570) (fu : Fuses) (d0 : Dev) : Dev :=
  let img := d0.app.img
  let d := forAll (List.range 144) thaw (unkeyedLost (restoreKeys (sporeTake fu puf d0)))
  match img with
  | none => wrm d
  | some im =>
    let h := sha256 (dramView im.loadpa im.len d)
    let d := eccLook im.loadpa im.len d
    if h ≠ im.hash then wrm d
    else coresEnter (coresNow d) im.wake (setFcfg { d with app := { d.app with boot := .firmware, img := img } })

/-- Whether a wake source is there: a trigger unit has fired in this raw count, a WAKE frame has come in at a port, addressed to that
port's MAC, or a link has changed in this raw count (R495). -/
def wakeHeard (src : Nat) (f : Option PortFrame) (d : Dev) : Bool :=
  if src < 16 then decide (evNow (AON.TRIGCTL.FIRED src) d ≠ 0)
  else if src = 16 then f.any (fun f => toPort f && ofBe (nats (f.body.take 2)) == 0x0007 && linkOf f.port d != 0)
  else d.aon.linkAt == some d.raw

/-- Standby ends (R495); under TAMPER_HOLD nothing but the islands starts (R531). -/
def standbyWake (src : Nat) (f : Option PortFrame) (puf : BitVec 3570) (fu : Fuses) (d0 : Dev) : Dev :=
  if d0.aon.power ≠ .standby ∨ !wakes src d0 ∨ !wakeHeard src f d0 then d0
  else
    let d := wakeIslands src fu d0
    if d.keep.tampHold ∨ d.aon.power ≠ .run then d else wakeFirmware puf fu d

/-- Hibernate ends with a full start, AON kept (R496). -/
def hibernateWake (src : Nat) (fu : Fuses) (d0 : Dev) : Dev :=
  if d0.aon.power ≠ .hibernate ∨ !wakes src d0 ∨ src = 16 ∨ !wakeHeard src none d0 then d0
  else
    let d := wr AON.LPSTAT.WAKESRC src d0
    let d := raise AON.RSTCAUSE.HIBWAKE (tamperAtWake fu d)
    grantAgain (lStart (inc AON.STARTCNT (levelAgain (holdAll d))))

end Sys2Proof.Machine
end

