-- ==== Sys2Proof/Machine/PretanCode.lean ====
section
/-! DEFINITION. Machine/PretanCode.lean: Pretan's instruction words, as far as the spec lays them out (Pretan instruction set:
Formats, Tables 12-1 to 12-5; log 61). -/

namespace Sys2Proof.Machine

/-- The type codes of Table 12-5. -/
def vCode : VTy → Nat
  | .i8 => 0 | .i16 => 1 | .i32 => 2 | .i64 => 3 | .f32 => 4 | .f64 => 5

/-- An instruction's major opcode and the fields the spec gives it: lowest bit, width, value (Tables 12-1 to 12-4). A function code
that the spec does not print is no field here, and neither is a source whose place it does not name (log 61). -/
structure Code where
  op     : Nat
  fields : List (Nat × Nat × Nat)

/-- A format: rd, rs, rt. -/
def Code.a (op rd rs rt : Nat) : Code := ⟨op, [(21, 5, rd), (16, 5, rs), (11, 5, rt)]⟩

/-- M format: rd, base, off12. -/
def Code.m (op rd base : Nat) (off : BitVec 12) : Code := ⟨op, [(21, 5, rd), (16, 5, base), (0, 12, off.toNat)]⟩

/-- V format: vd, va, vb, pm, type. -/
def Code.v (op vd va vb pm : Nat) (ty : VTy) : Code := ⟨op, [(21, 5, vd), (16, 5, va), (11, 5, vb), (8, 3, pm), (5, 3, vCode ty)]⟩

/-- A vector stream instruction (Table 12-4): pm is 0. -/
def Code.stream (fn vd va vb : Nat) (ty : VTy) : Code := ⟨0x25, (0, 5, fn) :: (Code.v 0x25 vd va vb 0 ty).fields⟩

/-- D format: its sub code, and the fields it has. -/
def Code.d (op sub : Nat) (l : List (Nat × Nat × Nat)) : Code := ⟨op, (12, 4, sub) :: l⟩

/-- No instruction's: a word that the spec gives none. -/
def Code.none_ : Code := ⟨0, []⟩

/-- The reserved major opcodes (Table 12-2). -/
def opReserved (op : Nat) : Bool :=
  op == 0 || decide (0x0C ≤ op ∧ op ≤ 0x0F) || op == 0x16 || op == 0x17 || op == 0x1E || op == 0x1F || op == 0x26 || op == 0x27 ||
  decide (0x2A ≤ op ∧ op ≤ 0x2F) || decide (0x38 ≤ op)

/-- A word that raises ILLEGAL whatever the codes are that the spec does not print (R388, R389, R393, R401): the all-zero word, a
reserved opcode, and the reserved codes and fields of Tables 12-1, 12-3, 12-4 and 12-5 and of the time and trap instructions. -/
def illegalWord (w : Nat) : Bool :=
  let op := bits w 26 6
  let sub := bits w 12 4
  opReserved op ||
  (op == 0x12 && (decide (3 ≤ bits w 8 3) || decide (bits w 0 5 ≠ 0))) ||
  ((op == 0x18 || op == 0x19) && decide (bits w 21 5 ≠ 0)) || (op == 0x1A && bit w 21) ||
  (decide (0x20 ≤ op ∧ op ≤ 0x25) && decide (6 ≤ bits w 5 3)) ||
  (op == 0x25 && (decide (5 ≤ bits w 0 5) || decide (bits w 8 3 ≠ 0) ||
    ((bits w 0 5 == 1 || bits w 0 5 == 3) && decide (bits w 16 5 ≠ 0)))) ||
  (op == 0x30 && (decide (2 ≤ sub) || (sub == 0 && decide (2 ≤ bits w 0 2)))) ||
  (op == 0x37 && decide (4 ≤ sub))

/-- Whether a word may hold a code that the spec gives no instruction: it has a function code that the spec does not print, or a sub
code beside those it names. -/
def openCode (w : Nat) : Bool :=
  let op := bits w 26 6
  let sub := bits w 12 4
  op == 0x01 || decide (0x07 ≤ op ∧ op ≤ 0x0B) || op == 0x10 || op == 0x11 || decide (0x13 ≤ op ∧ op ≤ 0x15) || op == 0x1D ||
  decide (0x20 ≤ op ∧ op ≤ 0x24) || op == 0x28 || op == 0x29 ||
  ((op == 0x31 || op == 0x34 || op == 0x35 || op == 0x36) && decide (2 ≤ sub)) || ((op == 0x32 || op == 0x33) && decide (3 ≤ sub))

/-- Whether a word that is not illegal as such spells an instruction, in all the fields the spec lays out; a word that no instruction
spells, as far as the printed codes tell. -/
def spells (k : Code) (w : Nat) : Bool :=
  if k.op = 0 then openCode w else bits w 26 6 == k.op && k.fields.all (fun f => bits w f.1 f.2.1 == f.2.2 % 2 ^ f.2.1)

/-- Whether a word is an instruction's, and raises no ILLEGAL as it stands (R388, R389). -/
def reads (k : Code) (w : Nat) : Bool := !illegalWord w && spells k w

/-- The word that spells an instruction with every code that the spec does not print 0. -/
def wordFor (k : Code) : Nat := if k.op = 0 then 2 ^ 26 else k.op * 2 ^ 26 + (k.fields.map (fun f => f.2.2 % 2 ^ f.2.1 * 2 ^ f.1)).sum

end Sys2Proof.Machine
end

