-- ==== Sys2Proof/Machine/Pretan.lean ====
section
/-! DEFINITION. Machine/Pretan.lean: how a core fetches and issues an instruction, exceptions and the return from them, and
the parts the instructions share (Pretan instruction set). -/

namespace Sys2Proof.Machine

/-! ## Exceptions (R408–R412, Table 12-7) -/

def xIllegal : Nat := 1
def xPriv : Nat := 2
def xAlign : Nat := 3
def xFetch : Nat := 4
def xData : Nat := 5
def xBus : Nat := 6
def xEcc : Nat := 7
def xSvc : Nat := 8
def xMcall : Nat := 9
def xBrk : Nat := 10
def xFp : Nat := 11
def xNpTime : Nat := 12
def xLock : Nat := 13
def xNoFrame : Nat := 14
def xDfCtx : Nat := 15

/-- An exception an instruction raises: its code, EVAL, and whether the faulting access was a write. -/
structure Trap where
  code : Nat
  eval : Nat
  w    : Bool := false
  deriving DecidableEq, Repr

/-- The codes EDELEG may send to S (Table 12-7). -/
def delegable (code : Nat) : Bool :=
  [xIllegal, xPriv, xAlign, xFetch, xData, xBus, xSvc, xBrk, xFp, xLock, xDfCtx].contains code

/-- The level an exception goes to (R409). -/
def trapLevel (c : Core) (code : Nat) : Level :=
  if c.x.lvl ≠ .m ∧ bit c.edeleg.toNat code ∧ delegable code then .s else .m

/-- The exception registers of a level. -/
def Core.exc (c : Core) (l : Level) : ExcRegs := if l = .m then c.em else c.es

/-- The exception registers of a level written. -/
def Core.setExc (l : Level) (x : ExcRegs) (c : Core) : Core := if l = .m then { c with em := x } else { c with es := x }

/-- A fatal error (R412, R444): the core stops, is fenced, raises CORE_FATAL and has its record written. -/
def coreFatal (n : Nat) (code : Nat) (at_ : W64) (d0 : Dev) : Dev :=
  let c := coreOf n d0
  let fc := code + c.x.lvl.num * 2 ^ 6 + n * 2 ^ 8
  let d := lostAt n d0
  let d := coreSet n { c.endNp d.raw with fatal := true, fatalc := fc, fatalpc := at_, run := .idle, from_ := d.raw, stall := none } d
  ownEvent APPi 0xE8 n (lichen APPi 0x0301 (leBytes 2 fc ++ leBytes 8 at_.toNat) d)

/-- The registers as an exception enters its level (R409). -/
def Core.enter (c : Core) (t : Trap) (l : Level) (epc : W64) (raw : Nat) : Core :=
  let x : ExcRegs := { c.exc l with epc := epc, code := t.code, eval := BitVec.ofNat 64 t.eval, w := t.w, pnp := c.np, eact := true, plev := c.x.lvl }
  let c' := (c.endNp raw).setExc l x
  { c' with x := { c'.x with lvl := l, pc := x.evec }, npAt := raw }

/-- Taking an exception (R409, R412): EPC is the address given. -/
def takeTrap (n : Nat) (t : Trap) (epc : W64) (d : Dev) : Dev :=
  let c := coreOf n d
  let l := trapLevel c t.code
  if (c.exc l).eact then coreFatal n t.code c.x.pc d
  else coreSet n (c.enter t l epc d.raw) d

/-- The return from an exception at level S or M (R411): NPCNT restarts where a section goes on. -/
def Core.leave (c : Core) (raw : Nat) : Core :=
  let x := c.exc c.x.lvl
  let c' := (c.endNp raw).setExc c.x.lvl { x with eact := false }
  { c' with x := { c'.x with pc := x.epc, lvl := x.plev }, np := x.pnp, npAt := if x.pnp then raw else c'.npAt }

/-! ## Issue (R387, R388, R417) -/

/-- What an instruction comes to. `done` retires it with the core as given; `part` leaves it at its own address with its
progress; `trap` raises an exception, the core's progress kept; `wait` leaves everything for another try; `settled` has
seen to the core itself. -/
inductive IRes where
  | done (c : Core) (d : Dev)
  | part (c : Core) (d : Dev)
  | trap (t : Trap) (c : Core) (d : Dev)
  | after (t : Trap) (c : Core) (d : Dev)
  | wait (d : Dev)
  | settled (d : Dev)

/-- The exception a fault of an access raises; none: the access waits. -/
def faultTrap (fetch w : Bool) (va : Nat) : TFault → Option Trap
  | .trans => some ⟨if fetch then xFetch else xData, va, w⟩
  | .perm => some ⟨if fetch then xFetch else xData, va, w⟩
  | .bus => some ⟨xBus, va, w⟩
  | .noFrame => some ⟨xNoFrame, va, w⟩
  | .ecc _ => some ⟨xEcc, va, w⟩
  | .wait => none

/-- The boot ROM (Table 11-2). -/
def romBase : Nat := 0xFFFFF00000
def romByte (pa : Nat) : Nat := (Config.bootRom (pa - romBase)).toNat
def inRom (pa n : Nat) : Bool := decide (romBase ≤ pa ∧ pa + n ≤ romBase + 0x100000)

/-- The fetch at the pc: the instruction word, or why there is none. -/
def fetch (c : Core) (d : Dev) : Except (Option Trap) Nat × Dev :=
  let pc := c.x.pc.toNat
  if pc % 4 ≠ 0 then (.error (some ⟨xAlign, pc, false⟩), d)
  else match c.reach .fetch pc d with
    | (.error e, d) => (.error (faultTrap true false pc e), d)
    | (.ok r, d) =>
      if r.pa + 4 ≤ dramSize then
        match eccRead r.pa 4 .clean d with
        | (none, d) => (.error (some ⟨xEcc, pc, false⟩), d)
        | (some b, d) => (.ok (ofLe b), used r .fetch d)
      else if inRom r.pa 4 then (.ok (ofLe ((List.range 4).map (fun i => romByte (r.pa + i)))), used r .fetch d)
      else (.error (some ⟨xBus, pc, false⟩), d)

/-- The pc moved past the instruction. -/
def Core.next (c : Core) : Core := { c with x := { c.x with pc := c.x.pc + 4 } }

/-- The pc moved elsewhere. -/
def Core.goto_ (c : Core) (a : W64) : Core := { c with x := { c.x with pc := a } }

/-- A result taken into the block (R408): a retired instruction counts in IRET. -/
def settle (n : Nat) (r : IRes) (d0 : Dev) : Dev :=
  match r with
  | .done c d => coreSet n { c with iret := c.iret + 1 } d
  | .part c d => coreSet n c d
  | .trap t c d => takeTrap n t c.x.pc (coreSet n c d)
  | .after t c d => takeTrap n t (c.x.pc + 4) (coreSet n { c with iret := c.iret + 1 } d)
  | .wait _ => d0
  | .settled d => d

/-- One instruction of a core: NPTIME first (R417), then the fetch, then what the instruction does; at the boundary after it
an operation with CANCELPEND ends (R404, R439). A word that raises ILLEGAL does so whatever instruction is named (R388); of any
other word, a command that names an instruction it does not spell is none of this core's, and nothing happens (log 61). -/
def issueDev (k : Code) (n : Nat) (f : Nat → Core → Dev → IRes) (d : Dev) : Dev :=
  if !canIssue n d then d
  else
    let c := coreOf n d
    if c.nplim < c.npcnt d.raw then cancelHere n (takeTrap n ⟨xNpTime, c.npcnt d.raw, false⟩ c.x.pc d)
    else match fetch c d with
      | (.error none, _) => d
      | (.error (some t), d) => cancelHere n (takeTrap n t c.x.pc d)
      | (.ok w, d') =>
        if illegalWord w then cancelHere n (takeTrap n ⟨xIllegal, w, false⟩ c.x.pc d')
        else if spells k w then cancelHere n (settle n (f w c d') d') else d

/-- A command of a core. -/
def issue (k : Code) (n : Fin 8) (s : State) (f : Nat → Core → Dev → IRes) : Out := onDev s (fun _ => issueDev k n f)

/-- An instruction that may write a register: with the ties of its raw count. -/
def issueW (k : Code) (n : Fin 8) (s : State) (f : Fuses → Nat → Core → Dev → IRes) : Out :=
  onDev s (fun fu d => issueDev k n (f fu) (ties s.pending d))

/-- The same with the fuses at hand. -/
def issueF (k : Code) (n : Fin 8) (s : State) (f : Fuses → Nat → Core → Dev → IRes) : Out :=
  onDev s (fun fu => issueDev k n (f fu))

/-! ## Parts of instructions -/

/-- An instruction that writes one g register. -/
def setReg (rd : RegNo) (v : Core → W64) (_ : Nat) (c : Core) (d : Dev) : IRes := .done ((c.put rd (v c)).next) d

/-- A predicate; p0 reads all ones (R386). -/
def Core.pred (c : Core) (p : Nat) : W32 := if p = 0 then 0xFFFFFFFF else tget c.x.p p 0

/-- A predicate written; writes to p0 are discarded (R386). -/
def Core.putPred (p : Nat) (v : W32) (c : Core) : Core :=
  if p = 0 then c else { c with x := { c.x with p := tset c.x.p p v 0 } }

/-- A predicate of all ones or all zeros (R386). -/
def allBits (b : Bool) : W32 := if b then 0xFFFFFFFF else 0

/-- An instruction that writes one predicate. -/
def setPred (pd : Fin 8) (v : Core → W32) (_ : Nat) (c : Core) (d : Dev) : IRes := .done ((c.putPred pd (v c)).next) d

/-- A scalar comparison into a predicate. -/
def cmp (pd : Fin 8) (t : Core → Bool) (w : Nat) (c : Core) (d : Dev) : IRes := setPred pd (fun c => allBits (t c)) w c d

/-- A branch: offsets count words from the branch's own address (R389). -/
def branch (take : Bool) (off : BitVec 21) (c : Core) (d : Dev) : IRes :=
  .done (if take then c.goto_ (c.x.pc + (off.signExtend 64) * 4) else c.next) d

/-- A vector register. -/
def Core.vec (c : Core) (v : Nat) : BitVec 256 := tget c.x.v v 0
def Core.putVec (v : Nat) (x : BitVec 256) (c : Core) : Core := { c with x := { c.x with v := tset c.x.v v x 0 } }

/-- FPCSR's rounding mode. -/
def Core.rnd (c : Core) : Nat := c.x.fpcsr.toNat % 4

/-- The flags an instruction raises taken into FPCSR's sticky bits. -/
def Core.sticky (fl : Nat) (c : Core) : Core := { c with x := { c.x with fpcsr := c.x.fpcsr ||| BitVec.ofNat 64 (fl * 2 ^ 8) } }

/-- A floating instruction: an enabled trap is raised before the result is written (Formats). -/
def fpEnd (fl : Nat) (c0 : Core) (c : Core) (d : Dev) : IRes :=
  if fl &&& bits c0.x.fpcsr.toNat 16 5 ≠ 0 then .trap ⟨xFp, fl, false⟩ c0 d else .done (c.sticky fl).next d

/-- A binary32 value, or a 32-bit element, as it stands in a g register: bits 63:32 are free (log 28). -/
def low32 (v : Nat) : W64 := (Config.upper32 (BitVec.ofNat 32 v)).append (BitVec.ofNat 32 v)

/-- A floating value as it stands in a g register. -/
def fpReg (dbl : Bool) (v : Nat) : W64 := if dbl then BitVec.ofNat 64 v else low32 v

/-- The format of a size suffix, and its operand in a g register. -/
def fmtOf (dbl : Bool) : Fmt := if dbl then f64 else f32
def fpArg (dbl : Bool) (v : W64) : Nat := if dbl then v.toNat else v.toNat % 2 ^ 32

/-- A scalar floating instruction. -/
def fpOp (rd : RegNo) (dbl : Bool) (f : Core → FRes) (_ : Nat) (c : Core) (d : Dev) : IRes :=
  let r := f c
  fpEnd r.fl c (c.put rd (fpReg dbl r.v)) d

/-- A scalar floating comparison. -/
def fpCmp (k : Nat) (pd : Fin 8) (rs rt : RegNo) (dbl : Bool) (_ : Nat) (c : Core) (d : Dev) : IRes :=
  let r := fCmp (fmtOf dbl) k (fpArg dbl (c.get rs)) (fpArg dbl (c.get rt))
  fpEnd r.2 c (c.putPred pd (allBits r.1)) d

/-! ## Vectors (R386, Table 12-5) -/

def vBytes : VTy → Nat
  | .i8 => 1 | .i16 => 2 | .i32 => 4 | .i64 => 8 | .f32 => 4 | .f64 => 8
def vWidth (t : VTy) : Nat := 8 * (vBytes t)
def vLanes (t : VTy) : Nat := 32 / (vBytes t)
def vIsF : VTy → Bool
  | .f32 => true | .f64 => true | _ => false
def vIsWide : VTy → Bool
  | .i8 => false | .i16 => false | _ => true
def vFmt : VTy → Fmt
  | .f64 => f64 | _ => f32

/-- Element i of a vector. -/
def lane (t : VTy) (x : BitVec 256) (i : Nat) : Nat := bits x.toNat ((vWidth t) * i) (vWidth t)

/-- A vector of elements. -/
def ofLanes (t : VTy) (l : List Nat) : BitVec 256 :=
  BitVec.ofNat 256 (l.foldr (fun v acc => v % 2 ^ (vWidth t) + 2 ^ (vWidth t) * acc) 0)

/-- Whether element i is written under a predicate: its lowest byte lane (R386). -/
def laneOn (t : VTy) (p : W32) (i : Nat) : Bool := bit p.toNat (i * (vBytes t))

/-- The elements a predicate selects computed, the others old: the vector, and the flags of the selected ones. -/
def lanes (t : VTy) (p : W32) (old : BitVec 256) (f : Nat → FRes) : BitVec 256 × Nat :=
  let l := (List.range (vLanes t)).map (fun i => if laneOn t p i then f i else { v := lane t old i })
  (ofLanes t (l.map (·.v)), (l.map (·.fl)).foldl (· ||| ·) 0)

/-- An elementwise vector instruction; a type the class does not have raises ILLEGAL (R388). -/
def vecOp (legal : Bool) (vd : RegNo) (pm : Fin 8) (t : VTy) (f : Core → Nat → FRes) (w : Nat) (c : Core) (d : Dev) : IRes :=
  if !legal then .trap ⟨xIllegal, w, false⟩ c d
  else
    let r := lanes t (c.pred pm) (c.vec vd) (f c)
    fpEnd r.2 c (c.putVec vd r.1) d

/-- A vector floating instruction of two sources. -/
def vecF2 (vd va vb : RegNo) (pm : Fin 8) (t : VTy) (f : Fmt → Nat → Nat → Nat → FRes) : Nat → Core → Dev → IRes :=
  vecOp (vIsF t) vd pm t (fun c i => f (vFmt t) c.rnd (lane t (c.vec va) i) (lane t (c.vec vb) i))

/-- A vector integer instruction of two sources. -/
def vecI2 (legal : VTy → Bool) (vd va vb : RegNo) (pm : Fin 8) (t : VTy) (f : Nat → Nat → Nat) : Nat → Core → Dev → IRes :=
  vecOp (legal t) vd pm t (fun c i => { v := f (lane t (c.vec va) i) (lane t (c.vec vb) i) % 2 ^ (vWidth t) })

/-- The integer types of the arithmetic classes. -/
def isInt (t : VTy) : Bool := (vIsWide t) && !(vIsF t)

/-- One element compared: =, <, ≤ by k; the flags it raises. -/
def cmpLane (k : Nat) (t : VTy) (x y : BitVec 256) (i : Nat) : Bool × Nat :=
  let a := lane t x i
  let b := lane t y i
  if (vIsF t) then fCmp (vFmt t) k a b
  else
    let x := toS (vWidth t) a
    let y := toS (vWidth t) b
    (if k = 0 then decide (x = y) else if k = 1 then decide (x < y) else decide (x ≤ y), 0)

/-- The flags the selected elements of a comparison raise. -/
def cmpFlags (k : Nat) (t : VTy) (p : W32) (x y : BitVec 256) : Nat :=
  (List.range (vLanes t)).foldl (fun f i => if laneOn t p i then f ||| (cmpLane k t x y i).2 else f) 0

/-- The predicate a comparison leaves: every byte lane of a selected element takes its result (R386). -/
def cmpBits (k : Nat) (t : VTy) (p old : W32) (x y : BitVec 256) : W32 :=
  BitVec.ofNat 32 ((List.range 32).foldl (fun v j =>
    if laneOn t p (j / vBytes t) then setBit v j (cmpLane k t x y (j / vBytes t)).1 else v) old.toNat)

/-- A vector comparison (R386). -/
def vecCmp (k : Nat) (pd : Fin 8) (va vb : RegNo) (pm : Fin 8) (t : VTy) (w : Nat) (c : Core) (d : Dev) : IRes :=
  if !(vIsWide t) then .trap ⟨xIllegal, w, false⟩ c d
  else fpEnd (cmpFlags k t (c.pred pm) (c.vec va) (c.vec vb)) c
    (c.putPred pd (cmpBits k t (c.pred pm) (c.pred pd) (c.vec va) (c.vec vb))) d

/-- A vector shift of one element; by its width or more the value is free (log 22). -/
def laneShift (k : Nat) (t : VTy) (a n : Nat) : Nat :=
  if (vWidth t) ≤ n then (Config.shiftCorner (k + 8 * (vWidth t)) (BitVec.ofNat 64 a) (BitVec.ofNat 64 n)).toNat
  else if k = 0 then a * 2 ^ n
  else if Config.vshrArith then ofS (vWidth t) (toS (vWidth t) a / 2 ^ n)
  else a / 2 ^ n

end Sys2Proof.Machine
end

