-- ==== Sys2Proof/Machine/PretanRows.lean ====
section
/-! DEFINITION. Machine/PretanRows.lean: Pretan's integer, predicate, branch, floating, vector, time, lock, section,
system-register and trap instructions (Pretan instruction set). -/

namespace Sys2Proof.Machine

/-! ## Integer (Table 12-2, 0x01–0x07) -/

/-- A shift of a register by a register; by 64 or more the value is free (log 22). -/
def shiftReg (k : Nat) (a b : W64) : W64 :=
  if 64 ≤ b.toNat then Config.shiftCorner k a b
  else if k = 0 then a <<< b.toNat else if k = 1 then a >>> b.toNat else a.sshiftRight b.toNat

/-- Signed quotient and remainder, truncating (PRESUMED, log 32); by zero, and the one quotient that overflows, the value
is free (log 5). -/
def divS (rem : Bool) (a b : W64) : W64 :=
  if b = 0 ∨ (a = BitVec.intMin 64 ∧ b = BitVec.allOnes 64) then Config.divCorner (if rem then 2 else 0) a b
  else BitVec.ofInt 64 (if rem then a.toInt.tmod b.toInt else a.toInt.tdiv b.toInt)

/-- Unsigned quotient and remainder; by zero the value is free (log 5). -/
def divU (rem : Bool) (a b : W64) : W64 :=
  if b = 0 then Config.divCorner (if rem then 3 else 1) a b else if rem then a % b else a / b

/-- ADD: rd from rs and rt. -/
def execAdd (n : CoreNo) (rd rs rt : RegNo) (s : State) : Out :=
  issue (.a 0x01 rd rs rt) n s (setReg rd (fun c => let a := c.get rs; let b := c.get rt; a + b))

/-- SUB: rd from rs and rt. -/
def execSub (n : CoreNo) (rd rs rt : RegNo) (s : State) : Out :=
  issue (.a 0x01 rd rs rt) n s (setReg rd (fun c => let a := c.get rs; let b := c.get rt; a - b))

/-- AND: rd from rs and rt. -/
def execAnd (n : CoreNo) (rd rs rt : RegNo) (s : State) : Out :=
  issue (.a 0x01 rd rs rt) n s (setReg rd (fun c => let a := c.get rs; let b := c.get rt; a &&& b))

/-- OR: rd from rs and rt. -/
def execOr (n : CoreNo) (rd rs rt : RegNo) (s : State) : Out :=
  issue (.a 0x01 rd rs rt) n s (setReg rd (fun c => let a := c.get rs; let b := c.get rt; a ||| b))

/-- XOR: rd from rs and rt. -/
def execXor (n : CoreNo) (rd rs rt : RegNo) (s : State) : Out :=
  issue (.a 0x01 rd rs rt) n s (setReg rd (fun c => let a := c.get rs; let b := c.get rt; a ^^^ b))

/-- NOR: rd from rs and rt. -/
def execNor (n : CoreNo) (rd rs rt : RegNo) (s : State) : Out :=
  issue (.a 0x01 rd rs rt) n s (setReg rd (fun c => let a := c.get rs; let b := c.get rt; ~~~(a ||| b)))

/-- SLL: rd from rs and rt. -/
def execSll (n : CoreNo) (rd rs rt : RegNo) (s : State) : Out :=
  issue (.a 0x01 rd rs rt) n s (setReg rd (fun c => let a := c.get rs; let b := c.get rt; shiftReg 0 a b))

/-- SRL: rd from rs and rt. -/
def execSrl (n : CoreNo) (rd rs rt : RegNo) (s : State) : Out :=
  issue (.a 0x01 rd rs rt) n s (setReg rd (fun c => let a := c.get rs; let b := c.get rt; shiftReg 1 a b))

/-- SRA: rd from rs and rt. -/
def execSra (n : CoreNo) (rd rs rt : RegNo) (s : State) : Out :=
  issue (.a 0x01 rd rs rt) n s (setReg rd (fun c => let a := c.get rs; let b := c.get rt; shiftReg 2 a b))

/-- MUL: the low 64 bits. -/
def execMul (n : CoreNo) (rd rs rt : RegNo) (s : State) : Out :=
  issue (.a 0x01 rd rs rt) n s (setReg rd (fun c => let a := c.get rs; let b := c.get rt; a * b))

/-- MULHS: the high half of the signed product. -/
def execMulhs (n : CoreNo) (rd rs rt : RegNo) (s : State) : Out :=
  issue (.a 0x01 rd rs rt) n s
    (setReg rd (fun c => let a := c.get rs; let b := c.get rt; BitVec.ofInt 64 ((a.toInt * b.toInt).fdiv (2 ^ 64))))

/-- MULHU: the high half of the unsigned product. -/
def execMulhu (n : CoreNo) (rd rs rt : RegNo) (s : State) : Out :=
  issue (.a 0x01 rd rs rt) n s
    (setReg rd (fun c => let a := c.get rs; let b := c.get rt; BitVec.ofNat 64 (a.toNat * b.toNat / 2 ^ 64)))

/-- DIV: rd from rs and rt. -/
def execDiv (n : CoreNo) (rd rs rt : RegNo) (s : State) : Out :=
  issue (.a 0x01 rd rs rt) n s (setReg rd (fun c => let a := c.get rs; let b := c.get rt; divS false a b))

/-- DIVU: rd from rs and rt. -/
def execDivu (n : CoreNo) (rd rs rt : RegNo) (s : State) : Out :=
  issue (.a 0x01 rd rs rt) n s (setReg rd (fun c => let a := c.get rs; let b := c.get rt; divU false a b))

/-- REM: rd from rs and rt. -/
def execRem (n : CoreNo) (rd rs rt : RegNo) (s : State) : Out :=
  issue (.a 0x01 rd rs rt) n s (setReg rd (fun c => let a := c.get rs; let b := c.get rt; divS true a b))

/-- REMU: rd from rs and rt. -/
def execRemu (n : CoreNo) (rd rs rt : RegNo) (s : State) : Out :=
  issue (.a 0x01 rd rs rt) n s (setReg rd (fun c => let a := c.get rs; let b := c.get rt; divU true a b))

/-- MIN: rd from rs and rt. -/
def execMin (n : CoreNo) (rd rs rt : RegNo) (s : State) : Out :=
  issue (.a 0x01 rd rs rt) n s (setReg rd (fun c => let a := c.get rs; let b := c.get rt; if b.slt a then b else a))

/-- MAX: rd from rs and rt. -/
def execMax (n : CoreNo) (rd rs rt : RegNo) (s : State) : Out :=
  issue (.a 0x01 rd rs rt) n s (setReg rd (fun c => let a := c.get rs; let b := c.get rt; if a.slt b then b else a))

/-- MINU: rd from rs and rt. -/
def execMinu (n : CoreNo) (rd rs rt : RegNo) (s : State) : Out :=
  issue (.a 0x01 rd rs rt) n s (setReg rd (fun c => let a := c.get rs; let b := c.get rt; if b < a then b else a))

/-- MAXU: rd from rs and rt. -/
def execMaxu (n : CoreNo) (rd rs rt : RegNo) (s : State) : Out :=
  issue (.a 0x01 rd rs rt) n s (setReg rd (fun c => let a := c.get rs; let b := c.get rt; if a < b then b else a))

/-- ADDI: imm16 is signed (R389). -/
def execAddi (n : CoreNo) (rd rs : RegNo) (imm : BitVec 16) (s : State) : Out :=
  issue ⟨0x02, [(21, 5, rd), (16, 5, rs), (0, 16, imm.toNat)]⟩ n s (setReg rd (fun c => c.get rs + imm.signExtend 64))

/-- ANDI: imm16 is signed (R389). -/
def execAndi (n : CoreNo) (rd rs : RegNo) (imm : BitVec 16) (s : State) : Out :=
  issue ⟨0x03, [(21, 5, rd), (16, 5, rs), (0, 16, imm.toNat)]⟩ n s (setReg rd (fun c => c.get rs &&& imm.signExtend 64))

/-- ORI: imm16 is signed (R389). -/
def execOri (n : CoreNo) (rd rs : RegNo) (imm : BitVec 16) (s : State) : Out :=
  issue ⟨0x04, [(21, 5, rd), (16, 5, rs), (0, 16, imm.toNat)]⟩ n s (setReg rd (fun c => c.get rs ||| imm.signExtend 64))

/-- XORI: imm16 is signed (R389). -/
def execXori (n : CoreNo) (rd rs : RegNo) (imm : BitVec 16) (s : State) : Out :=
  issue ⟨0x05, [(21, 5, rd), (16, 5, rs), (0, 16, imm.toNat)]⟩ n s (setReg rd (fun c => c.get rs ^^^ imm.signExtend 64))

/-- LUI: rd := imm16 << 16, sign-extended. -/
def execLui (n : CoreNo) (rd : RegNo) (imm : BitVec 16) (s : State) : Out :=
  issue ⟨0x06, [(21, 5, rd), (0, 16, imm.toNat)]⟩ n s (setReg rd (fun _ => (imm.signExtend 64) <<< 16))

/-- SLLI. -/
def execSlli (n : CoreNo) (rd rs : RegNo) (amt : Fin 64) (s : State) : Out :=
  issue ⟨0x07, [(21, 5, rd), (16, 5, rs), (0, 6, amt)]⟩ n s (setReg rd (fun c => c.get rs <<< amt.val))

/-- SRLI. -/
def execSrli (n : CoreNo) (rd rs : RegNo) (amt : Fin 64) (s : State) : Out :=
  issue ⟨0x07, [(21, 5, rd), (16, 5, rs), (0, 6, amt)]⟩ n s (setReg rd (fun c => c.get rs >>> amt.val))

/-- SRAI. -/
def execSrai (n : CoreNo) (rd rs : RegNo) (amt : Fin 64) (s : State) : Out :=
  issue ⟨0x07, [(21, 5, rd), (16, 5, rs), (0, 6, amt)]⟩ n s (setReg rd (fun c => (c.get rs).sshiftRight amt.val))

/-! ## Predicates (0x08–0x0B) -/

/-- CMPEQ: all 32 bits of the predicate (R386). -/
def execCmpeq (n : CoreNo) (pd : Fin 8) (rs rt : RegNo) (s : State) : Out :=
  issue ⟨0x08, [(16, 5, rs), (11, 5, rt)]⟩ n s (cmp pd (fun c => let a := c.get rs; let b := c.get rt; a == b))

/-- CMPNE: all 32 bits of the predicate (R386). -/
def execCmpne (n : CoreNo) (pd : Fin 8) (rs rt : RegNo) (s : State) : Out :=
  issue ⟨0x08, [(16, 5, rs), (11, 5, rt)]⟩ n s (cmp pd (fun c => let a := c.get rs; let b := c.get rt; a != b))

/-- CMPLT: all 32 bits of the predicate (R386). -/
def execCmplt (n : CoreNo) (pd : Fin 8) (rs rt : RegNo) (s : State) : Out :=
  issue ⟨0x08, [(16, 5, rs), (11, 5, rt)]⟩ n s (cmp pd (fun c => let a := c.get rs; let b := c.get rt; a.slt b))

/-- CMPGE: all 32 bits of the predicate (R386). -/
def execCmpge (n : CoreNo) (pd : Fin 8) (rs rt : RegNo) (s : State) : Out :=
  issue ⟨0x08, [(16, 5, rs), (11, 5, rt)]⟩ n s (cmp pd (fun c => let a := c.get rs; let b := c.get rt; !a.slt b))

/-- CMPLTU: all 32 bits of the predicate (R386). -/
def execCmpltu (n : CoreNo) (pd : Fin 8) (rs rt : RegNo) (s : State) : Out :=
  issue ⟨0x08, [(16, 5, rs), (11, 5, rt)]⟩ n s (cmp pd (fun c => let a := c.get rs; let b := c.get rt; a.ult b))

/-- CMPGEU: all 32 bits of the predicate (R386). -/
def execCmpgeu (n : CoreNo) (pd : Fin 8) (rs rt : RegNo) (s : State) : Out :=
  issue ⟨0x08, [(16, 5, rs), (11, 5, rt)]⟩ n s (cmp pd (fun c => let a := c.get rs; let b := c.get rt; !a.ult b))

/-- The conditions of CMPI, in the order of Table 12-2's comparisons (log 29). -/
def condOf (k : Nat) (a b : W64) : Bool :=
  if k = 0 then a == b else if k = 1 then a != b else if k = 2 then a.slt b else if k = 3 then !a.slt b
  else if k = 4 then a.ult b else !a.ult b

/-- CMPI: a condition code above 5 is reserved. -/
def execCmpi (n : CoreNo) (pd : Fin 8) (rs : RegNo) (cond : Fin 8) (imm : BitVec 13) (s : State) : Out :=
  issue ⟨0x09, [(23, 3, pd), (16, 5, rs), (13, 3, cond), (0, 13, imm.toNat)]⟩ n s
    (fun w c d => if 5 < cond.val then .trap ⟨xIllegal, w, false⟩ c d
    else cmp pd (fun c => condOf cond (c.get rs) (imm.signExtend 64)) w c d)

/-- PAND. -/
def execPand (n : CoreNo) (pd ps pt : Fin 8) (s : State) : Out :=
  issue ⟨0x0A, []⟩ n s (setPred pd (fun c => c.pred ps &&& c.pred pt))

/-- POR. -/
def execPor (n : CoreNo) (pd ps pt : Fin 8) (s : State) : Out :=
  issue ⟨0x0A, []⟩ n s (setPred pd (fun c => c.pred ps ||| c.pred pt))

/-- PXOR. -/
def execPxor (n : CoreNo) (pd ps pt : Fin 8) (s : State) : Out :=
  issue ⟨0x0A, []⟩ n s (setPred pd (fun c => c.pred ps ^^^ c.pred pt))

/-- PNOT. -/
def execPnot (n : CoreNo) (pd ps : Fin 8) (s : State) : Out :=
  issue ⟨0x0A, []⟩ n s (setPred pd (fun c => ~~~c.pred ps))

/-- PMOV. -/
def execPmov (n : CoreNo) (pd ps : Fin 8) (s : State) : Out :=
  issue ⟨0x0A, []⟩ n s (setPred pd (fun c => c.pred ps))

/-- SEL: rd := rs if the predicate is all ones, else rt. -/
def execSel (n : CoreNo) (rd rs rt : RegNo) (p : Fin 8) (s : State) : Out :=
  issue ⟨0x0B, [(21, 5, rd), (16, 5, rs), (11, 5, rt), (0, 3, p)]⟩ n s
    (setReg rd (fun c => if c.pred p = 0xFFFFFFFF then c.get rs else c.get rt))

/-! ## Branches and jumps (0x18–0x1D) -/

/-- BR. -/
def execBr (n : CoreNo) (off : BitVec 21) (s : State) : Out :=
  issue ⟨0x18, [(0, 21, off.toNat)]⟩ n s (fun _ => branch true off)

/-- CALL: g31 := return address. -/
def execCall (n : CoreNo) (off : BitVec 21) (s : State) : Out :=
  issue ⟨0x19, [(0, 21, off.toNat)]⟩ n s (fun _ c => branch true off (c.put 31 (c.x.pc + 4)))

/-- BP: sense set: branch if the predicate is set, that is all ones (log 29). -/
def execBp (n : CoreNo) (p : Fin 8) (sense : Bool) (off : BitVec 21) (s : State) : Out :=
  issue ⟨0x1A, [(23, 3, p), (22, 1, b2n sense), (0, 21, off.toNat)]⟩ n s
    (fun _ c => branch ((c.pred p == 0xFFFFFFFF) == sense) off c)

/-- CBZ. -/
def execCbz (n : CoreNo) (rs : RegNo) (off : BitVec 21) (s : State) : Out :=
  issue ⟨0x1B, [(21, 5, rs), (0, 21, off.toNat)]⟩ n s (fun _ c => branch (c.get rs == 0) off c)

/-- CBNZ. -/
def execCbnz (n : CoreNo) (rs : RegNo) (off : BitVec 21) (s : State) : Out :=
  issue ⟨0x1C, [(21, 5, rs), (0, 21, off.toNat)]⟩ n s (fun _ c => branch (c.get rs != 0) off c)

/-- JR. -/
def execJr (n : CoreNo) (rs : RegNo) (s : State) : Out :=
  issue ⟨0x1D, [(16, 5, rs)]⟩ n s (fun _ c d => .done (c.goto_ (c.get rs)) d)

/-- JALR: rd := return address. -/
def execJalr (n : CoreNo) (rd rs : RegNo) (s : State) : Out :=
  issue ⟨0x1D, [(21, 5, rd), (16, 5, rs)]⟩ n s (fun _ c d => .done ((c.put rd (c.x.pc + 4)).goto_ (c.get rs)) d)

/-! ## Cache and fences (0x13, 0x15): memory is coherent and accesses take effect in order, so they only advance the pc (log 30) -/

/-- PREF. -/
def execPref (n : CoreNo) (base : RegNo) (off : BitVec 12) (s : State) : Out :=
  issue ⟨0x13, [(16, 5, base), (0, 12, off.toNat)]⟩ n s (fun _ c d => .done c.next d)

/-- CLEAN. -/
def execClean (n : CoreNo) (base : RegNo) (off : BitVec 12) (s : State) : Out :=
  issue ⟨0x13, [(16, 5, base), (0, 12, off.toNat)]⟩ n s (fun _ c d => .done c.next d)

/-- CINVAL: at M only. -/
def execCinval (n : CoreNo) (base : RegNo) (off : BitVec 12) (s : State) : Out :=
  issue ⟨0x13, [(16, 5, base), (0, 12, off.toNat)]⟩ n s
    (fun w c d => if c.x.lvl = .m then .done c.next d else .trap ⟨xPriv, w, false⟩ c d)

/-- FENCE_M: R390. -/
def execFenceM (n : CoreNo) (s : State) : Out :=
  issue ⟨0x15, []⟩ n s (fun _ c d => .done c.next d)

/-- FENCE_IO: R390. -/
def execFenceIo (n : CoreNo) (s : State) : Out :=
  issue ⟨0x15, []⟩ n s (fun _ c d => .done c.next d)

/-- FENCE_I: R390. -/
def execFenceI (n : CoreNo) (s : State) : Out :=
  issue ⟨0x15, []⟩ n s (fun _ c d => .done c.next d)

/-! ## Scalar floating point (0x28, 0x29) -/

/-- FADD. -/
def execFadd (n : CoreNo) (rd rs rt : RegNo) (dbl : Bool) (s : State) : Out :=
  issue (.a 0x28 rd rs rt) n s
    (fpOp rd dbl (fun c => let a := fpArg dbl (c.get rs); let b := fpArg dbl (c.get rt); fAdd (fmtOf dbl) c.rnd a b))

/-- FSUB. -/
def execFsub (n : CoreNo) (rd rs rt : RegNo) (dbl : Bool) (s : State) : Out :=
  issue (.a 0x28 rd rs rt) n s
    (fpOp rd dbl (fun c => let a := fpArg dbl (c.get rs); let b := fpArg dbl (c.get rt); fSub (fmtOf dbl) c.rnd a b))

/-- FMUL. -/
def execFmul (n : CoreNo) (rd rs rt : RegNo) (dbl : Bool) (s : State) : Out :=
  issue (.a 0x28 rd rs rt) n s
    (fpOp rd dbl (fun c => let a := fpArg dbl (c.get rs); let b := fpArg dbl (c.get rt); fMul (fmtOf dbl) c.rnd a b))

/-- FDIV. -/
def execFdiv (n : CoreNo) (rd rs rt : RegNo) (dbl : Bool) (s : State) : Out :=
  issue (.a 0x28 rd rs rt) n s
    (fpOp rd dbl (fun c => let a := fpArg dbl (c.get rs); let b := fpArg dbl (c.get rt); fDiv (fmtOf dbl) c.rnd a b))

/-- FMA: rd := rs × rt + rd with one rounding (log 29). -/
def execFma (n : CoreNo) (rd rs rt : RegNo) (dbl : Bool) (s : State) : Out :=
  issue (.a 0x28 rd rs rt) n s
    (fpOp rd dbl (fun c => let a := fpArg dbl (c.get rs); let b := fpArg dbl (c.get rt); fFma (fmtOf dbl) c.rnd a b (fpArg dbl (c.get rd))))

/-- FMIN. -/
def execFmin (n : CoreNo) (rd rs rt : RegNo) (dbl : Bool) (s : State) : Out :=
  issue (.a 0x28 rd rs rt) n s
    (fpOp rd dbl (fun c => let a := fpArg dbl (c.get rs); let b := fpArg dbl (c.get rt); fMinMax (fmtOf dbl) false a b))

/-- FMAX. -/
def execFmax (n : CoreNo) (rd rs rt : RegNo) (dbl : Bool) (s : State) : Out :=
  issue (.a 0x28 rd rs rt) n s
    (fpOp rd dbl (fun c => let a := fpArg dbl (c.get rs); let b := fpArg dbl (c.get rt); fMinMax (fmtOf dbl) true a b))

/-- FSQRT. -/
def execFsqrt (n : CoreNo) (rd rs : RegNo) (dbl : Bool) (s : State) : Out :=
  issue ⟨0x28, [(21, 5, rd), (16, 5, rs)]⟩ n s (fpOp rd dbl (fun c => fSqrt (fmtOf dbl) c.rnd (fpArg dbl (c.get rs))))

/-- Whether a conversion's result is 64 bits wide. -/
def cvtWide : FCvt → Bool
  | .dToS => false
  | .intToS => false
  | _ => true

/-- FCVT: conversions between the formats and with signed 64-bit integers (log 29). -/
def execFcvt (n : CoreNo) (rd rs : RegNo) (k : FCvt) (s : State) : Out :=
  issue ⟨0x28, [(21, 5, rd), (16, 5, rs)]⟩ n s (fpOp rd (cvtWide k) (fun c =>
    let v := c.get rs
    match k with
    | .sToD => fCvt f32 f64 c.rnd (v.toNat % 2 ^ 32)
    | .dToS => fCvt f64 f32 c.rnd v.toNat
    | .sToInt => toInt f32 c.rnd 64 (v.toNat % 2 ^ 32)
    | .dToInt => toInt f64 c.rnd 64 v.toNat
    | .intToS => ofInt f32 c.rnd v.toInt
    | .intToD => ofInt f64 c.rnd v.toInt))

/-- FCMPEQ. -/
def execFcmpeq (n : CoreNo) (pd : Fin 8) (rs rt : RegNo) (dbl : Bool) (s : State) : Out :=
  issue ⟨0x29, [(16, 5, rs), (11, 5, rt)]⟩ n s (fpCmp 0 pd rs rt dbl)

/-- FCMPLT. -/
def execFcmplt (n : CoreNo) (pd : Fin 8) (rs rt : RegNo) (dbl : Bool) (s : State) : Out :=
  issue ⟨0x29, [(16, 5, rs), (11, 5, rt)]⟩ n s (fpCmp 1 pd rs rt dbl)

/-- FCMPLE. -/
def execFcmple (n : CoreNo) (pd : Fin 8) (rs rt : RegNo) (dbl : Bool) (s : State) : Out :=
  issue ⟨0x29, [(16, 5, rs), (11, 5, rt)]⟩ n s (fpCmp 2 pd rs rt dbl)

/-! ## Vectors (0x20–0x24) -/

/-- VADD. -/
def execVadd (n : CoreNo) (vd va vb : RegNo) (pm : Fin 8) (ty : VTy) (s : State) : Out :=
  issue (.v 0x20 vd va vb pm ty) n s (vecF2 vd va vb pm ty fAdd)

/-- VSUB. -/
def execVsub (n : CoreNo) (vd va vb : RegNo) (pm : Fin 8) (ty : VTy) (s : State) : Out :=
  issue (.v 0x20 vd va vb pm ty) n s (vecF2 vd va vb pm ty fSub)

/-- VMUL. -/
def execVmul (n : CoreNo) (vd va vb : RegNo) (pm : Fin 8) (ty : VTy) (s : State) : Out :=
  issue (.v 0x20 vd va vb pm ty) n s (vecF2 vd va vb pm ty fMul)

/-- VDIV. -/
def execVdiv (n : CoreNo) (vd va vb : RegNo) (pm : Fin 8) (ty : VTy) (s : State) : Out :=
  issue (.v 0x20 vd va vb pm ty) n s (vecF2 vd va vb pm ty fDiv)

/-- VFMA: vd := va × vb + vd with one rounding (log 29). -/
def execVfma (n : CoreNo) (vd va vb : RegNo) (pm : Fin 8) (ty : VTy) (s : State) : Out :=
  issue (.v 0x20 vd va vb pm ty) n s (vecOp (vIsF ty) vd pm ty (fun c i =>
    fFma (vFmt ty) c.rnd (lane ty (c.vec va) i) (lane ty (c.vec vb) i) (lane ty (c.vec vd) i)))

/-- VSQRT. -/
def execVsqrt (n : CoreNo) (vd va : RegNo) (pm : Fin 8) (ty : VTy) (s : State) : Out :=
  issue ⟨0x20, [(21, 5, vd), (16, 5, va), (8, 3, pm), (5, 3, vCode ty)]⟩ n s
    (vecOp (vIsF ty) vd pm ty (fun c i => fSqrt (vFmt ty) c.rnd (lane ty (c.vec va) i)))

/-- VMIN. -/
def execVmin (n : CoreNo) (vd va vb : RegNo) (pm : Fin 8) (ty : VTy) (s : State) : Out :=
  issue (.v 0x20 vd va vb pm ty) n s (vecF2 vd va vb pm ty (fun f _ => fMinMax f false))

/-- VMAX. -/
def execVmax (n : CoreNo) (vd va vb : RegNo) (pm : Fin 8) (ty : VTy) (s : State) : Out :=
  issue (.v 0x20 vd va vb pm ty) n s (vecF2 vd va vb pm ty (fun f _ => fMinMax f true))

/-- VIADD. -/
def execViadd (n : CoreNo) (vd va vb : RegNo) (pm : Fin 8) (ty : VTy) (s : State) : Out :=
  issue (.v 0x21 vd va vb pm ty) n s (vecI2 isInt vd va vb pm ty (fun a b => a + b))

/-- VISUB. -/
def execVisub (n : CoreNo) (vd va vb : RegNo) (pm : Fin 8) (ty : VTy) (s : State) : Out :=
  issue (.v 0x21 vd va vb pm ty) n s (vecI2 isInt vd va vb pm ty (fun a b => ofS (vWidth ty) ((a : Int) - b)))

/-- VIMUL. -/
def execVimul (n : CoreNo) (vd va vb : RegNo) (pm : Fin 8) (ty : VTy) (s : State) : Out :=
  issue (.v 0x21 vd va vb pm ty) n s (vecI2 isInt vd va vb pm ty (fun a b => a * b))

/-- VAND. -/
def execVand (n : CoreNo) (vd va vb : RegNo) (pm : Fin 8) (ty : VTy) (s : State) : Out :=
  issue (.v 0x21 vd va vb pm ty) n s (vecI2 vIsWide vd va vb pm ty (fun a b => a &&& b))

/-- VOR. -/
def execVor (n : CoreNo) (vd va vb : RegNo) (pm : Fin 8) (ty : VTy) (s : State) : Out :=
  issue (.v 0x21 vd va vb pm ty) n s (vecI2 vIsWide vd va vb pm ty (fun a b => a ||| b))

/-- VXOR. -/
def execVxor (n : CoreNo) (vd va vb : RegNo) (pm : Fin 8) (ty : VTy) (s : State) : Out :=
  issue (.v 0x21 vd va vb pm ty) n s (vecI2 vIsWide vd va vb pm ty (fun a b => a ^^^ b))

/-- VSHL. -/
def execVshl (n : CoreNo) (vd va vb : RegNo) (pm : Fin 8) (ty : VTy) (s : State) : Out :=
  issue (.v 0x21 vd va vb pm ty) n s (vecI2 isInt vd va vb pm ty (fun a b => laneShift 0 ty a b))

/-- VSHR. -/
def execVshr (n : CoreNo) (vd va vb : RegNo) (pm : Fin 8) (ty : VTy) (s : State) : Out :=
  issue (.v 0x21 vd va vb pm ty) n s (vecI2 isInt vd va vb pm ty (fun a b => laneShift 1 ty a b))

/-- VCMPEQ. -/
def execVcmpeq (n : CoreNo) (pd : Fin 8) (va vb : RegNo) (pm : Fin 8) (ty : VTy) (s : State) : Out :=
  issue ⟨0x22, [(21, 3, pd), (16, 5, va), (11, 5, vb), (8, 3, pm), (5, 3, vCode ty)]⟩ n s (vecCmp 0 pd va vb pm ty)

/-- VCMPLT. -/
def execVcmplt (n : CoreNo) (pd : Fin 8) (va vb : RegNo) (pm : Fin 8) (ty : VTy) (s : State) : Out :=
  issue ⟨0x22, [(21, 3, pd), (16, 5, va), (11, 5, vb), (8, 3, pm), (5, 3, vCode ty)]⟩ n s (vecCmp 1 pd va vb pm ty)

/-- VCMPLE. -/
def execVcmple (n : CoreNo) (pd : Fin 8) (va vb : RegNo) (pm : Fin 8) (ty : VTy) (s : State) : Out :=
  issue ⟨0x22, [(21, 3, pd), (16, 5, va), (11, 5, vb), (8, 3, pm), (5, 3, vCode ty)]⟩ n s (vecCmp 2 pd va vb pm ty)

/-- VBCAST: every selected element := g[ra] (log 29). -/
def execVbcast (n : CoreNo) (vd ra : RegNo) (pm : Fin 8) (ty : VTy) (s : State) : Out :=
  issue ⟨0x23, [(21, 5, vd), (8, 3, pm), (5, 3, vCode ty)]⟩ n s
    (vecOp (vIsWide ty) vd pm ty (fun c _ => { v := (c.get ra).toNat % 2 ^ vWidth ty }))

/-- VPERM: element i := element vb[i] mod L of va (log 29). -/
def execVperm (n : CoreNo) (vd va vb : RegNo) (pm : Fin 8) (ty : VTy) (s : State) : Out :=
  issue (.v 0x23 vd va vb pm ty) n s
    (vecOp (vIsWide ty) vd pm ty (fun c i => { v := lane ty (c.vec va) (lane ty (c.vec vb) i % vLanes ty) }))

/-- VEXT: g[rd] := element g[rb] mod L of va (log 29). -/
def execVext (n : CoreNo) (rd va rb : RegNo) (ty : VTy) (s : State) : Out :=
  issue ⟨0x23, [(21, 5, rd), (16, 5, va), (5, 3, vCode ty)]⟩ n s (fun w c d =>
    if !vIsWide ty then .trap ⟨xIllegal, w, false⟩ c d
    else setReg rd (fun c => fpReg (vBytes ty == 8) (lane ty (c.vec va) ((c.get rb).toNat % vLanes ty))) w c d)

/-- VINS: element g[rb] mod L := g[ra], where selected (log 29). -/
def execVins (n : CoreNo) (vd ra rb : RegNo) (pm : Fin 8) (ty : VTy) (s : State) : Out :=
  issue ⟨0x23, [(21, 5, vd), (8, 3, pm), (5, 3, vCode ty)]⟩ n s (vecOp (vIsWide ty) vd pm ty (fun c i =>
    { v := if i = (c.get rb).toNat % vLanes ty then (c.get ra).toNat % 2 ^ vWidth ty else lane ty (c.vec vd) i }))

/-- The sum of the lanes a predicate selects; of floating lanes the order is fixed and not stated (log 23). -/
def laneSum (t : VTy) (p : W32) (x : BitVec 256) : W64 :=
  if vIsF t then fpReg (vBytes t == 8) ((Config.vredSum (vWidth t) (ofLanes t ((List.range (vLanes t)).map (fun i =>
    if laneOn t p i then lane t x i else 0)))).toNat % 2 ^ vWidth t)
  else fpReg (vBytes t == 8) ((((List.range (vLanes t)).filter (laneOn t p)).map (lane t x)).sum % 2 ^ vWidth t)

/-- VRED: g[rd] := the sum of the selected lanes. -/
def execVred (n : CoreNo) (rd va : RegNo) (pm : Fin 8) (ty : VTy) (s : State) : Out :=
  issue ⟨0x23, [(21, 5, rd), (16, 5, va), (8, 3, pm), (5, 3, vCode ty)]⟩ n s (fun w c d =>
    if !vIsWide ty then .trap ⟨xIllegal, w, false⟩ c d
    else setReg rd (fun c => laneSum ty (c.pred pm) (c.vec va)) w c d)

/-- VCVT: between floating elements and signed integers of their width (log 29). -/
def execVcvt (n : CoreNo) (vd va : RegNo) (pm : Fin 8) (ty : VTy) (toI : Bool) (s : State) : Out :=
  issue ⟨0x24, [(21, 5, vd), (16, 5, va), (8, 3, pm), (5, 3, vCode ty)]⟩ n s (vecOp (vIsF ty) vd pm ty (fun c i =>
    let a := lane ty (c.vec va) i
    if toI then toInt (vFmt ty) c.rnd (vWidth ty) a else ofInt (vFmt ty) c.rnd (toS (vWidth ty) a)))

/-! ## Time and locks (0x30, 0x31) -/

/-- TIMERD: CYCLE or WALL, from APP's replica (R393, R394). -/
def execTimerd (n : CoreNo) (rd : RegNo) (sel : Fin 4) (s : State) : Out :=
  issue (.d 0x30 0 [(21, 5, rd), (0, 2, sel)]) n s (fun w c d =>
    if 1 < sel.val then .trap ⟨xIllegal, w, false⟩ c d
    else setReg rd (fun _ => BitVec.ofInt 64 (if sel.val = 0 then replCycle d else replWall d)) w c d)

/-- RAWRD: R393. -/
def execRawrd (n : CoreNo) (rd : RegNo) (s : State) : Out :=
  issue (.d 0x30 1 [(21, 5, rd)]) n s (fun w c d => setReg rd (fun _ => BitVec.ofNat 64 d.raw) w c d)

/-- The number of a lock or system register: the immediate, or the register where its bit 11 is set (Table 12-1, note 3). -/
def numOf (w : Nat) (imm : BitVec 12) (v : W64) : Nat := if bit imm.toNat 11 then v.toNat % 2 ^ w else imm.toNat % 2 ^ w

/-- LKTRY: R395; with SCH down the read is a bus error (R357). -/
def execLktry (n : CoreNo) (rd rs : RegNo) (imm : BitVec 12) (s : State) : Out :=
  issue (.d 0x31 0 [(21, 5, rd), (16, 5, rs), (0, 12, imm.toNat)]) n s (fun _ c d =>
    let k := numOf 7 imm (c.get rs)
    if !isUp SCHi d then .trap ⟨xBus, (SCH.LOCK k).addr, false⟩ c d
    else
      let v := lockOf k d
      let c' := (c.put rd (BitVec.ofNat 64 v)).next
      if v = 0 then .done { c' with x := { c'.x with lkcnt := c.x.lkcnt + 1 } } (lockSet k (n.val + 1) d) else .done c' d)

/-- LKREL: R396. -/
def execLkrel (n : CoreNo) (rd rs : RegNo) (imm : BitVec 12) (s : State) : Out :=
  issue (.d 0x31 1 [(21, 5, rd), (16, 5, rs), (0, 12, imm.toNat)]) n s (fun _ c d =>
    let k := numOf 7 imm (c.get rs)
    if isUp SCHi d && lockOf k d == n.val + 1 then
      let c' := (c.put rd 0).next
      .done { c' with x := { c'.x with lkcnt := c.x.lkcnt - 1 } } (lockWrite k n n d)
    else .done (c.put rd 1).next (whenUp SCHi (lockWrite k n n) d))

/-! ## Sections (0x35) -/

/-- NPB: R416. -/
def execNpb (n : CoreNo) (s : State) : Out :=
  issue (.d 0x35 0 []) n s (fun w c d =>
    if c.x.lvl = .u then .trap ⟨xPriv, w, false⟩ c d
    else .done (if c.np then c.next else { c.next with np := true, npAt := d.raw }) d)

/-- NPE: R416. -/
def execNpe (n : CoreNo) (s : State) : Out :=
  issue (.d 0x35 1 []) n s (fun w c d =>
    if c.x.lvl = .u then .trap ⟨xPriv, w, false⟩ c d else .done (if c.np then (c.endNp d.raw).next else c.next) d)

/-- NPTIME: NPCNT would exceed NPLIM (R417). -/
def npTime (n : Nat) (d : Dev) : Dev :=
  let c := coreOf n d
  if canIssue n d && decide (c.nplim < c.npcnt d.raw) then cancelHere n (takeTrap n ⟨xNpTime, c.npcnt d.raw, false⟩ c.x.pc d) else d

/-- NPTIME: R417. -/
def execNptime (n : CoreNo) (s : State) : Out :=
  onDev s (fun _ => npTime n)

/-! ## System registers (0x36, Table 12-8) -/

/-- ESTAT as a word (Table 12-10). -/
def estat (x : ExcRegs) : Nat := x.plev.num + 4 * b2n x.eact + 8 * b2n x.pnp + 16 * b2n x.w

/-- A register of an exception level, by its place in Table 12-8. -/
def excRead (k : Nat) (x : ExcRegs) : W64 :=
  if k = 0 then x.evec else if k = 1 then x.epc else if k = 2 then BitVec.ofNat 64 x.code else if k = 3 then x.eval
  else if k = 4 then BitVec.ofNat 64 (estat x) else x.escr

/-- A system register: the lowest level that may read it, and its value (Table 12-8). -/
def sysRead (n num : Nat) (c : Core) (d : Dev) : Option (Level × W64) :=
  let op := c.entry.bind (fun k => infOf k d)
  let v (l : Level) (x : Nat) : Option (Level × W64) := some (l, BitVec.ofNat 64 x)
  if num = 0x000 then v .u n
  else if num = 0x001 then v .u c.x.lvl.num
  else if num = 0x002 then v .u ((op.map (·.h)).getD 0)
  else if num = 0x003 then v .u ((op.bind (fun i => (opAt i.h d).map (fun r => r.2.pri))).getD 0)
  else if num = 0x008 then v .u (coreCycles (d.raw - d.app.relRaw))
  else if num = 0x009 then v .u c.iret
  else if num = 0x010 then some (.u, c.x.fpcsr)
  else if num = 0x018 then v .u c.x.residx
  else if num = 0x019 then v .u c.x.lkcnt
  else if num = 0x01A then v .u c.nplim
  else if num = 0x01B then v .s (c.npcnt d.raw)
  else if num = 0x01C then v .s (max c.npmax (c.npcnt d.raw))
  else if num = 0x020 then some (.s, c.ptroot)
  else if num = 0x021 then v .s c.asid
  else if 0x100 ≤ num ∧ num ≤ 0x105 then some (.s, excRead (num - 0x100) c.es)
  else if 0x200 ≤ num ∧ num ≤ 0x205 then some (.m, excRead (num - 0x200) c.em)
  else if num = 0x210 then some (.m, c.edeleg)
  else if num = 0x211 then v .m c.fatalc
  else if num = 0x212 then some (.m, c.fatalpc)
  else none

/-- A register of an exception level written; ECAUSE and EVAL are ro, PLEV keeps its value on a reserved one (R6). -/
def excWrite (k : Nat) (v : W64) (x : ExcRegs) : ExcRegs :=
  if k = 0 then { x with evec := v &&& ~~~63 }
  else if k = 1 then { x with epc := v }
  else if k = 4 then
    let p := bits v.toNat 0 2
    { x with pnp := bit v.toNat 3, eact := bit v.toNat 2, plev := if p = 3 then x.plev else lvlOf p }
  else if k = 5 then { x with escr := v }
  else x

/-- The lowest level that may write a system register. -/
def sysWriteLevel (num : Nat) (l : Level) : Level := if num = 0x018 then .s else if num = 0x01A then .m else l

/-- A system register written (Table 12-8): ro registers ignore it. FPCSR keeps its defined bits only. -/
def sysWrite (num : Nat) (v : W64) (c : Core) : Core :=
  if num = 0x010 then { c with x := { c.x with fpcsr := v &&& 0x1F1F03 } }
  else if num = 0x018 then { c with x := { c.x with residx := v.toNat % 2 ^ 40 } }
  else if num = 0x01A then (if 160 ≤ v.toNat ∧ v.toNat ≤ 16000 then { c with nplim := v.toNat } else c)
  else if num = 0x020 then { c with ptroot := v }
  else if num = 0x021 then { c with asid := v.toNat % 2 ^ 16 }
  else if 0x100 ≤ num ∧ num ≤ 0x105 then { c with es := excWrite (num - 0x100) v c.es }
  else if 0x200 ≤ num ∧ num ≤ 0x205 then { c with em := excWrite (num - 0x200) v c.em }
  else if num = 0x210 then { c with edeleg := v }
  else c

/-- MFS: R418; NPMAX clears as it is read. -/
def execMfs (n : CoreNo) (rd rs : RegNo) (imm : BitVec 12) (s : State) : Out :=
  issue (.d 0x36 0 [(21, 5, rd), (16, 5, rs), (0, 12, imm.toNat)]) n s (fun w c d =>
    let num := numOf 12 imm (c.get rs)
    match sysRead n num c d with
    | none => .trap ⟨xIllegal, w, false⟩ c d
    | some (l, v) =>
      if c.x.lvl.num < l.num then .trap ⟨xPriv, w, false⟩ c d
      else .done ((if num = 0x01C then { c with npmax := 0 } else c).put rd v).next d)

/-- MTS: R418. A write that clears EACT ends the count NPMAX keeps the longest of, one that sets it begins a count (R410, R417). -/
def execMts (n : CoreNo) (rs : RegNo) (imm : BitVec 12) (s : State) : Out :=
  issue (.d 0x36 1 [(16, 5, rs), (0, 12, imm.toNat)]) n s (fun w c d =>
    let num := numOf 12 imm (c.get rs)
    match sysRead n num c d with
    | none => .trap ⟨xIllegal, w, false⟩ c d
    | some (l, _) =>
      if c.x.lvl.num < (sysWriteLevel num l).num then .trap ⟨xPriv, w, false⟩ c d
      else
        let c' := sysWrite num (c.get rs) { c with npmax := max c.npmax (c.npcnt d.raw) }
        .done (if c'.eact && !(c.np || c.eact) then { c' with npAt := d.raw } else c').next d)

/-! ## Traps and return (0x37) -/

/-- SVC: imm12 in EVAL; the instruction completes first (R408, R409). -/
def execSvc (n : CoreNo) (imm : BitVec 12) (s : State) : Out :=
  issue (.d 0x37 0 [(0, 12, imm.toNat)]) n s (fun _ c d => .after ⟨xSvc, imm.toNat, false⟩ c d)

/-- MCALL: imm12 in EVAL; the instruction completes first (R408, R409). -/
def execMcall (n : CoreNo) (imm : BitVec 12) (s : State) : Out :=
  issue (.d 0x37 1 [(0, 12, imm.toNat)]) n s (fun _ c d => .after ⟨xMcall, imm.toNat, false⟩ c d)

/-- BRK: imm12 in EVAL; the instruction completes first (R408, R409). -/
def execBrk (n : CoreNo) (imm : BitVec 12) (s : State) : Out :=
  issue (.d 0x37 2 [(0, 12, imm.toNat)]) n s (fun _ c d => .after ⟨xBrk, imm.toNat, false⟩ c d)

/-- ERET: R411. -/
def execEret (n : CoreNo) (s : State) : Out :=
  issue (.d 0x37 3 []) n s (fun w c d => if c.x.lvl = .u then .trap ⟨xPriv, w, false⟩ c d else .done (c.leave d.raw) d)

/-- ILLEGAL: R388. -/
def execIllegal (n : CoreNo) (s : State) : Out :=
  issue .none_ n s (fun w c d => .trap ⟨xIllegal, w, false⟩ c d)

end Sys2Proof.Machine
end

