-- ==== Sys2Proof/Machine/FlowRows.lean ====
section
/-! DEFINITION. Machine/FlowRows.lean: Pretan's page and dataflow instructions, pre-emption, and the scheduler's commands
(Pretan instruction set: Pages, Dataflow instructions; Dataflow operations and the scheduler; Self-test). -/

namespace Sys2Proof.Machine

/-! ## Pages (R398–R400) -/

/-- The progress of a page instruction. -/
def Core.res (c : Core) (i : Nat) : Core := { c with x := { c.x with residx := i } }

/-- rd bits 31:0 raised. -/
def addLow (v : W64) (n : Nat) : W64 := BitVec.ofNat 64 (v.toNat / 2 ^ 32 * 2 ^ 32 + (v.toNat % 2 ^ 32 + n) % 2 ^ 32)

/-- rd bits 47:32 raised by one, saturating. -/
def addHigh (v : W64) : W64 := if bits v.toNat 32 16 = 0xFFFF then v else v + BitVec.ofNat 64 (2 ^ 32)

/-- The leaf of a page of a core's address space; identity translation has none. -/
def pageLeaf (c : Core) (va : Nat) (d : Dev) : Except TFault Leaf × Dev :=
  if c.ptroot = 0 ∧ c.x.lvl = .m then (.error .trans, d) else leafOf c.ptroot.toNat va d

/-- One page done: the core with its progress, or what stops the instruction there. -/
inductive PStep where
  | next (c : Core) (d : Dev)
  | trap (t : Trap) (d : Dev)
  | wait (d : Dev)

/-- The frames of a leaf returned to the pool (R398). -/
def giveLeaf (lf : Leaf) (d : Dev) : Dev :=
  let f := bits lf.pte 12 28
  let one (i : Nat) (d : Dev) : Dev :=
    let st := ftState (ftGet (f + i) d)
    if st = fMapped ∨ st = fOther then poolMove 1 (ftSet (f + i) fFree 0 d) else d
  let d := forAll (List.range (leafFrames lf.level)) one d
  pteWrite lf.at_ (lf.pte - 2 * bits lf.pte 1 2 + 4) d

/-- One page of PGREL (R398). -/
def relPage (rdv : RegNo) (base n : Nat) (c : Core) (d : Dev) : PStep :=
  let i := c.x.residx
  let va := base + 4096 * i
  match pageLeaf c va d with
  | (.error .trans, d) => .next (c.res (i + 1)) d
  | (.error e, d) => match faultTrap false false va e with
    | some t => .trap t d
    | none => .wait d
  | (.ok lf, d) =>
    let v := c.get rdv
    let kept (j : Nat) : PStep := .next ((c.put rdv (addHigh v)).res j) d
    if bits lf.pte 1 2 = 2 then .next (c.res (i + 1)) d
    else if bit lf.pte 9 || bit lf.pte 10 then kept (i + 1)
    else
      let m := leafFrames lf.level
      let off := va / 4096 % m
      if off = 0 ∧ i + m ≤ n then .next ((c.put rdv (addLow v m)).res (i + m)) (giveLeaf lf d)
      else kept (min n (i + m - off))

/-- One page of PGPIN (R399). -/
def pinPage (rdv : RegNo) (base : Nat) (c : Core) (d : Dev) : PStep :=
  let i := c.x.residx
  let va := base + 4096 * i
  match pageLeaf c va d with
  | (.error e, d) => match faultTrap false false va e with
    | some t => .trap t d
    | none => .wait d
  | (.ok lf, d) =>
    match (if bits lf.pte 1 2 = 2 then touch lf d else (.ok lf.pte, d)) with
    | (.error e, d) => match faultTrap false false va e with
      | some t => .trap t d
      | none => .wait d
    | (.ok pte, d) => .next ((c.put rdv (addLow (c.get rdv) 1)).res (i + 1)) (pteWrite lf.at_ (setBit pte 9 true) d)

/-- One page unpinned (R399). -/
def unpinPage (rdv : RegNo) (base : Nat) (c : Core) (d : Dev) : PStep :=
  let i := c.x.residx
  let va := base + 4096 * i
  match pageLeaf c va d with
  | (.error .trans, d) => .next (c.res (i + 1)) d
  | (.error e, d) => match faultTrap false false va e with
    | some t => .trap t d
    | none => .wait d
  | (.ok lf, d) => .next ((c.put rdv (addLow (c.get rdv) 1)).res (i + 1)) (pteWrite lf.at_ (setBit lf.pte 9 false) d)

/-- Pages one by one, at most k of them before a pre-emption point is taken (R400, R413). -/
def pageLoop (step : Core → Dev → PStep) (n : Nat) : Nat → Core → Dev → IRes
  | 0, c, d => if n ≤ c.x.residx then .done (c.res 0).next d else .part c d
  | k + 1, c, d =>
    if n ≤ c.x.residx then .done (c.res 0).next d
    else match step c d with
      | .next c d => pageLoop step n k c d
      | .trap t d => .trap t c d
      | .wait d => .part c d

/-- A page instruction: level, operands, then its pages (R398, R400). -/
def pageOp (rdv rs rt : RegNo) (count : Nat) (step : Nat → Nat → Core → Dev → PStep) (w : Nat) (c : Core) (d : Dev) : IRes :=
  if c.x.lvl = .u then .trap ⟨xPriv, w, false⟩ c d
  else if rdv.val = 0 ∨ rs.val = 0 ∨ rt.val = 0 ∨ rdv = rs ∨ rdv = rt ∨ rs = rt then .trap ⟨xIllegal, w, false⟩ c d
  else
    let base := (c.get rs).toNat
    let n := (c.get rt).toNat
    if base % 4096 ≠ 0 then .trap ⟨xAlign, base, false⟩ c d
    else
      let c := if c.x.residx = 0 then c.put rdv 0 else c
      pageLoop (step base n) n count c d

/-- PGREL (R398): at most `count` pages before a pre-emption. -/
def execPgrel (n : CoreNo) (rd rs rt : RegNo) (count : Nat) (s : State) : Out :=
  issue (.d 0x32 0 [(21, 5, rd), (16, 5, rs)]) n s (pageOp rd rs rt count (fun b n => relPage rd b n))

/-- PGPIN (R399). -/
def execPgpin (n : CoreNo) (rd rs rt : RegNo) (count : Nat) (s : State) : Out :=
  issue (.d 0x32 1 [(21, 5, rd), (16, 5, rs)]) n s (pageOp rd rs rt count (fun b _ => pinPage rd b))

/-- PGUNPIN (R399). -/
def execPgunpin (n : CoreNo) (rd rs rt : RegNo) (count : Nat) (s : State) : Out :=
  issue (.d 0x32 2 [(21, 5, rd), (16, 5, rs)]) n s (pageOp rd rs rt count (fun b _ => unpinPage rd b))

/-! ## Dataflow instructions (R403–R407) -/

/-- A dataflow instruction: not while the level's handler is active (R407); while SCH is down, or held by a capture, it waits. -/
def flowOp (f : Core → Dev → IRes) (w : Nat) (c : Core) (d : Dev) : IRes :=
  if c.eact then .trap ⟨xDfCtx, w, false⟩ c d else if !runs SCHi d then .wait d else f c d

/-- A status written to rd. -/
def withStatus (rdv : RegNo) (st : Nat) (c : Core) (d : Dev) : IRes := .done (c.put rdv (BitVec.ofNat 64 st)).next d

/-- The place of a command's deliveries in the fixed order of one cycle (R427): edge posts, event tokens, then DFPOST and
DFREADY by requester number. -/
def delivRank : Instr → Option Nat
  | .dfdone _ _ => some 0
  | .eventToken _ => some 1
  | .dfready n _ _ => some (2 + n)
  | .dfpost n _ _ _ => some (2 + n)
  | _ => none

/-- The place of DFCANCEL: after every delivery (R441). -/
def cancelRank : Nat := 10

/-- Whether a delivery with an earlier place waits in the queue, so in the same raw count (log 129). -/
def ahead (k : Nat) (q : List Instr) : Bool :=
  q.any (fun c => match delivRank c with
    | some j => decide (j < k)
    | none => false)

/-- Whether a waiting command fences a core (R441, R442): by CFENCE however it is written, by self-test, or as power-limited operation
is entered. -/
def fencing (d : Dev) (n : Nat) (c : Instr) : Bool :=
  match c with
  | .cfenceWrite v w => atM w && bit v.toNat n
  | .selfTestTurn => !d.app.stCur.isSome && (testTurn d).app.stCur == some n
  | .portPowerLoss a b => decide (4 ≤ n) && !on AON.PWRSTAT.LIMITED d && on AON.PWRSTAT.LIMITED (grantChange a b d)
  | c => match writeAhead d c with
    | some x => x.who.lvl == .m && x.at_ == winBase SCHi + 0x90 && bit x.v n
    | none => false

/-- Whether a waiting DFCANCEL names an operation made ready in this raw count (R441). -/
def cancelling (d : Dev) (c : Instr) : Bool :=
  match c with
  | .dfcancel n _ rs => d.sch.ready.any (fun e => e.since == d.raw && e.h == ((coreOf n d).get rs).toNat % 2 ^ 32)
  | _ => false

/-- Whether a choice waits for a fence or a DFCANCEL of the same raw count (R441). -/
def choiceWaits (q : List Instr) (d : Dev) : Bool :=
  q.any (fun c => cancelling d c || (List.range 8).any (fun n => fencing d n c))

/-- A dispatch choice, once no command behind it decides against it. -/
def chooseTied (q : List Instr) (d : Dev) : Dev :=
  if choiceWaits q d then { d with sch := { d.sch with chooseLate := d.sch.chooseLate + 1 } } else choose d

/-- An event token, once the edge posts of its cycle are done. -/
def takeTied (q : List Instr) (e : Ecc) (d : Dev) : Dev :=
  if ahead 1 q then { d with sch := { d.sch with evLate := d.sch.evLate ++ [e] } } else takeEvent e d

/-- What waited for a command of the same raw count and waits no longer (R427, R441). -/
def tiesDone (q : List Instr) (d : Dev) : Dev :=
  let d := forAll d.sch.evLate (fun e d => takeTied q e d) { d with sch := { d.sch with evLate := [] } }
  let place (n : Nat) : Nat := match (coreOf n d).stall with
    | some (.cancel ..) => cancelRank
    | _ => 2 + n
  let d := serveWhere (fun n => !ahead (place n) q) d
  forAll (List.range d.sch.chooseLate) (fun _ d => chooseTied q d) { d with sch := { d.sch with chooseLate := 0 } }

/-- A command of the scheduler, and what waited for it. -/
def withTies (o : Out) : Out :=
  match o with
  | .next s => .next { s with dev := whenRuns SCHi (tiesDone s.pending) s.dev }
  | o => o

/-- DFREADY (R403, R427). -/
def execDfready (n : CoreNo) (rd rs : RegNo) (s : State) : Out :=
  withTies (issue (.d 0x33 0 [(21, 5, rd), (16, 5, rs)]) n s (flowOp (fun c d =>
    let h := (c.get rs).toNat % 2 ^ 32
    let held : IRes := .part { c with stall := some (.ready rd h d.raw) } d
    if ahead (2 + n) s.pending then held
    else match readyReq h c.x.lvl d with
      | (some st, d) => withStatus rd st c d
      | (none, _) => held)))

/-- DFPOST (R403, R427). -/
def execDfpost (n : CoreNo) (rd rs : RegNo) (slot : Fin 16) (s : State) : Out :=
  withTies (issue (.d 0x33 1 [(21, 5, rd), (16, 5, rs), (0, 4, slot)]) n s (flowOp (fun c d =>
    let h := (c.get rs).toNat % 2 ^ 32
    let held : IRes := .part { c with stall := some (.post rd h slot (c.get rd) d.raw) } d
    if ahead (2 + n) s.pending then held
    else match postReq h slot (c.get rd) c.x.lvl d with
      | (some st, d) => withStatus rd st c d
      | (none, _) => held)))

/-- The completion entry of an operation whose core comes to a DFDONE in the same raw count (R441). -/
def doneBehind (h : Nat) (q : List Instr) (d : Dev) : Option Nat :=
  (entryOf h d).filter (fun k => q.any (fun c => match c with
    | .dfdone m _ => (coreOf m d).entry == some k
    | _ => false))

/-- DFCANCEL (R404, R439, R441). An operation that cancels itself ends before its next instruction. -/
def execDfcancel (n : CoreNo) (rd rs : RegNo) (s : State) : Out :=
  withTies (issue (.d 0x33 2 [(21, 5, rd), (16, 5, rs)]) n s (flowOp (fun c d =>
    let h := (c.get rs).toNat % 2 ^ 32
    if ahead cancelRank s.pending then .part { c with stall := some (.cancel rd h (doneBehind h s.pending d)) } d
    else
      let r := cancelReq h c.x.lvl d
      let d := serveStalls r.2
      if (coreOf n d).entry = c.entry then withStatus rd r.1 c d else .settled (retired n d))))

/-- DFDONE (R397, R405). -/
def execDfdone (n : CoreNo) (rs : RegNo) (s : State) : Out :=
  withTies (issue (.d 0x34 0 [(16, 5, rs)]) n s (flowOp (fun c d =>
    if 0 < c.x.lkcnt then .trap ⟨xLock, c.x.lkcnt, false⟩ c d
    else
      let c' := { c.endNp d.raw with iret := c.iret + 1 }
      match doneReq n (c.get rs) (coreSet n c' d) with
      | (true, d) => .settled d
      | (false, d) => .part { c.endNp d.raw with stall := some (.done (c.get rs)) } d)))

/-- Whether a yield takes effect: an operation of equal or higher priority is ready for this core, and there is room (R406). -/
def canYield (n : Nat) (d : Dev) : Bool :=
  !full d && match corePri n d with
  | none => false
  | some p => d.sch.ready.any (fun e => decide (p ≤ e.pri) && e.to_.isNone && mayRun e n d)

/-- Whether a core's operation has CANCELPEND set: it ends where its section ends (R440). -/
def cancelPend (n : Nat) (d : Dev) : Bool :=
  match ((coreOf n d).entry.bind (fun k => infOf k d)).bind (fun i => opAt i.h d) with
  | none => false
  | some (_, o) => o.cancel

/-- DFYIELD (R397, R406). -/
def execDfyield (n : CoreNo) (s : State) : Out :=
  issue (.d 0x34 1 []) n s (flowOp (fun c d =>
    if 0 < c.x.lkcnt then .trap ⟨xLock, c.x.lkcnt, false⟩ c d
    else
      let c' := { (c.endNp d.raw).next with iret := c.iret + 1 }
      let d' := coreSet n c' d
      if canYield n d && !cancelPend n d then .settled (inc SCH.YIELDCNT (leaveCore n false d')) else .settled d'))

/-- PREEMPTION at a core (R413, R414, R434, R442); a fence of the same raw count wins over the dispatch (R441). -/
def execPreemption (n : CoreNo) (s : State) : Out :=
  onDev s (fun _ d => if s.pending.any (fencing d n) then d else whenRuns APPi (whenRuns SCHi (preempt n)) d)

/-! ## The scheduler -/

/-- EVENT_TOKEN (R427, R428). -/
def execEventToken (e : Ecc) (s : State) : Out := withTies (onDev s (fun _ => whenRuns SCHi (takeTied s.pending e)))

/-- EVCFG_EN (R431, R445): the event table is writable from S. -/
def execEvcfgEn (ev : Byte) (v : W32) (w : Who) (s : State) : Out :=
  onDev s (fun _ => whenUp SCHi (whenB (atS w) (evCfg ev.toNat v.toNat)))

/-- DISPATCH_CHOICE (R432, R433). -/
def execDispatchChoice (s : State) : Out := onDev s (fun _ => whenRuns APPi (whenRuns SCHi (chooseTied s.pending)))

/-- An idle core enters Nap after NAPDLY (R433). -/
def napEntry (n : Nat) (d : Dev) : Dev :=
  let c := coreOf n d
  if c.run = .idle ∧ !bit (rd SCH.NAPHOLD d) n ∧ c.from_ + rd SCH.NAPDLY d * 26 ≤ d.raw then coreSet n { c with run := .nap } d else d

/-- NAP_ENTRY (R433). -/
def execNapEntry (n : CoreNo) (s : State) : Out := onDev s (fun _ => whenRuns APPi (whenRuns SCHi (napEntry n)))

/-- A DFREADY or DFPOST stalled for 2 µs returns BUSY (R403, R438), unless there is room by now. -/
def busyTimeout (n : Nat) (d0 : Dev) : Dev :=
  let d := if full d0 then d0 else serveStall n d0
  let c := coreOf n d
  let busy (r since : Nat) : Dev :=
    if since + 52 ≤ d.raw then
      inc SCH.BUSYCNT (coreSet n { (c.put r (BitVec.ofNat 64 dfBusy)).next with stall := none, iret := c.iret + 1 } d)
    else d
  match c.stall with
  | some (.ready r _ since) => busy r since
  | some (.post r _ _ _ since) => busy r since
  | _ => d

/-- DF_BUSY_TIMEOUT (R438). -/
def execDfBusyTimeout (n : CoreNo) (s : State) : Out := onDev s (fun _ => whenRuns APPi (whenRuns SCHi (busyTimeout n)))

/-- CFENCE_WRITE (R442, R445). -/
def execCfenceWrite (v : Byte) (w : Who) (s : State) : Out :=
  withTies (onDev s (fun _ => whenUp SCHi (whenB (atM w) (fun d => fenceSet (wr SCH.CFENCE v.toNat d)))))

/-- DFCTL.EN written (R445, R565). -/
def dfCtl (v : Bool) (d : Dev) : Dev := wrB SCH.DFCTL.EN v { d with sch := { d.sch with run := v } }

/-- DFCTL_EN (R445). -/
def execDfctlEn (v : Bool) (w : Who) (s : State) : Out := onDev s (fun _ => whenUp SCHi (whenB (atM w) (dfCtl v)))

/-- SELF_TEST_TURN (R443, R561). -/
def execSelfTestTurn (s : State) : Out := withTies (onDev s (fun _ => whenRuns APPi (whenRuns SCHi testTurn)))

/-- SELF_TEST_DONE (R561). -/
def execSelfTestDone (pass : Bool) (s : State) : Out := onDev s (fun _ => whenRuns APPi (testDone pass))

end Sys2Proof.Machine
end

