-- ==== Sys2Proof/Machine/PowerRows.lean ====
section
/-! DEFINITION. Machine/PowerRows.lean: power, J6 and the antenna bias (The seven openings). -/

namespace Sys2Proof.Machine

/-- POWER_GOOD: a grant of Class 4 or higher on J4 (a) or J5 (b): 0 none, 1 Class 0–3, 2 Class 4, 3 Class 5, 4 Class 6
(R19, R23, R475). From no power AON starts; from the hold of R23 the module starts as from power good. A start with only a Class 4
grant sets no LIMEVT and writes no record: both name an entry into power-limited operation (DEDUCED, log 123). -/
def execPowerGood (a b : Fin 5) (s : State) : Out :=
  onDev s (fun _ d =>
    if max a.val b.val < 2 then d
    else match d.aon.power with
      | .off =>
        let d := aonStart a b d
        setLimited (bestGrant d == 2) { d with aon := { d.aon with power := .starting } }
      | .grantHold =>
        let d := noteLoss (setGrants a b d)
        setLimited (bestGrant d == 2) { d with aon := { d.aon with power := .starting } }
      | _ => d)

/-- POWER_GRANT_LOW: only a Class 0–3 grant (R23). -/
def execPowerGrantLow (a b : Fin 5) (s : State) : Out :=
  onDev s (fun _ d =>
    if max a.val b.val ≠ 1 ∨ d.aon.power ≠ .off then d
    else
      let d := aonStart a b d
      lichen 0 0x0103 [] { d with aon := { d.aon with power := .grantHold } })

/-- PORT_POWER_LOSS: a port loses power or its grant changes (R21, R22, R24). -/
def execPortPowerLoss (a b : Fin 5) (s : State) : Out := onAon s (fun _ => grantChange a b)

/-- RESTORE: 1 written to AON.PWRCTL.RESTORE (R22). -/
def execRestore (w : Who) (s : State) : Out := onAon s (fun _ => whenB (w.lvl != .u) restore)

/-- A BOR (R24, R488, R543): the hold-up has ended with no grant left, or an AON rail has tripped. -/
def brownOut (rail : Bool) (d : Dev) : Dev :=
  if !rail && !holdUpOver d then d
  else
    let d := if rail then lTear d else lBrownOut d
    noPower (permitFollow (wrB SEC.PMSTAT.GRANT false d))

/-- BROWN_OUT (R24, R488). -/
def execBrownOut (rail : Bool) (s : State) : Out := onAon s (fun _ => brownOut rail)

/-- J6_FILTER_CHANGE: 2 ms of agreeing state samples on channel A (false) or B (true), the last at this count (R27, R28, R142). -/
def execJ6FilterChange (chB closed : Bool) (s : State) : Out :=
  onDev s (fun _ => whenUp SECi (filterChange chB closed))

/-- TEST_WINDOW_CHECK: a channel's test window, at its decisive sample or at the first sample after its test samples (R29, R31,
R569): whether it reads closed, and what the other channel reads at that sample, at its last sample before and at its first
after. -/
def execTestWindowCheck (chB own other before after : Bool) (s : State) : Out :=
  onDev s (fun _ => whenUp SECi (windowCheck chB own other before after))

/-- STOP_DISCREPANCY (R30). -/
def execStopDiscrepancy (s : State) : Out := onDev s (fun _ => whenUp SECi discrepancy)

/-- PERMIT reads high for more than 1 ms while commanded low (R33). The pin is held high from outside from then on. -/
def permitStuck (d : Dev) : Dev :=
  if d.sec.permit || decide (d.raw ≤ d.sec.permLow + rawPerMs) then d
  else critSet SEC.CRITSTAT.PSTUCK (permitFollow (wrB SEC.J6STAT.PSTUCK true { d with sec := { d.sec with pinHigh := true } }))

/-- PERMIT_STUCK (R33). -/
def execPermitStuck (s : State) : Out := onDev s (fun _ => whenUp SECi permitStuck)

/-- PERMIT_OVLD: 10 ms at its current limit (R34). -/
def execPermitOvld (s : State) : Out :=
  onDev s (fun _ => whenUp SECi (fun d => if d.sec.permit then permitFollow (wrB SEC.J6STAT.POVLD true d) else d))

/-- TPULSE_OVLD (R34, R35): the pin drops at once. -/
def execTpulseOvld (s : State) : Out :=
  onDev s (fun _ => whenUp SECi (fun d => tpulsePin { wrB SEC.J6STAT.TPOVLD true d with aon := { d.aon with ppsPin := false } }))

/-- POVCLR (R34). -/
def execPovclr (w : Who) (s : State) : Out :=
  onDev s (fun _ => whenUp SECi (whenB (w.lvl != .u) (fun d => permitFollow (wrB SEC.J6STAT.POVLD false d))))

/-- TPOVCLR (R34, R35): the pin follows from the next rising edge. -/
def execTpovclr (w : Who) (s : State) : Out :=
  onDev s (fun _ => whenUp SECi (whenB (w.lvl != .u) (wrB SEC.J6STAT.TPOVLD false)))

/-- TPEN (R35): cleared, the pin drops at once; set, it follows from the next rising edge. -/
def execTpen (v : Bool) (w : Who) (s : State) : Out :=
  onDev s (fun _ => whenUp SECi (whenB (w.lvl != .u) (fun d =>
    let d := wrB SEC.J6CTL.TPEN v d
    tpulsePin (if v then d else { d with aon := { d.aon with ppsPin := false } }))))

/-- IO_SUPPLY_REGULATION: the J6 I/O supply leaves or regains regulation (R32). -/
def execIoSupplyRegulation (inReg : Bool) (s : State) : Out :=
  onDev s (fun _ d => permitFollow { d with sec := { d.sec with ioSup := inReg } })

/-- ANTSTAT as a word, for its record (Tables 01-8 and 17-3). -/
def antWord (d : Dev) : Nat :=
  rd POS.ANTSTAT.BIASEN d + 2 * rd POS.ANTSTAT.OPEN d + 4 * rd POS.ANTSTAT.SHORT d + 8 * rd POS.ANTSTAT.FLTEVT d + 2 ^ 8 * rd POS.ANTSTAT.CURRENT d

/-- OPEN and SHORT as the bias current gives them; a change sets FLTEVT and writes a record (R36). -/
def antSet (o sh : Bool) (d : Dev) : Dev :=
  if on POS.ANTSTAT.OPEN d == o && on POS.ANTSTAT.SHORT d == sh then d
  else
    let d := wrB POS.ANTSTAT.FLTEVT true (wrB POS.ANTSTAT.SHORT sh (wrB POS.ANTSTAT.OPEN o d))
    let d := { d with pos := { d.pos with biasCut := if sh then some d.raw else none } }
    lichen 8 0x0901 (leBytes 4 (antWord d)) d

/-- ANT_FAULT: the bias current measured, in 0.5 mA units, while the bias is on (R36). While it is off, by BIASEN or cut, OPEN
and SHORT keep what they show (DESIGN CHOICE, log 124). -/
def execAntFault (cur : Byte) (s : State) : Out :=
  onDev s (fun _ => whenUp POSi (fun d =>
    let d := wr POS.ANTSTAT.CURRENT cur.toNat d
    if !on POS.ANTSTAT.BIASEN d || on POS.ANTSTAT.SHORT d then d
    else antSet (decide (cur.toNat < 4)) (decide (120 < cur.toNat)) d))

/-- BIAS_RETRY: 5 s after the bias was cut it is tried again, and the current then found clears the short or not (R36). -/
def execBiasRetry (cur : Byte) (s : State) : Out :=
  onDev s (fun _ => whenUp POSi (fun d =>
    match d.pos.biasCut with
    | none => d
    | some r =>
      if !on POS.ANTSTAT.BIASEN d || d.raw < r + 5 * rawPerS then d
      else if 120 < cur.toNat then { d with pos := { d.pos with biasCut := some d.raw } }
      else antSet (decide (cur.toNat < 4)) false (wr POS.ANTSTAT.CURRENT cur.toNat d)))

end Sys2Proof.Machine
end

