-- ==== Sys2Proof/Machine/MemRows.lean ====
section
/-! DEFINITION. Machine/MemRows.lean: the frame pool, retirement, the scrubber and DMA as commands (Memory, hardware paging
and DMA), and the monitors' commands (Single-fault coverage and repair in service). -/

namespace Sys2Proof.Machine

def onMem (s : State) (f : Dev → Dev) : Out := onDev s (fun _ => whenUp MEMi f)

/-- TLBINV: the high word written (R10, R453). -/
def execTlbinv (_hi : W32) (w : Who) (s : State) : Out :=
  onMem s (whenB (atS w) (fun d => tlbInv (unheld (winBase MEMi + 0x40) d)))

/-- POOLEN (R455, R474). -/
def execPoolen (v : Bool) (w : Who) (s : State) : Out := onMem s (whenB (atM w) (poolEn v))

/-- SWEEP_DONE (R455). -/
def execSweepDone (s : State) : Out := onMem s sweepDone

/-- POOLTAKE read (R456). -/
def execPooltake (w : Who) (s : State) : Out := onMem s (whenB (atS w) poolTake)

/-- POOLGIVE written (R456). -/
def execPoolgive (f : BitVec 28) (w : Who) (s : State) : Out := onMem s (whenB (atS w) (poolGive f.toNat))

/-- MEM_RETIRE: RETIRE written (R464). -/
def execMemRetire (f : BitVec 28) (w : Who) (s : State) : Out := onMem s (whenB (atS w) (fwRetire f.toNat))

/-- RETCNT_CLEAR: 0 written to RETCNT at M level (R464). -/
def execRetcntClear (w : Who) (s : State) : Out := onMem s (whenB (atM w) retClear)

/-- SCRUB: the scrubber's next word, with what ECC finds in it (R465). -/
def execScrub (e : Ecc) (s : State) : Out := onMem s (scrub e)

/-- DMA_START: CHCTL written with EN and LEVEL (R466). -/
def execDmaStart (c : Fin 32) (level : Fin 4) (w : Who) (s : State) : Out :=
  onMem s (whenB (atS w) (chCtl c true level w.lvl))

/-- Whether a waiting command aborts a channel. -/
def aborts (c : Fin 32) : Instr → Bool
  | .dmaAbort k w => k == c && atS w
  | _ => false

/-- DMA_RESUME; an ABORT of the same cycle wins (R470). -/
def execDmaResume (c : Fin 32) (w : Who) (s : State) : Out :=
  onMem s (whenB (atS w && !s.pending.any (aborts c)) (chResume c))

/-- DMA_SKIP (R470). -/
def execDmaSkip (c : Fin 32) (w : Who) (s : State) : Out := onMem s (whenB (atS w) (chSkip c))

/-- DMA_ABORT (R470). -/
def execDmaAbort (c : Fin 32) (w : Who) (s : State) : Out := onMem s (whenB (atS w) (chAbort c))

/-! ## Critical faults and monitors (R557, R563, R564) -/

/-- The w1c bits of CRITSTAT (Table 18-6). -/
def critBit (b : Nat) : Option Fld :=
  if b = 5 then some SEC.CRITSTAT.CLOCK else if b = 6 then some SEC.CRITSTAT.RAIL else if b = 7 then some SEC.CRITSTAT.RAWCNT
  else if b = 8 then some SEC.CRITSTAT.TCXO else if b = 9 then some SEC.CRITSTAT.SQECC else none

/-- Whether the cause of a bit still stands: an island held by its monitor (R563), or WRATE out of range under a source (R564). -/
def critCause (b : Nat) (d : Dev) : Bool :=
  if b = 5 then d.aon.holds.any (fun e => bit e.2 1)
  else if b = 6 then d.aon.holds.any (fun e => bit e.2 2)
  else if b = 8 then wrateOut d
  else false

/-- A 1 written to a w1c bit of CRITSTAT (R557). -/
def critClear (b : Nat) (d : Dev) : Dev :=
  match critBit b with
  | none => d
  | some f =>
    if !on f d then d
    else if critCause b d || decide (d.raw < tget d.sec.critRaw b 0 + rawPerS) then inc SEC.CLRREF d
    else pmMirror (wrB f false d)

/-- CRITSTAT_CLEAR (R557, R568). -/
def execCritstatClear (b : Fin 32) (w : Who) (s : State) : Out := onSec s (fun _ => whenB (atM w) (critClear b))

/-- A monitor's hold on an island: bit 1 its clock, bit 2 its rail, bit 4 the TCXO. -/
def holdSet (i k : Nat) (v : Bool) (d : Dev) : Dev :=
  { d with aon := { d.aon with holds := tset d.aon.holds i (setBit (tget d.aon.holds i 0) k v) 0 } }

/-- A clock or rail out of range resets and holds an island; back in range the hold ends, and the cause with it (R563). The reset is a
request of R492: it waits for a capture, and gives way to a deeper one of the same cycle (log 158). -/
def monitor (q : List Instr) (i k : Nat) (f isl : Fld) (bad : Bool) (d0 : Dev) : Dev :=
  if i = 0 ∨ tget d0.isl i .off = .off then d0
  else if bad then
    let d := rstAsk q 1 (resetAsk i) (holdSet i k true d0)
    whenUp SECi (fun d => wr isl i (critSet f d)) d
  else if bit (tget d0.aon.holds i 0) k then
    let d := holdSet i k false d0
    { d with sec := { d.sec with critRaw := tset d.sec.critRaw f.lo d.raw 0 } }
  else d0

/-- CLOCK_FAULT (R563). -/
def execClockFault (isl : Fin 9) (bad : Bool) (s : State) : Out :=
  onAon s (fun _ => monitor s.pending isl 1 SEC.CRITSTAT.CLOCK SEC.CRITSTAT.CLKISL bad)

/-- RAIL_FAULT (R563): the AON rail causes a BOR. -/
def execRailFault (isl : Fin 9) (bad : Bool) (s : State) : Out :=
  onAon s (fun _ => if isl.val = 0 then (fun d => if bad then brownOut true d else d)
    else monitor s.pending isl 2 SEC.CRITSTAT.RAIL SEC.CRITSTAT.RAILISL bad)

/-- Every island but AON held as the TCXO fails; released together as it agrees again, and started as after a WDR (R564). -/
def tcxoCheck (ok_ : Bool) (d0 : Dev) : Dev :=
  let held := bit (tget d0.aon.holds 1 0) 4
  if d0.aon.power ≠ .run then d0
  else if !ok_ then
    if held then d0
    else
      let d := whenUp SECi (critSet SEC.CRITSTAT.TCXO) d0
      forAll [1, 2, 3, 4, 5, 6, 7, 8] (fun i d => resetAsk i (holdSet i 4 true d)) d
  else if held then
    let d := forAll [1, 2, 3, 4, 5, 6, 7, 8] (fun i d => holdSet i 4 false d) d0
    let d := lStart (inc AON.STARTCNT (wdDefault (levelAgain d)))
    forAll [1, 2, 3, 4, 5, 6, 7, 8] (fun i d => if tget d.aon.holds i 0 = 0 then startIsl i d else d) d
  else d0

/-- TCXO_CHECK (R564). -/
def execTcxoCheck (ok_ : Bool) (s : State) : Out := onAon s (fun _ => tcxoCheck ok_)

end Sys2Proof.Machine
end

