-- ==== Sys2Proof/Machine/Num.lean ====
section
/-! DEFINITION. Machine/Num.lean: the numbers of the baseband's and the solver's geometry: multiples of 2^-96, rounded at each
product and quotient and once more to binary64 where a context stores them (R199, Rover context; log 44). -/

namespace Sys2Proof.Machine

/-- A number as a multiple of 2^-96. -/
abbrev Fx := Int

/-- A whole number, and a ratio of whole numbers. -/
def fx (n : Int) : Fx := n * 2 ^ 96
def fxQ (n : Int) (q : Nat) : Fx := (n * 2 ^ 96).fdiv q

/-- n · 2^-k. -/
def fxExp (n : Int) (k : Nat) : Fx := (n * 2 ^ 96).fdiv (2 ^ k)

def mulx (a b : Fx) : Fx := (a * b).fdiv (2 ^ 96)
def divx (a b : Fx) : Fx := (a * 2 ^ 96).fdiv b
def sqx (a : Fx) : Fx := mulx a a

/-- The square root of a number, rounded down; of a negative one 0. -/
def sqrtx (a : Fx) : Fx :=
  let n := a.toNat * 2 ^ 96
  isqrt n (Nat.log2 n / 2 + 1) 0

/-- The nearest whole number, a half rounded up. -/
def roundx (a : Fx) : Int := (a + 2 ^ 95).fdiv (2 ^ 96)

/-- The nearest whole multiple of 1/k. -/
def roundTimes (a : Fx) (k : Nat) : Int := roundx (a * k)

/-! ## Angles -/

def pix : Fx := 248902613312231085230521944622

/-- Terms of the power series that x² and a first term begin: of cosine from 1, of sine from x. -/
def trigSum (x2 : Fx) : Nat → Nat → Fx → Fx
  | 0, _, _ => 0
  | n + 1, k, t => t + trigSum x2 n (k + 2) (-(mulx t x2).fdiv ((k + 1) * (k + 2) : Nat))

/-- An angle brought within half a turn of 0. -/
def wrapx (a : Fx) : Fx :=
  let r := a % (2 * pix)
  if pix < r then r - 2 * pix else r

def sinx (a : Fx) : Fx := let x := wrapx a; trigSum (sqx x) 28 1 x
def cosx (a : Fx) : Fx := let x := wrapx a; trigSum (sqx x) 28 0 (fx 1)

/-- Terms of the arctangent's series. -/
def atanSum (x2 : Fx) : Nat → Nat → Fx → Fx
  | 0, _, _ => 0
  | n + 1, k, t => t.fdiv k + atanSum x2 n (k + 2) (-mulx t x2)

/-- The arctangent of half an angle's tangent x/(1 + √(1 + x²)), doubled. -/
def halfTan (x : Fx) : Fx := divx x (fx 1 + sqrtx (fx 1 + sqx x))

/-- The arctangent of a number of magnitude at most 1. -/
def atanx (x : Fx) : Fx :=
  let y := halfTan (halfTan (halfTan x))
  8 * atanSum (sqx y) 24 1 y

/-- The angle of a point (x, y) from the x axis. -/
def atan2x (y x : Fx) : Fx :=
  if x = 0 ∧ y = 0 then 0
  else if y.natAbs ≤ x.natAbs then
    let a := atanx (divx y x)
    if 0 ≤ x then a else if 0 ≤ y then a + pix else a - pix
  else
    let a := atanx (divx x y)
    (if 0 ≤ y then pix.fdiv 2 else -(pix.fdiv 2)) - a

/-! ## binary64 -/

/-- The binary64 nearest to a number. -/
def toF64 (a : Fx) : Nat := (roundTo f64 0 (decide (a < 0)) a.natAbs (-96)).v

/-- The number a binary64 spells, bits below 2^-96 dropped; no number is read as 0. -/
def ofF64 (n : Nat) : Fx :=
  match FV.of f64 n with
  | .fin s m e => let v : Int := if -96 ≤ e then m * 2 ^ (e + 96).toNat else m / 2 ^ (-96 - e).toNat
                  if s then -v else v
  | _ => 0

/-! ## Vectors and matrices, as lists of rows -/

abbrev Vec := List Fx
abbrev Mat := List (List Fx)

def vAdd (a b : Vec) : Vec := List.zipWith (· + ·) a b
def vSub (a b : Vec) : Vec := List.zipWith (· - ·) a b
def vScale (k : Fx) (a : Vec) : Vec := a.map (mulx k)
def vDot (a b : Vec) : Fx := (List.zipWith (· * ·) a b).sum.fdiv (2 ^ 96)
def vNorm (a : Vec) : Fx := sqrtx (vDot a a)
def vZero (n : Nat) : Vec := List.replicate n 0
def vUnit (n i : Nat) (k : Fx) : Vec := (vZero n).set i k

def mCol (m : Mat) (j : Nat) : Vec := m.map (fun r => r.getD j 0)
def mGet (m : Mat) (i j : Nat) : Fx := (m.getD i []).getD j 0
def mVec (m : Mat) (v : Vec) : Vec := m.map (fun r => vDot r v)
def mTrans (n : Nat) (m : Mat) : Mat := (List.range n).map (mCol m)
/-- a · bᵀ. -/
def mMulT (a b : Mat) : Mat := a.map (fun r => b.map (vDot r))
def mAdd (a b : Mat) : Mat := List.zipWith vAdd a b
/-- a · p · aᵀ. -/
def mConj (a p : Mat) : Mat := mMulT (mMulT a (mTrans a.length p)) a

/-- The lower Cholesky factor of a covariance, its rows so far being `l`. -/
def cholRows (m : Mat) : Nat → Mat → Mat
  | 0, l => l
  | n + 1, l =>
    let i := l.length
    let row := (List.range i).foldl (fun (r : Vec) j =>
      r ++ [divx (mGet m i j - vDot r (l.getD j [])) ((l.getD j []).getD j 0)]) []
    cholRows m n (l ++ [row ++ [sqrtx (mGet m i i - vDot row row)]])

/-- Rows divided by a lower factor: l⁻¹ applied to them, from the first on. -/
def lowerSolve (l : Mat) (rows : Mat) : Mat :=
  rows.foldl (fun (acc : Mat) r =>
    let i := acc.length
    let li := l.getD i []
    let sub := acc.zipIdx.foldl (fun (x : Vec) e => vSub x (vScale (li.getD e.2 0) e.1)) r
    acc ++ [sub.map (fun y => divx y (li.getD i 0))]) []

/-- A symmetric positive system solved: m · x = v, through its Cholesky factor; none where the factor breaks down. -/
def symSolve (m : Mat) (v : Vec) : Option Vec :=
  let n := v.length
  let l := cholRows m n []
  if l.zipIdx.any (fun e => decide (e.1.getD e.2 0 ≤ 0)) then none
  else
    let y := (lowerSolve l (v.map (fun x => [x]))).map (fun r => r.getD 0 0)
    some ((List.range n).reverse.foldl (fun (x : Vec) i =>
      divx (y.getD i 0 - vDot (((List.range n).drop (i + 1)).map (fun j => mGet l j i)) x) (mGet l i i) :: x) [])

end Sys2Proof.Machine
end

