-- ==== Sys2Proof/Machine/Lambda.lean ====
section
/-! DEFINITION. Machine/Lambda.lean: the integer search of the rover solver (R207, R208): decorrelation by integer Gauss
transformations, then a depth-first search inside a shrinking ellipsoid. -/

namespace Sys2Proof.Machine

/-- Float ambiguities under an integer transformation: their covariance, their values, and for each the integer column by which it
enters the ambiguities as they were. -/
structure Lattice where
  q    : Mat
  a    : Vec
  cols : List (List Int)

/-- Rows of integers combined. -/
def addTimes (k : Int) (x y : List Int) : List Int := List.zipWith (fun a b => a + k * b) x y

/-- Ambiguity i less μ times ambiguity j. -/
def Lattice.gauss (i j : Nat) (mu : Int) (s : Lattice) : Lattice :=
  let rows := s.q.set i (addTimes (-mu) (s.q.getD i []) (s.q.getD j []))
  { q := rows.map (fun r => r.set i (r.getD i 0 - mu * r.getD j 0))
    a := s.a.set i (s.a.getD i 0 - mu * s.a.getD j 0)
    cols := s.cols.set j (addTimes mu (s.cols.getD j []) (s.cols.getD i [])) }

/-- Two places of a list exchanged. -/
def swapAt {α : Type} (l : List α) (i j : Nat) (z : α) : List α := (l.set i (l.getD j z)).set j (l.getD i z)

def Lattice.swap (i j : Nat) (s : Lattice) : Lattice :=
  { q := (swapAt s.q i j []).map (fun r => swapAt r i j 0), a := swapAt s.a i j 0, cols := swapAt s.cols i j [] }

/-- Every conditional factor brought within a half: each row of the Cholesky factor less whole multiples of the rows above it. -/
def sizeReduce (s0 : Lattice) (c0 : Mat) : Lattice × Mat :=
  (List.range s0.a.length).foldl (fun sc i =>
    (List.range i).reverse.foldl (fun (sc : Lattice × Mat) j =>
      let mu := roundx (divx (mGet sc.2 i j) (mGet sc.2 j j))
      if mu = 0 then sc
      else
        let row := List.zipWith (fun x y => x - mu * y) (sc.2.getD i []) (sc.2.getD j [] ++ vZero sc.2.length)
        (sc.1.gauss i j mu, sc.2.set i row)) sc) (s0, c0)

/-- The first neighbours whose exchange makes the earlier conditional variance smaller. -/
def swapPlace (c : Mat) (n : Nat) : Option Nat :=
  (List.range (n - 1)).find? (fun i => decide (sqx (mGet c (i + 1) (i + 1)) + sqx (mGet c (i + 1) i) < sqx (mGet c i i)))

/-- Decorrelation: reductions and exchanges until none helps; with the Cholesky factor of the covariance reached. -/
def decorrelate : Nat → Lattice → Lattice × Mat
  | 0, s => (s, cholRows s.q s.a.length [])
  | n + 1, s =>
    let r := sizeReduce s (cholRows s.q s.a.length [])
    match swapPlace r.2 s.a.length with
    | some i => decorrelate n (r.1.swap i (i + 1))
    | none => r

/-- A node of the search: the integers chosen so far and their conditional residuals (last first), the squared norm so far, the
conditional value of the next ambiguity, and how many of its integers have been tried. -/
structure Branch where
  zs : List Int := []
  rs : Vec := []
  f  : Fx := 0
  c  : Fx
  k  : Nat := 0

/-- The k-th nearest integer to a value. -/
def kthInt (c : Fx) (k : Nat) : Int :=
  let z := roundx c
  let up : Int := if z * 2 ^ 96 ≤ c then 1 else -1
  if k % 2 = 1 then z + up * ((k + 1) / 2 : Nat) else z - up * (k / 2 : Nat)

/-- The conditional value of ambiguity i after residuals of those before it (last first). -/
def condValue (c : Mat) (a : Vec) (rs : Vec) (i : Nat) : Fx :=
  a.getD i 0 - vDot (rs.reverse.zipIdx.map (fun e => divx (mGet c i e.2) (mGet c e.2 e.2))) rs.reverse

/-- A node's next integer taken: the norm and the residual. -/
def Branch.take (m : Mat) (x : Branch) : Int × Fx × Fx :=
  let z := kthInt x.c x.k
  let r := x.c - fx z
  (z, x.f + divx (sqx r) (sqx (mGet m x.zs.length x.zs.length)), r)

/-- The bootstrapped vector: every conditional value rounded in turn; with the node before its last ambiguity. -/
def bootstrap (m : Mat) (a : Vec) : Nat → Branch → Branch
  | 0, x => x
  | n + 1, x =>
    let t := x.take m
    bootstrap m a n { zs := t.1 :: x.zs, rs := t.2.2 :: x.rs, f := t.2.1, c := condValue m a (t.2.2 :: x.rs) (x.zs.length + 1) }

/-- The ellipsoid's first size: the norm of the bootstrapped vector with its last integer taken the other way (R207). -/
def firstSize (m : Mat) (a : Vec) : Fx :=
  let x := bootstrap m a (a.length - 1) { c := a.headD 0 }
  ({ x with k := 1 }.take m).2.1

/-- A candidate among the two best, best first. -/
def keepBest (x : Fx × List Int) (l : List (Fx × List Int)) : List (Fx × List Int) :=
  match l with
  | [] => [x]
  | y :: r => if x.1 < y.1 then (x :: y :: r).take 2 else (y :: x :: r).take 2

/-- Whether a norm lies inside the ellipsoid: as large as the first size until two candidates are known, then smaller than the
second. -/
def inside (f chi : Fx) (best : List (Fx × List Int)) : Bool :=
  match best with
  | [_, y] => decide (f < y.1)
  | _ => decide (f ≤ chi)

/-- The depth-first search (R207): every integer tried inside the ellipsoid is a node visited. It ends with the two best
candidates, or once `most` nodes have been visited. -/
def searchNodes (m : Mat) (a : Vec) (chi : Fx) (most : Nat) : Nat → List Branch → List (Fx × List Int) → Nat →
    List (Fx × List Int) × Nat
  | 0, _, best, v => (best, v)
  | n + 1, st, best, v =>
    match st with
    | [] => (best, v)
    | x :: r =>
      if most ≤ v then (best, v)
      else
        let t := x.take m
        if !inside t.2.1 chi best then searchNodes m a chi most n r best v
        else
          let on_ : Branch := { x with k := x.k + 1 }
          if x.zs.length + 1 = a.length then
            searchNodes m a chi most n (on_ :: r) (keepBest (t.2.1, (t.1 :: x.zs).reverse) best) (v + 1)
          else
            let y : Branch := { zs := t.1 :: x.zs, rs := t.2.2 :: x.rs, f := t.2.1, c := condValue m a (t.2.2 :: x.rs) (x.zs.length + 1) }
            searchNodes m a chi most n (y :: on_ :: r) best (v + 1)

/-- What a search finds: the best integers, the two squared norms, and whether it reached its bound of nodes. -/
structure Searched where
  ints : List Int
  f1   : Fx
  f2   : Fx
  ovf  : Bool

/-- A search over float ambiguities with their covariance (R207). -/
def lambdaSearch (q : Mat) (a : Vec) (most : Nat) : Searched :=
  let n := a.length
  let r := decorrelate 400 { q := q, a := a, cols := (List.range n).map (fun i => (List.replicate n (0 : Int)).set i 1) }
  let s := searchNodes r.2 r.1.a (firstSize r.2 r.1.a) most (2 * most + 2) [{ c := r.1.a.headD 0 }] [] 0
  match s.1 with
  | [x, y] =>
    { ints := (List.zipWith (fun z col => (z, col)) x.2 r.1.cols).foldl (fun acc e => addTimes e.1 acc e.2) (List.replicate n 0)
      f1 := x.1, f2 := y.1, ovf := decide (most ≤ s.2) }
  | _ => { ints := [], f1 := 0, f2 := 0, ovf := true }

end Sys2Proof.Machine
end

