-- ==== Sys2Proof/Machine/Gps.lean ====
section
/-! DEFINITION. Machine/Gps.lean: what an ephemeris set says of its satellite, ranges and directions, and the ionospheric delay,
as IS-GPS-200 gives them (R155, R170, R171, R178, R196; log 40). A set is 24 words of 24 data bits: words 3–10 of subframes 1, 2
and 3. -/

namespace Sys2Proof.Machine

/-- The speed of light, m/s (R174), and the L1 wavelength, m (Table 06-2). -/
def lightx : Fx := fx 299792458
def lambdax : Fx := fxQ 19029367 100000000

/-- Constants of IS-GPS-200 (log 40): π, the square root of μ, the Earth's rate in rad/s, F in s/√m. -/
def gpsPi : Fx := fxQ 31415926535898 (10 ^ 13)
def sqrtMu : Fx := sqrtx (fx 398600500000000)
def earthRate : Fx := fxQ 72921151467 (10 ^ 15)
def relF : Fx := fxQ (-4442807633) (10 ^ 19)

/-- A difference of times of week, s, within half a week. -/
def weekx (a : Fx) : Fx :=
  let r := a % fx 604800
  if fx 302400 < r then r - fx 604800 else r

/-! ## Fields of a set -/

def ephWord (w : List Nat) (i : Nat) : Nat := w.getD i 0

/-- A signed field of one word, and one whose high byte ends the word before. -/
def ephS (w : List Nat) (i lo n : Nat) : Int := toS n (bits (ephWord w i) lo n)
def ephS32 (w : List Nat) (i : Nat) : Int := toS 32 (bits (ephWord w i) 0 8 * 2 ^ 24 + ephWord w (i + 1))
def ephU32 (w : List Nat) (i : Nat) : Nat := bits (ephWord w i) 0 8 * 2 ^ 24 + ephWord w (i + 1)

/-- A signed count of 2^-k semicircles, in radians. -/
def semix (n : Int) (k : Nat) : Fx := mulx (fxExp n k) gpsPi

/-- The sets' fields as IS-GPS-200 places them: t_oe in s, the 6-bit health, IODC. -/
def ephToe (w : List Nat) : Nat := bits (ephWord w 15) 8 16 * 16
def ephHealth (w : List Nat) : Nat := bits (ephWord w 0) 2 6
def ephIodc (w : List Nat) : Nat := bits (ephWord w 5) 16 8 + bits (ephWord w 0) 0 2 * 2 ^ 8
def ephWeek (w : List Nat) : Nat := bits (ephWord w 0) 14 10

def ephSqrtA (w : List Nat) : Fx := fxExp (ephU32 w 13) 19
def ephEcc (w : List Nat) : Fx := fxExp (ephU32 w 11) 33

/-! ## The orbit -/

/-- Kepler's equation by Newton's steps. -/
def kepler (m e : Fx) : Nat → Fx → Fx
  | 0, x => x
  | n + 1, x => kepler m e n (x - divx (x - mulx e (sinx x) - m) (fx 1 - mulx e (cosx x)))

/-- The eccentric anomaly at a GPS time of week, s. -/
def ephAnomaly (w : List Nat) (t : Fx) : Fx :=
  let a := ephSqrtA w
  let n := divx sqrtMu (mulx a (sqx a)) + semix (ephS w 9 8 16) 43
  let m := semix (ephS32 w 9) 31 + mulx n (weekx (t - fx (ephToe w)))
  kepler m (ephEcc w) 8 m

/-- A satellite's clock less GPS time, s, for L1 (with relativity and group delay), at a time of week. -/
def satClock (w : List Nat) (t : Fx) : Fx :=
  let dt := weekx (t - fx (bits (ephWord w 5) 0 16 * 16))
  fxExp (ephS w 7 2 22) 31 + mulx (fxExp (ephS w 6 0 16) 43) dt + mulx (fxExp (ephS w 6 16 8) 55) (sqx dt) +
    mulx (mulx relF (mulx (ephEcc w) (ephSqrtA w))) (sinx (ephAnomaly w t)) - fxExp (ephS w 4 0 8) 31

/-- A satellite's position, ECEF at its own time, m, at a GPS time of week, s. -/
def satPos (w : List Nat) (t : Fx) : Vec :=
  let tk := weekx (t - fx (ephToe w))
  let e := ephEcc w
  let x := ephAnomaly w t
  let a := sqx (ephSqrtA w)
  let nu := atan2x (mulx (sqrtx (fx 1 - sqx e)) (sinx x)) (cosx x - e)
  let phi := nu + semix (ephS32 w 20) 31
  let s2 := sinx (2 * phi)
  let c2 := cosx (2 * phi)
  let u := phi + mulx (fxExp (ephS w 13 8 16) 29) s2 + mulx (fxExp (ephS w 11 8 16) 29) c2
  let r := mulx a (fx 1 - mulx e (cosx x)) + mulx (fxExp (ephS w 8 0 16) 5) s2 + mulx (fxExp (ephS w 20 8 16) 5) c2
  let i := semix (ephS32 w 18) 31 + mulx (semix (ephS w 23 2 14) 43) tk + mulx (fxExp (ephS w 18 8 16) 29) s2 +
    mulx (fxExp (ephS w 16 8 16) 29) c2
  let om := semix (ephS32 w 16) 31 + mulx (semix (ephS w 22 0 24) 43 - earthRate) tk - mulx earthRate (fx (ephToe w))
  let xp := mulx r (cosx u)
  let yp := mulx r (sinx u)
  [mulx xp (cosx om) - mulx (mulx yp (cosx i)) (sinx om), mulx xp (sinx om) + mulx (mulx yp (cosx i)) (cosx om), mulx yp (sinx i)]

/-! ## Ranges (R178, R196) -/

/-- A position in the axes the Earth has turned to t seconds later. -/
def earthTurn (t : Fx) (s : Vec) : Vec :=
  let a := mulx earthRate t
  let sn := a - (mulx a (sqx a)).fdiv 6
  let cs := fx 1 - (sqx a).fdiv 2 + (sqx (sqx a)).fdiv 24
  let x := s.getD 0 0
  let y := s.getD 1 0
  [mulx x cs + mulx y sn, mulx y cs - mulx x sn, s.getD 2 0]

/-- A satellite as a receiver at x sees it: its position at transmission in the axes at reception. -/
def seenAt (x s : Vec) : Vec :=
  let t1 := divx (vNorm (vSub s x)) lightx
  let t2 := divx (vNorm (vSub (earthTurn t1 s) x)) lightx
  earthTurn t2 s

/-- The geometric range from a receiver to a satellite sending at a GPS time of week, m, with Earth rotation applied, and the unit
vector towards it. -/
def rangeTo (w : List Nat) (t : Fx) (x : Vec) : Fx × Vec :=
  let l := vSub (seenAt x (satPos w t)) x
  let r := vNorm l
  (r, l.map (fun y => divx y r))

/-- The rate of the range to a receiver at rest, m/s. -/
def rangeRate (w : List Nat) (t : Fx) (x : Vec) : Fx :=
  (rangeTo w (t + fxQ 1 2) x).1 - (rangeTo w (t - fxQ 1 2) x).1

/-! ## The local horizon (WGS 84) -/

/-- Semi-major axis and squared eccentricity of WGS 84. -/
def wgsA : Fx := fx 6378137
def wgsE2 : Fx := fxQ 669437999014 (10 ^ 14)

/-- The sine and cosine of the geodetic latitude of a place at axis distance p and height z over the equator. -/
def latSteps (p z : Fx) : Nat → Fx × Fx → Fx × Fx
  | 0, sc => sc
  | n + 1, sc =>
    let nn := divx wgsA (sqrtx (fx 1 - mulx wgsE2 (sqx sc.1)))
    let zz := z + mulx (mulx wgsE2 nn) sc.1
    let r := sqrtx (sqx p + sqx zz)
    latSteps p z n (divx zz r, divx p r)

/-- A place's horizon: sine and cosine of latitude and longitude, and height over the ellipsoid, m. -/
structure Horizon where
  sp : Fx
  cp : Fx
  sl : Fx
  cl : Fx
  h  : Fx

def horizonOf (x : Vec) : Horizon :=
  let a := x.getD 0 0
  let b := x.getD 1 0
  let z := x.getD 2 0
  let p := sqrtx (sqx a + sqx b)
  let r := sqrtx (sqx p + sqx z)
  let sc := latSteps p z 12 (divx z r, divx p r)
  { sp := sc.1, cp := sc.2, sl := if p = 0 then 0 else divx b p, cl := if p = 0 then fx 1 else divx a p
    h := mulx p sc.2 + mulx z sc.1 - mulx wgsA (sqrtx (fx 1 - mulx wgsE2 (sqx sc.1))) }

/-- The east, north and up parts of a direction. -/
def Horizon.enu (g : Horizon) (u : Vec) : Vec :=
  let x := u.getD 0 0
  let y := u.getD 1 0
  let z := u.getD 2 0
  let c := mulx x g.cl + mulx y g.sl
  [mulx y g.cl - mulx x g.sl, mulx z g.cp - mulx c g.sp, mulx c g.cp + mulx z g.sp]

/-- Elevation of a direction, and azimuth clockwise from north, in radians. -/
def elevOf (e : Vec) : Fx := atan2x (e.getD 2 0) (sqrtx (sqx (e.getD 0 0) + sqx (e.getD 1 0)))
def azimOf (e : Vec) : Fx :=
  let a := atan2x (e.getD 0 0) (e.getD 1 0)
  if a < 0 then a + 2 * pix else a

/-! ## The ionosphere -/

/-- A polynomial in x, lowest coefficient first. -/
def polyx (x : Fx) (l : List Fx) : Fx := l.foldr (fun c s => c + mulx x s) 0

/-- The single-frequency ionospheric delay, s, from the coefficients as subframe 4 sends them, the horizon, the direction and the
GPS time of week, s (R171, R178; log 40). -/
def klobuchar (al be : List Int) (g : Horizon) (e : Vec) (t : Fx) : Fx :=
  let semi (a : Fx) : Fx := divx a pix
  let el := semi (elevOf e)
  let az := azimOf e
  let psi := divx (fxQ 137 10000) (el + fxQ 11 100) - fxQ 22 1000
  let phi0 := semi (atan2x g.sp g.cp) + mulx psi (cosx az)
  let lim := fxQ 416 1000
  let phi := max (-lim) (min lim phi0)
  let lam := semi (atan2x g.sl g.cl) + divx (mulx psi (sinx az)) (cosx (mulx phi pix))
  let phm := phi + mulx (fxQ 64 1000) (cosx (mulx (lam - fxQ 1617 1000) pix))
  let lt := (mulx (fx 43200) lam + t) % fx 86400
  let q := fxQ 53 100 - el
  let f := fx 1 + 16 * mulx q (sqx q)
  let amp := max 0 (polyx phm (List.zipWith fxExp al [30, 27, 24, 24]))
  let per := max (fx 72000) (polyx phm (List.zipWith (fun b k => fx (b * 2 ^ k)) be [11, 14, 16, 16]))
  let x := divx (mulx (2 * pix) (lt - fx 50400)) per
  let x2 := sqx x
  let day := mulx amp (fx 1 - x2.fdiv 2 + (sqx x2).fdiv 24)
  mulx f (fxQ 5 1000000000 + (if x.natAbs < (fxQ 157 100).natAbs then day else 0))

end Sys2Proof.Machine
end

