-- ==== Sys2Proof/Machine/Pos.lean ====
section
/-! DEFINITION. Machine/Pos.lean: the GNSS baseband: search engine, tracking channels, navigation words, measurement epochs,
FIXED quality, RTCM output, the keep area (GNSS baseband and base measurements). -/

namespace Sys2Proof.Machine

/-- POS's own state replaced. -/
def withPos (f : PosS → PosS) (d : Dev) : Dev := { d with pos := f d.pos }

/-- Channels and PRNs. -/
def chans : List Nat := List.range 24
def prns : List Nat := (List.range 32).map (· + 1)

def chG (c : Nat) (d : Dev) : ChanG := tget d.pos.ch c {}
def chGSet (c : Nat) (v : ChanG) (d : Dev) : Dev := withPos (fun p => { p with ch := tset p.ch c v {} }) d
def ephG (n : Nat) (d : Dev) : EphG := tget d.pos.eph n {}
def ephSet (n : Nat) (v : EphG) (d : Dev) : Dev := withPos (fun p => { p with eph := tset p.eph n v {} }) d

/-- Channel states (Table 05-2). -/
def cIdle : Nat := 0
def cWait : Nat := 1
def cPullin : Nat := 2
def cTrack : Nat := 3
def cReacq : Nat := 4

def chState (c : Nat) (d : Dev) : Nat := rd (POS.CHSTAT.STATE c) d
def chPrn (c : Nat) (d : Dev) : Nat := rd (POS.CHSTAT.PRN c) d

/-! ## Ephemerides in force (R170) -/

/-- The time of week WALL gives, in ns (R48). -/
def weekNs : Nat := 604800000000000
def towNs (t : Int) : Nat := (t % (weekNs : Int)).toNat

/-- A difference of two times of week, as a signed value within half a week. -/
def weekDiff (wk : Nat) (a b : Int) : Int :=
  let x := (a - b) % (wk : Int)
  if x * 2 < wk then x else x - wk

/-- The GPS time of week in ns: WALL's once it is valid, before that what the HOWs gave (R178). -/
def gpsTow (d : Dev) : Nat :=
  if on AON.WSTAT.VALID d then towNs (wall d)
  else match d.pos.coarse with
    | some (ms, r) => (ms * 1000000 + (d.raw - r) * 500 / 13) % weekNs
    | none => towNs (wall d)

/-- A set is in force and valid: |t − toe| ≤ 2 h. -/
def ephValid (n : Nat) (d : Dev) : Bool :=
  let w := (ephG n d).cur
  !w.isEmpty && decide ((weekDiff weekNs (gpsTow d) (ephToe w * 1000000000)).natAbs ≤ 7200000000000)

/-- A set's 6-bit SV health is 0. -/
def ephHealthy (n : Nat) (d : Dev) : Bool :=
  let w := (ephG n d).cur
  !w.isEmpty && ephHealth w == 0

/-- EPHSTAT and HEALTH, one bit a PRN. -/
def prnBits (t : Nat → Bool) : Nat := ((List.range 32).filter (fun i => t (i + 1))).foldl (fun a i => a + 2 ^ i) 0
def ephStat (d : Dev) : Nat := prnBits (fun n => ephValid n d)
def healthBits (d : Dev) : Nat := prnBits (fun n => ephHealthy n d)

/-! ## Channels (R159, R162–R168) -/

/-- The settings registers of a channel (Table 05-3). -/
def chRegs (c : Nat) (d : Dev) : ChanSet :=
  { bw := rd (POS.PLLCFG.BW c) d, int20 := on (POS.LOOPCTL.INT20EN c) d, limit := rd (POS.FLLCFG.LIMIT c) d }

/-- A channel back to a state without a signal: its flags and estimates gone, its PRN as given. It integrates nothing, so written
settings are its own at once (R163). -/
def chClear (c st prn : Nat) (d0 : Dev) : Dev :=
  let d := forAll [POS.CHSTAT.TRACK c, POS.CHSTAT.CARRIER c, POS.CHSTAT.HALF c, POS.CHSTAT.FSYNC c, POS.CHSTAT.BSYNC c,
    POS.CHSTAT.INT20 c, POS.CHSTAT.BTCAP c] (fun f d => wr f 0 d) d0
  let g := chG c d
  wr (POS.CHSTAT.PRN c) prn (wr (POS.CHSTAT.STATE c) st
    (chGSet c { held := g.held, set := chRegs c d, relAt := g.relAt, prnAt := g.prnAt } d))

/-- The L1 frequency, mHz (R155). -/
def l1mHz : Nat := 1575420000000

/-- The code phase of a channel now, 2^-32 ms: its last one carried along its Doppler (R161, R168). -/
def codeNow (c : Nat) (d : Dev) : W32 :=
  let g := chG c d
  let n : Int := (d.raw - g.at_ : Nat)
  BitVec.ofInt 32 ((g.code.toNat : Int) + (n * 2 ^ 32 * (l1mHz + g.dop.toInt)).fdiv (rawPerMs * l1mHz : Nat))

/-- Whether firmware has pinned a PRN to an enabled channel. -/
def pinned (c : Nat) (d : Dev) : Bool :=
  on (POS.CHCTL.PIN c) d && rd (POS.CHCTL.PRN c) d != 0 && on (POS.CHCTL.EN c) d

/-- IDLE, or WAIT where the channel is pinned (R168). -/
def chRest (c : Nat) (d : Dev) : Dev :=
  if pinned c d then chClear c cWait (rd (POS.CHCTL.PRN c) d) d else chClear c cIdle 0 d

/-- REACQ is entered: the NCOs coast, frame and bit sync go (R164, R166, R168; log 41). -/
def toReacq (c : Nat) (d : Dev) : Dev :=
  let g := chG c d
  let loss := if g.loss = 0 then d.raw else g.loss
  let slip := g.slip || on (POS.CHSTAT.CARRIER c) d
  let d := if on (POS.CHSTAT.CARRIER c) d then inc (POS.SLIPCNT c) d else d
  let d := chClear c cReacq (chPrn c d) d
  inc (POS.REACQCNT c) (chGSet c { chG c d with code := g.code, dop := g.dop, at_ := g.at_, loss := loss, slip := slip } d)

/-- PULLIN is entered with estimates of code phase and Doppler (R158). -/
def toPullin (c prn : Nat) (code dop : W32) (d : Dev) : Dev :=
  let g := chG c d
  let d := wr (POS.CHSTAT.PRN c) prn (wr (POS.CHSTAT.STATE c) cPullin d)
  inc POS.ACQCNT (chGSet c { g with code := code, dop := dop, at_ := d.raw, pull := d.raw, intAt := d.raw, set := chRegs c d } d)

/-- The lock time of a channel, ms (Table 05-6). -/
def lockMs (c : Nat) (d : Dev) : Nat :=
  if on (POS.CHSTAT.CARRIER c) d then min 0xFFFFFFFF ((d.raw - (chG c d).lock) / rawPerMs) else 0

/-- Integration over 20 ms, or BTCAP (R165): after bit sync, as INT20EN and the PLL bandwidth in force say. -/
def chInt (c : Nat) (d : Dev) : Dev :=
  if !on (POS.CHSTAT.BSYNC c) d then d
  else
    let g := chG c d
    let fits := decide (g.set.bw ≤ 15)
    let d := wrB (POS.CHSTAT.INT20 c) (g.set.int20 && fits) d
    if fits then d else wrB (POS.CHSTAT.BTCAP c) true d

/-- A channel integrates. -/
def chRuns (c : Nat) (d : Dev) : Bool := chState c d == cPullin || chState c d == cTrack

/-- The count at which the integration in hand ends: a whole number of 1 or 20 ms after the count it is counted from. -/
def chBoundary (c : Nat) (d : Dev) : Nat :=
  let g := chG c d
  let p := if on (POS.CHSTAT.INT20 c) d then 20 * rawPerMs else rawPerMs
  g.intAt + ((d.raw - g.intAt) / p + 1) * p

/-- Written settings are taken at the next integration boundary, or at once where nothing is integrated (R163). -/
def chSettings (c : Nat) (d : Dev) : Dev :=
  let g := chG c d
  if chRuns c d then chGSet c { g with due := some (g.due.getD (chBoundary c d)) } d
  else chGSet c { g with set := chRegs c d } d

/-- An integration boundary with something due: the channel is released, or takes its settings (R163; Table 05-13, note 3). -/
def chDue (c : Nat) (d : Dev) : Dev :=
  let g := chG c d
  match g.due with
  | none => d
  | some r =>
    if d.raw < r then d
    else if g.rel then chClear c cIdle 0 d
    else chInt c (chGSet c { g with set := chRegs c d, due := none } d)

/-- The PLL takes a channel over (R164, R168). -/
def pllHandover (c : Nat) (d : Dev) : Dev :=
  let st := chState c d
  if st = cPullin ∨ (st = cTrack ∧ !on (POS.CHSTAT.CARRIER c) d) then
    let d := wrB (POS.CHSTAT.CARRIER c) true (wrB (POS.CHSTAT.TRACK c) true (wr (POS.CHSTAT.STATE c) cTrack d))
    chGSet c { chG c d with lock := d.raw, loss := 0 } d
  else d

/-- Pull-in has lasted longer than its limit (R164). -/
def pullinTimeout (c : Nat) (d : Dev) : Dev :=
  if chState c d = cPullin ∧ (chG c d).pull + (chG c d).set.limit * 10 * rawPerMs ≤ d.raw then toReacq c d else d

/-- Bit sync (R165): integrations are counted from it on. -/
def bitSync (c : Nat) (d : Dev) : Dev :=
  if chState c d = cTrack ∧ !on (POS.CHSTAT.BSYNC c) d then
    chInt c (wrB (POS.CHSTAT.BSYNC c) true (chGSet c { chG c d with intAt := d.raw } d))
  else d

/-! ### Navigation words as bits (R166, R169) -/

/-- The source bits that a parity bit covers (IS-GPS-200 20.3.5.2; log 40). -/
def parCov : List (Bool × List Nat) :=
  [(false, [1, 2, 3, 5, 6, 10, 11, 12, 13, 14, 17, 18, 20, 23]), (true, [2, 3, 4, 6, 7, 11, 12, 13, 14, 15, 18, 19, 21, 24]),
   (false, [1, 3, 4, 5, 7, 8, 12, 13, 14, 15, 16, 19, 20, 22]), (true, [2, 4, 5, 6, 8, 9, 13, 14, 15, 16, 17, 20, 21, 23]),
   (true, [1, 3, 5, 6, 7, 9, 10, 14, 15, 16, 17, 18, 21, 22, 24]), (false, [3, 5, 6, 8, 9, 10, 11, 13, 15, 19, 22, 23, 24])]

/-- The data of a word as sent, d1 highest: inverted where the last word's D30 was 1. -/
def navData (prev word : Nat) : Nat := (word / 64) ^^^ (if bit prev 0 then 2 ^ 24 - 1 else 0)

/-- Whether a word passes parity after the last word's D29 and D30. -/
def navPar (prev word : Nat) : Bool :=
  let x := navData prev word
  let ps := parCov.map (fun e => e.2.foldl (fun a k => a ^^ bit x (24 - k)) (bit prev (if e.1 then 0 else 1)))
  ps.zipIdx.all (fun e => e.1 == bit word (5 - e.2))

/-- A preamble and the handover word after it, the newest at place k of the words received: its TOW count where it passes (R166). -/
def howAt (l : List Nat) (k : Nat) : Option Nat :=
  match l[k]?, l[k + 1]? with
  | some how, some tlm =>
    if navData (l.getD (k + 2) 0 % 4) tlm / 2 ^ 16 = 0x8B ∧ navPar tlm how = true then some (navData tlm how / 2 ^ 7) else none
  | _, _ => none

/-- Two preambles 6 s apart with consecutive TOW counts, the second handover word just received: the last TOW count. -/
def towSync (l : List Nat) : Option Nat :=
  match howAt l 0, howAt l 10 with
  | some a, some b => if a = (b + 1) % 100800 then some a else none
  | _, _ => none

/-- The preamble's polarity: it stands inverted among the bits as received (R167). -/
def inverted (l : List Nat) : Bool := (l.getD 1 0) / 2 ^ 22 != 0x8B

/-- Frame sync (R166, R167): the handover word of TOW count n ends 1,200 ms into the subframe that began at (n − 1) · 6 s, and the
next word is word 3. A half cycle is added where the preamble's polarity asks for one. -/
def frameSync (c : Nat) (d0 : Dev) : Dev :=
  let g := chG c d0
  match towSync g.hist with
  | none => d0
  | some n =>
    if chState c d0 = cTrack ∧ on (POS.CHSTAT.BSYNC c) d0 ∧ !(on (POS.CHSTAT.FSYNC c) d0 && on (POS.CHSTAT.HALF c) d0) then
      let half := !on (POS.CHSTAT.HALF c) d0 && (inverted g.hist != (g.half % 2 == 1))
      let tx := (n * 6000 + 604795200) % 604800000
      let d := wrB (POS.CHSTAT.HALF c) true (wrB (POS.CHSTAT.FSYNC c) true d0)
      let d := if on AON.WSTAT.VALID d then d else withPos (fun p => { p with coarse := some ((tx + 75) % 604800000, d0.raw) }) d
      let g := { g with wnum := 3, sfid := bits (navData (g.hist.getD 1 0) (g.hist.getD 0 0)) 2 3, sf := [], tx := tx, txRaw := d0.raw
                        good := navPar (g.hist.getD 2 0) (g.hist.getD 1 0) }
      chGSet c (if half then { g with slip := true, half := g.half + 1, lock := d.raw } else g) d
    else d0

/-- Carrier loss (R168). -/
def carrierLoss (c : Nat) (d : Dev) : Dev :=
  if chState c d = cTrack ∧ on (POS.CHSTAT.CARRIER c) d then
    let d := wrB (POS.CHSTAT.HALF c) false (wrB (POS.CHSTAT.CARRIER c) false d)
    inc (POS.SLIPCNT c) (chGSet c { chG c d with slip := true } d)
  else d

/-- Code loss (R166, R168). -/
def codeLoss (c : Nat) (d : Dev) : Dev := if chState c d = cTrack then toReacq c d else d

/-- Reacquisition has not succeeded within REACQWIN (R168). -/
def reacqTimeout (c : Nat) (d : Dev) : Dev :=
  if chState c d = cReacq ∧ (chG c d).loss + rd POS.REACQWIN d * rawPerS ≤ d.raw then chRest c d else d

/-! ## The search engine (R157–R161) -/

/-- The bin step, mHz, and the bins of a search whose half span is given in Hz: every multiple of the step within the span, lowest
first (R157; log 134). -/
def dopStep (d : Dev) : Int := rd POS.ACQCFG.DOPSTEP d * 50000
def dopBins (mid : Int) (span : Nat) (d : Dev) : List Int :=
  let k := span / (50 * rd POS.ACQCFG.DOPSTEP d)
  (List.range (2 * k + 1)).map (fun i => mid + ((i : Int) - k) * dopStep d)
def binsFull (d : Dev) : List Int := dopBins 0 (500 * rd POS.ACQCFG.DOPSPAN d) d

/-- A dwell's length: COH ms, NCOH times (R157). -/
def dwellCounts (d : Dev) : Nat := rd POS.ACQCFG.COH d * (rd POS.ACQCFG.NCOH d + 1) * rawPerMs

/-- The PRN a channel has, or searches. -/
def prnTaken (n : Nat) (d : Dev) : Bool := chans.any (fun c => chState c d != cIdle && chPrn c d == n)

/-- A channel that tracks a PRN, or seeks it again after a loss. -/
def prnTracker (n : Nat) (d : Dev) : Option Nat :=
  chans.find? (fun c => decide (cPullin ≤ chState c d) && chPrn c d == n)

/-- A round over channels: those not tried since the round began, else a new round. -/
def roundOf (off : Nat) (cs : List Nat) (d : Dev) : List Nat :=
  let l := cs.filter (fun c => !d.pos.tried.contains (off + c))
  if l.isEmpty then cs else l

/-- The half-chip of the 2,046 that a code phase lies in. -/
def halfChip (code : W32) : Nat := code.toNat * 2046 / 2 ^ 32

/-- The code phase of a half-chip, 2^-32 ms. -/
def codeOf (h : Nat) : W32 := BitVec.ofNat 32 (h % 2046 * 2 ^ 32 / 2046)

/-- Work for channels in REACQ, oldest loss first: ±64 half-chips and ±DOPSTEP round what the channel predicts (R159, R161). -/
def jobReacq (d : Dev) : Option Job :=
  let cs := roundOf 0 (chans.filter (fun c => chState c d == cReacq)) d
  (cs.find? (fun c => cs.all (fun e => decide ((chG c d).loss ≤ (chG e d).loss)))).map (fun c =>
    let f := (chG c d).dop.toInt
    { kind := 0, prn := chPrn c d, chan := c, bins := [f - dopStep d, f, f + dopStep d]
      from_ := (halfChip (codeNow c d) + 1982) % 2046, steps := 2 })

/-- A pinned channel waits for a PRN that no other channel tracks (R159). -/
def pinWaits (c : Nat) (d : Dev) : Bool := chState c d == cWait && (prnTracker (chPrn c d) d).isNone

/-- Work for pinned channels that are searching (R159). -/
def jobPinned (d : Dev) : Option Job :=
  ((roundOf 32 (chans.filter (fun c => pinWaits c d)) d).head?).map (fun c =>
    { kind := 1, prn := chPrn c d, chan := c, bins := binsFull d })

/-- PRNs of the search list that no channel has (R159). -/
def listed (n : Nat) (d : Dev) : Bool := bit (rd POS.SRCHLIST d) (n - 1) && !prnTaken n d

/-- Work for the search list: a warm start's PRNs first, ±500 Hz round their predicted Doppler, else ascending from the last one
searched (R159, R160). -/
def jobList (d : Dev) : Option Job :=
  match d.pos.warm.find? (fun e => listed e.1 d) with
  | some e => some { kind := 2, prn := e.1, chan := 24, bins := dopBins e.2 500 d }
  | none =>
    let order := prns.filter (fun n => decide (d.pos.lastP < n)) ++ prns.filter (fun n => decide (n ≤ d.pos.lastP))
    (order.find? (fun n => listed n d)).map (fun n => { kind := 2, prn := n, chan := 24, bins := binsFull d })

/-- A job still has its subject. -/
def jobLive (j : Job) (d : Dev) : Bool :=
  if j.kind = 0 then chState j.chan d == cReacq && chPrn j.chan d == j.prn
  else if j.kind = 1 then pinWaits j.chan d && chPrn j.chan d == j.prn
  else listed j.prn d

def jobOf (k : Nat) (d : Dev) : Option Job := (tget d.pos.jobs k none).bind (fun j => if jobLive j d then some j else none)
def jobPut (k : Nat) (j : Option Job) (d : Dev) : Dev := withPos (fun p => { p with jobs := tset p.jobs k j none }) d

/-- The work the engine takes at a dwell boundary, by kind: a job in hand goes on before another of its kind (R159). -/
def nextWork (d : Dev) : Option Job :=
  let try_ (k : Nat) (f : Dev → Option Job) : Option Job := match jobOf k d with
    | some j => some j
    | none => f d
  match try_ 0 jobReacq with
  | some j => some j
  | none => match try_ 1 jobPinned with
    | some j => some j
    | none => try_ 2 jobList

/-- The engine takes its next work, as ACQSTAT shows, and a dwell begins. -/
def takeWork (d0 : Dev) : Dev :=
  let w := if on POS.BBSTAT.RUN d0 then nextWork d0 else none
  let d := withPos (fun p => { p with work := w.map (·.kind), dwellEnd := d0.raw + dwellCounts d0 }) d0
  let d := match w with
    | some j => jobPut j.kind (some j) d
    | none => d
  wrB POS.ACQSTAT.REACQ (match w with | some j => j.kind == 0 | none => false)
    (wr POS.ACQSTAT.PRN (match w with | some j => j.prn | none => 0) d)

/-- An engine without work takes what has come up. -/
def workIdle (d : Dev) : Dev := if on POS.BBSTAT.RUN d && d.pos.work.isNone then takeWork d else d

/-- A job has ended: its channel has had its turn, or its PRN is the last one searched. -/
def jobEnd (j : Job) (d0 : Dev) : Dev :=
  let d := jobPut j.kind none d0
  if j.kind = 2 then
    withPos (fun p => { p with lastP := j.prn, warm := p.warm.filter (fun e => e.1 ≠ j.prn) }) d
  else
    let off := 32 * j.kind
    let all_ := (chans.filter (fun c => chState c d == (if j.kind = 0 then cReacq else cWait))).map (off + ·)
    let t := (off + j.chan) :: d.pos.tried
    let done := all_.all (fun x => t.contains x)
    withPos (fun p => { p with tried := if done then p.tried.filter (fun x => decide (x / 32 ≠ j.kind)) else t }) d

/-- A confirmed PRN is handed to its channel, or to the lowest enabled IDLE unpinned one (R158, R159). -/
def handTo (j : Job) (code dop : W32) (d : Dev) : Dev :=
  if j.kind < 2 then toPullin j.chan j.prn code dop d
  else
    match chans.find? (fun c => on (POS.CHCTL.EN c) d && chState c d == cIdle && !on (POS.CHCTL.PIN c) d) with
    | some c => toPullin c j.prn code dop d
    | none => d

/-- The sweep goes on from the next cell: the next step, else the first of the next bin; none after the last (R157, R158). -/
def Job.next (j : Job) : Option Job :=
  if j.step + 1 < j.steps then some { j with step := j.step + 1, conf := none }
  else match j.bins with
    | _ :: b :: r => some { j with bins := b :: r, step := 0, conf := none }
    | _ => none

/-- A dwell has ended, its highest peak among the 64 phases being that of `lane` (R157, R158): a peak above THR is confirmed by one
more dwell of the same code phase and bin, then handed over. A confirming dwell looks at its own phase, whatever lane is named. -/
def acqDwell (peak noise lane : Nat) (d : Dev) : Dev :=
  if !on POS.BBSTAT.RUN d || (d.pos.work.isSome && decide (d.raw < d.pos.dwellEnd)) then d
  else
    match d.pos.work.bind (fun k => jobOf k d) with
    | none => takeWork d
    | some j =>
      let hit := decide (rd POS.ACQCFG.THR d * noise < 16 * peak)
      takeWork (
        match j.conf, hit with
        | some h, true => jobEnd j (handTo j (codeOf h) (BitVec.ofInt 32 (j.bins.headD 0)) d)
        | none, true => jobPut j.kind (some { j with conf := some ((j.from_ + 64 * j.step + lane) % 2046) }) d
        | _, false => match j.next with
          | some n => jobPut j.kind (some n) d
          | none => jobEnd j d)

/-- CHCTL.PRN written: ignored in the clock cycle of a REL (Table 05-13, note 3). -/
def chPrnWrite (c prn : Nat) (d : Dev) : Dev :=
  if 32 < prn ∨ (chG c d).relAt = some d.raw then d
  else wr (POS.CHCTL.PRN c) prn (chGSet c { chG c d with prnAt := some (d.raw, rd (POS.CHCTL.PRN c) d) } d)

/-- REL: a PRN written in this clock cycle is ignored (Table 05-13, note 3). -/
def chRel (c : Nat) (d : Dev) : Dev :=
  let g := chG c d
  let d := match g.prnAt with
    | some (r, n) => if r = d.raw then wr (POS.CHCTL.PRN c) n d else d
    | none => d
  chGSet c { g with relAt := some d.raw, prnAt := none } d

/-- A channel released by firmware, by REL or by clearing EN: IDLE at its next integration boundary, at once where nothing is
integrated (Table 05-13, note 3). -/
def chRelease (c : Nat) (rel : Bool) (d0 : Dev) : Dev :=
  let d := if rel then chRel c d0 else wrB (POS.CHCTL.EN c) false d0
  if chRuns c d then chGSet c { chG c d with due := some ((chG c d).due.getD (chBoundary c d)), rel := true } d
  else chClear c cIdle 0 d

/-- A PRN and PIN written to CHCTL (R159): a channel that tracks the PRN is released at once, and this one starts in REACQ with its
estimates. A write in the clock cycle of a release leaves the channel IDLE (Table 05-13, note 3). -/
def chPin (c prn : Nat) (d0 : Dev) : Dev :=
  let d := wrB (POS.CHCTL.PIN c) true (chPrnWrite c prn d0)
  let n := rd (POS.CHCTL.PRN c) d
  if n = 0 ∨ !on (POS.CHCTL.EN c) d ∨ !on POS.BBSTAT.RUN d ∨ (chState c d ≠ cIdle ∧ chPrn c d = n) ∨
      (chG c d).relAt = some d.raw then d
  else
    match (prnTracker n d).filter (· != c) with
    | none => chClear c cWait n d
    | some e =>
      let g := chG e d
      let d := chClear c cReacq n (chClear e cIdle 0 d)
      inc (POS.REACQCNT c) (chGSet c { chG c d with code := g.code, dop := g.dop, at_ := g.at_, loss := d.raw } d)

/-! ## Navigation words (R169, R170) -/

/-- The item of Table 05-4. -/
def navItem (data word prn c wnum sfid : Nat) (par inv : Bool) : W64 :=
  BitVec.ofNat 64 (word % 64 + data * 2 ^ 6 + b2n par * 2 ^ 30 + b2n inv * 2 ^ 31 + prn * 2 ^ 32 + c * 2 ^ 40 +
    wnum * 2 ^ 45 + sfid * 2 ^ 49)

/-- A held word goes in while SQ21 has room. -/
def navFlush : Nat → Nat → Dev → Dev
  | 0, _, d => d
  | n + 1, c, d => match (chG c d).held with
    | [] => d
    | x :: r =>
      if hwRoom 21 1 d then navFlush n c (inc (POS.WORDCNT c) (hwPush 21 [x] (chGSet c { chG c d with held := r } d))) else d

/-- Words held back go in, channel by channel. -/
def navFlushAll (d : Dev) : Dev := forAll chans (fun c => navFlush 16 c) d

/-- A word for SQ21 (R169): delivered, or held, the channel's oldest dropped beyond 16. -/
def navOut (c : Nat) (x : W64) (d0 : Dev) : Dev :=
  let d := navFlush 16 c d0
  let g := chG c d
  if g.held.isEmpty && hwRoom 21 1 d then inc (POS.WORDCNT c) (hwPush 21 [x] d)
  else if g.held.length < 16 then chGSet c { g with held := g.held ++ [x] } d
  else inc POS.NAVDROP (chGSet c { g with held := g.held.drop 1 ++ [x] } d)

/-! ### The keep area (R182, R183, Table 05-9) -/

def keepBase : Nat := 0x3000

/-- The CRC over bytes 4–3,135 brought up to date. -/
def keepCrc (d : Dev) : Dev := retWrite keepBase (leBytes 4 (crc32 (retRead (keepBase + 4) 3132 d))) d

/-- The ephemeris entry of a PRN rewritten. -/
def keepEph (n : Nat) (d : Dev) : Dev :=
  let w := (ephG n d).cur
  let b := (List.range 24).flatMap (fun i => leBytes 3 (w.getD i 0))
  retWrite (keepBase + 576 + 80 * (n - 1)) (b ++ leBytes 2 (ephIodc w) ++ List.replicate 6 0) d

/-- The header and every PRN's entry rewritten (R182). -/
def keepAll (d0 : Dev) : Dev :=
  let z := rd POS.BASEZ d0 % 2 ^ 63 + b2n (on POS.BASECTL.VALID d0) * 2 ^ 63
  let head := leBytes 8 (ofS 64 (wall d0)) ++ leBytes 8 (rd POS.BASEX d0) ++ leBytes 8 (rd POS.BASEY d0) ++ leBytes 8 z
  let d := retWrite (keepBase + 4) (head ++ List.replicate 28 0) d0
  let d := forAll prns (fun n d =>
    let e := ephG n d
    let fl := b2n e.seen + 2 * b2n (!e.cur.isEmpty)
    retWrite (keepBase + 64 + 16 * (n - 1)) (leBytes 4 e.dop.toNat ++ leBytes 4 e.code.toNat ++ leBytes 4 e.at_ ++ leBytes 4 fl) d) d
  keepCrc d

/-- What each tracked PRN's channel says of it now. -/
def ephSeen (d : Dev) : Dev :=
  forAll chans (fun c d =>
    if chState c d = cTrack then
      let n := chPrn c d
      let g := chG c d
      ephSet n { ephG n d with dop := g.dop, code := codeNow c d, at_ := ((wall d).fdiv 1000000000 % (2 ^ 32 : Nat)).toNat, seen := true } d
    else d) d

/-- KEEP_UPDATE (R182). -/
def keepUpdate (d : Dev) : Dev := if on POS.BBSTAT.RUN d then keepAll (ephSeen d) else d

/-- The keep area passes its CRC. -/
def keepOk (d : Dev) : Bool := ofLe (retRead keepBase 4 d) == crc32 (retRead (keepBase + 4) 3132 d)

/-- Kept per-PRN entries and ephemerides taken (Table 05-9). -/
def keepTake (d0 : Dev) : Dev :=
  forAll prns (fun n d =>
    let e := retRead (keepBase + 64 + 16 * (n - 1)) 16 d
    let fl := ofLe (sub e 12 4)
    let w := retRead (keepBase + 576 + 80 * (n - 1)) 72 d
    ephSet n { dop := BitVec.ofNat 32 (ofLe (sub e 0 4)), code := BitVec.ofNat 32 (ofLe (sub e 4 4)), at_ := ofLe (sub e 8 4)
               seen := bit fl 0, cur := if bit fl 1 then (List.range 24).map (fun i => ofLe (sub w (3 * i) 3)) else [] } d) d0

/-- A set complete and consistent is installed in one step (R170). -/
def ephInstall (n : Nat) (d : Dev) : Dev :=
  let e := ephG n d
  let iode2 := bits (e.sf2.getD 0 0) 16 8
  let iode3 := bits (e.sf3.getD 7 0) 16 8
  if e.sf1.isEmpty || e.sf2.isEmpty || e.sf3.isEmpty then d
  else if iode2 = iode3 ∧ iode2 = ephIodc e.sf1 % 256 then
    let d := ephSet n { e with cur := e.sf1 ++ e.sf2 ++ e.sf3, sf1 := [], sf2 := [], sf3 := [] } d
    let d := withPos (fun p => { p with rtcmNew := p.rtcmNew.filter (· ≠ n) ++ [n] }) d
    keepCrc (keepEph n (inc POS.EPHCNT d))
  else d

/-- A subframe with every word good is kept for its PRN. -/
def ephCollect (n sfid : Nat) (w : List Nat) (d : Dev) : Dev :=
  let e := ephG n d
  if sfid = 1 then ephInstall n (ephSet n { e with sf1 := w } d)
  else if sfid = 2 then ephInstall n (ephSet n { e with sf2 := w } d)
  else if sfid = 3 then ephInstall n (ephSet n { e with sf3 := w } d)
  else d

/-- A navigation word (R169, R170). -/
def navWord (c word : Nat) (d0 : Dev) : Dev :=
  if chState c d0 ≠ cTrack ∨ !on (POS.CHSTAT.BSYNC c) d0 then d0
  else
    let g := chG c d0
    let data := navData g.prev word
    let par := navPar g.prev word
    let sfid := if g.wnum = 1 then 0 else if g.wnum = 2 then (if par then bits data 2 3 else 0) else g.sfid
    let good := if g.wnum = 1 then par else g.good && par
    let sf := if g.wnum < 3 then [] else g.sf ++ [data]
    let n := chPrn c d0
    let d := if par then d0 else inc (POS.PARERR c) d0
    let d := chGSet c { g with prev := word % 4, sfid := sfid, good := good, sf := sf, hist := (word :: g.hist).take 13
                               wnum := if g.wnum = 0 then 0 else g.wnum % 10 + 1
                               tx := (g.tx + 600) % 604800000, txRaw := d.raw } d
    let d := if g.wnum = 10 ∧ good = true then ephCollect n sfid sf d else d
    navOut c (navItem data word n c g.wnum sfid par (bit g.prev 0)) d

/-! ## Start and stop (R160, R182, R183) -/

/-- The base position from the keep area (R183). BASEZ keeps its sign in bit 62 there. -/
def baseKept (ok : Bool) (d : Dev) : Dev :=
  let z := ofLe (retRead (keepBase + 28) 8 d)
  if !on POS.BASECTL.VALID d && ok && bit z 63 then
    let d := wr POS.BASEX (ofLe (retRead (keepBase + 12) 8 d)) (wr POS.BASEY (ofLe (retRead (keepBase + 20) 8 d)) d)
    wrB POS.BBSTAT.BASEKEPT true (wrB POS.BASECTL.VALID true (wr POS.BASEZ (setBit z 63 (bit z 62)) d))
  else wrB POS.BBSTAT.BASEKEPT false d

/-- The base position, m (R177). -/
def basePos (d : Dev) : Vec := [POS.BASEX, POS.BASEY, POS.BASEZ].map (fun f => fxQ (toS 64 (rd f d)) 10000)

/-- A direction towards a PRN's satellite that sent at a time of week, s, east, north and up of the base. -/
def skyOf (w : List Nat) (t : Fx) (xb : Vec) : Vec := (horizonOf xb).enu (rangeTo w (t - satClock w t) xb).2

/-- A time of week in ns as seconds, and one 75 ms earlier, about when a signal received then was sent. -/
def secx (ns : Int) : Fx := fxQ ns 1000000000
def sentx (ns : Int) : Fx := secx (ns - 75000000)

/-- The Doppler of a satellite seen from the base, mHz, at a time of week in ns, the receiver's own clock error left out. -/
def dopOf (w : List Nat) (ns : Int) (xb : Vec) : Int := -roundTimes (divx (rangeRate w (sentx ns) xb) lambdax) 1000

/-- A PRN's Doppler as the keep area predicts it (R160): the kept one, moved as the satellite's geometry has since then
(DESIGN CHOICE, log 134). -/
def dopPredict (n : Nat) (xb : Vec) (d : Dev) : Int :=
  let e := ephG n d
  let w := e.cur
  let now := dopOf w (towNs (wall d)) xb
  if e.seen then e.dop.toInt + now - dopOf w (towNs (e.at_ * 1000000000)) xb else now

/-- An insertion by falling first key, and a list so sorted. -/
def insertBy (x : Int × Nat) : List (Int × Nat) → List (Int × Nat)
  | [] => [x]
  | y :: r => if y.1 < x.1 then x :: y :: r else y :: insertBy x r

/-- Up to 12 PRNs that the keep area predicts above 0°, highest first, each with its predicted Doppler (R160). Without a base position
nothing is predicted, and the search is SRCHLIST's (DESIGN CHOICE, log 134). -/
def warmPrns (d : Dev) : List (Nat × Int) :=
  if !on POS.BASECTL.VALID d then []
  else
    let xb := basePos d
    let up := prns.filterMap (fun n =>
      let w := (ephG n d).cur
      if w.isEmpty then none
      else
        let u := (skyOf w (sentx (towNs (wall d))) xb).getD 2 0
        if 0 < u then some (u, n) else none)
    ((up.foldl (fun l x => insertBy x l) []).take 12).map (fun e => (e.2, dopPredict e.2 xb d))

/-- A PRN pinned to several channels waits on each (R159: only one of them can come to track it). -/
def bbPins (d : Dev) : Dev := forAll chans (fun c d => if pinned c d then chClear c cWait (rd (POS.CHCTL.PRN c) d) d else d) d

/-- Setting EN (R160, R182, R183). -/
def bbStart (d0 : Dev) : Dev :=
  let ok := keepOk d0
  let age := wall d0 - toS 64 (ofLe (retRead (keepBase + 4) 8 d0))
  let warm := !d0.pos.cold && ok && decide (age ≤ 7200000000000) && on AON.WSTAT.VALID d0
  let d := baseKept ok d0
  let d := if ok then keepTake d else d
  let d := wrB POS.BBSTAT.RUN true (wrB POS.BBSTAT.KEEPBAD (!ok) (wrB POS.BBSTAT.WARM warm d))
  let d := withPos (fun p => { p with cold := false, warm := if warm then warmPrns d else [], lastP := 0, jobs := [],
                                      tried := [], work := none, lastAt := none, latch := none }) d
  takeWork (bbPins d)

/-- Clearing EN: the baseband stops and every channel is IDLE. -/
def bbStop (d0 : Dev) : Dev :=
  let d := forAll chans (fun c => chClear c cIdle 0) (wrB POS.BBSTAT.RUN false d0)
  wr POS.ACQSTAT.PRN 0 (wrB POS.ACQSTAT.REACQ false (withPos (fun p => { p with jobs := [], work := none, latch := none }) d))

/-- BBCTL written. -/
def bbCtl (v : Nat) (d0 : Dev) : Dev :=
  let was := on POS.BBCTL.EN d0
  let d := wrB POS.BBCTL.EN (bit v 0) (if bit v 1 then withPos (fun p => { p with cold := true }) d0 else d0)
  if bit v 0 && !was then bbStart d else if !bit v 0 && was then bbStop d else d

/-! ## Measurement epochs (R172–R176) -/

/-- PERIOD in ms. -/
def periodMs (d : Dev) : Nat := [10, 20, 50, 100, 200, 1000].getD (rd POS.MEASCFG.PERIOD d) 100

/-- The whole ms of transmit time at a sample whose code phase is given: what the channel knows from the last word, carried to now
(R166, R174). Without frame sync it is not known (a free value). -/
def txmsOf (c : Nat) (code : W32) (d : Dev) : Nat :=
  let g := chG c d
  if on (POS.CHSTAT.FSYNC c) d then
    let p : Int := g.tx * 2 ^ 32 + ((d.raw - g.txRaw : Nat) * 2 ^ 32 * (l1mHz + g.dop.toInt)).fdiv (rawPerMs * l1mHz : Nat)
    ((p - code.toNat + 2 ^ 31).fdiv (2 ^ 32) % 604800000).toNat
  else (Config.freeValue (d.free + c)).toNat % 2 ^ 32

/-- The accumulated carrier phase at a sample, 2^-16 cycle, from the phase the loop shows (R174): half cycles added, and while the
lock holds, whole cycles such that it goes on from the last epoch's at the Doppler between the two. -/
def acpOf (c : Nat) (m : Meas) (d : Dev) : Int :=
  let g := chG c d
  let v : Int := m.acp.toInt + g.half * 2 ^ 15
  match g.acp with
  | none => v
  | some a =>
    if g.slip then v
    else
      let p := a - ((g.dop.toInt + m.dop.toInt) * (d.raw - g.at_ : Nat) * 2 ^ 16).fdiv (2000 * rawPerS : Nat)
      p + toS 16 (ofS 16 (v - p))

/-- Whole degrees of an angle, rounded down (log 135). -/
def degrees (a : Fx) : Int := (a * 180).fdiv pix

/-- Elevation in degrees and azimuth in 2° units from a set and the base position (R177). -/
def elAz (w : List Nat) (t : Fx) (xb : Vec) : Int × Nat :=
  let e := skyOf w t xb
  (degrees (elevOf e), (degrees (azimOf e)).toNat % 360 / 2)

/-- A channel's entry (Tables 05-6, 05-7), as registers and the sample give it. -/
def chEntry (c : Nat) (m : Meas) (d : Dev) : List Nat :=
  let st := chState c d
  let n := chPrn c d
  if n = 0 then List.replicate 32 0
  else
    let g := chG c d
    let known := on POS.BASECTL.VALID d && ephValid n d
    let tx := txmsOf c m.code d
    let t := if on (POS.CHSTAT.FSYNC c) d then fxQ (tx * 2 ^ 32 + m.code.toNat : Nat) (1000 * 2 ^ 32) else sentx (gpsTow d)
    let ea := if known then elAz (ephG n d).cur t (basePos d) else (-128, 255)
    let el := ofS 8 ea.1
    let az := ea.2
    let mask := known && decide (ea.1 < (rd POS.BELMASK d : Int))
    let fl := rd (POS.CHSTAT.TRACK c) d + rd (POS.CHSTAT.CARRIER c) d * 2 + rd (POS.CHSTAT.HALF c) d * 4 + b2n g.slip * 8 +
      rd (POS.CHSTAT.FSYNC c) d * 16 + rd (POS.CHSTAT.BSYNC c) d * 32 + b2n (ephValid n d) * 64 + b2n (ephHealthy n d) * 128 +
      b2n mask * 256 + rd (POS.CHSTAT.INT20 c) d * 512
    [n, st] ++ leBytes 2 fl ++ leBytes 4 m.code.toNat ++ leBytes 4 tx ++ leBytes 8 (ofS 64 (acpOf c m d)) ++
      leBytes 4 m.dop.toNat ++ leBytes 2 m.cn0.toNat ++ [el, az] ++ leBytes 4 (lockMs c d)

/-- What a sampled channel goes on from: code phase and Doppler where it tracks code, and the carrier phase where it tracks that. A loss
is predicted from here, or from the acquisition's estimate before the first epoch (R161; DESIGN CHOICE, log 150). -/
def chSampled (c : Nat) (m : Meas) (acp : Int) (d : Dev) : Dev :=
  let g := chG c d
  let g := if chRuns c d then { g with code := m.code, dop := m.dop, at_ := d.raw } else g
  let held := on (POS.CHSTAT.CARRIER c) d
  chGSet c { g with slip := false, acp := if held then some acp else none, align := if held && !g.slip then g.align else none } d

/-- Fields of a channel entry. -/
def eFlags (e : List Nat) : Nat := ofLe (sub e 2 2)
def eCn0 (e : List Nat) : Nat := ofLe (sub e 24 2)
def eElev (e : List Nat) : Int := toS 8 (e.getD 26 0)
def eLock (e : List Nat) : Nat := ofLe (sub e 28 4)

/-- What the last epoch's registers show of a channel (Table 05-13). -/
def chLatch (c : Nat) (m : Meas) (e : List Nat) (d : Dev) : Dev :=
  let d := wr (POS.TXMS c) (ofLe (sub e 8 4)) (wr (POS.CODEFRAC c) (ofLe (sub e 4 4)) d)
  let d := wr (POS.DOPPLER c) (ofLe (sub e 20 4)) (wr (POS.ACP c) (ofLe (sub e 12 8)) d)
  let d := wr (POS.CN0 c) (eCn0 e) d
  let none_ := e.getD 0 0 == 0
  let d := wr (POS.ELAZ.AZIM c) (if none_ then 0xFF else e.getD 27 0) (wr (POS.ELAZ.ELEV c) (if none_ then 0x80 else e.getD 26 0) d)
  chSampled c m (toS 64 (ofLe (sub e 12 8))) d

/-- The ephemeris sets of the channels' PRNs, as an epoch uses them (R170). -/
def ephInForce (d : Dev) : Tbl (List Nat) :=
  chans.foldl (fun l c => tset l (chPrn c d) (ephG (chPrn c d) d).cur []) []

/-- A firing has arrived (R172, R173): every channel sampled at one count, or the firing ignored and counted. -/
def measLatch (m : List Meas) (d0 : Dev) : Dev :=
  if d0.pos.epochDue = 0 then d0
  else
    let d := withPos (fun p => { p with epochDue := p.epochDue - 1 }) d0
    let soon := match d.pos.lastAt with
      | some r => decide (d.raw < r + 5 * rawPerMs)
      | none => false
    if !on POS.BBCTL.EN d || soon then inc POS.EPSKIP d
    else
      let d := inc POS.EPOCHSEQ d
      let at_ (c : Nat) : Meas := m.getD c ⟨0, 0, 0, 0⟩
      let es := chans.map (fun c => chEntry c (at_ c) d)
      let l : Latch := { seq := rd POS.EPOCHSEQ d, raw := d.raw, wall := ofS 64 (wall d), lockd := on AON.WSTAT.LOCKED d
                         step := d.pos.step, ents := es.flatten, eph := ephInForce d }
      let d := drawnN 192 (forAll (es.zipIdx) (fun e d => chLatch e.2 (at_ e.2) e.1 d) d)
      withPos (fun p => { p with latch := some l, lastAt := some d.raw, step := false }) d

/-- The c-th entry of a latch or record. -/
def entOf (ents : List Nat) (c : Nat) : List Nat := sub ents (32 * c) 32

/-! ### FIXED quality (R179) -/

/-- A channel counts for FIXED quality. -/
def fixChan (e : List Nat) (d : Dev) : Bool :=
  let f := eFlags e
  e.getD 0 0 != 0 && [0, 1, 2, 4, 6, 7].all (fun i => bit f i) && !bit f 8 && decide (10000 ≤ eLock e) &&
    decide (rd POS.FIXCN0 d ≤ eCn0 e)

/-- FIXQ has changed: FIXEVT, a token, a record, a report to SEC. -/
def fixqSet (v : Bool) (d : Dev) : Dev :=
  if on POS.BASESTAT.FIXQ d == v then d
  else
    let d := wrB POS.BASESTAT.FIXEVT true (wrB POS.BASESTAT.FIXQ v d)
    hwPush 20 [BitVec.ofNat 64 (b2n v)] (lichen POSi 0x0902 [b2n v] (token 6 POSi 0xEF (b2n v) d))

/-- FIXQ after an epoch: set at the first good one, cleared once epochs have failed for 1 s. -/
def fixqEpoch (l : Latch) (d0 : Dev) : Dev :=
  let n := (chans.filter (fun c => fixChan (entOf l.ents c) d0)).length
  let good := on POS.BASECTL.VALID d0 && on AON.WSTAT.LOCKED d0 && rd AON.WCTL.SRC d0 == 1 && decide (5 ≤ n)
  let d := wr POS.BASESTAT.QUALN n d0
  if good then fixqSet true (withPos (fun p => { p with failAt := none }) d)
  else match d.pos.failAt with
    | none => withPos (fun p => { p with failAt := some l.raw }) d
    | some r => if r + rawPerS ≤ l.raw then fixqSet false d else d

/-! ### What an entry measures (R174) -/

def ePrn (e : List Nat) : Nat := e.getD 0 0
/-- Transmit time, s of the week, and carrier phase in cycles and Doppler in Hz. -/
def eSent (e : List Nat) : Fx := fxQ (ofLe (sub e 8 4) * 2 ^ 32 + ofLe (sub e 4 4) : Nat) (1000 * 2 ^ 32)
def ePhase (e : List Nat) : Fx := fxExp (toS 64 (ofLe (sub e 12 8))) 16
def eDop (e : List Nat) : Fx := fxQ (toS 32 (ofLe (sub e 20 4))) 1000

/-- WALL of a latch as a time of week, s. -/
def Latch.tow (l : Latch) : Fx := secx (towNs (toS 64 l.wall))

/-- The pseudorange of an entry in seconds: WALL less transmit time. -/
def Latch.delay (l : Latch) (e : List Nat) : Fx := weekx (l.tow - eSent e)

/-! ### RTCM (R181, Table 05-8) -/

/-- Bit fields, the first highest, as bytes, filled up with zeros (RTCM 10403.3; log 101). -/
def bitBytes (l : List (Nat × Nat)) : List Nat :=
  let n := (l.map Prod.snd).sum
  let v := l.foldl (fun a e => a * 2 ^ e.2 + e.1 % 2 ^ e.2) 0
  beBytes ((n + 7) / 8) (v * 2 ^ ((n + 7) / 8 * 8 - n))

/-- Message 1005: the station, GPS only, and the base position. -/
def rtcm1005 (d : Dev) : List Nat :=
  bitBytes [(1005, 12), (rd POS.RTCMCFG.STAID d, 12), (0, 6), (1, 1), (0, 1), (0, 1), (0, 1), (rd POS.BASEX d, 38), (1, 1), (0, 1),
    (rd POS.BASEY d, 38), (0, 2), (rd POS.BASEZ d, 38)]

/-- Carrier cycles in a ms. -/
def cyclesPerMs : Nat := 1575420

/-- What MSM4 sends of a channel: the rough range in 1/1024 ms, the fine range in 2^-24 ms, the fine phase range in 2^-29 ms where
there is one, lock indicator, half-cycle flag and C/N0. -/
structure Msm where
  prn   : Nat
  rough : Int
  fine  : Int
  phase : Option Int
  lock  : Nat
  half  : Bool
  cn0   : Nat

/-- The lock-time indicator (DF402) of a lock time in ms. -/
def lockInd (ms : Nat) : Nat := if ms < 32 then 0 else min 15 (Nat.log2 ms - 4)

/-- The whole cycles that bring a phase range near the pseudorange. -/
def alignOf (l : Latch) (e : List Nat) : Int := roundx (mulx (l.delay e * 1000) (fx cyclesPerMs) - ePhase e)

/-- An entry as MSM4 sends it; the phase range only with CARRIER and HALF. -/
def msmOf (l : Latch) (c : Nat) (e : List Nat) (d : Dev) : Msm :=
  let ms := l.delay e * 1000
  let rough := roundTimes ms 1024
  let rest := ms - fxQ rough 1024
  let carr := bit (eFlags e) 1 && bit (eFlags e) 2
  let whole := (chG c d).align.getD (alignOf l e)
  let ph := roundTimes ((ePhase e + fx whole).fdiv cyclesPerMs - fxQ rough 1024) (2 ^ 29)
  { prn := ePrn e, rough := rough, fine := roundTimes rest (2 ^ 24)
    phase := if carr && decide (ph.natAbs < 2 ^ 21) then some ph else none
    lock := if carr then lockInd (eLock e) else 0, half := carr, cn0 := min 63 ((eCn0 e + 5) / 10) }

/-- The channels whose measurements go out: TRACK and FSYNC. -/
def msmChans (l : Latch) : List Nat := chans.filter (fun c =>
  let e := entOf l.ents c
  ePrn e != 0 && bit (eFlags e) 0 && bit (eFlags e) 4)

/-- Message 1074: the epoch, the masks, then the satellites' and the signals' data in ascending PRN. -/
def rtcm1074 (l : Latch) (d : Dev) : List Nat :=
  let all_ := (msmChans l).map (fun c => msmOf l c (entOf l.ents c) d)
  let ms := prns.filterMap (fun n => all_.find? (fun m => m.prn == n))
  let okR (m : Msm) : Bool := decide (0 ≤ m.rough ∧ m.rough < 255 * 1024)
  let head := [(1074, 12), (rd POS.RTCMCFG.STAID d, 12), ((roundTimes l.tow 1000).toNat % 604800000, 30), (0, 1), (0, 3), (0, 7),
    (1, 2), (0, 2), (0, 1), (0, 3)]
  let sats := (List.range 64).map (fun i => (b2n (ms.any (fun m => m.prn == i + 1)), 1))
  let sigs := (List.range 32).map (fun i => (b2n (i == 1 && !ms.isEmpty), 1))
  let f (g : Msm → Nat) (k : Nat) : List (Nat × Nat) := ms.map (fun m => (g m, k))
  bitBytes (head ++ sats ++ sigs ++ f (fun _ => 1) 1 ++ f (fun m => if okR m then m.rough.toNat / 1024 else 255) 8 ++
    f (fun m => if okR m then m.rough.toNat % 1024 else 0) 10 ++
    f (fun m => if okR m then ofS 15 m.fine else 2 ^ 14) 15 ++
    f (fun m => match m.phase with | some p => ofS 22 p | none => 2 ^ 21) 22 ++
    f (fun m => m.lock) 4 ++ f (fun m => b2n !m.half) 1 ++ f (fun m => m.cn0) 6)

/-- Message 1019: a PRN's set. -/
def rtcm1019 (n : Nat) (d : Dev) : List Nat :=
  let w := (ephG n d).cur
  let x (i lo k : Nat) : Nat × Nat := (bits (ephWord w i) lo k, k)
  bitBytes [(1019, 12), (n, 6), x 0 14 10, x 0 8 4, x 0 12 2, x 23 2 14, x 8 16 8, x 5 0 16, x 6 16 8, x 6 0 16, x 7 2 22,
    (ephIodc w, 10), x 8 0 16, x 9 8 16, (ephU32 w 9, 32), x 11 8 16, (ephU32 w 11, 32), x 13 8 16, (ephU32 w 13, 32), x 15 8 16,
    x 16 8 16, (ephU32 w 16, 32), x 18 8 16, (ephU32 w 18, 32), x 20 8 16, (ephU32 w 20, 32), x 22 0 24, x 4 0 8, x 0 2 6,
    x 1 23 1, x 15 7 1]

/-- An RTCM frame: preamble, length, body, CRC-24Q. -/
def rtcmFrame (b : List Nat) : List Nat :=
  let h := [0xD3] ++ beBytes 2 (b.length % 1024) ++ b
  h ++ beBytes 3 (crc24 0x864CFB 0 h)

/-- Bytes as items of eight, lowest byte first. -/
def packItems (b : List Nat) : List W64 := (List.range ((b.length + 7) / 8)).map (fun i => BitVec.ofNat 64 (ofLe (sub b (8 * i) 8)))

/-- The PRN whose ephemeris goes out: a newly installed one, else the next valid one in ascending order. -/
def rtcmPrn (d : Dev) : Option Nat :=
  match d.pos.rtcmNew.find? (fun n => ephValid n d) with
  | some n => some n
  | none => ((prns.filter (fun n => decide (d.pos.rtcmLast < n))) ++ prns).find? (fun n => ephValid n d)

/-- A second's messages: 1005, 1074, and 1019 of the PRN whose turn it is (Table 05-8). -/
def rtcmBodies (l : Latch) (d : Dev) : List (List Nat) :=
  [rtcm1005 d, rtcm1074 l d] ++ (match rtcmPrn d with
    | some n => [rtcm1019 n d]
    | none => [])

/-- The whole cycles of a phase range, once sent, stay while the lock does. -/
def alignKeep (l : Latch) (d : Dev) : Dev :=
  forAll (msmChans l) (fun c d =>
    let e := entOf l.ents c
    let g := chG c d
    if bit (eFlags e) 1 && bit (eFlags e) 2 && chPrn c d == ePrn e && g.align.isNone then chGSet c { g with align := some (alignOf l e) } d
    else d) d

/-- A second's output on SQ22, whole or not at all. -/
def rtcmOut (l : Latch) (d : Dev) : Dev :=
  if !(on POS.RTCMCFG.EN d && on POS.BASECTL.VALID d && on AON.WSTAT.LOCKED d) || decide (5000000 ≤ l.wall % 1000000000) then d
  else
    let fs := (rtcmBodies l d).map (fun b => packItems (rtcmFrame b))
    let d := alignKeep l d
    if hwRoom 22 ((fs.map List.length).sum) d then
      let d := match rtcmPrn d with
        | some n => withPos (fun p => { p with rtcmNew := p.rtcmNew.filter (· ≠ n)
                                               rtcmLast := if p.rtcmNew.contains n then p.rtcmLast else n }) d
        | none => d
      forAll fs (fun f d => inc POS.RTCMCNT (hwPush 22 f d)) d
    else inc POS.RTCMDROP d

/-! ### The record (R175, R176) -/

/-- The record of an epoch (Table 05-5). -/
def recBytes (l : Latch) (d : Dev) : List Nat :=
  let nt := (chans.filter (fun c => bit (eFlags (entOf l.ents c)) 0)).length
  let hf := b2n l.lockd + rd POS.BASESTAT.FIXQ d * 2 + rd POS.BASECTL.VALID d * 4 + b2n l.step * 8
  leBytes 4 l.seq ++ leBytes 8 l.raw ++ leBytes 8 l.wall ++ [nt, hf] ++ leBytes 2 (periodMs d) ++ leBytes 4 l.corr ++
    leBytes 4 0 ++ l.ents

/-- The record into the measurement ring (R175, R472). -/
def ringRecord (b : List Nat) (d : Dev) : Dev :=
  if !on POS.MRINGCTL.EN d then d
  else
    let n := 2 ^ rd POS.MRINGCTL.SLOTS d
    let wp := rd POS.MRINGWR d % n
    let a := rd POS.MRINGBASE d + 1024 * wp
    if (wp + 1) % n = rd POS.MRINGRD d % n then inc POS.RINGDROP d
    else match islWrite d.posRoot.toNat a b d with
      | (false, d) => inc POS.RINGDROP d
      | (true, d) => token 6 POSi 0xEE wp (wr POS.MRINGWR ((wp + 1) % n) d)

/-- A base record a pipeline is using. -/
def recUsed (r : BaseRec) (d : Dev) : Bool := d.pos.pipes.any (fun e => match e.2 with
  | some p => p.base == r
  | none => false)

/-- The oldest records not in use give way until fewer than five are left: there are five buffers. -/
def trimRecs (used : BaseRec → Bool) : Nat → List BaseRec → List BaseRec
  | 0, l => l
  | n + 1, l =>
    if l.length < 5 then l
    else match findIx (fun x => !used x) l with
      | some i => trimRecs used n (l.eraseIdx i)
      | none => l

/-- A new record into the oldest of the five buffers that is not in use (R176, R191). -/
def keepRec (r : BaseRec) (d : Dev) : Dev :=
  withPos (fun p => { p with recs := trimRecs (fun x => recUsed x d) p.recs.length p.recs ++ [r] }) d

/-- The record of the latched epoch is complete (R173, R175, R176, R179, R181). -/
def epochComplete (d : Dev) : Dev :=
  match d.pos.latch with
  | none => d
  | some l =>
    if l.full then d
    else
      let d := fixqEpoch l d
      let b := recBytes l d
      let d := keepRec ⟨b, d.raw, l.eph⟩ (ringRecord b d)
      rtcmOut l (withPos (fun p => { p with latch := some { l with full := true } }) d)

/-! ## Time errors (R178) -/

/-- A channel's entry qualifies for the correction. -/
def timeChan (e : List Nat) : Bool :=
  let f := eFlags e
  e.getD 0 0 != 0 && [0, 4, 6, 7].all (fun i => bit f i) && !bit f 8

/-- Insertion into a rising list. -/
def insertInt (x : Int) : List Int → List Int
  | [] => [x]
  | y :: r => if x ≤ y then x :: y :: r else y :: insertInt x r
def sortInt (l : List Int) : List Int := l.foldr insertInt []

/-- The median; of an even number any value between the two middle ones, by a free value (log 43). -/
def medianOf (l : List Int) (r : Nat) : Int :=
  let s := sortInt l
  let lo := s.getD ((s.length - 1) / 2) 0
  let hi := s.getD (s.length / 2) 0
  lo + (r % ((hi - lo).toNat + 1) : Nat)

/-- The Klobuchar delay while IONOCTL.VALID is 1, s (R171, R178). -/
def ionoDelay (e : Vec) (t : Fx) (d : Dev) : Fx :=
  let co (f : Fld) : List Int := (leBytes 4 (rd f d)).map (toS 8)
  if on POS.IONOCTL.VALID d then klobuchar (co POS.IONOA) (co POS.IONOB) (horizonOf (basePos d)) e t else 0

/-- The tropospheric delay at a place, s: what the standard atmosphere gives at its height and elevation (log 133). -/
def tropoDelay (g : Horizon) (e : Vec) : Fx := divx (Config.tropo g.h (e.getD 2 0)) lightx

/-- A channel's time error, ns (R178): when its signal arrives by its own transmit time and the range to the base, less WALL. The
week of a time that WALL cannot tell yet is that of the set's time of ephemeris (log 40). -/
def timeError (l : Latch) (e : List Nat) (d : Dev) : Int :=
  let w := tget l.eph (ePrn e) []
  let ts := eSent e
  let t := ts - satClock w ts
  let r := rangeTo w t (basePos d)
  let g := horizonOf (basePos d)
  let u := g.enu r.2
  let arr := t + divx r.1 lightx + tropoDelay g u + ionoDelay u t d
  if on AON.WSTAT.VALID d then roundTimes (weekx (arr - l.tow)) 1000000000
  else
    let toe := ((ephWeek w + 1024 * Config.weekEra : Nat) * weekNs + ephToe w * 1000000000 : Nat)
    toe + roundTimes (weekx (arr - fx (ephToe w))) 1000000000 - toS 64 l.wall

/-- A correction for the latched epoch, or TCREJ (R178). -/
def timeCorrection (d0 : Dev) : Dev :=
  match d0.pos.latch with
  | none => d0
  | some l =>
    if l.tc || !on POS.BASECTL.VALID d0 || rd AON.WCTL.SRC d0 != 1 then d0
    else
      let es := ((chans.map (entOf l.ents)).filter timeChan).map (fun e => timeError l e d0)
      let s := sortInt es
      let span := s.getLastD 0 - s.headD 0
      if es.length < 4 ∨ 1000 < span ∨ l.raw + 20 * rawPerMs < d0.raw then
        inc POS.TCREJ (wrB POS.BASESTAT.TCOK false (withPos (fun p => { p with latch := some { l with tc := true } }) d0))
      else
        let amt := medianOf es (freeOf d0).toNat
        let d := drawn d0
        let fits := decide (amt = toS 32 (ofS 32 amt))
        let shown := if fits then ofS 32 amt else (freeOf d).toNat % 2 ^ 32
        let d := if fits then d else drawn d
        let d := withPos (fun p => { p with latch := some { l with tc := true, corr := shown } }) d
        let d := wrB POS.BASESTAT.TCOK true (wr POS.TCLAST shown d)
        whenUp AONi (correction 1 false amt) d

/-! ## Base position and SEC's report (R177, R179) -/

/-- BASECTL.VALID written; cleared, it resets every rover (R177, R216). -/
def baseValid (v : Bool) (d : Dev) : Dev :=
  let was := on POS.BASECTL.VALID d
  let d := wrB POS.BASECTL.VALID v d
  if was && !v then
    forAll chans (fun c d => wr (POS.ELAZ.AZIM c) 0xFF (wr (POS.ELAZ.ELEV c) 0x80 d)) (withPos (fun p => { p with resets := List.range 128 }) d)
  else d

/-- SEC takes a report from SQ20 (R179). -/
def fixqTake (e : Ecc) (d : Dev) : Dev :=
  eccTry 20 e id (fun p d =>
    let d := hwTaken 20 d
    { d with sec := { d.sec with fixq := bit (p.items.getD 0 0).toNat 0 } }) d

end Sys2Proof.Machine
end

