-- ==== Sys2Proof/Machine/Filter.lean ====
section
/-! DEFINITION. Machine/Filter.lean: what a satellite's measurements say (R189–R194, R196), the rover's clock, the float filter
(R199–R204, R209, R210) and its place in a rover's context (Table 06-10). Lengths are in m, times in s, angles in radians, phases in
cycles (log 44). -/

namespace Sys2Proof.Machine

/-! ## Measurements -/

/-- Fields of an observation record (Tables 06-1 and 06-2). -/
def oNsat (b : List Nat) : Nat := b.getD 2 0
def oEpoch (b : List Nat) : Nat := ofBe (sub b 4 4)
def oSeq (b : List Nat) : Nat := ofBe (sub b 8 2)
def oOdod (b : List Nat) : Int := toS 16 (ofBe (sub b 10 2))
def oOdoh (b : List Nat) : Int := toS 16 (ofBe (sub b 12 2))
def oOdo (b : List Nat) : Bool := bit (b.getD 1 0) 0
def oClaim (b : List Nat) : Bool := bit (b.getD 1 0) 1
def oDock (b : List Nat) : Nat := b.getD 14 0

/-- The satellite entries of a record. -/
def oSats (b : List Nat) : List (List Nat) := (List.range (oNsat b)).map (fun i => sub b (16 + 16 * i) 16)

/-- A rover entry's pseudorange (m), carrier phase (cycles) and Doppler (Hz). -/
def rPr (e : List Nat) : Fx := fxQ (ofBe (sub e 4 4) * 2) 100
def rPhase (e : List Nat) : Fx := fxExp (toS 32 (ofBe (sub e 8 4))) 8 + divx (rPr e) lambdax
def rDop (e : List Nat) : Fx := fxQ (toS 24 (ofBe (sub e 12 3)) * 2) 1000

/-- What both ends measure of a satellite, the base's carried to the rover's epoch (R193), with the set that places it: rover code,
phase and Doppler; base code, phase and Doppler; the transmit time of the base's signal. -/
structure Ends where
  prn : Nat
  w   : List Nat
  rc  : Fx
  rp  : Fx
  rd_ : Fx
  bc  : Fx
  bp  : Fx
  bd  : Fx
  bt  : Fx

/-- A base record's WALL as a time of week, and its set for a PRN. -/
def bTow (r : BaseRec) : Nat := towNs (toS 64 (ofLe (sub r.bytes 12 8)))

/-- T − Tb in ns (R191). -/
def sinceBase (t : Nat) (r : BaseRec) : Int := weekDiff weekNs (t * 1000000) (bTow r)

/-- A satellite's measurements from the rover's entry and the base's, at epoch t ms (R189, R193). -/
def endsOf (t : Nat) (r : BaseRec) (e x : List Nat) : Ends :=
  let n := ePrn x
  let d := eDop x
  let dt := secx (sinceBase t r)
  let bc := mulx lightx (weekx (secx (bTow r) - eSent x)) - mulx (mulx lambdax d) dt
  let w := tget r.eph n []
  { prn := n, w := w, rc := rPr e, rp := rPhase e, rd_ := rDop e, bc := bc, bp := ePhase x - mulx d dt, bd := d
    bt := secx (t * 1000000) - divx bc lightx }

/-- Rover code and phase referred to GPS time T by a clock offset δ in s (R194). -/
def Ends.code (m : Ends) (del : Fx) : Fx := m.rc - mulx (mulx lambdax m.rd_) del
def Ends.phase (m : Ends) (del : Fx) : Fx := m.rp - mulx m.rd_ del

/-- Single differences of code (m), phase (cycles) and Doppler (Hz), rover less base (R196). -/
def Ends.sdCode (m : Ends) (del : Fx) : Fx := m.code del - m.bc
def Ends.sdPhase (m : Ends) (del : Fx) : Fx := m.phase del - m.bp
def Ends.sdDop (m : Ends) : Fx := m.rd_ - m.bd

/-- Range and troposphere from a place to a satellite that sent at its own time ts, with the direction (R196). -/
def reach (w : List Nat) (ts : Fx) (x : Vec) : Fx × Vec :=
  let r := rangeTo w (ts - satClock w ts) x
  let g := horizonOf x
  (r.1 + Config.tropo g.h ((g.enu r.2).getD 2 0), r.2)

/-- A satellite seen from both ends with the rover at x and a clock offset δ: the single difference of ranges and troposphere, the
direction from the rover, the single difference of the ranges' rates with both ends at rest, and sin² of the elevation at the base
(R196, R202). -/
structure Seen where
  prn  : Nat
  geo  : Fx
  dir  : Vec
  rate : Fx
  sin2 : Fx

def Ends.seen (m : Ends) (t : Nat) (del : Fx) (x xb : Vec) : Seen :=
  let ts := secx (t * 1000000) - (divx (m.code del) lightx - del)
  let r := reach m.w ts x
  let b := reach m.w m.bt xb
  { prn := m.prn, geo := r.1 - b.1, dir := r.2, rate := rangeRate m.w ts x - rangeRate m.w m.bt xb
    sin2 := sqx (((horizonOf xb).enu b.2).getD 2 0) }

/-! ## The rover's clock and the code solution (R190, R216) -/

/-- One step of the least squares for position and clock from the codes, weighted by sin² of the elevation. -/
def codeStep (ms : List Ends) (t : Nat) (xb : Vec) (s : Vec × Fx) : Option (Vec × Fx) :=
  let rows := ms.map (fun m =>
    let g := m.seen t s.2 s.1 xb
    (vScale (-fx 1) g.dir ++ [fx 1], m.sdCode s.2 - g.geo - mulx lightx s.2, g.sin2))
  let nrm := rows.foldl (fun (a : Mat) r => mAdd a (r.1.map (fun h => vScale (mulx h r.2.2) r.1))) (List.replicate 4 (vZero 4))
  let rhs := rows.foldl (fun (a : Vec) r => vAdd a (vScale (mulx r.2.1 r.2.2) r.1)) (vZero 4)
  (symSolve nrm rhs).map (fun z => (vAdd s.1 (z.take 3), s.2 + divx (z.getD 3 0) lightx))

/-- Position and clock offset from the codes; none where the satellites' geometry does not give them. -/
def codeFix (ms : List Ends) (t : Nat) (xb : Vec) : Nat → Vec × Fx → Option (Vec × Fx)
  | 0, s => some s
  | n + 1, s => (codeStep ms t xb s).bind (codeFix ms t xb n)

/-! ## The filter (R199) -/

/-- The filter: position, velocity and 15 ambiguities, and their covariance. -/
structure Filt where
  x : Vec
  p : Mat

def Filt.pos (f : Filt) : Vec := f.x.take 3
def Filt.vel (f : Filt) : Vec := (f.x.drop 3).take 3
def Filt.amb (f : Filt) (i : Nat) : Fx := f.x.getD (6 + i) 0

/-- A filter at a place with a variance per axis of position (R216). -/
def Filt.start (x : Vec) (var : Fx) : Filt :=
  { x := x ++ (List.range 3).map Config.startVel ++ vZero 15
    p := (List.range 21).map (fun i => vUnit 21 i (if i < 3 then var else if i < 6 then Config.startVelVar (i - 3) else 0)) }

/-- One measurement taken as a scalar (R202): its row, its residual at the state the update began from, its variance. `dx` is what
the update has moved the state by so far. -/
def scalarUpdate (h : Vec) (nu var : Fx) (s : Vec × Mat) : Vec × Mat :=
  let ph := mVec s.2 h
  let q := vDot h ph + var
  if q ≤ 0 then s
  else
    let k := ph.map (fun y => divx y q)
    (vAdd s.1 (vScale (nu - vDot h s.1) k), List.zipWith (fun r kk => vSub r (vScale kk ph)) s.2 k)

/-- Measurements taken one after another: rows, residuals and variances (R202). -/
def Filt.update (f : Filt) (ms : List (Vec × Fx × Fx)) : Filt :=
  let r := ms.foldl (fun s m => scalarUpdate m.1 m.2.1 m.2.2 s) (vZero 21, f.p)
  { x := vAdd f.x r.1, p := r.2 }

/-- Correlated measurements whitened by the Cholesky factor of their covariance (R202). -/
def whiten (cov : Mat) (ms : List (Vec × Fx)) : List (Vec × Fx × Fx) :=
  let l := cholRows cov ms.length []
  (lowerSolve l (ms.map (fun m => m.1 ++ [m.2]))).map (fun r => (r.take 21, r.getD 21 0, fx 1))

/-- An ambiguity set anew: value, variance, no cross-covariances (R204, R209, R210). -/
def Filt.setAmb (f : Filt) (i : Nat) (v var : Fx) : Filt :=
  { x := f.x.set (6 + i) v, p := ((f.p.map (fun r => r.set (6 + i) 0)).set (6 + i) (vUnit 21 (6 + i) var)) }

/-- A slot that holds nothing. -/
def Filt.dropAmb (f : Filt) (i : Nat) : Filt := f.setAmb i 0 0

/-- A variance of an ambiguity replaced, its value and cross-covariances kept out of it (R210). -/
def Filt.widen (f : Filt) (i : Nat) (var : Fx) : Filt := f.setAmb i (f.amb i) var

/-- The ambiguities under a linear map given by rows over the 15 slots, and the covariance under the same map (R196). -/
def Filt.mapAmb (f : Filt) (rows : List (List Int)) : Filt :=
  let a : Mat := (List.range 6).map (fun i => vUnit 21 i (fx 1)) ++ rows.map (fun r => vZero 6 ++ r.map fx)
  { x := mVec a f.x, p := mConj a f.p }

/-! ## Prediction (R200, R201) -/

/-- How a site axis is predicted: what of the velocity goes into the position and what stays in the velocity, the noise of
position, of both, and of velocity, and what is added to position and velocity. -/
structure AxisStep where
  pv  : Fx
  vv  : Fx
  qp  : Fx
  qpv : Fx
  qv  : Fx
  dp  : Fx := 0
  dv  : Fx := 0

/-- Constant velocity with process noise q in mm²/s³ over dt ms (R200). -/
def constVel (q dt : Nat) : AxisStep :=
  let n (k den : Nat) : Fx := fxQ (q * dt ^ k : Nat) (10 ^ 6 * 1000 ^ k * den)
  { pv := fxQ dt 1000, vv := fx 1, qp := n 3 3, qpv := n 2 2, qv := n 1 1 }

/-- A horizontal axis moved by the odometry's displacement in m, with its variance (R201). -/
def odoStep (dist var : Fx) (dt : Nat) : AxisStep :=
  let s := fxQ dt 1000
  { pv := 0, vv := 0, qp := var, qpv := divx var s, qv := divx (divx var s) s, dp := dist, dv := divx dist s }

/-- A horizontal axis whose displacement cannot be applied for want of a heading (R201): the position stays, its variance grows by
ODOD²; the velocity as R200 has it (log 138). -/
def odoBlind (odod : Int) (q dt : Nat) : AxisStep :=
  { pv := 0, vv := fx 1, qp := fxQ (odod * odod) (10 ^ 6), qpv := 0, qv := (constVel q dt).qv }

/-- The site rotation, and its transpose. -/
def Params.rotx (q : Params) : Mat := (List.range 3).map (fun i => (List.range 3).map (fun j => fxExp (q.rot.getD (3 * i + j) 0) 30))
def Params.back (q : Params) (v : Vec) : Vec := mVec (mTrans 3 q.rotx) v

/-- rotᵀ · diag(v) · rot. -/
def Params.spread (q : Params) (v : Vec) : Mat :=
  let rt := mTrans 3 q.rotx
  mMulT (rt.map (fun r => List.zipWith mulx r v)) rt

/-- Four 3×3 sixBlocks and the identity or nothing on the ambiguities. -/
def sixBlocks (a b c e : Mat) (d : Fx) : Mat :=
  List.zipWith (fun x y => x ++ y ++ vZero 15) a b ++ List.zipWith (fun x y => x ++ y ++ vZero 15) c e ++
    (List.range 15).map (fun i => vUnit 21 (6 + i) d)

/-- The prediction over dt ms along the site's axes (R200, R201). -/
def Filt.predict (f : Filt) (q : Params) (ax : List AxisStep) : Filt :=
  let s (g : AxisStep → Fx) : Mat := q.spread (ax.map g)
  let one : Mat := (List.range 3).map (fun i => vUnit 3 i (fx 1))
  let a := sixBlocks one (s (·.pv)) (List.replicate 3 (vZero 3)) (s (·.vv)) (fx 1)
  let n := sixBlocks (s (·.qp)) (s (·.qpv)) (s (·.qpv)) (s (·.qv)) 0
  { x := vAdd (mVec a f.x) (q.back (ax.map (·.dp)) ++ q.back (ax.map (·.dv)) ++ vZero 15), p := mAdd (mConj a f.p) n }

/-- The axes of an epoch dt ms after the last, without odometry or with it (R200, R201): ψ is the heading where it is known. -/
def axesOf (q : Params) (odo : Option (Int × Int)) (psi : Option Fx) (dt : Nat) : List AxisStep :=
  let up := constVel q.qv dt
  match odo with
  | none => [constVel q.qh dt, constVel q.qh dt, up]
  | some (dist, turn) => match psi with
    | none => [odoBlind dist q.qh dt, odoBlind dist q.qh dt, up]
    | some a =>
      let s := fxQ dist 1000
      let b := a + fxQ turn 20000
      let var := sqx (fxQ (q.odok * dist.natAbs : Nat) (10 ^ 6)) + sqx (fxQ q.odo0 1000)
      [odoStep (mulx s (sinx b)) var dt, odoStep (mulx s (cosx b)) var dt, up]

/-! ## Double differences (R196, R202, R203) -/

/-- A satellite in an epoch: what it measures and what is seen of it from the state the epoch's update begins from, and the slot of
its ambiguity where its carrier is used. -/
structure Line where
  m    : Ends
  g    : Seen
  slot : Option Nat := none

/-- The variance of a single difference: both ends, σ0² over sin² of the elevation (R202). -/
def sdVar (sig : Fx) (l : Line) : Fx := divx (2 * sqx sig) (max 1 l.g.sin2)

/-- The double difference of a single-difference quantity. -/
def ddOf (f : Line → Fx) (l k : Line) : Fx := f l - f k

/-- The row of a satellite against the reference: over position, or over velocity. -/
def ddDir (l k : Line) : Vec := vSub k.g.dir l.g.dir
def posRow (l k : Line) : Vec := ddDir l k ++ vZero 18
def velRow (l k : Line) : Vec := vZero 3 ++ ddDir l k ++ vZero 15

/-- Row and residual of a code, a carrier (in m) and a Doppler (in m/s) double difference (R196, R202). -/
def codeRow (del : Fx) (l k : Line) : Vec × Fx := (posRow l k, ddOf (fun x => x.m.sdCode del - x.g.geo) l k)
def carrRow (del : Fx) (f : Filt) (i : Nat) (l k : Line) : Vec × Fx :=
  ((posRow l k).set (6 + i) lambdax,
    ddOf (fun x => mulx lambdax (x.m.sdPhase del) - x.g.geo) l k - mulx lambdax (f.amb i))
def dopRow (f : Filt) (l k : Line) : Vec × Fx :=
  (velRow l k, ddOf (fun x => -mulx lambdax x.m.sdDop - x.g.rate) l k - vDot (ddDir l k) f.vel)

/-- The covariance of double differences against one reference (R202). -/
def ddCov (sig : Fx) (ls : List Line) (k : Line) : Mat :=
  let v := sdVar sig k
  ls.zipIdx.map (fun r => ls.zipIdx.map (fun c => if r.2 = c.2 then sdVar sig r.1 + v else v))

/-- A double difference fails: ν² > 16 S, S from the joint innovation covariance (R203). -/
def fails (f : Filt) (sig : Fx) (l k : Line) (r : Vec × Fx) : Bool :=
  decide (16 * (vDot r.1 (mVec f.p r.1) + sdVar sig l + sdVar sig k) < sqx r.2)

/-- σ0 of the carrier and of the code (R202), and σ of the Doppler, m and m/s. -/
def Params.sigPhx (q : Params) : Fx := fxQ q.sigph 10000
def Params.sigCodex (q : Params) : Fx := fxQ q.sigcode 1000
def sigDopx : Fx := fxQ 50 1000

/-- Satellites with a slot whose carrier is used. -/
def carrLines (ls : List Line) : List (Nat × Line) := ls.filterMap (fun l => l.slot.map (fun i => (i, l)))

/-- The epoch's update (R202): carrier, then code, then Doppler. `cs` and `ds` are the satellites whose code and Doppler are not left
out. -/
def Filt.epoch (f : Filt) (q : Params) (del : Fx) (ls cs ds : List Line) (k : Line) : Filt :=
  let ca := carrLines ls
  f.update (whiten (ddCov q.sigPhx (ca.map Prod.snd) k) (ca.map (fun e => carrRow del f e.1 e.2 k)) ++
    whiten (ddCov q.sigCodex cs k) (cs.map (fun l => codeRow del l k)) ++
    whiten (ddCov sigDopx ds k) (ds.map (fun l => dopRow f l k)))

/-- A float ambiguity's first value and its variance (R204). -/
def Filt.resetAmb (f : Filt) (del : Fx) (i : Nat) (l k : Line) : Filt :=
  f.setAmb i (ddOf (fun x => x.m.sdPhase del) l k - divx (ddOf (fun x => x.m.sdCode del) l k) lambdax) (fx 400)

/-- Ambiguities of slots held at integers: the state conditioned on them, then each at its integer with 10^-6 cycle² (R209). -/
def Filt.fixAmbs (f : Filt) (l : List (Nat × Int)) : Filt :=
  let c := f.update (l.map (fun e => (vUnit 21 (6 + e.1) (fx 1), fx e.2 - f.amb e.1, 0)))
  l.foldl (fun g e => g.setAmb e.1 (fx e.2) (fxQ 1 1000000)) c

/-- The dock's position and a standstill as measurements (R212). -/
def Filt.anchor (f : Filt) (at_ : Vec) (sig : Nat) : Filt :=
  let s := sqx (fxQ sig 1000)
  let z := vSub at_ f.pos
  f.update ((List.range 3).map (fun i => (vUnit 21 i (fx 1), z.getD i 0, s)) ++
    (List.range 3).map (fun i => (vUnit 21 (3 + i) (fx 1), -f.vel.getD i 0, sqx (fxQ 5 1000))))

/-! ## The site frame (R217) -/

def Params.origin (q : Params) : Vec := q.site.map (fun v => fxQ v 10000)
def Params.basex (q : Params) : Vec := q.base.map (fun v => fxQ v 10000)
def Params.toSite (q : Params) (x : Vec) : Vec := mVec q.rotx (vSub x q.origin)
def Params.ofSite (q : Params) (mm : List Int) : Vec := vAdd q.origin (q.back (mm.map (fun v => fxQ v 1000)))

/-- Site position, velocity, and the covariance of the position. -/
def Filt.site (f : Filt) (q : Params) : Vec := q.toSite f.pos
def Filt.siteVel (f : Filt) (q : Params) : Vec := mVec q.rotx f.vel
def Filt.siteCov (f : Filt) (q : Params) : Mat := mConj q.rotx ((f.p.take 3).map (fun r => r.take 3))

/-! ## The context's part (Table 06-10) -/

/-- State and covariance as they lie at 0x100: 21 numbers, and the upper triangle by rows. -/
def Filt.bytes (f : Filt) : List Nat :=
  (f.x ++ f.p.zipIdx.flatMap (fun r => r.1.drop r.2)).flatMap (fun v => leBytes 8 (toF64 v))

def Filt.ofBytes (b : List Nat) : Filt :=
  let v (i : Nat) : Fx := ofF64 (ofLe (sub b (8 * i) 8))
  let at_ (i j : Nat) : Nat := 21 + i * 21 - i * (i - 1) / 2 + (j - i)
  { x := (List.range 21).map v, p := (List.range 21).map (fun i => (List.range 21).map (fun j => v (at_ (min i j) (max i j)))) }

end Sys2Proof.Machine
end

