-- ==== Sys2Proof/Machine/Solver.lean ====
section
/-! DEFINITION. Machine/Solver.lean: the rover solver: records in, matching, satellites, ambiguities, searches, dock claims and
solutions (Rover solver: central centimetre positioning). -/

namespace Sys2Proof.Machine

/-! ## Records (R184–R188, Tables 06-1 and 06-2) -/

/-- A receive packet for the solver (R184): status 0, TYPE DATA, a context of 0–127, its payload in whole items. -/
def rxForm (l : List W64) : Option (Nat × List Nat) :=
  match l with
  | [] => none
  | h :: r =>
    let x := h.toNat
    let len := bits x 8 8
    if bits x 20 4 = 0 ∧ bits x 16 4 = 1 ∧ bits x 0 8 < 128 ∧ r.length = (len + 7) / 8 then
      some (bits x 0 8, (r.flatMap (fun w => leBytes 8 w.toNat)).take len)
    else none

/-- A record is well formed (R188). -/
def recGood (b : List Nat) : Bool :=
  let ps := (oSats b).map (fun e => e.getD 0 0)
  b.getD 0 0 == 0xB1 && b.getD 1 0 / 16 == 1 && b.length == 16 + 16 * oNsat b && decide (oNsat b ≤ 14) &&
    oEpoch b % 100 == 0 && decide (oEpoch b < 604800000) && decide ps.Nodup

def weekMs : Nat := 604800000

/-- The rover's last solved epoch is not earlier than T (R192). -/
def recOld (r t : Nat) (d : Dev) : Bool :=
  let l := tget d.pos.last r 0
  l != 0 && decide (weekDiff weekMs t ((l : Int) - 1) ≤ 0)

/-- A packet from SQ23 into the store (R184, R185, R188); a record no later than the last solved epoch is discarded at once
(R192). -/
def recordIn (d0 : Dev) : Dev :=
  if !on POS.SOLCTL.EN d0 || decide (64 ≤ d0.pos.store.length) then d0
  else hwTry 23 (inc POS.RECBAD) (fun p d1 =>
      let d := hwTaken 23 d1
      match rxForm p.items with
      | none => inc POS.RECBAD d
      | some (r, b) =>
        if !recGood b then inc POS.RECBAD d
        else if recOld r (oEpoch b) d then inc POS.RECOLD (inc POS.RECIN d)
        else inc POS.RECIN (withPos (fun x => { x with store := x.store ++ [{ r := r, bytes := b, raw := d.raw, shown := p.at_ }] }) d)) d0

/-! ## Matching (R191, R192) -/

/-- A base record's HFLAGS. -/
def bFlags (r : BaseRec) : Nat := r.bytes.getD 21 0

/-- The base record a record is matched with: of the last four (R176), the nearest with BASEPOS valid, within 50 ms. -/
def matchBase (t : Nat) (d : Dev) : Option BaseRec :=
  let four := d.pos.recs.drop (d.pos.recs.length - 4)
  let l := four.filter (fun r => bit (bFlags r) 2 && decide ((sinceBase t r).natAbs ≤ 50000000))
  l.find? (fun r => l.all (fun x => decide ((sinceBase t r).natAbs ≤ (sinceBase t x).natAbs)))

/-- No base epoch within 50 ms of T can still come, judging from the latest completed record and PERIOD. -/
def noneComes (t : Nat) (d : Dev) : Bool :=
  match d.pos.recs.getLast? with
  | none => false
  | some r =>
    let x := sinceBase t r
    let p : Int := periodMs d * 1000000
    let k := max 1 (x.fdiv p)
    decide (50000000 < (k * p - x).natAbs ∧ 50000000 < ((k + 1) * p - x).natAbs)

/-- A waiting record's wait is over (R192). -/
def waitOver (o : ObsRec) (d : Dev) : Bool :=
  let t := oEpoch o.bytes
  d.pos.recs.any (fun r => decide (sinceBase t r ≤ 0)) || noneComes t d || decide (o.raw + 60 * rawPerMs ≤ d.raw)

/-- A record out of the store. -/
def dropRec (i : Nat) (d : Dev) : Dev := withPos (fun p => { p with store := p.store.eraseIdx i }) d

/-- The oldest waiting record whose wait is over, or that has become old: it may be dispatched, or is discarded as old or stale (R192). -/
def waitEnd (d : Dev) : Dev :=
  match findIx (fun o => !o.ready && (recOld o.r (oEpoch o.bytes) d || waitOver o d)) d.pos.store with
  | none => d
  | some i => match d.pos.store[i]? with
    | none => d
    | some o =>
      let t := oEpoch o.bytes
      if recOld o.r t d then inc POS.RECOLD (dropRec i d)
      else if (matchBase t d).isNone then inc POS.RECSTALE (dropRec i d)
      else withPos (fun p => { p with store := p.store.set i { o with ready := true } }) d

/-! ## Pipelines (R185, R186, R191, R205, R219, R223, R224) -/

def pipeOf (p : Nat) (d : Dev) : Option Pipe := tget d.pos.pipes p none
def pipeSet (p : Nat) (v : Option Pipe) (d : Dev) : Dev := withPos (fun x => { x with pipes := tset x.pipes p v none }) d

/-- A pipeline solves, or holds an item SQ24 had no room for. -/
def pipeBusy (p : Nat) (d : Dev) : Bool := (pipeOf p d).isSome || d.pos.outQ.any (fun e => e.pipe == p)

/-- Whether a rover has a record in a pipeline, or its solution waits there. -/
def inPipe (r : Nat) (d : Dev) : Bool :=
  d.pos.outQ.any (fun e => e.rover == r) || (List.range 4).any (fun p => match pipeOf p d with
    | some x => x.obs.r == r
    | none => false)

/-- The record into the solution ring (R218). -/
def ringSolution (b : List Nat) (d : Dev) : Dev :=
  if !on POS.SRINGCTL.EN d then d
  else
    let n := 2 ^ rd POS.SRINGCTL.SLOTS d
    let wp := rd POS.SRINGWR d % n
    let a := rd POS.SRINGBASE d + 64 * wp
    if (wp + 1) % n = rd POS.SRINGRD d % n then inc POS.SRINGDROP d
    else match islWrite d.posRoot.toNat a b d with
      | (false, d) => inc POS.SRINGDROP d
      | (true, d) =>
        let d := wr POS.SRINGWR ((wp + 1) % n) d
        if on POS.SOLEVT.SOLTOK d then token 6 POSi (rd POS.SOLEVT.SOLN d) 0 d else d

/-- A fault on a rover's context (R223). -/
def ctxFault (r : Nat) (d : Dev) : Dev :=
  token 6 POSi 0xF0 r (inc POS.CTXFLT (wrBit (POS.ROVEN (r / 32)) (r % 32) false d))

/-- A solve's outputs: the latency ends as its item enters SQ24, and the record that carries it goes into the ring and the rover's
context (R187, R218, R219, R222). -/
def solvedOut (v : Solved) (d : Dev) : Dev :=
  let lat := (d.raw - v.since) / 26
  let b := v.rec_.take 54 ++ leBytes 2 (min 65535 lat) ++ v.rec_.drop 56
  let d := ringSolution b (maxTo POS.LATMAX lat (wr POS.LATLAST lat d))
  hwPush 24 v.item (match islWrite d.posRoot.toNat (v.ctx + 0x80) b d with
    | (true, d) => d
    | (false, d) => ctxFault v.rover d)

/-- Outputs held back go out in order while SQ24 takes them (R219). -/
def outFlush : Nat → Dev → Dev
  | 0, d => d
  | n + 1, d => match d.pos.outQ with
    | [] => d
    | v :: r => if hwRoom 24 4 d || !qLive 24 d then outFlush n (solvedOut v (withPos (fun p => { p with outQ := r }) d)) else d

/-- A solve's outputs go out, or wait behind others and for room on SQ24 (R219). -/
def sendSolved (v : Solved) (d : Dev) : Dev :=
  let d := withPos (fun x => { x with outQ := x.outQ ++ [v] }) d
  outFlush d.pos.outQ.length d

/-- Where a rover's context lies. -/
def rctx (r : Nat) (d : Dev) : Nat := rd POS.CTXBASE d + 4096 * r

/-- The page of a rover's context, reached for reading and writing (R223, R472); none where an access faults. -/
def ctxPage (r : Nat) (d : Dev) : Option Nat × Dev :=
  match islSpan d.posRoot.toNat .load 1 (rctx r d) 4096 d with
  | (false, d) => (none, d)
  | (true, d) => match islTrans d.posRoot.toNat .store (rctx r d) d with
    | (.ok pa, d) => (some pa, d)
    | (.error _, d) => (none, d)

/-- A rover's ROVEN bit. -/
def roven (r : Nat) (d : Dev) : Bool := bit (rd (POS.ROVEN (r / 32)) d) (r % 32)

/-- The parameters as they stand (R224), with the claimed dock's entry, the base position and the site. -/
def params (dock : Nat) (d : Dev) : Params :=
  let s (w : Nat) (f : Fld) : Int := toS w (rd f d)
  { elmask := rd POS.ELMASK d, cn0 := rd POS.CN0MIN d, fixgate := rd POS.FIXGATE d, ambgate := rd POS.AMBGATE d
    ratio := rd POS.RATIO d, srchmax := rd POS.SRCHMAX d, anchchk := rd POS.ANCHCHK d, ambhold := rd POS.AMBHOLD d
    refhyst := rd POS.REFHYST d, sigph := rd POS.SIGPH d, sigcode := rd POS.SIGCODE d, qh := rd POS.QH d, qv := rd POS.QV d
    odok := rd POS.ODOK d, odo0 := rd POS.ODO0 d, anchsig := rd POS.ANCHSIG d, slipthr := rd POS.SLIPTHR d
    dock := on (POS.DOCKCTL.VALID dock) d, dockAt := [s 32 (POS.DOCKE dock), s 32 (POS.DOCKN dock), s 32 (POS.DOCKU dock)]
    base := [s 64 POS.BASEX, s 64 POS.BASEY, s 64 POS.BASEZ], site := [s 64 POS.SITEX, s 64 POS.SITEY, s 64 POS.SITEZ]
    rot := (List.range 9).map (fun k => s 32 (POS.SITEROT k)) }

/-- The oldest record whose wait is over, whose rover has none in a pipeline and none entered before it (R185, R192). -/
def nextRec (d : Dev) : Option Nat :=
  findIx (fun e => e.1.ready && !inPipe e.1.r d && !(d.pos.store.take e.2).any (fun o => o.r == e.1.r)) d.pos.store.zipIdx

/-- The oldest record that may go to a free pipeline does, or is discarded (R185, R186, R191, R192, R205, R216, R223). Which
free pipeline takes it is a free value (log 3). -/
def recDispatch (d0 : Dev) : Dev :=
  let d := outFlush 4 d0
  let free := (List.range 4).filter (fun p => !pipeBusy p d)
  match nextRec d with
  | none => d
  | some i => match free, d.pos.store[i]? with
    | [], _ => d
    | _, none => d
    | _, some o =>
      let t := oEpoch o.bytes
      if !roven o.r d then inc POS.RECNOEN (dropRec i d)
      else if recOld o.r t d then inc POS.RECOLD (dropRec i d)
      else match matchBase t d with
        | none => inc POS.RECSTALE (dropRec i d)
        | some b => match ctxPage o.r d with
          | (none, d) => ctxFault o.r (dropRec i d)
          | (some _, d) =>
            let l := tget d.pos.last o.r 0
            let gap := l != 0 && decide ((rd POS.RESETGAP d : Int) < weekDiff weekMs t ((l : Int) - 1))
            let rst := d.pos.resets.contains o.r || gap || l == 0
            let p := free.getD ((freeOf d).toNat % free.length) 0
            let d := withPos (fun x => { x with resets := x.resets.filter (· ≠ o.r) }) (dropRec i (drawn d))
            pipeSet p (some ⟨o, b, rst, params (oDock o.bytes) d⟩) d

/-! ## Satellites (R195, R197) -/

/-- A satellite usable for code: PRN, rover flags and LOCK, base flags, elevation and LOCKT, and both entries. -/
structure Sat where
  prn  : Nat
  fl   : Nat
  lock : Nat
  bfl  : Nat
  el   : Int
  blk  : Nat
  e    : List Nat
  x    : List Nat
  deriving DecidableEq, Repr

/-- The satellites usable for code (R195). -/
def usable (o b : List Nat) (q : Params) : List Sat :=
  let ents := chans.map (fun c => sub b (32 + 32 * c) 32)
  (oSats o).filterMap (fun e =>
    let n := e.getD 0 0
    match ents.find? (fun x => n != 0 && x.getD 0 0 == n) with
    | none => none
    | some x =>
      let f := eFlags x
      if q.cn0 * 2 ≤ e.getD 2 0 * 5 ∧ [0, 4, 6, 7].all (fun i => bit f i) = true ∧ (q.elmask : Int) ≤ eElev x then
        some ⟨n, e.getD 1 0, e.getD 3 0, f, eElev x, eLock x, e, x⟩
      else none)

/-- Usable for carrier too (R195). -/
def Sat.carr (s : Sat) : Bool := bit s.fl 0 && bit s.fl 1 && bit s.bfl 1 && bit s.bfl 2

/-- The highest of a list of satellites; among equals by a free value (log 3). -/
def highest (l : List Sat) (r : Nat) : Option Sat :=
  let top := l.filter (fun s => l.all (fun x => decide (x.el ≤ s.el)))
  top[r % max 1 top.length]?

/-- The reference (R196): the present one while it stays usable and none is more than REFHYST higher. -/
def refSat (sats : List Sat) (prev : Nat) (q : Params) (r : Nat) : Option Sat :=
  let cs := sats.filter Sat.carr
  let pool := if cs.isEmpty then sats else cs
  match pool.find? (fun s => s.prn == prev) with
  | some s => if pool.all (fun x => decide (x.el ≤ s.el + q.refhyst)) then some s else highest pool r
  | none => highest pool r

/-! ## Ambiguity slots (R196–R198, R204, R209, R210, Table 06-10) -/

/-- An ambiguity slot; `reset` marks one whose state is to be set anew in this epoch (R204). -/
structure Amb where
  prn   : Nat := 0
  used  : Bool := false
  fixed : Bool := false
  held  : Bool := false
  last  : Nat := 0
  n     : Int := 0
  reset : Bool := false
  deriving DecidableEq, Repr

def Amb.ofBytes (b : List Nat) : Amb :=
  let f := b.getD 1 0
  { prn := b.getD 0 0, used := bit f 0, fixed := bit f 1, held := bit f 2, last := ofLe (sub b 4 4), n := toS 64 (ofLe (sub b 8 8)) }
def Amb.bytes (a : Amb) : List Nat :=
  [a.prn, b2n a.used + 2 * b2n a.fixed + 4 * b2n a.held, 0, 0] ++ leBytes 4 a.last ++ leBytes 8 (ofS 64 a.n)

/-- The slots a context holds. -/
def ctxAmbs (a : Nat) (d : Dev) : List Amb := (List.range 15).map (fun i => Amb.ofBytes (dramRead (a + 0x8E0 + 16 * i) 16 d))

/-- A slot in use in this epoch. -/
def Amb.live (a : Amb) : Bool := a.used && !a.held

/-- A slot to be set anew: no longer fixed (R204). -/
def Amb.anew (a : Amb) : Amb := if a.used then { a with fixed := false, reset := true } else a

/-- Every ambiguity carried over from reference k, last used at a time of week, to m: N(i,m) = N(i,k) − N(m,k); without N(m,k) all
are reset (R196). -/
def reRef (k m last : Nat) (l : List Amb) : List Amb :=
  match l.find? (fun a => a.used && a.prn == m) with
  | none => l.map Amb.anew
  | some s => l.map (fun a =>
      if !a.used then a
      else if a.prn = m then { a with prn := k, n := -s.n, last := last }
      else { a with n := a.n - s.n, fixed := a.fixed && s.fixed })

/-- The same map on the float states and the covariance (R196). -/
def reRefFilt (m : Nat) (l : List Amb) (f : Filt) : Filt :=
  match findIx (fun a => a.used && a.prn == m) l with
  | none => f
  | some j =>
    let e (i : Nat) : List Int := (List.replicate 15 (0 : Int)).set i 1
    f.mapAmb (l.zipIdx.map (fun s =>
      if !s.1.used then List.replicate 15 0 else if s.2 = j then (e j).map (- ·) else addTimes (-1) (e s.2) (e j)))

/-- ms since a time of week. -/
def msSince (t last : Nat) : Int := weekDiff weekMs t last

/-! ## A solve (R187, R190, R195–R219) -/

/-- What a solve works from: parameters, record, epoch, clock offset, both ends' measurements, the reference and the ms since the
last solved epoch, each PRN's ms since its carrier was last used, where the context lies, whether FIXQ is set and docks are enabled,
and a free value for equal elevations. -/
structure Solving where
  q      : Params
  o      : List Nat
  t      : Nat
  del    : Fx
  ms     : List Ends
  prev   : Nat
  dt     : Int
  since  : List (Nat × Int)
  cb     : Nat
  fixq   : Bool
  docken : Bool
  rv     : Nat

/-- What the context keeps of a PRN: the last single-difference phase and rover LOCK (R197). -/
def prnPhase (a n : Nat) (d : Dev) : Fx := ofF64 (ofLe (dramRead (a + 0xA00 + 16 * (n - 1)) 8 d))
def prnLock (a n : Nat) (d : Dev) : Nat := dramGet (a + 0xA00 + 16 * (n - 1) + 8) d

/-- The single-difference phase has changed otherwise than the Doppler predicts, by more than SLIPTHR (R197). -/
def Solving.dopSlip (k : Solving) (n : Nat) (dt : Int) (d : Dev) : Bool :=
  match k.ms.find? (fun m => m.prn == n) with
  | none => false
  | some m =>
    let moved := m.sdPhase k.del - prnPhase k.cb n d
    decide ((fxQ k.q.slipthr 100).natAbs < (moved + mulx m.sdDop (fxQ dt 1000)).natAbs)

/-- A carrier has slipped since its previous use, if it had one (R197). -/
def Solving.slipped (k : Solving) (s : Sat) (d : Dev) : Bool :=
  match k.since.find? (fun e => e.1 == s.prn) with
  | none => false
  | some (_, dt) =>
    let pl := prnLock k.cb s.prn d
    bit s.fl 2 || (decide (s.lock < pl) && decide (pl < 255)) || bit s.bfl 3 || decide ((s.blk : Int) < dt) ||
      (decide (dt ≤ 200) && k.dopSlip s.prn dt d)

/-- Whether the rover's own record breaks a carrier it reports (R197). -/
def roverBreaks (o : List Nat) (n : Nat) : Bool :=
  (oSats o).any (fun e => e.getD 0 0 == n && (bit (e.getD 1 0) 2 || !bit (e.getD 1 0) 0 || !bit (e.getD 1 0) 1))

/-- A slot not used in this epoch: freed on a slip, a reset or beyond AMBHOLD, else held (R197, R198). -/
def Solving.hold (k : Solving) (a : Amb) : Amb :=
  if !a.used then a
  else if a.reset || roverBreaks k.o a.prn || decide ((k.q.ambhold : Int) < msSince k.t a.last) then {}
  else { a with held := true }

/-- A slot in an epoch with carrier: used again as it stands, or set anew after a slip. -/
def Solving.ambUse (k : Solving) (cs : List Sat) (ref : Nat) (d : Dev) (a : Amb) : Amb :=
  if !a.used then a
  else match cs.find? (fun s => s.prn == a.prn && s.prn != ref) with
    | none => k.hold a
    | some s =>
      if a.held && decide ((k.q.ambhold : Int) < msSince k.t a.last) then {}
      else
        let b := { a with held := false, last := k.t }
        if k.slipped s d then b.anew else b

/-- A slot for a new satellite: a free one, else the oldest held (R198). -/
def ambNew (t n : Nat) (l : List Amb) : List Amb :=
  if l.any (fun a => a.used && a.prn == n) then l
  else
    let v : Amb := { prn := n, used := true, last := t, reset := true }
    match findIx (fun a => !a.used) l with
    | some i => l.set i v
    | none =>
      match findIx (fun a => a.held && l.all (fun x => !x.held || decide (msSince t x.last ≤ msSince t a.last))) l with
      | some i => l.set i v
      | none => l

/-- The slots of an epoch (R197, R198, Table 06-4): none without FIXQ, all held with fewer than five carrier satellites. -/
def Solving.slots (k : Solving) (cs : List Sat) (ref : Nat) (ambs : List Amb) (d : Dev) : List Amb :=
  if !k.fixq then List.replicate 15 {}
  else if cs.length < 5 then ambs.map k.hold
  else (cs.filter (fun s => s.prn != ref)).foldl (fun l s => ambNew k.t s.prn l)
    ((ambs.map (k.ambUse cs ref d)).map (fun a => if a.prn = ref then ({} : Amb) else a))

/-- The satellites as lines of the epoch's update, from a state: a slot where the carrier is used. -/
def Solving.line (k : Solving) (f : Filt) (ambs : List Amb) (ref : Nat) (s : Sat) : Option Line :=
  (k.ms.find? (fun m => m.prn == s.prn)).map (fun m =>
    { m := m, g := m.seen k.t k.del f.pos k.q.basex
      slot := if s.carr && s.prn != ref then findIx (fun a => a.live && a.prn == s.prn) ambs else none })

/-- Fixed ambiguities stand at their integers with 10^-6 cycle² (R209); slots not in use hold nothing. -/
def pinAmbs (ambs : List Amb) (f : Filt) : Filt :=
  ambs.zipIdx.foldl (fun g e =>
    if !e.1.used then g.dropAmb e.2 else if e.1.fixed then g.setAmb e.2 (fx e.1.n) (fxQ 1 1000000) else g) f

/-- An epoch with its measurements in: satellites and reference, slots, filter, lines and reference line, failed differences, and
whether every fixed ambiguity was released. -/
structure Mid where
  sats : List Sat
  ref  : Sat
  ambs : List Amb
  filt : Filt
  ls   : List Line := []
  kl   : Option Line := none
  inno : Nat := 0
  rel  : Bool := false

/-- The epoch's tests and update from a prepared state (R202–R204, R210): a faulty reference is dropped and the epoch begun again
with the next highest, at most once for each satellite. A failed Doppler is left out as a failed code is (DEDUCED, log 151). -/
def Solving.epoch (k : Solving) (d : Dev) : Nat → Mid → Mid
  | 0, m => m
  | n + 1, m =>
    let cs := m.sats.filter Sat.carr
    let a1 := k.slots cs m.ref.prn m.ambs d
    let f1 := pinAmbs a1 m.filt
    let all_ := m.sats.filterMap (fun s => (k.line f1 a1 m.ref.prn s).map (fun l => (s.prn, l)))
    match all_.find? (fun e => e.1 == m.ref.prn) with
    | none => m
    | some (_, kl) =>
      let ls := (all_.filter (fun e => e.1 != m.ref.prn)).map Prod.snd
      let anew (l : List (Nat × Line)) (f : Filt) : Filt := l.foldl (fun g e => g.resetAmb k.del e.1 e.2 kl) f
      let f2 := anew ((carrLines ls).filter (fun e => (a1.getD e.1 {}).reset)) f1
      let badCode := ls.filter (fun l => fails f2 k.q.sigCodex l kl (codeRow k.del l kl))
      let badCarr := (carrLines ls).filter (fun e => fails f2 k.q.sigPhx e.2 kl (carrRow k.del f2 e.1 e.2 kl))
      let badDop := ls.filter (fun l => fails f2 sigDopx l kl (dopRow f2 l kl))
      let isBad (l : Line) : Bool := badCode.any (fun x => x.m.prn == l.m.prn) || badCarr.any (fun x => x.2.m.prn == l.m.prn) ||
        badDop.any (fun x => x.m.prn == l.m.prn)
      let inno := m.inno + badCode.length + badCarr.length + badDop.length
      let rest := m.sats.filter (fun s => s.prn != m.ref.prn)
      let pool := let c := rest.filter Sat.carr; if c.isEmpty then rest else c
      match (if m.sats.length < 2 * (ls.filter isBad).length then highest pool k.rv else none) with
      | some r => k.epoch d n { m with sats := rest, ref := r, ambs := a1.map Amb.anew, inno := inno }
      | none =>
        let fixd := badCarr.filter (fun e => (a1.getD e.1 {}).fixed)
        let rel := decide (2 ≤ fixd.length)
        let out := badCarr.filter (fun e => !(rel && (a1.getD e.1 {}).fixed))
        let a2 := a1.zipIdx.map (fun e =>
          { e.1 with fixed := e.1.fixed && !rel && !out.any (fun x => x.1 == e.2), reset := false })
        let f3 := if rel then a1.zipIdx.foldl (fun g e => if e.1.fixed then g.widen e.2 (fxQ 1 100) else g) f2 else f2
        let f4 := anew out f3
        let code := ls.filter (fun l => !badCode.any (fun x => x.m.prn == l.m.prn))
        let dops := ls.filter (fun l => !badDop.any (fun x => x.m.prn == l.m.prn))
        { m with ambs := a2, filt := pinAmbs a2 (f4.epoch k.q k.del ls code dops kl), ls := ls, kl := some kl, inno := inno, rel := rel }

/-- Float ambiguities in use, by slot. -/
def floatSlots (ambs : List Amb) : List Nat :=
  (ambs.zipIdx.filter (fun e => e.1.live && !e.1.fixed)).map Prod.snd

/-- A search over the float ambiguities in use (R207). -/
def Solving.search (k : Solving) (f : Filt) (ix : List Nat) : Searched :=
  lambdaSearch (ix.map (fun i => ix.map (fun j => mGet f.p (6 + i) (6 + j)))) (ix.map f.amb) k.q.srchmax

/-- The ratio test (R208), and the ratio in Q8.8, saturating (Table 06-5). -/
def Solving.passes (k : Solving) (s : Searched) : Bool := !s.ovf && decide (k.q.ratio * s.f1 ≤ s.f2 * 256)
def ratioQ (s : Searched) : Nat := if s.ovf then 0 else if s.f1 = 0 then 0xFFFF else min 0xFFFF ((s.f2 * 256).fdiv s.f1).toNat

/-- The slots marked fixed at their integers (R209). -/
def fixSlots (l : List (Nat × Int)) (ambs : List Amb) : List Amb :=
  ambs.zipIdx.map (fun e => match l.find? (fun x => x.1 == e.2) with
    | some x => { e.1 with fixed := true, n := x.2 }
    | none => e.1)

/-- The gates of R206. -/
def Solving.gates (k : Solving) (f : Filt) (ix : List Nat) : Bool :=
  let c := f.siteCov k.q
  decide (mGet c 0 0 + mGet c 1 1 ≤ sqx (fxQ k.q.fixgate 1000)) &&
    ix.all (fun i => decide (mGet f.p (6 + i) (6 + i) ≤ sqx (fxQ k.q.ambgate 100)))

/-- A dock claim may be tried (R212). -/
def Solving.claimOk (k : Solving) (cars : Nat) (f : Filt) : Bool :=
  let s := f.site k.q
  let gap (i : Nat) : Fx := s.getD i 0 - fxQ (k.q.dockAt.getD i 0) 1000
  k.q.dock && k.fixq && decide (5 ≤ cars) && decide (sqx (gap 0) + sqx (gap 1) ≤ sqx (fxQ k.q.anchchk 1000)) &&
    (!oOdo k.o || decide ((oOdod k.o).natAbs ≤ 10))

/-- A carrier difference fails after fixing: its residual moved on with the state from where the lines were taken (R213). -/
def Solving.failsNow (k : Solving) (x0 : Vec) (f : Filt) (i : Nat) (l kl : Line) : Bool :=
  let r := carrRow k.del f i l kl
  fails f k.q.sigPhx l kl (r.1, r.2 - vDot (ddDir l kl) (vSub f.pos x0))

/-- What a solve's logic finds: state, slots, filter, reference, flags and counts of its outputs. -/
structure Found where
  st    : Nat
  ambs  : List Amb
  filt  : Option Filt
  ref   : Nat
  nsat  : Nat
  flags : Nat
  ratio : Nat := 0
  rel   : Bool := false
  used  : List Nat := []
  fix   : Bool := false
  rfail : Nat := 0
  sovf  : Nat := 0
  inno  : Nat := 0
  dacc  : Bool := false
  dref  : Bool := false

/-- Prediction only (Table 06-4, first row): a claim is refused (R213). -/
def Solving.none_ (k : Solving) (ambs : List Amb) (f : Option Filt) (nsat : Nat) : Found :=
  let a := ambs.map k.hold
  let ref := oClaim k.o && k.docken
  { st := 0, ambs := a, filt := f.map (pinAmbs a), ref := k.prev, nsat := nsat, dref := ref
    flags := b2n f.isSome * 2 ^ 7 + b2n ref * 4 }

/-- What the context holds, brought to an epoch's reference (R196, R197): carried over where the reference changes, and all set anew
where the reference, or the one taken, has slipped. -/
def Solving.begin_ (k : Solving) (ambs0 : List Amb) (f0 : Filt) (sats : List Sat) (ref : Sat) (d : Dev) : Mid :=
  let changed := k.prev != 0 && k.prev != ref.prn
  let slip := ref.carr && k.slipped ref d
  let last := match k.since.find? (fun e => e.1 == k.prev) with
    | some (_, dt) => ((k.t : Int) - dt) % weekMs
    | none => k.t
  let a1 := if changed then reRef k.prev ref.prn last.toNat ambs0 else ambs0
  { sats := sats, ref := ref, ambs := if slip then a1.map Amb.anew else a1, filt := if changed then reRefFilt ref.prn ambs0 f0 else f0 }

/-- The carriers an epoch uses. -/
def Solving.uses (k : Solving) (m : Mid) : List Nat :=
  let cs := m.sats.filter Sat.carr
  if k.fixq && decide (5 ≤ cs.length) then cs.map Sat.prn else []

/-- An epoch from its measurements on (R206–R215). -/
def Solving.rest (k : Solving) (ambs0 : List Amb) (m : Mid) : Found :=
  let cars := (m.sats.filter Sat.carr).length
  let few := decide (cars < 5)
  let lost := (ambs0.zip m.ambs).any (fun e => e.1.used && e.1.fixed && !(e.2.used && e.2.fixed))
  let ix := floatSlots m.ambs
  -- the dock claim (R212, R213)
  let claim := oClaim k.o && k.docken
  let tried := claim && k.claimOk cars m.filt
  let fa := m.filt.anchor (k.q.ofSite k.q.dockAt) k.q.anchsig
  let s1 := k.search fa ix
  let in1 := ix.zip s1.ints
  let pass1 := ix.isEmpty || k.passes s1
  let fb := if ix.isEmpty then fa else fa.fixAmbs in1
  let after := match m.kl with
    | some kl => (carrLines m.ls).all (fun e => !k.failsNow fa.pos fb e.1 e.2 kl)
    | none => false
  let acc := tried && pass1 && after
  -- the search of R206
  let run2 := !acc && !few && k.fixq && !ix.isEmpty && k.gates m.filt ix
  let s2 := k.search m.filt ix
  let pass2 := run2 && k.passes s2
  let run1 := tried && !ix.isEmpty
  let bad1 := run1 && !s1.ovf && !k.passes s1
  let bad2 := run2 && !s2.ovf && !pass2
  let got := if acc then in1 else if pass2 then ix.zip s2.ints else []
  let a := fixSlots got m.ambs
  let f := if acc then fb else if pass2 then m.filt.fixAmbs got else m.filt
  let nfix := (a.filter (fun x => x.live && x.fixed)).length
  let moved := k.prev != 0 && k.prev != m.ref.prn
  { st := if acc then 4 else if !k.fixq || few then 1 else if 4 ≤ nfix then 3 else 2
    ambs := a, filt := some (pinAmbs a f), ref := m.ref.prn, nsat := m.sats.length
    flags := b2n acc * 2 + b2n (claim && !acc) * 4 + b2n moved * 8 + b2n lost * 16 + b2n (run1 || run2) * 32 + b2n (bad1 || bad2) * 64
    ratio := if run2 then ratioQ s2 else if run1 then ratioQ s1 else 0
    rel := m.rel, used := k.uses m, fix := !got.isEmpty, rfail := b2n bad1 + b2n bad2, sovf := b2n (run1 && s1.ovf) + b2n (run2 && s2.ovf)
    inno := m.inno, dacc := acc, dref := claim && !acc }

/-- An epoch with a reference (R196–R215). With fewer than four satellites left once a faulty reference is dropped there is no
solution (R203, R215). -/
def Solving.full (k : Solving) (ambs : List Amb) (f : Filt) (sats : List Sat) (ref : Sat) (d : Dev) : Found :=
  let m := k.epoch d sats.length (k.begin_ ambs f sats ref d)
  if m.sats.length < 4 then
    let n := k.none_ m.ambs (some f) m.sats.length
    { n with inno := m.inno, flags := n.flags + b2n (ambs.any (fun a => a.used && a.fixed)) * 16 }
  else k.rest ambs m

/-! ### Outputs (Tables 06-5, 06-6 and 06-10) -/

/-- The numbers of a solution record: E, N, U, VE, VN, VU in mm and mm/s, the variances and the covariance in mm², each as its
field holds it; a free value where there is no position or a position or velocity lies outside its field (log 44). -/
def solNums (q : Params) (f : Option Filt) (d : Dev) : List Nat :=
  let free (i : Nat) : Nat := (Config.freeValue (d.free + i)).toNat % 2 ^ 32
  match f with
  | none => (List.range 10).map free
  | some f =>
    let s32 (i : Nat) (v : Int) : Nat := if v.natAbs < 2 ^ 31 then ofS 32 v else free i
    let c := f.siteCov q
    let mm2 (i j : Nat) : Int := roundTimes (mGet c i j) (10 ^ 6)
    ((f.site q ++ f.siteVel q).zipIdx.map (fun e => s32 e.2 (roundTimes e.1 1000))) ++
      (List.range 3).map (fun i => min 0xFFFFFFFF (mm2 i i).toNat) ++ [ofS 32 (satS 32 (mm2 0 1))]

/-- The solution record (Table 06-5), its latency still 0. -/
def solRecord (x : Pipe) (mem : Nat) (f : Found) (odo : Bool) (v : List Nat) : List Nat :=
  let o := x.obs.bytes
  let age := (sinceBase (oEpoch o) x.base + 500000).fdiv 1000000
  let nfix := (f.ambs.filter (fun a => a.live && a.fixed)).length
  leBytes 2 (mem % 1024) ++ [f.st, f.flags + b2n odo] ++ leBytes 4 (oEpoch o) ++ v.flatMap (leBytes 4) ++ leBytes 2 f.ratio ++
    [f.nsat, nfix] ++ leBytes 2 (ofS 16 age) ++ leBytes 2 0 ++ [f.ref, 0] ++ leBytes 2 (oSeq o) ++ leBytes 4 0

/-- The item of Table 06-6. -/
def solItem (x : Pipe) (mem : Nat) (f : Found) (v : List Nat) : List W64 :=
  let two (i j : Nat) : W64 := BitVec.ofNat 64 (v.getD i 0 + v.getD j 0 * 2 ^ 32)
  [BitVec.ofNat 64 (mem % 1024 + f.st * 2 ^ 10 + f.flags / 2 ^ 7 % 2 * 2 ^ 13 + oEpoch x.obs.bytes * 2 ^ 16), two 0 1, two 6 7, two 9 2]

/-- The solver's part of a rover's context after a solve (Table 06-10), but for the solution record. -/
def ctxWrite (k : Solving) (f : Found) (head : Option Fx) (seed : Bool) (sats : List Sat) (d : Dev) : Dev :=
  let a := k.cb
  let d := dramWrite (a + 0xC0) (leBytes 4 k.t ++ leBytes 2 (oSeq k.o) ++ [f.ref, b2n head.isSome] ++ leBytes 8 (toF64 (head.getD 0))) d
  let d := match f.filt with
    | some x => dramWrite (a + 0x100) x.bytes d
    | none => d
  let d := dramWrite (a + 0x8E0) ((List.range 15).flatMap (fun i => (f.ambs.getD i {}).bytes)) d
  let d := forAll (sats.filter (fun s => f.used.contains s.prn)) (fun s d => match k.ms.find? (fun m => m.prn == s.prn) with
    | some m => dramWrite (a + 0xA00 + 16 * (s.prn - 1)) (leBytes 8 (toF64 (m.sdPhase k.del)) ++ [s.lock] ++ leBytes 4 s.blk) d
    | none => d) d
  if seed then dramPut (a + 2) (setBit (dramGet (a + 2) d) 2 false) d else d

/-! ### The solve -/

/-- The filter an epoch begins from (R200, R201, R205, R216): the seed or the first code solution after a reset, else what the
context holds, predicted over dt ms. -/
def startFilt (q : Params) (a : Nat) (reset seed known : Bool) (code : Option (Vec × Fx)) (odo : Option (Int × Int))
    (psi : Option Fx) (dt : Int) (d : Dev) : Option Filt :=
  if seed then
    let e (i : Nat) : Int := toS 32 (ofLe (dramRead (a + 4 + 4 * i) 4 d))
    some (Filt.start (q.ofSite [e 0, e 1, e 2]) (sqx (fxQ (ofLe (dramRead (a + 0x10) 4 d)) 1000)))
  else if reset || !known then code.map (fun c => Filt.start c.1 (fx 100))
  else some ((Filt.ofBytes (dramRead (a + 0x100) 2016 d)).predict q (axesOf q odo psi dt.toNat))

/-- The heading after an epoch (R201): turned with the odometry applied, and taken from the velocity at 200 mm/s or more. -/
def headingOf (q : Params) (f : Option Filt) (odo : Option (Int × Int)) (psi : Option Fx) : Option Fx :=
  let p := match odo, psi with
    | some (_, turn), some a => some (a + fxQ turn 10000)
    | _, x => x
  match f with
  | none => p
  | some f =>
    let v := f.siteVel q
    if sqx (fxQ 200 1000) ≤ sqx (v.getD 0 0) + sqx (v.getD 1 0) then some (atan2x (v.getD 0 0) (v.getD 1 0)) else p

/-- The ms since each PRN's carrier was last used for a rover (R197). -/
def usesOf (rv t : Nat) (d : Dev) : List (Nat × Int) :=
  prns.filterMap (fun n => match tget d.pos.usedAt (rv * 32 + n - 1) 0 with
    | 0 => none
    | l + 1 => some (n, msSince t l))

/-- A pipeline's solve ends (R187, R190, R195–R219, R222). -/
def solveDone (p : Nat) (d0 : Dev) : Dev :=
  match pipeOf p d0 with
  | none => d0
  | some x =>
    let d := pipeSet p none d0
    let q := x.par
    let o := x.obs.bytes
    let rv := x.obs.r
    let t := oEpoch o
    let sats := usable o x.base.bytes q
    let ms := sats.map (fun s => endsOf t x.base s.e s.x)
    let base := on POS.BASECTL.VALID d
    let code := if 4 ≤ sats.length ∧ base = true then codeFix ms t q.basex 8 (q.basex, 0) else none
    let clk := (code.map Prod.snd).getD 0
    if fxQ 1 1000 < clk.natAbs then
      inc POS.RECBAD (if x.reset then withPos (fun y => { y with resets := rv :: y.resets }) d else d)
    else match ctxPage rv d with
    | (none, d) => ctxFault rv d
    | (some a, d) =>
      let cfg := ofLe (dramRead a 4 d)
      let seed := x.reset && bit cfg 18
      let known := !x.reset && d.pos.known.contains rv
      let prev := if x.reset then 0 else dramGet (a + 0xC6) d
      let ambs := if x.reset then List.replicate 15 {} else ctxAmbs a d
      let dt := match tget d.pos.last rv 0 with
        | 0 => 0
        | l + 1 => msSince t l
      let psi := if x.reset || dramGet (a + 0xC7) d == 0 then none else some (ofF64 (ofLe (dramRead (a + 0xC8) 8 d)))
      let odo := if oOdo o && bit cfg 16 && known then some (oOdod o, oOdoh o) else none
      let f0 := startFilt q a x.reset seed known code odo psi dt d
      let k : Solving := { q := q, o := o, t := t, del := clk, ms := ms, prev := prev, dt := dt, cb := a
                           since := if x.reset then [] else usesOf rv t d
                           fixq := on POS.BASESTAT.FIXQ d, docken := bit cfg 17, rv := (freeOf (drawn d)).toNat }
      let f := match f0, code, refSat sats prev q (freeOf d).toNat with
        | some f0, some _, some ref => k.full ambs f0 sats ref d
        | _, _, _ => k.none_ ambs f0 sats.length
      let d := drawn (drawn d)
      let v := solNums q f.filt d
      let d := drawnN 80 d
      let was := if x.reset then 0 else dramGet (a + 0x82) d % 8
      let mem := cfg % 1024
      let d := addTo POS.INNOREJ f.inno d
      let d := if f.rel then lichen POSi 0x0903 (leBytes 2 mem) (inc POS.FIXREL d) else d
      let d := if f.fix then inc POS.FIXCNT d else d
      let d := addTo POS.SRCHOVF f.sovf (addTo POS.RATIOFAIL f.rfail d)
      let d := if f.dacc then inc POS.DOCKACC d else if f.dref then inc POS.DOCKREF d else d
      let d := ctxWrite k f (headingOf q f.filt odo psi) seed sats d
      let d := withPos (fun y => { y with
        last := tset y.last rv (t + 1) 0
        usedAt := f.used.foldl (fun l n => tset l (rv * 32 + n - 1) (t + 1) 0)
          (if x.reset then tclear y.usedAt (rv * 32) (rv * 32 + 32) else y.usedAt)
        known := if f.filt.isSome then rv :: y.known.filter (· ≠ rv) else y.known.filter (· ≠ rv) }) d
      let d := if on POS.SOLEVT.CHGTOK d && f.st != was then token 6 POSi (rd POS.SOLEVT.CHGN d) 0 d else d
      sendSolved { pipe := p, rover := rv, ctx := rctx rv d, rec_ := solRecord x mem f odo.isSome v, item := solItem x mem f v
                   since := max x.obs.shown x.base.raw } d

/-! ## Control (R216, R217, R225) -/

/-- Rovers whose context is to be reset before their next record. -/
def resetRovers (l : List Nat) (d : Dev) : Dev :=
  withPos (fun p => { p with resets := p.resets.filter (fun r => !l.contains r) ++ l }) d

/-- ROVEN written (R216). -/
def rovEnable (g v : Nat) (d : Dev) : Dev :=
  let old := rd (POS.ROVEN g) d
  resetRovers (((List.range 32).filter (fun j => bit v j && !bit old j)).map (fun j => 32 * g + j)) (wr (POS.ROVEN g) v d)

/-- The rotation is orthonormal within 10^-6 (R217). -/
def rotOk (d : Dev) : Bool :=
  let m (i j : Nat) : Int := toS 32 (rd (POS.SITEROT (3 * i + j)) d)
  let dot (i k : Nat) : Int := m i 0 * m k 0 + m i 1 * m k 1 + m i 2 * m k 2
  let one : Int := 2 ^ 60
  [0, 1, 2].all (fun i => decide (one * 999999 ^ 2 ≤ dot i i * 10 ^ 12 ∧ dot i i * 10 ^ 12 ≤ one * 1000001 ^ 2)) &&
    [(0, 1), (0, 2), (1, 2)].all (fun e => decide ((dot e.1 e.2).natAbs * 10 ^ 6 ≤ 2 ^ 60))

/-- SITECTL.VALID written (R217). -/
def siteValid (v : Bool) (d : Dev) : Dev :=
  if on POS.SOLCTL.EN d then d
  else if !v then wrB POS.SITECTL.VALID false d
  else if rotOk d then wrB POS.SITECTL.VALID true d
  else wrB POS.SITECTL.REFUSED true d

/-- SOLCTL.EN written (R217, R225). -/
def solverEnable (v : Bool) (d : Dev) : Dev :=
  let was := on POS.SOLCTL.EN d
  if v && !was then
    if on POS.SITECTL.VALID d then resetRovers ((List.range 128).filter (fun r => roven r d)) (wrB POS.SOLCTL.EN true d) else d
  else if !v && was then
    let n := d.pos.store.length
    addTo POS.RECNOEN n (wrB POS.SOLCTL.EN false (withPos (fun p => { p with store := [] }) d))
  else d

end Sys2Proof.Machine
end

