-- ==== Sys2Proof/Machine/PosRows.lean ====
section
/-! DEFINITION. Machine/PosRows.lean: the commands and events of the GNSS baseband and of the rover solver. -/

namespace Sys2Proof.Machine

/-- An effect on POS: nothing happens while POS is down (R357). -/
def onPos (s : State) (f : Dev → Dev) : Out := onDev s (fun _ => whenUp POSi f)

/-- What POS does by itself: nothing while it is down (R357), or held by a capture (R500). -/
def posOwn (s : State) (f : Dev → Dev) : Out := onDev s (fun _ => whenRuns POSi f)

/-- BASEBAND_ENABLE (R160, R182, R183): BBCTL written. -/
def execBasebandEnable (v : W32) (w : Who) (s : State) : Out := onPos s (whenB (atS w) (bbCtl v.toNat))

/-- ACQ_DWELL (R157–R161): the highest of the 64 peaks, the noise power, and which of the 64 phases it is. -/
def execAcqDwell (peak noise : W32) (lane : Fin 64) (s : State) : Out := posOwn s (acqDwell peak.toNat noise.toNat lane)

/-- CHANNEL_PIN (R159). -/
def execChannelPin (c : Fin 24) (prn : BitVec 6) (w : Who) (s : State) : Out := onPos s (whenB (atS w) (chPin c prn.toNat))

/-- CHANNEL_RELEASE (Table 05-13, note 3). -/
def execChannelRelease (c : Fin 24) (rel : Bool) (w : Who) (s : State) : Out := onPos s (whenB (atS w) (chRelease c rel))

/-- PLL_HANDOVER (R164, R168). -/
def execPllHandover (c : Fin 24) (s : State) : Out := posOwn s (pllHandover c)

/-- PULLIN_TIMEOUT (R164). -/
def execPullinTimeout (c : Fin 24) (s : State) : Out := posOwn s (pullinTimeout c)

/-- BIT_SYNC (R165). -/
def execBitSync (c : Fin 24) (s : State) : Out := posOwn s (bitSync c)

/-- FRAME_SYNC (R166, R167). -/
def execFrameSync (c : Fin 24) (s : State) : Out := posOwn s (frameSync c)

/-- CARRIER_LOSS (R168). -/
def execCarrierLoss (c : Fin 24) (s : State) : Out := posOwn s (carrierLoss c)

/-- CODE_LOSS (R166, R168). -/
def execCodeLoss (c : Fin 24) (s : State) : Out := posOwn s (codeLoss c)

/-- REACQ_TIMEOUT (R168). -/
def execReacqTimeout (c : Fin 24) (s : State) : Out := posOwn s (reacqTimeout c)

/-- NAV_WORD (R169, R170). -/
def execNavWord (c : Fin 24) (word : BitVec 30) (s : State) : Out := posOwn s (navWord c word.toNat)

/-- IONO_VALID (R171). -/
def execIonoValid (v : Bool) (w : Who) (s : State) : Out := onPos s (whenB (atS w) (wrB POS.IONOCTL.VALID v))

/-- BASE_POSITION_VALID (R177, R216). -/
def execBasePositionValid (v : Bool) (w : Who) (s : State) : Out := onPos s (whenB (atS w) (baseValid v))

/-- MEAS_LATCH (R172, R173). -/
def execMeasLatch (m : List Meas) (s : State) : Out := posOwn s (measLatch m)

/-- EPOCH_RECORD_COMPLETE (R173, R175, R176, R179, R181). -/
def execEpochRecordComplete (s : State) : Out := posOwn s epochComplete

/-- TIME_CORRECTION (R178); a STEPACC of the same raw count acts after it (R53). -/
def execTimeCorrection (s : State) : Out := posOwn s (fun d => accAfter (timeCorrection (ties s.pending d)))

/-- FIXQ_REPORT (R179). -/
def execFixqReport (e : Ecc) (s : State) : Out := onSec s (fun _ => fixqTake e)

/-- KEEP_UPDATE (R182). -/
def execKeepUpdate (s : State) : Out := posOwn s keepUpdate

/-- RECORD_IN (R184, R185, R188). -/
def execRecordIn (s : State) : Out := posOwn s recordIn

/-- RECORD_DISPATCH (R185, R186, R191, R205, R216, R223). -/
def execRecordDispatch (s : State) : Out := posOwn s recDispatch

/-- RECORD_WAIT_END (R192). -/
def execRecordWaitEnd (s : State) : Out := posOwn s waitEnd

/-- SOLVE_DONE (R187, R190, R195–R219). -/
def execSolveDone (p : Fin 4) (s : State) : Out := posOwn s (solveDone p)

/-- ROVER_ENABLE (R216). -/
def execRoverEnable (g : Fin 4) (v : W32) (w : Who) (s : State) : Out := onPos s (whenB (atS w) (rovEnable g v.toNat))

/-- ROVRST (R216). -/
def execRovrst (r : Fin 128) (w : Who) (s : State) : Out := onPos s (whenB (atS w) (resetRovers [r.val]))

/-- SITE_VALID (R217). -/
def execSiteValid (v : Bool) (w : Who) (s : State) : Out := onPos s (whenB (atS w) (siteValid v))

/-- SOLVER_ENABLE (R217, R225). -/
def execSolverEnable (v : Bool) (w : Who) (s : State) : Out := onPos s (whenB (atS w) (solverEnable v))

end Sys2Proof.Machine
end

