-- ==== Sys2Proof/Machine/RadioRows.lean ====
section
/-! DEFINITION. Machine/RadioRows.lean: the commands and events of the fleet radio. -/

namespace Sys2Proof.Machine

/-- An effect on RAD: nothing happens while RAD is down (R357). -/
def onRad (s : State) (f : Fuses → Dev → Dev) : Out := onDev s (fun fu => whenUp RADi (f fu))

/-- SUPERFRAME_START: a superframe begins (R79). `skew`: the counts of R563 differ by more than 2 µs. -/
def execSuperframeStart (skew : Bool) (s : State) : Out := onRad s (fun fu => superframe fu skew)

/-- CONNECTION_EVENT (R88, R92, R93, R102). -/
def execConnectionEvent (c : Fin 144) (s : State) : Out := onRad s (fun fu => connEvent fu c)

/-- FRAME_RECEIVE: a frame heard in a context's up part, the count of wrong access-code bits, whether the pair antenna's
copy was kept, the RSSI, and how many ns after the up part's start it began (R78, R100–R105, R116). -/
def execFrameReceive (c : Fin 144) (frame : List Byte) (acc : Fin 33) (pair : Bool) (rssi : Byte) (off : W32) (s : State) : Out :=
  onRad s (fun fu => frameReceive fu c (nats frame) acc pair rssi.toNat off.toInt)

/-- TX_PACKET: a transmit packet taken from SQ08 (R120). -/
def execTxPacket (s : State) : Out := onRad s (fun _ => txPacket)

/-- TXPWR_WRITE: TXPWR or BCNPWR of a lane (R75). -/
def execTxpwrWrite (l : Fin 4) (bcn : Bool) (v : W32) (s : State) : Out := onRad s (fun fu => powerWrite fu l bcn v.toInt)

/-- DWELL_LIMIT_WRITE (R87). -/
def execDwellLimitWrite (r : DwellReg) (v : W32) (s : State) : Out := onRad s (fun fu => limitWrite fu r v.toNat)

/-- REJOINCH_WRITE (R84). -/
def execRejoinchWrite (v : W32) (s : State) : Out := onRad s (fun _ d => rejoinWrite v.toNat (anyArmed d) d)

/-- MAPCTL_ARM (R83, R85). -/
def execMapctlArm (s : State) : Out := onRad s (fun _ => mapArm)

/-- ARM, with TERM in the same cycle or not (R96, R109, R121). -/
def execArm (c : Fin 144) (term : Bool) (s : State) : Out :=
  onRad s (fun _ => if term then termCtx c else armCtx c)

/-- UPDARM (R94, R118). -/
def execUpdarm (c : Fin 144) (s : State) : Out := onRad s (fun _ => updArm c)

/-- TERM (R121). -/
def execTerm (c : Fin 144) (s : State) : Out := onRad s (fun _ => termCtx c)

/-- UPDATE_INSTANT: what is due at the context's present event takes effect (R94, R95). -/
def execUpdateInstant (c : Fin 144) (s : State) : Out :=
  onRad s (fun _ d => if armed c d && !(ctxOf c d).isOpen then atInstant c d else d)

/-- LINK_LOST (R98). -/
def execLinkLost (c : Fin 144) (s : State) : Out := onRad s (fun _ => linkLost c)

/-- JOINING_TIMEOUT (R109). -/
def execJoiningTimeout (c : Fin 144) (s : State) : Out := onRad s (fun _ => joinTimeout c)

/-- JOIN_EVENT of a lane (R106, R110). -/
def execJoinEvent (l : Fin 4) (s : State) : Out := onRad s (fun fu => joinEvent fu l)

/-- JOIN_REQ heard on a lane, with the join counter its MIC was made with, whether the pair antenna's copy was kept, and the
RSSI (R78, R101, R108). -/
def execJoinReq (l : Fin 4) (frame : List Byte) (ctr : W32) (pair : Bool) (rssi : Byte) (s : State) : Out :=
  onRad s (fun fu => joinReq fu l (nats frame) ctr.toNat pair rssi.toNat)

/-- FENCE: LCTL.FENCE written; it acts at the next superframe boundary (R117). -/
def execFence (l : Fin 4) (v : Bool) (s : State) : Out := onRad s (fun _ => wrB (RAD.LCTL.FENCE l) v)

/-- LOOPBACK_CHECK with the loss each lane's burst shows, none where it was not received (R562). -/
def execLoopbackCheck (r0 r1 r2 r3 : Option Byte) (s : State) : Out :=
  onRad s (fun fu => loopback fu (fun l => (([r0, r1, r2, r3].getD l none).map BitVec.toNat)))

end Sys2Proof.Machine
end

