-- ==== Sys2Proof/Machine/ResetRows.lean ====
section
/-! DEFINITION. Machine/ResetRows.lean: start-up, moss service, resets, watchdogs, low power and capture (Start-up, moss
service, resets and low power). -/

namespace Sys2Proof.Machine

/-- AON is running: the islands are released (Table 15-1, R476). -/
def aonDone (d : Dev) : Dev :=
  if d.aon.power ≠ .starting then d
  else
    let d := inc AON.STARTCNT { d with aon := { d.aon with power := .run } }
    forAll [1, 2, 3, 4, 5, 6, 7, 8] startIsl d

/-- AON_START_DONE (R475, R476). -/
def execAonStartDone (s : State) : Out := onAon s (fun _ => aonDone)

/-- BOOT_SLOT_CHECK (R483, R484). -/
def execBootSlotCheck (s : State) : Out := onDev s (fun fu => whenUp APPi (bootCheck fu))

/-- FIRMWARE_ENTRY (R477). -/
def execFirmwareEntry (s : State) : Out := onDev s (fun _ => whenUp APPi firmwareEntry)

/-- BOOT_FAIL (R486). -/
def execBootFail (s : State) : Out := onDev s (fun _ => whenUp APPi bootFailed)

/-- RECOVERY: a recovery frame at a port (R486). -/
def execRecovery (f : PortFrame) (s : State) : Out :=
  onDev s (fun fu => whenUp APPi (whenB (toPort f) (recovery f.port f.src.toNat (nats f.body) fu)))

/-- SPORE_READY: regeneration, from the 3,570 bits that SEC reads of its PUF SRAM (R510, R516). -/
def execSporeReady (puf : BitVec 3570) (s : State) : Out := onSec s (fun fu => sporeReady fu puf)

/-- SPORE_RETRY: a read-out from which regeneration fails (R511). -/
def execSporeRetry (puf : BitVec 3570) (s : State) : Out := onSec s (fun _ => sporeRetry puf)

/-- Why a LEAVE is refused (R480), 0 where it is accepted. -/
def leaveWhy (fu : Fuses) (d : Dev) : Nat :=
  if lcState fu ≠ 2 then 1
  else if region fu = 0 then 2
  else if !keyOk d then 5
  else if d.keep.tampHold then 4
  else if (condFail (wrB SEC.PMSTAT.MOSS false d)).isSome then 3
  else 0

/-- ENTER (R481). -/
def mossEnter (d : Dev) : Dev :=
  let d := secMoss d
  { d with rad := { d.rad with mossNext := some true }, sec := { d.sec with enterRaw := some d.raw } }

/-- Whether a waiting command is an ENTER that will be taken. -/
def enters : Instr → Bool
  | .enter w => atM w
  | .leave e w => e && atM w
  | _ => false

/-- LEAVE (R480): SEC in moss crawl, RAD out of moss stop at its next superframe. An ENTER of the same count wins (R481). -/
def mossLeave (fu : Fuses) (d : Dev) : Dev :=
  if !on SEC.PMSTAT.MOSS d || d.sec.enterRaw == some d.raw then d
  else
    let why := leaveWhy fu d
    if why ≠ 0 then wr SEC.MOSSCTL.REFWHY why (wrB SEC.MOSSCTL.REFUSED true d)
    else
      let d := wrB SEC.PMSTAT.CRAWL true (wrB SEC.PMSTAT.MOSS false d)
      { d with rad := { d.rad with mossNext := some false } }

/-- LEAVE, with ENTER written in the same cycle or not (R480, R481, R503). -/
def execLeave (enter : Bool) (w : Who) (s : State) : Out :=
  onSec s (fun fu => whenB (atM w)
    (fun d => if enter then mossEnter d else if s.pending.any enters then d else mossLeave fu d))

/-- ENTER (R481). -/
def execEnter (w : Who) (s : State) : Out := onSec s (fun _ => whenB (atM w) mossEnter)

/-- WRM: RSTCTL.WRM with its KEY (R492, R503). -/
def execWrm (key : Byte) (w : Who) (s : State) : Out :=
  onAon s (fun _ d => whenB (rstTaken key w d) (rstAsk s.pending 2 (resetAsk 0)) d)

/-- ISLGO: RSTCTL.ISLGO with ISL and KEY (R489, R492, R570). -/
def execIslgo (isl : Fin 16) (key : Byte) (w : Who) (s : State) : Out :=
  onAon s (fun _ d => whenB (rstTaken key w d && islTaken isl) (rstAsk s.pending 1 (resetAsk isl)) d)

/-- An island leaves reset: its hold is over and no monitor holds it (R563, R564, R570). -/
def release (i : Nat) (d : Dev) : Dev :=
  match tget d.isl i .off with
  | .held u => if u ≤ d.raw ∧ tget d.aon.holds i 0 = 0 then startIsl i d else d
  | _ => d

/-- ISLAND_RELEASE (R570). -/
def execIslandRelease (isl : Fin 9) (s : State) : Out := onAon s (fun _ => release isl)

/-- APP_ISLAND_RESET (R149, R487, R565). -/
def execAppIslandReset (w : Who) (s : State) : Out :=
  onAon s (fun _ d => whenB (atM w && d.aon.power == .run && isUp APPi d) (rstAsk s.pending 1 (resetAsk APPi)) d)

/-- TMP: the reset a tamper response calls for (R489, R531). -/
def execTmp (s : State) : Out := onAon s (fun _ d => whenB d.aon.tmpDue (rstAsk s.pending 4 tmp) d)

/-- WDKICK (R490). -/
def execWdkick (v : W32) (w : Who) (s : State) : Out := onAon s (fun _ => whenB (atS w) (wdKick v))

/-- WDCTL_WRITE (R490, R503). -/
def execWdctlWrite (v : W32) (w : Who) (s : State) : Out := onAon s (fun _ => whenB (atM w) (wdCtl v.toNat))

/-- The WDR, its capture refused or cut off. -/
def wdrGo (d0 : Dev) : Dev :=
  let d := if on AON.WDCTL.CAPEN d0 && d0.aon.capFrom.isNone then captureStart 2 0xFF d0 else d0
  wdr (wrB MEM.CAPSTAT.BUSY false (wrB AON.DUMPCTL.BUSY false { d with aon := { d.aon with capFrom := none } }))

/-- WATCHDOG_EXPIRY: a capture first where CAPEN allows it, else a WDR at once (R490, R492, R499). -/
def execWatchdogExpiry (s : State) : Out :=
  onAon s (fun _ d =>
    if wdrNow d || captureLate d then rstAsk s.pending 3 wdrGo d
    else if wdExpired d then captureStart 2 0xFF d
    else d)

/-- SEC_WATCHDOG: 50 ms without service; an island reset like another (R491, R492). -/
def execSecWatchdog (s : State) : Out :=
  onAon s (fun _ d => whenB (isUp SECi d) (rstAsk s.pending 1 (fun d => resetAsk SECi (raise AON.RSTCAUSE.SECWD d))) d)

/-- An LPCTL request (R493, R496, R503). -/
def lpAsk (hib : Bool) (d : Dev) : Dev :=
  if d.aon.power ≠ .run then d
  else
    let why := lpWhy hib d
    if why ≠ 0 then wr AON.LPSTAT.REFWHY why (raise AON.LPSTAT.REFUSED d)
    else if hib then hibernate d else standby d

/-- STANDBY (R493, R494). -/
def execStandby (w : Who) (s : State) : Out := onAon s (fun _ => whenB (atM w) (lpAsk false))

/-- HIBERNATE (R496). -/
def execHibernate (w : Who) (s : State) : Out := onAon s (fun _ => whenB (atM w) (lpAsk true))

/-- STANDBY_WAKE: a wake source, the frame where that is one, and what SEC reads of its PUF SRAM (R495, R510). -/
def execStandbyWake (src : Fin 18) (f : Option PortFrame) (puf : BitVec 3570) (s : State) : Out :=
  onAon s (fun fu => standbyWake src f puf fu)

/-- HIBERNATE_WAKE (R496). -/
def execHibernateWake (src : Fin 18) (s : State) : Out := onAon s (fun fu => hibernateWake src fu)

/-- CAPTURE: MEM.CAPCTL.START (R499, R500, R503). -/
def execCapture (w : Who) (s : State) : Out :=
  onDev s (fun _ => whenUp MEMi (whenB (atM w) (captureStart 1 w.rq)))


/-- DUMP_CLEAR: 1 written to DUMPCTL.VALID (R502). -/
def execDumpClear (w : Who) (s : State) : Out :=
  onAon s (fun _ => whenB (atS w) (cleared AON.DUMPCTL.VALID))

end Sys2Proof.Machine
end

