-- ==== Sys2Proof/Machine/StraitRows.lean ====
section
/-! DEFINITION. Machine/StraitRows.lean: the commands on strait queues, locks, ferries and doorbells. -/

namespace Sys2Proof.Machine

/-- The island that serves a queue's window runs, so an access reaches it (R357). -/
def qWinUp (q : Nat) (d : Dev) : Bool := isUp (qServer q) d

/-- Whether a requester at a level may use the window of a queue, ferry or block at M level or below (R359). -/
def lvlOk (m : Bool) (w : Who) : Bool := w.rq == 8 || w.lvl == .m || (!m && w.lvl == .s)

/-- QUEUE_PUSH: a QPUSHHI write (R363, R364, R369, R371, R373, R375). -/
def execQueuePush (q : Fin 48) (hi : W32) (w : Who) (s : State) : Out :=
  onDev s (fun _ => whenB (lvlOk (qAtM q) w) (fun d =>
    whenB (qWinUp q d) (fwPush q hi (w.rq + w.lvl.num * 16)) d))

/-- PACKET_PRESENTABLE: one consumer clock after its END item, the oldest complete packet becomes presentable, with what ECC finds
in it (R365, R366, R370). BKEY frames, join requests and their answers are taken as they come up (R108, R126). -/
def execPacketPresentable (q : Fin 48) (e : Ecc) (s : State) : Out :=
  onDev s (fun fu d => whenB (qLive q d) (fun d => taken fu q (showNext q e d)) d)

/-- An access to a queue's window that a requester's level and the window's island let through; one that is a bus error shows 0
(R357, R359). -/
def qWin (q : Nat) (w : Who) (f : Dev → Dev) (d : Dev) : Dev :=
  if lvlOk (qAtM q) w && qWinUp q d then f d else { d with rdata := 0 }

/-- QUEUE_POP: a QPOPLO read, with what ECC finds on the item (R357, R370, R374). -/
def execQueuePop (q : Fin 48) (e : Ecc) (w : Who) (s : State) : Out := onDev s (fun _ => qWin q w (fwPop q e))

/-- A QCTL command that reaches the queue (R357, R359). -/
def qCmd (q : Nat) (w : Who) (f : Dev → Dev) (d : Dev) : Dev := whenB (lvlOk (qAtM q) w && qWinUp q d) f d

/-- MARK: QCTL.MARK (R367). -/
def execMark (q : Fin 48) (w : Who) (s : State) : Out := onDev s (fun _ => qCmd q w (qMark q))

/-- REWIND: QCTL.REWIND (R367). -/
def execRewind (q : Fin 48) (w : Who) (s : State) : Out := onDev s (fun _ => qCmd q w (qRewind q))

/-- QUEUE_RELEASE: QCTL.RELEASE (R368). -/
def execQueueRelease (q : Fin 48) (w : Who) (s : State) : Out := onDev s (fun _ => qCmd q w (qRelease q))

/-- One requester's read of a lock: what it shows is kept under its number (R376, R378). Below S level, or while SCH is down, it is a
bus error, which shows 0 (R357, R359). -/
def lockReadBy (n : Nat) (w : Who) (d : Dev) : Dev :=
  let d := if lvlOk false w && isUp SCHi d then lockRead n w.rq d else { d with rdata := 0 }
  { d with lockSeen := d.lockSeen ++ [(w.rq.val, d.rdata.toNat)] }

/-- LOCK_READ: reads of one lock in one SCH clock cycle, by any number of requesters (R376, R378): the lowest requester number comes
first. What each of them reads is kept. -/
def execLockRead (n : Fin 128) (rqs : List Who) (s : State) : Out :=
  onDev s (fun _ d =>
    forAll (List.range 16) (fun r d => forAll (rqs.filter (fun w => w.rq.val == r)) (lockReadBy n) d) { d with lockSeen := [] })

/-- LOCK_WRITE: a write of a requester number to a lock (R377). -/
def execLockWrite (n : Fin 128) (v : Fin 16) (w : Who) (s : State) : Out :=
  onDev s (fun _ => whenB (lvlOk false w) (whenUp SCHi (lockWrite n w.rq v)))

/-- LOCKFREE: frees a lock whoever holds it, at M level (R379). -/
def execLockfree (n : Fin 128) (w : Who) (s : State) : Out :=
  onDev s (fun _ => whenB (lvlOk true w) (whenUp SCHi (fun d => inc SCH.LOCKERR (lockSet n 0 d))))

/-- FERRY_WRITE: a payload word written as a pair to a ferry (R10, R381); F0–F7 are open to M level and the SEC core only (R359). -/
def execFerryWrite (f i : Fin 16) (v : W64) (w : Who) (s : State) : Out :=
  onDev s (fun _ => whenUp (ferryIsl f) (fun d =>
    let d' := { d with held := tset d.held (FERRY.W f i).addr 0 0 }
    if (ferryOf f d).full || !ferrySender f w.rq w.lvl d then inc (FERRY.REFCNT f) d' else wr (FERRY.W f i) v.toNat d'))

/-- SEND: the header write that sends a message and rings the receiver's bit (R381). -/
def execSend (f : Fin 16) (hdr : W32) (w : Who) (s : State) : Out :=
  onDev s (fun _ => whenUp (ferryIsl f) (ferrySend f w.rq w.lvl hdr.toNat))

/-- TAKE: the read that consumes a message (R382); ferries F0–F7 are open to M level and the SEC core only, and a read that does not
reach its ferry shows 0 (R357, R359). -/
def execTake (f : Fin 16) (w : Who) (s : State) : Out :=
  onDev s (fun _ d =>
    if lvlOk (decide (f.val < 8)) w && isUp (ferryIsl f) d then ferryTake f w.rq d else { d with rdata := 0 })

/-- Unmasking or masking the doorbells of a receiver (R383, R385): each set bit that becomes unmasked acts. -/
def dbmask (r : Nat) (m : Nat) (d : Dev) : Dev :=
  let old := rd (BELL.DBMASK r) d
  let d := wr (BELL.DBMASK r) m d
  forAll (List.range 32) (fun b d =>
    if bit old b && !bit (rd (BELL.DBMASK r) d) b && bit (rd (BELL.DBELL r) d) b then bellActs r b d else d) d

/-- DBMASK_WRITE (R359, R385): open to the block's own receiver at S level or above, and to M level. -/
def execDbmaskWrite (r : Fin 12) (m : W32) (w : Who) (s : State) : Out :=
  onDev s (fun _ => whenUp (bellIsl r) (whenB (lvlOk (decide (r.val = 8)) w && (w.lvl == .m || w.rq.val == r.val)) (dbmask r m.toNat)))

/-- What a rung bell starts (R383): a core's DOORBELL event, SEC's ferry service, or a register batch to take. -/
def bellGo (r : Nat) (d : Dev) : Dev :=
  if r < 8 then { d with sch := { d.sch with bells := d.sch.bells ++ [r] } }
  else if r = 8 then d
  else { d with batchDue := if d.batchDue.contains r then d.batchDue else d.batchDue ++ [r] }

/-- DOORBELL: a set and unmasked bit acts for its receiver (R383). -/
def execDoorbell (r : Fin 12) (s : State) : Out :=
  onDev s (fun _ => whenUp (recvIsl r) (fun d =>
    if tget d.bellDue r 0 = 0 then d else bellGo r { d with bellDue := tset d.bellDue r 0 0 }))

end Sys2Proof.Machine
end

