-- ==== Sys2Proof/Machine/TimeRows.lean ====
section
/-! DEFINITION. Machine/TimeRows.lean: the commands and events of the time bases, trigger units and time pulse. -/

namespace Sys2Proof.Machine

/-- TSNAP: one raw value with CYCLE and WALL at it (R45). -/
def execTsnap (s : State) : Out := onAon s (fun _ => tsnap)

/-- RARM: arms the prepared rate change of CYCLE (false) or WALL (true) (R46, R47). -/
def execRarm (onWall : Bool) (s : State) : Out := onAon s (fun _ d => wrateGuard ((if onWall then armW else armC) d))

/-- RATE_CHANGE: the pending change of a timescale takes effect at or after its instant (R46, R58). -/
def execRateChange (onWall : Bool) (s : State) : Out := onAon s (fun _ d => wrateGuard ((if onWall then applyW else applyC) d))

/-- WALL_CORRECTION: a correction in ns with its source tag, from POS or written by firmware, as the pair WCORR (R10, R49–R53).
From POS it counts only while the TCXO is sound (R564). -/
def execWallCorrection (src : Fin 4) (fw : Bool) (amt : W64) (s : State) : Out :=
  onAon s (fun _ d =>
    accAfter (wrateGuard (correction src fw amt.toInt (whenB fw (unheld (winBase AONi + 0x10B0)) (ties s.pending d)))))

/-- SLEW_END: the slew has added exactly its amount, and WALL is back at its base rate (R51). -/
def execSlewEnd (s : State) : Out :=
  onAon s (fun _ d =>
    match d.aon.slew with
    | none => d
    | some w => if slewDone ((d.raw : Int) - rd AON.WBASE d) w then noted d (endSlew d) else d)

/-- STEPACC: the pending step applied in one raw count (R53, R69, R72). A correction of the same raw count is handled first. -/
def execStepacc (s : State) : Out :=
  onAon s (fun _ d => stepAsk (ties s.pending d))

/-- WALL_HOLDOVER: HOLDTO seconds without an applied correction (R54). -/
def execWallHoldover (s : State) : Out :=
  onAon s (fun _ d => if rd AON.WCTL.HOLDTO d * rawPerS ≤ d.raw - d.aon.lastCorr then holdover d else d)

/-- SRC_CHANGE: firmware writes WCTL.SRC; a change of source is holdover while WALL is valid (R54). A write of the value it has
changes nothing, 0b00 among them (DESIGN CHOICE, log 126). -/
def execSrcChange (src : Fin 4) (s : State) : Out :=
  onAon s (fun _ d => if rd AON.WCTL.SRC d = src.val then d else wrateGuard (wr AON.WCTL.SRC src (holdover d)))

/-- The rate that steers CYCLE towards WALL with a 64 s time constant (R59): CALIGN ns over 64 s, in 2^-40 units. The
rounding of a fraction is open: a free bit decides it (log 9). -/
def followRate (d : Dev) : Int :=
  let num : Int := -(calign d) * 2 ^ 40
  let q := num.fdiv 64000000000
  let up := if num % 64000000000 = 0 then 0 else ((freeOf d).toNat % 2 : Nat)
  rdS AON.WRATE d + q + up

/-- CYCLE_FOLLOW: once a second (R58, R59). -/
def execCycleFollow (s : State) : Out :=
  onAon s (fun _ d =>
    let d := checkDiverged d
    if on AON.CCTL.FOLLOW d && on AON.WSTAT.LOCKED d && !on AON.CCTL.DIVERGED d && decide (d.aon.follRaw + rawPerS ≤ d.raw ∨ d.aon.follRaw = 0) then
      noted d (takeCrate (followRate d) (drawn { d with aon := { d.aon with follRaw := d.raw } }))
    else d)

/-- STEPEN_WRITE: set only while RAD is in moss stop; cleared at any time (R60). -/
def execStepenWrite (v : Bool) (s : State) : Out :=
  onAon s (fun _ d => if v && !on RAD.RADCTL.MOSS d then d else wrB AON.CCTL.STEPEN v d)

/-- The superframe RAD begins next, as a number on a CYCLE value (R61, R62). -/
def nextSf (at_ : Int) (begun : Bool) : Int := at_.fdiv 10000000 + (if begun then 1 else 0)

/-- RAD at a CYCLE step (R61, R81): it begins its next superframe at the next boundary in the new CYCLE, the events of contexts
keep their distance in superframes from it and so their phases, and transmit times keep their age. -/
def radStep (old new : Int) (d : Dev) : Dev :=
  let begun := d.rad.sfLast == some (sfOf old)
  let edge := new % 10000000 == 0
  let shift := nextSf new (!edge) - nextSf old begun
  let d := forAll (List.range 144) (fun c d =>
    if rd (RAD.STATE.LINK c) d = 0 then d else wrS (RAD.NEXTSF c) ((rd (RAD.NEXTSF c) d : Int) + shift) d) d
  let moved (e : Dwell) : Dwell := { e with at_ := ofS 32 ((e.at_ : Int) + shift) }
  { d with rad := { d.rad with sfLast := if edge then none else some (sfOf new) }, aon := { d.aon with dwell := d.aon.dwell.map moved } }

/-- CTL at a CYCLE step (R61, R331): the cycle in progress ends at the next cycle start in the new CYCLE, and what it has met
stays its own. Where that start is this very count its deadline has passed. -/
def ctlStep (old new t : Int) (d : Dev) : Dev :=
  let edge := new % t == 0
  let met (x : Option Int) : Option Int := if x == some (old / t) && !edge then some (new / t) else none
  let c := d.ctl
  let due := edge && old % t != 0 && on CTL.CTLCTL.EN d && c.dl != some (old / t)
  { d with ctl := { c with fired := met c.fired, handed := met c.handed, dl := met c.dl, dlDue := due } }

/-- COFF_WRITE: a CYCLE step of the pair COFF, only while STEPEN is 1, with everything CYCLE paces re-aligned (R60, R61). -/
def coffWrite (v : W64) (d0 : Dev) : Dev :=
  if !on AON.CCTL.STEPEN d0 then d0
  else
    let old := cycle d0
    let d := wr AON.COFF v.toNat d0
    let new := cycle d
    let d := realignAll false old new d
    let t := cycNs d
    let d := ctlStep old new t d
    noted d0 (checkDiverged (radStep old new { d with net := { d.net with cycLast := if new % (t : Int) = 0 then none else some (ofS 64 new / t) } }))

/-- COFF_WRITE: the high word of the pair COFF written (R10, R60, R61). -/
def execCoffWrite (v : W64) (s : State) : Out :=
  onAon s (fun _ d => coffWrite v (unheld (winBase AONi + 0x1048) d))

/-- TRIGCTL_WRITE (R65, R68). -/
def execTrigctlWrite (n : Fin 16) (v : W32) (s : State) : Out := onAon s (fun _ => trigCtl n v.toNat)

/-- TRIGGER_FIRE (R64, R66–R68, R275): nothing where EN is cleared in the same raw count. -/
def execTriggerFire (n : Fin 16) (s : State) : Out :=
  onAon s (fun _ d => fireUpTo n (ties s.pending d))

/-- TPULSE_RISE: a WALL second boundary (R70–R72). -/
def execTpulseRise (s : State) : Out := onAon s (fun _ => ppsRise)

/-- TPULSE_FALL: 100 ms of raw time after a rise (R70). -/
def execTpulseFall (s : State) : Out := onAon s (fun _ => ppsFall)

/-- RATE_LEARNED: 2 h of continuous lock on any source (R55). -/
def execRateLearned (s : State) : Out :=
  onAon s (fun _ d =>
    match d.aon.lockFrom with
    | some r => if on AON.WSTAT.LOCKED d && decide (r + 7200 * rawPerS ≤ d.raw) then wrB AON.WSTAT.RATELRN true d else d
    | none => d)

end Sys2Proof.Machine
end

