-- ==== Sys2Proof/Machine/Track.lean ====
section
/-! DEFINITION. Machine/Track.lean: the track graph and the reservation engine: permits, releases, overruns, cuts, lost
members, corridor supervision, path queries and peer bases (Track graph, permits and task allotment). -/

namespace Sys2Proof.Machine

def withSch (f : SchS → SchS) (d : Dev) : Dev := { d with sch := f d.sch }

/-! ## The graph (R226–R230, Table 07-1) -/

def sramLe (o n : Nat) (d : Dev) : Nat := ofLe ((List.range n).map (fun i => (tget d.sch.sram (o + i) 0).toNat))

def segB (k : Nat) : Nat := 0x20000 + 32 * k
def segFrom (k : Nat) (d : Dev) : Nat := sramLe (segB k) 2 d % 8192
def segTo (k : Nat) (d : Dev) : Nat := sramLe (segB k + 2) 2 d % 8192
def segLen (k : Nat) (d : Dev) : Nat := sramLe (segB k + 4) 4 d
def segRad (k : Nat) (d : Dev) : Int := toS 32 (sramLe (segB k + 8) 4 d)
def segHalf (k : Nat) (d : Dev) : Nat := sramLe (segB k + 12) 2 d
def segVmax (k : Nat) (d : Dev) : Nat := sramLe (segB k + 14) 2 d
def segCap (k : Nat) (d : Dev) : Nat := sramLe (segB k + 16) 4 d
/-- The conflict groups in use. -/
def segGroups (k : Nat) (d : Dev) : List Nat :=
  (((List.range 4).map (fun j => sramLe (segB k + 20 + 2 * j) 2 d)).filter (fun g => bit g 15)).map (· % 4096)
def segZone (k : Nat) (d : Dev) : Nat := sramLe (segB k + 28) 1 d % 64
def segFl (k : Nat) (d : Dev) : Nat := sramLe (segB k + 29) 1 d
def segDirs (k : Nat) (d : Dev) : Nat := bits (segFl k d) 0 2
def segHarbour (k : Nat) (d : Dev) : Bool := bit (segFl k d) 2
def segIndoor (k : Nat) (d : Dev) : Bool := bit (segFl k d) 3
def segValid (k : Nat) (d : Dev) : Bool := bit (segFl k d) 4
def segOwner (k : Nat) (d : Dev) : Nat := bits (segFl k d) 5 3

def nodeE (n : Nat) (d : Dev) : Int := toS 32 (sramLe (16 * n) 4 d)
def nodeN (n : Nat) (d : Dev) : Int := toS 32 (sramLe (16 * n + 4) 4 d)

/-- The node a leg begins and ends at. -/
def legStart (k : Nat) (rev : Bool) (d : Dev) : Nat := if rev then segTo k d else segFrom k d
def legEnd (k : Nat) (rev : Bool) (d : Dev) : Nat := if rev then segFrom k d else segTo k d

/-- A direction the segment allows. -/
def dirOk (k : Nat) (rev : Bool) (d : Dev) : Bool :=
  let x := segDirs k d
  x == 0 || (x == 1 && !rev) || (x == 2 && rev)

/-- The lowest whole number of units not below a / b. -/
def cdiv (a b : Nat) : Nat := (a + b - 1) / b

/-- A store to the node and segment regions (R230): while EN is 1 only VMAX and DIR may change. -/
def graphWrite (o v : Nat) (d : Dev) : Dev :=
  if 0xA0000 ≤ o ∨ o % 4 ≠ 0 then d
  else
    let old := sramLe o 4 d
    let k := (o - 0x20000) % 32
    let may := if o < 0x20000 then 0 else if k = 12 then 0xFFFF0000 else if k = 28 then 0x300 else 0
    if on SCH.TRKCTL.EN d && decide ((old ^^^ v) &&& (0xFFFFFFFF ^^^ may) ≠ 0) then inc SCH.GRWERR d
    else
      let put (t : Tbl Byte) (e : Nat × Nat) : Tbl Byte := tset t (o + e.2) (BitVec.ofNat 8 e.1) 0
      withSch (fun s => { s with sram := ((leBytes 4 v).zipIdx).foldl put s.sram }) d

/-! ### Distances (R227, R238), in 2^-60 mm -/

def sqrtN (n : Nat) : Nat := isqrt n 100 0

/-- Length of a vector, in its own unit. -/
def vlen (x y : Int) : Nat := sqrtN (x * x + y * y).toNat

/-- Distance of a point in east and north from a segment's centre line (log 45). -/
def segDist (k : Nat) (e n : Int) (d : Dev) : Nat :=
  let s : Int := 2 ^ 60
  let ax := nodeE (segFrom k d) d
  let ay := nodeN (segFrom k d) d
  let bx := nodeE (segTo k d) d
  let by_ := nodeN (segTo k d) d
  let cx := bx - ax
  let cy := by_ - ay
  let l2 := cx * cx + cy * cy
  let ends := min (vlen ((e - ax) * s) ((n - ay) * s)) (vlen ((e - bx) * s) ((n - by_) * s))
  let r := segRad k d
  if l2 = 0 then ends
  else if r = 0 then
    let t := (e - ax) * cx + (n - ay) * cy
    if t < 0 ∨ l2 < t then ends
    else
      let x := (e - ax) * cy - (n - ay) * cx
      sqrtN ((x * x * s * s).fdiv l2).toNat
  else
    let r' : Int := r.natAbs
    let sg : Int := if 0 < r then 1 else -1
    let q : Int := sqrtN (((4 * r' * r' - l2) * s * s).fdiv (4 * l2)).toNat
    let ox := (ax + bx) * (s / 2) - sg * cy * q
    let oy := (ay + by_) * (s / 2) + sg * cx * q
    let vx := e * s - ox
    let vy := n * s - oy
    let cr (x1 y1 x2 y2 : Int) : Int := x1 * y2 - y1 * x2
    if 0 ≤ sg * cr (ax * s - ox) (ay * s - oy) vx vy ∧ 0 ≤ sg * cr vx vy (bx * s - ox) (by_ * s - oy) then
      ((vlen vx vy : Int) - r' * s).natAbs
    else ends

/-- E and N of a solution's items 1–3; 3σ of it in 2^-60 mm (R238). -/
def solE (x : W64 × W64 × W64) : Int := toS 32 x.1.toNat
def solN (x : W64 × W64 × W64) : Int := toS 32 (x.1.toNat / 2 ^ 32)
def solSig (x : W64 × W64 × W64) : Nat :=
  let v := max (x.2.1.toNat % 2 ^ 32) (x.2.1.toNat / 2 ^ 32) + (toS 32 x.2.2.toNat).natAbs
  sqrtN (9 * v * 2 ^ 120)

/-- Clear of a segment with a footprint: d − 3σ ≥ HALFW + FOOT (R238). -/
def clearOf (k foot : Nat) (x : W64 × W64 × W64) (d : Dev) : Bool :=
  decide ((segHalf k d + foot) * 2 ^ 60 + solSig x ≤ segDist k (solE x) (solN x) d)

/-- Outside the corridor: d − 3σ > HALFW (R249). -/
def outside (k : Nat) (x : W64 × W64 × W64) (d : Dev) : Bool :=
  decide (segHalf k d * 2 ^ 60 + solSig x < segDist k (solE x) (solN x) d)

/-- Within HALFW + 3σ of the centre line (R247). -/
def within (k : Nat) (x : W64 × W64 × W64) (d : Dev) : Bool :=
  decide (segDist k (solE x) (solN x) d ≤ segHalf k d * 2 ^ 60 + solSig x)

/-! ## Reservations and members (R228, R231, R232) -/

/-- a − b of superframe numbers (R64). -/
def sfDiff (a b : Nat) : Int := toS 32 (ofS 32 ((a : Int) - b))

def resvOf (i : Nat) (d : Dev) : Option Resv := tget d.sch.resv i none
def resvSet (i : Nat) (v : Option Resv) (d : Dev) : Dev :=
  let d := withSch (fun s => { s with resv := tset s.resv i v none }) d
  maxTo SCH.RESHWM d.sch.resv.length d
def membOf (k : Nat) (d : Dev) : Option Memb := tget d.sch.memb k none
def membSet (k : Nat) (v : Option Memb) (d : Dev) : Dev := withSch (fun s => { s with memb := tset s.memb k v none }) d
def membMod (k : Nat) (f : Memb → Memb) (d : Dev) : Dev := membSet k ((membOf k d).map f) d

/-- The slot of a registered member. -/
def mslot (id : Nat) (d : Dev) : Option Nat :=
  (d.sch.memb.find? (fun e => match e.2 with
    | some m => m.id == id
    | none => false)).map (·.1)

/-- Intervals overlap; an open-ended one never ends (R228). -/
def overlap (a b : Resv) : Bool :=
  (b.opn || decide (0 < sfDiff b.exit a.enter)) && (a.opn || decide (0 < sfDiff a.exit b.enter))

/-- Two reservations conflict (R228). -/
def conflict (a b : Resv) (d : Dev) : Bool :=
  a.mem != b.mem && overlap a b &&
    (a.seg == b.seg || (segGroups a.seg d).any (fun g => (segGroups b.seg d).contains g))

/-- The first entry of the table that conflicts; SHADOW entries are not checked (Table 07-12). -/
def firstConflict (a : Resv) (d : Dev) : Option (Nat × Resv) :=
  (d.sch.resv.find? (fun e => match e.2 with
    | some b => !b.shadow && conflict a b d
    | none => false)).bind (fun e => e.2.map (fun b => (e.1, b)))

/-- An unused index below n; which one the spec leaves open: the search begins at a free value (log 3). -/
def freeIx (n : Nat) (used : Nat → Bool) (d : Dev) : Option Nat :=
  let h := (freeOf d).toNat % n
  ((List.range n).find? (fun i => !used ((h + i) % n))).map (fun i => (h + i) % n)

/-- Room for n more entries. -/
def resvRoom (n : Nat) (d : Dev) : Bool := decide (d.sch.resv.length + n ≤ 65536)

/-- An entry made at a free index. -/
def resvNew (v : Resv) (d : Dev) : Nat × Dev :=
  match freeIx 65536 (fun i => (resvOf i d).isSome) d with
  | some i => (i, resvSet i (some v) (drawn d))
  | none => (0, drawn d)

/-- Entries made one after another. -/
def resvNews : List Resv → Dev → List Nat × Dev
  | [], d => ([], d)
  | v :: r, d =>
    let x := resvNew v d
    let y := resvNews r x.2
    (x.1 :: y.1, y.2)

/-- The lowest unreleased leg, and whether a permit is in progress (R241). -/
def lowLeg (m : Memb) : Option Nat := findIx Option.isSome m.legs
def moving (m : Memb) : Bool := decide (1 < (m.legs.filter Option.isSome).length)
def entries (m : Memb) : List Nat := m.legs.filterMap id

/-- The segment of a member's lowest unreleased leg. -/
def lowSeg (m : Memb) (d : Dev) : Option Nat :=
  (entries m).head?.bind (fun i => (resvOf i d).map (·.seg))

/-! ## Reports and peer packets (Tables 07-2, 07-6, 07-10, R255) -/

def head0 (code mem nleg pid : Nat) : W64 :=
  BitVec.ofNat 64 (code % 256 + mem % 1024 * 2 ^ 8 + nleg % 64 * 2 ^ 18 + pid % 2 ^ 32 * 2 ^ 32)
def report (code mem nleg pid : Nat) (l : List Nat) (d : Dev) : Dev :=
  hwPush 26 (head0 code mem nleg pid :: l.map (BitVec.ofNat 64)) d

/-- Fields of item 0. -/
def hCode (x : W64) : Nat := bits x.toNat 0 8
def hMem (x : W64) : Nat := bits x.toNat 8 10
def hLeg (x : W64) : Nat := bits x.toNat 18 6
def hPid (x : W64) : Nat := x.toNat / 2 ^ 32

/-- STATUS: 0 done, or a reason. -/
def status (x : W64) (reason : Nat) (d : Dev) : Dev := report 0x8A (hMem x) (hLeg x) (hPid x) [reason] d

/-- What a refusal names: the reason, the leg, the holder with whether it is foreign and its permit. -/
structure Refn where
  reason : Nat
  leg  : Nat := 0
  hold : Nat := 0
  fgn  : Bool := false
  pid  : Nat := 0
  deriving DecidableEq, Repr

def Refn.item (r : Refn) : Nat := r.reason + r.leg * 2 ^ 8 + r.hold * 2 ^ 14 + b2n r.fgn * 2 ^ 24 + r.pid * 2 ^ 32

/-- A permit refused. -/
def refusePermit (mem nleg pid : Nat) (r : Refn) (d : Dev) : Dev := report 0x82 mem nleg pid [r.item] (inc SCH.PERMREF d)

/-- The pending cross-cell permit that an entry is held for. -/
def crossFor (i : Nat) (r : Resv) (d : Dev) : Option Cross :=
  if r.held && !r.fgn then d.sch.cross.find? (fun c => (c.legs.drop 1).any (fun e => e.2 == i)) else none

/-- The permit that holds an entry: the pending one, if it is held for one. -/
def holderPid (i : Nat) (r : Resv) (d : Dev) : Nat :=
  if r.fgn then match d.sch.fgn.find? (fun f => f.ents.contains i) with
    | some f => f.pid
    | none => 0
  else if let some c := crossFor i r d then c.pid
  else match (mslot r.mem d).bind (fun k => membOf k d) with
    | some m => m.pid
    | none => 0

/-- A refusal for conflict with an entry. -/
def conflictRef (leg : Nat) (e : Nat × Resv) (d : Dev) : Refn :=
  { reason := 0x0C, leg := leg, hold := e.2.mem, fgn := e.2.fgn, pid := holderPid e.1 e.2 d }

/-- A packet to a peer base. -/
def peerOut (own dst typ mem nleg pid : Nat) (l : List W64) (d : Dev) : Dev :=
  let x := typ + own % 8 * 2 ^ 8 + dst % 8 * 2 ^ 11 + mem % 1024 * 2 ^ 14 + nleg % 64 * 2 ^ 24 + pid % 2 ^ 32 * 2 ^ 32
  hwPush 27 (BitVec.ofNat 64 x :: l) d

def pTyp (x : W64) : Nat := bits x.toNat 0 8
def pSrc (x : W64) : Nat := bits x.toNat 8 3
def pDst (x : W64) : Nat := bits x.toNat 11 3
def pMem (x : W64) : Nat := bits x.toNat 14 10
def pPid (x : W64) : Nat := x.toNat / 2 ^ 32

/-- A leg item (Table 07-4). -/
def legItem (r : Resv) : W64 :=
  BitVec.ofNat 64 (r.seg + b2n r.dir * 2 ^ 14 + b2n r.opn * 2 ^ 15 + r.enter % 2 ^ 32 * 2 ^ 16 +
    (ofS 32 ((r.exit : Int) - r.enter)) % 2 ^ 16 * 2 ^ 48)
def lSeg (x : W64) : Nat := bits x.toNat 0 14
def lDir (x : W64) : Bool := bit x.toNat 14
def lOpen (x : W64) : Bool := bit x.toNat 15
def lEnter (x : W64) : Nat := bits x.toNat 16 32
def lDur (x : W64) : Nat := bits x.toNat 48 16

/-- The reservation a leg item asks for, its ENTER as given. -/
def legResv (mem enter : Nat) (x : W64) : Resv :=
  { enter := enter, exit := (enter + lDur x) % 2 ^ 32, seg := lSeg x, dir := lDir x, opn := lOpen x, mem := mem }

/-! ## Release (R238–R241) -/

/-- A member's entry goes; the owner of a foreign leg is told (R254). -/
def entryGone (own pid i : Nat) (d : Dev) : Dev :=
  match resvOf i d with
  | none => d
  | some v =>
    let d := resvSet i none d
    if v.shadow then peerOut own (segOwner v.seg d) 0x08 v.mem 1 pid [legItem v] d else d

/-- A leg released: its entry goes. -/
def dropLeg (own k i : Nat) (d : Dev) : Dev :=
  match membOf k d with
  | none => d
  | some m => match m.legs.getD i none with
    | none => d
    | some x => entryGone own m.pid x (membSet k (some { m with legs := m.legs.set i none }) (inc SCH.RELCNT d))

/-- The lowest leg may be released now: PASS has come, and it is INDOOR or a solution places the member clear. -/
def mayRelease (m : Memb) (i : Nat) (d : Dev) : Bool :=
  moving m && decide (i < m.passed) && !m.lost &&
    (match lowSeg m d with
     | none => false
     | some k => segIndoor k d || (match m.sol with
       | some x => clearOf k m.foot x d
       | none => false))

/-- Every release whose conditions are now met, in order. -/
def releases (own k : Nat) : Nat → Dev → Dev
  | 0, d => d
  | n + 1, d => match membOf k d with
    | none => d
    | some m => match lowLeg m with
      | none => d
      | some i =>
        if mayRelease m i d then releases own k n (report 0x83 m.id i m.pid [] (dropLeg own k i d)) else d

/-! ## Singling and cutting (R242–R245, R254) -/

/-- A position in 16-bit decimetres, rounded to nearest (log 46). -/
def deciM (mm : Int) : Nat := ofS 16 ((mm + 50).fdiv 100)

/-- A member is singled (R245): a stop request to RAD with the zone of its lowest leg, and a report with the cause. -/
def single (k cause : Nat) (d0 : Dev) : Dev :=
  match membOf k d0 with
  | none => d0
  | some m =>
    let zone := match lowSeg m d0 with
      | some s => segZone s d0
      | none => 0
    let pos := match m.sol with
      | some x => deciM (solE x) + deciM (solN x) * 2 ^ 16
      | none => (freeOf d0).toNat % 2 ^ 32
    let d := if m.sol.isNone then drawn d0 else d0
    let d := hwPush 16 [BitVec.ofNat 64 (3 + zone * 2 ^ 2 + m.id * 2 ^ 8)] (inc SCH.SGLCNT d)
    report 0x86 m.id 0 m.pid [cause + pos * 2 ^ 32] d

/-- By when a cut at a leg of this ENTER must be acknowledged (R244). -/
def ackBy (enter : Nat) (d : Dev) : Nat := ofS 32 ((enter : Int) - d.sch.times.ackLead)

/-- A cut now awaits its CUTACK (R243, R244): a cut of another permit that still awaits its own goes on doing so. -/
def cutWaits (pid dl : Nat) (m : Memb) : Memb :=
  let before := match m.cutDl with
    | some t => if m.cutPid = pid then [] else [(m.cutPid, t, m.cutTold)]
    | none => []
  { m with cutDl := some dl, cutTold := false, cutPid := pid, cutsOld := before ++ m.cutsOld.filter (fun c => c.1 != pid) }

/-- A member cut at a leg (R243); where the leg before it is gone already the member is singled instead (log 47). -/
def cutAt (own k j by_ : Nat) (d : Dev) : Dev :=
  match membOf k d with
  | none => d
  | some m => match m.legs.getD j none, (if j = 0 then none else m.legs.getD (j - 1) none) with
    | some x, some y =>
      let enter := match resvOf x d with
        | some v => v.enter
        | none => 0
      let d := forAll (List.range (m.legs.length - j)) (fun i => dropLeg own k (j + i)) d
      let d := resvSet y ((resvOf y d).map (fun v => { v with opn := true })) d
      let d := membMod k (fun m => cutWaits m.pid (ackBy enter d) { m with legs := m.legs.take j }) d
      report 0x85 m.id j m.pid [by_] (inc SCH.CUTCNT d)
    | some _, none => single k 3 d
    | none, _ => d

/-- The peer's permit an entry belongs to. -/
def fgnOf (i : Nat) (d : Dev) : Option Fgn := d.sch.fgn.find? (fun f => f.ents.contains i)

/-- Entries of peers' permits gone. -/
def fgnDrop (l : List Nat) (d : Dev) : Dev :=
  let d := forAll l (fun i => resvSet i none) d
  let rest (f : Fgn) : Fgn := { f with ents := f.ents.filter (fun i => !l.contains i) }
  withSch (fun s => { s with fgn := (s.fgn.map rest).filter (fun f => !f.ents.isEmpty) }) d

/-- A member cut at leg j of the cross-cell permit it waits for (R243): what is held from there on goes, and the leg before is to
end open. -/
def cutHeld (own : Nat) (c : Cross) (j by_ : Nat) (d : Dev) : Dev :=
  let enter := match resvOf (c.legs.getD j (0, 0)).2 d with
    | some v => v.enter
    | none => 0
  let d := forAll (c.legs.drop j) (fun e => entryGone own c.pid e.2) d
  let y := c.legs.getD (j - 1) (0, 0)
  let d := if j = 1 then d else resvSet y.2 ((resvOf y.2 d).map (fun v => { v with opn := true })) d
  let c' := { c with legs := c.legs.take (j - 1) ++ [(y.1 ||| 0x8000, y.2)] }
  let d := withSch (fun s => { s with cross := s.cross.map (fun x => if x = c then c' else x) }) d
  let d := match mslot c.mem d with
    | some k => membMod k (cutWaits c.pid (ackBy enter d)) d
    | none => d
  report 0x85 c.mem j c.pid [by_] (inc SCH.CUTCNT d)

/-- A foreign member cut at an entry (R243, R254): its entries from there on go, the one before opens, its base is told. -/
def cutFgn (own i by_ : Nat) (d : Dev) : Dev :=
  match fgnOf i d, resvOf i d with
  | some f, some v =>
    let from_ := f.ents.dropWhile (· != i)
    let before := (f.ents.takeWhile (· != i)).getLast?
    let d := fgnDrop from_ d
    let d := match before with
      | some x => resvSet x ((resvOf x d).map (fun w => { w with opn := true })) d
      | none => d
    peerOut own f.base 0x09 f.mem 1 f.pid [legItem v, BitVec.ofNat 64 by_] (inc SCH.CUTCNT d)
  | _, _ => d

/-- The member of an entry singled: here, or through its base (R245, R254). -/
def singleEntry (own i cause : Nat) (d : Dev) : Dev :=
  match resvOf i d with
  | none => d
  | some v =>
    if v.fgn then match fgnOf i d with
      | some f => peerOut own f.base 0x0A f.mem 1 f.pid [legItem v] (inc SCH.SGLCNT d)
      | none => d
    else match mslot v.mem d with
      | some k => single k cause d
      | none => d

/-- The leg an entry is, of the member in a slot. -/
def legOf (k i : Nat) (d : Dev) : Option Nat := (membOf k d).bind (fun m => findIx (fun e => e == some i) m.legs)

/-- An entry is its member's anchor (R232). A peer's member stands on its anchor here where the entry is open-ended, entered, and
the only one the permit still has here (DEDUCED, log 104). -/
def isAnchor (k : Nat) (b : Resv) (now : Nat) (d : Dev) : Bool :=
  if b.held then false
  else if b.fgn then b.opn && decide (sfDiff b.enter now ≤ 0) && (match fgnOf k d with
    | some f => f.ents == [k]
    | none => true)
  else match (mslot b.mem d).bind (fun s => membOf s d) with
    | some m => !moving m
    | none => true

/-- The member of entry K is cut at it (R243, R254). -/
def cutEntry (own k : Nat) (b : Resv) (by_ : Nat) (d : Dev) : Dev :=
  if b.fgn then cutFgn own k by_ d
  else if let some c := crossFor k b d then cutHeld own c ((findIx (fun e => e.2 == k) (c.legs.drop 1)).getD 0 + 1) by_ d
  else match mslot b.mem d with
    | some s => match legOf s k d with
      | some j => cutAt own s j by_ d
      | none => d
    | none => d

/-- One leg K that an extended leg L conflicts with (R242). What a foreign leg meets is its owner's to decide (R254). -/
def clash (own l k now : Nat) (d : Dev) : Dev :=
  match resvOf l d, resvOf k d with
  | some a, some b =>
    if a.shadow || b.shadow || !conflict a b d then d
    else
      let frozen := d.sch.resv.any (fun e => match e.2 with
        | some r => r.mem == b.mem && r.frozen
        | none => false)
      let lead := sfDiff b.enter now
      if frozen || isAnchor k b now d then d
      else if (d.sch.times.lead : Int) ≤ lead then cutEntry own k b a.mem d
      else if 0 < lead then singleEntry own k 3 d
      else singleEntry own l 5 (singleEntry own k 5 d)
  | _, _ => d

/-- Every leg an extended leg conflicts with, in table order. -/
def clashes (own l now : Nat) (d : Dev) : Dev := forAll (d.sch.resv.map (·.1)) (fun k => clash own l k now) d

/-- The index of the leg an entry is. -/
def legIx (l : Nat) (a : Resv) (d : Dev) : Nat :=
  if a.fgn then match fgnOf l d with
    | some f => (findIx (· == l) f.ents).getD 0
    | none => 0
  else match mslot a.mem d with
    | some s => (legOf s l d).getD 0
    | none => 0

/-- An entry extended: OVERRUN reports its EXIT, and the extension counts (R242, Table 07-14). -/
def extended (l : Nat) (a : Resv) (d : Dev) : Dev :=
  let d := inc SCH.OVRCNT (resvSet l (some a) d)
  report 0x84 a.mem (legIx l a d) (holderPid l a d) [a.exit] d

/-- A leg past its exit by GRACESF is extended (R242). -/
def overrun (own now l : Nat) (d : Dev) : Dev :=
  match resvOf l d with
  | none => d
  | some a =>
    if a.held || a.shadow || a.opn || decide (sfDiff now ((a.exit + d.sch.times.grace) % 2 ^ 32) < 0) then d
    else
      let ex := (now + d.sch.times.ext) % 2 ^ 32
      clashes own l now (extended l { a with exit := ex, ext := true } d)

/-- The time settings as the registers give them (R264). -/
def timesSet (d : Dev) : TrkTimes :=
  { grace := rd SCH.GRACESF d, ext := rd SCH.EXTSTEP d, lead := rd SCH.CUTLEAD d, ackLead := rd SCH.CUTACKLEAD d,
    horizon := rd SCH.HORIZON d, holdTo := rd SCH.HOLDTO d, hbPer := rd SCH.PHBPER d, hbTo := rd SCH.PHBTO d,
    nofix := rd SCH.NOFIXTO d, margin := rd SCH.QMARGIN d }

/-- The evaluation at a superframe start (R242), with which the time settings take effect (R264). `e` is double where the engine
has found an uncorrectable error in its SRAM or an inconsistent index, here or in serving a command: INCONS latches (R263). -/
def trackEval (own : Nat) (e : Ecc) (d0 : Dev) : Dev :=
  let now := sfNow d0
  if e = .double then wrB SCH.TRKSTAT.INCONS true d0
  else if d0.sch.evalSf == some now then d0
  else
    let d := withSch (fun s => { s with evalSf := some now, times := timesSet d0 }) d0
    if !on SCH.TRKCTL.EN d || on SCH.TRKSTAT.INCONS d then d
    else
      let d := forAll (d.sch.memb.map (·.1)) (fun k => releases own k 32) d
      forAll (d.sch.resv.map (·.1)) (fun l => overrun own now l) d

/-! ## Commands (R233, R236, R262) -/

/-- Commands are taken while the report queue is not full and no report is held (R262), and no peer packet waits (R236). -/
def cmdsOpen (d : Dev) : Bool :=
  (qGet 26 d).backlog.isEmpty && decide ((qGet 26 d).fill < qDepth 26) && (hwPeek 28 d).isNone

/-- The command at the head of SQ25, if its code is one of those a row serves. -/
def command (t : Nat → Bool) (f : W64 → List W64 → Dev → Dev) (d : Dev) : Dev :=
  if !cmdsOpen d then d
  else hwTry 25 id (fun p d => match p.items with
    | [] => d
    | x :: r => if t (hCode x) then f x r (hwTaken 25 d) else d) d

/-- A command for a registered member, with no further items. -/
def forMember (x : W64) (r : List W64) (n : Nat) (f : Nat → Memb → Dev → Dev) (d : Dev) : Dev :=
  if r.length ≠ n then status x 0x01 d
  else match mslot (hMem x) d with
    | none => status x 0x02 d
    | some k => match membOf k d with
      | none => status x 0x02 d
      | some m => f k m d

/-- REGISTER (R231). -/
def register (x : W64) (r : List W64) (d : Dev) : Dev :=
  let i1 := (r.getD 0 0).toNat
  let seg := bits i1 48 14
  let a : Resv := { enter := sfNow d, exit := 0, seg := seg, opn := true, mem := hMem x }
  if r.length ≠ 1 then status x 0x01 d
  else if (mslot (hMem x) d).isSome then status x 0x03 d
  else match freeIx 128 (fun k => (membOf k d).isSome) d with
    | none => status x 0x0E d
    | some k =>
      let d := drawn d
      if !resvRoom 1 d then status x 0x0E d
      else if !segValid seg d then status x 0x04 d
      else if (firstConflict a d).isSome then status x 0x0C d
      else
        let e := resvNew a d
        status x 0 (membSet k (some { id := hMem x, foot := bits i1 32 16, cap := i1 % 2 ^ 32, legs := [some e.1], testSf := sfNow d }) e.2)

/-- DEREGISTER (R231). -/
def deregister (own : Nat) (x : W64) (r : List W64) (d : Dev) : Dev :=
  forMember x r 0 (fun k m d =>
    if m.lost then status x 0x12 d
    else if moving m || m.cross then status x 0x03 d
    else status x 0 (membSet k none (forAll (entries m) (entryGone own m.pid) d))) d

/-- PASS (R238, R239). -/
def pass (own : Nat) (x : W64) (r : List W64) (d : Dev) : Dev :=
  forMember x r 0 (fun k m d =>
    if m.pid ≠ hPid x ∨ m.legs.length ≤ hLeg x then status x 0x01 d
    else status x 0 (releases own k 32 (membSet k (some { m with passed := max m.passed (hLeg x + 1) }) d))) d

/-- CANCEL (R240). -/
def cancel (own : Nat) (x : W64) (r : List W64) (d : Dev) : Dev :=
  forMember x r 0 (fun k m d =>
    if m.lost then status x 0x12 d
    else if m.pid ≠ hPid x then status x 0x01 d
    else if m.passed ≠ 0 then status x 0x03 d
    else
      let d := forAll (List.range (m.legs.length - 1)) (fun i => dropLeg own k (i + 1)) d
      let d := match m.legs.getD 0 none with
        | some y => resvSet y ((resvOf y d).map (fun v => { v with opn := true })) d
        | none => d
      status x 0 (membMod k (fun m => { m with legs := m.legs.take 1 }) d)) d

/-- CUTACK (R243, R244). -/
def cutAck (x : W64) (r : List W64) (d : Dev) : Dev :=
  forMember x r 0 (fun k m d =>
    if m.cutDl.isSome ∧ m.cutPid = hPid x then status x 0 (membSet k (some { m with cutDl := none }) d)
    else if m.cutsOld.any (fun c => c.1 == hPid x) then
      status x 0 (membSet k (some { m with cutsOld := m.cutsOld.filter (fun c => c.1 != hPid x) }) d)
    else status x 0x03 d) d

/-- No CUTACK has arrived by its deadline (R244). -/
def cutTimeout (k : Nat) (d : Dev) : Dev :=
  match membOf k d with
  | none => d
  | some m =>
    let due (t : Nat) (told : Bool) : Bool := !told && decide (0 ≤ sfDiff (sfNow d) t)
    if m.cutDl.any (fun t => due t m.cutTold) then single k 4 (membSet k (some { m with cutTold := true }) d)
    else if m.cutsOld.any (fun c => due c.2.1 c.2.2) then
      single k 4 (membSet k (some { m with cutsOld := m.cutsOld.map (fun c => (c.1, c.2.1, c.2.2 || due c.2.1 c.2.2)) }) d)
    else d

/-! ## Permits (R234, R235, R252, R253) -/

/-- R234 step 3 on one leg, but for what needs the member: SEGMENT, DIRECTION; SPEED; TIME. -/
def legForm (x : W64) (d : Dev) : Option Nat :=
  if !segValid (lSeg x) d then some 0x04 else if !dirOk (lSeg x) (lDir x) d then some 0x05 else none
def legSpeed (last : Bool) (x : W64) (d : Dev) : Option Nat :=
  let s := lSeg x
  if last && lOpen x then none
  else if lOpen x || segVmax s d == 0 || decide (lDur x < cdiv (segLen s d * 100) (segVmax s d)) then some 0x14 else none
def legTime (v : Resv) (d : Dev) : Option Nat :=
  let now := sfNow d
  if (!v.opn && decide (sfDiff v.exit now ≤ 0)) || decide ((d.sch.times.horizon : Int) < sfDiff v.enter now) then some 0x0B else none

/-- R234 step 3 on leg i of the legs listed: `mask` the member's capabilities where they are known, `anchor` its anchor's segment
where the check knows it. -/
def legCheck (mask anchor : Option Nat) (vs : List Resv) (l : List W64) (i : Nat) (d : Dev) : Option Nat :=
  let x := l.getD i 0
  let v := vs.getD i (legResv 0 0 0)
  let p := vs.getD (i - 1) v
  let last := decide (i + 1 = l.length)
  let cap : Option Nat := if mask.any (fun c => segCap v.seg d &&& c != segCap v.seg d) then some 0x06 else none
  let first : Option Nat := if i = 0 ∧ anchor.any (· != v.seg) then some 0x08 else none
  let cont : Option Nat :=
    if i ≠ 0 ∧ (legStart v.seg v.dir d ≠ legEnd p.seg p.dir d ∨ sfDiff v.enter p.enter < 0 ∨ 0 < sfDiff v.enter p.exit) then some 0x07
    else none
  let thru : Option Nat := if i ≠ 0 ∧ !last ∧ segHarbour v.seg d then some 0x0A else none
  legForm x d <|> cap <|> legSpeed last x d <|> first <|> cont <|> legTime v d <|> thru

/-- The first failure of R234's checks. Conflicts on foreign segments are their owners' to find (R252). -/
def permitCheck (own : Nat) (x : W64) (l : List W64) (m? : Option Memb) (vs : List Resv) (d : Dev) : Option Refn :=
  let n := hLeg x
  if n = 0 ∨ 32 < n ∨ l.length ≠ n then some { reason := 0x01 }
  else match m? with
    | none => some { reason := 0x02 }
    | some m =>
      if m.lost then some { reason := 0x12 }
      else if moving m || m.cross then some { reason := 0x03 }
      else if !on SCH.TRKCTL.EN d then some { reason := 0x13 }
      else if on SEC.PMSTAT.GRACE d then some { reason := 0x0D }
      else
        let at_ := some ((lowSeg m d).getD 16384)
        let c3 := (List.range n).findSome? (fun i => (legCheck (some m.cap) at_ vs l i d).map (fun r => ({ reason := r, leg := i } : Refn)))
        let z := l.getD (n - 1) 0
        let c4 : Option Refn := if lOpen z && segHarbour (lSeg z) d then none else some { reason := 0x09, leg := n - 1 }
        let c5 := (List.range n).findSome? (fun i =>
          let v := vs.getD i (legResv 0 0 0)
          if segOwner v.seg d ≠ own then none else (firstConflict v d).map (fun e => conflictRef i e d))
        let c6 : Option Refn := if resvRoom (n - 1) d then none else some { reason := 0x0E }
        c3 <|> c4 <|> c5 <|> c6

/-- A permit takes effect (R234): the anchor becomes leg 0, the other legs' entries follow. A cut not yet acknowledged
still awaits its CUTACK (R244). -/
def grant (k pid : Nat) (v0 : Resv) (idx : List Nat) (d : Dev) : Dev :=
  match membOf k d with
  | none => d
  | some m =>
    let a := (entries m).head?
    let d := match a with
      | some i => resvSet i ((resvOf i d).map (fun v => { v with enter := v0.enter, exit := v0.exit, opn := v0.opn, dir := v0.dir })) d
      | none => d
    let d := forAll idx (fun i d => resvSet i ((resvOf i d).map (fun v => { v with held := false })) d) d
    let d := membSet k (some { m with pid := pid, legs := a :: idx.map some, passed := 0, cross := false }) d
    report 0x81 m.id 0 pid [] (inc SCH.PERMGRANT d)

/-- Bases that own legs of a list, but for this one. -/
def owners (own : Nat) (vs : List Resv) (d : Dev) : List Nat :=
  (List.range 8).filter (fun b => b != own && vs.any (fun v => segOwner v.seg d == b))

/-- An entry made SHADOW, or no longer so. -/
def resvShadow (i : Nat) (b : Bool) (d : Dev) : Dev := resvSet i ((resvOf i d).map (fun v => { v with shadow := b })) d

/-- A cross-cell permit's first phase (R252): entries HELD, SHADOW the foreign ones, leg 0 among them, HOLDs out. -/
def holdOut (own k mem pid : Nat) (vs : List Resv) (l : List W64) (d : Dev) : Dev :=
  let bs := owners own vs d
  let rest := (vs.drop 1).map (fun v => { v with held := true, shadow := segOwner v.seg d != own })
  let e := resvNews rest d
  let d := membMod k (fun m => { m with cross := true }) e.2
  let items := l.zip vs |>.map (fun p => legItem { p.2 with opn := lOpen p.1 })
  let a := (membOf k d).bind (fun m => (entries m).head?)
  let anch := a.any (fun i => match resvOf i d with
    | some v => segOwner v.seg d != own && !v.shadow
    | none => false)
  let d := whenB anch (fun d => resvShadow (a.getD 0) true d) d
  let c : Cross := { mem := mem, pid := pid, legs := l.zip (0 :: e.1), owed := bs, owners := bs, asked := sfNow d, anch := anch }
  let d := withSch (fun s => { s with cross := s.cross ++ [c] }) d
  forAll bs (fun b d =>
    let ls := items.filter (fun x => segOwner (lSeg x) d == b)
    peerOut own b 0x01 mem ls.length pid ls d) d

/-- The legs of a PERMIT as reservations: leg 0 from now to the end of its duration. -/
def permitLegs (x : W64) (l : List W64) (d : Dev) : List Resv :=
  match l.zipIdx.map (fun e => legResv (hMem x) (if e.2 = 0 then sfNow d else lEnter e.1) e.1) with
  | v :: r => { v with exit := (lEnter (l.getD 0 0) + lDur (l.getD 0 0)) % 2 ^ 32 } :: r
  | [] => []

/-- A PERMIT counted; the check's duration is a free value within R235's bound (log 3). -/
def permitSeen (d : Dev) : Dev := maxTo SCH.CHKMAX ((freeOf d).toNat % 25001) (drawn (inc SCH.PERMREQ d))

/-- PERMIT (R234, R235, R252, R256). -/
def permit (own : Nat) (x : W64) (l : List W64) (d0 : Dev) : Dev :=
  let d := permitSeen d0
  let mem := hMem x
  let vs := permitLegs x l d
  let k? := mslot mem d
  match permitCheck own x l (k?.bind (fun k => membOf k d)) vs d, k? with
  | some r, _ => refusePermit mem (hLeg x) (hPid x) r d
  | none, none => refusePermit mem (hLeg x) (hPid x) { reason := 0x02 } d
  | none, some k =>
    if vs.all (fun v => segOwner v.seg d == own) then
      let e := resvNews (vs.drop 1) d
      grant k (hPid x) (vs.getD 0 (legResv mem (sfNow d) 0)) e.1 e.2
    else if vs.any (fun v => bit (rd SCH.TRKSTAT.PEERLOST d) (segOwner v.seg d)) then refusePermit mem (hLeg x) (hPid x) { reason := 0x0F } d
    else if 16 ≤ d.sch.cross.length then refusePermit mem (hLeg x) (hPid x) { reason := 0x15 } d
    else holdOut own k mem (hPid x) vs l d

/-- A pending permit ends without its grant: ABORT to every owner, the permit refused; what it held stays. -/
def giveUp (own : Nat) (c : Cross) (r : Refn) (d : Dev) : Dev :=
  let d := forAll c.owners (fun b => peerOut own b 0x07 c.mem 0 c.pid []) d
  let d := withSch (fun s => { s with cross := s.cross.filter (· ≠ c) }) d
  let d := match mslot c.mem d with
    | some k => membMod k (fun m => { m with cross := false }) d
    | none => d
  refusePermit c.mem c.legs.length c.pid r d

/-- A cross-cell permit is given up (R253): ABORT to every owner, its entries released, the permit refused. -/
def abortCross (own : Nat) (c : Cross) (r : Refn) (d : Dev) : Dev :=
  let d := forAll (c.legs.drop 1) (fun e => resvSet e.2 none) d
  let d := match c.anch, ((mslot c.mem d).bind (fun k => membOf k d)).bind (fun m => (entries m).head?) with
    | true, some i => resvShadow i false d
    | _, _ => d
  giveUp own c r d

/-! ## Peer packets (R252–R256) -/

/-- The peer packet at the head of SQ28, if it is of a type and for this base. -/
def peerIn (own typ : Nat) (f : W64 → List W64 → Dev → Dev) (d : Dev) : Dev :=
  hwTry 28 id (fun p d => match p.items with
    | [] => d
    | x :: r => if pTyp x = typ ∧ pDst x = own then f x r (hwTaken 28 d) else d) d

/-- A packet of a reserved type, or for another base (R255, Table 07-6). -/
def peerBad (own : Nat) (d : Dev) : Dev :=
  hwTry 28 id (fun p d =>
    let x := p.items.getD 0 0
    if pDst x ≠ own then hwTaken 28 d
    else if pTyp x = 0 ∨ 0x0B < pTyp x then inc SCH.CMDBAD (hwTaken 28 d)
    else d) d

/-- An owner's check of the legs of a HOLD (R252): the legs it is sent, as R234 step 3 checks a permit's. A HOLD carries no
capability mask and no anchor; the mask is known where the member is registered here too (DEDUCED, log 104). A GRAPHVER that
differs, or is not known, refuses it; the reason is not stated (log 3). -/
def holdCheck (own src mem : Nat) (ls : List W64) (d : Dev) : Option Refn :=
  if on SEC.PMSTAT.GRACE d then some { reason := 0x0D }
  else if tget d.sch.peerSf src 0 = 0 ∨ tget d.sch.peerVer src 0 ≠ rd SCH.GRAPHVER d then some { reason := (freeOf d).toNat % 256 }
  else
    let mask := ((mslot mem d).bind (fun k => membOf k d)).map (·.cap)
    let vs := ls.map (fun x => legResv mem (lEnter x) x)
    let c3 := (List.range ls.length).findSome? (fun i =>
      let own? : Option Nat := if segOwner (lSeg (ls.getD i 0)) d = own then none else some 0x16
      (own? <|> legCheck mask none vs ls i d).map (fun r => ({ reason := r, leg := i } : Refn)))
    let c5 := ls.zipIdx.findSome? (fun e => (firstConflict (legResv mem (lEnter e.1) e.1) d).map (fun h => conflictRef e.2 h d))
    let c6 : Option Refn := if resvRoom ls.length d then none else some { reason := 0x0E }
    c3 <|> c5 <|> c6

/-- HOLD (R252, R253). -/
def hold (own : Nat) (x : W64) (ls : List W64) (d0 : Dev) : Dev :=
  let r := holdCheck own (pSrc x) (pMem x) ls d0
  let d := drawn d0
  match r with
  | some r => peerOut own (pSrc x) 0x03 (pMem x) 0 (pPid x) [BitVec.ofNat 64 r.item] d
  | none =>
    let e := resvNews (ls.map (fun y => { legResv (pMem x) (lEnter y) y with held := true, fgn := true })) d
    let f : Fgn := { base := pSrc x, mem := pMem x, pid := pPid x, ents := e.1, till := (sfNow d + d.sch.times.holdTo) % 2 ^ 32 }
    peerOut own (pSrc x) 0x02 (pMem x) 0 (pPid x) [] (withSch (fun s => { s with fgn := s.fgn ++ [f] }) e.2)

/-- The cross-cell permit a packet speaks of. -/
def crossOf (x : W64) (d : Dev) : Option Cross := d.sch.cross.find? (fun c => c.mem == pMem x && c.pid == pPid x)

/-- An owner has answered; what follows once all have. -/
def answered (x : W64) (c : Cross) (all_ : Cross → Dev → Dev) (d : Dev) : Dev :=
  let c' := { c with owed := c.owed.filter (· ≠ pSrc x) }
  let d := withSch (fun s => { s with cross := s.cross.map (fun y => if y = c then c' else y) }) d
  if c'.owed.isEmpty && !c.owed.isEmpty then all_ c' d else d

/-- HOLD_OK (R252): once every owner has answered, COMMIT goes to each. -/
def holdOk (own : Nat) (x : W64) (_ : List W64) (d : Dev) : Dev :=
  match crossOf x d with
  | none => d
  | some c =>
    if c.commit then d
    else answered x c (fun c d =>
      let c' := { c with commit := true, owed := c.owners, asked := sfNow d }
      let d := withSch (fun s => { s with cross := s.cross.map (fun y => if y = c then c' else y) }) d
      forAll c.owners (fun b => peerOut own b 0x04 c.mem 0 c.pid []) d) d

/-- HOLD_REF (R253). -/
def holdRef (own : Nat) (x : W64) (r : List W64) (d : Dev) : Dev :=
  match crossOf x d with
  | none => d
  | some c =>
    let i := (r.getD 0 0).toNat
    abortCross own c { reason := 0x10, leg := bits i 8 6, hold := bits i 14 10, fgn := bit i 24, pid := i / 2 ^ 32 } d

/-- A peer's permit held or committed here. -/
def fgnFor (x : W64) (d : Dev) : Option Fgn :=
  d.sch.fgn.find? (fun f => f.base == pSrc x && f.mem == pMem x && f.pid == pPid x)

/-- COMMIT (R252, R253): COMMIT_LATE for legs whose hold has expired. The anchor the member had here becomes leg 0 of the legs
committed (R234, R241). -/
def commit_ (own : Nat) (x : W64) (_ : List W64) (d : Dev) : Dev :=
  let late := peerOut own (pSrc x) 0x06 (pMem x) 0 (pPid x) []
  match fgnFor x d with
  | none => late d
  | some f =>
    if !f.done && decide (0 ≤ sfDiff (sfNow d) f.till) then late (inc SCH.HOLDEXP (fgnDrop f.ents d))
    else
      let old := (d.sch.fgn.filter (fun g => g.base == f.base && g.mem == f.mem && g.done && g != f)).flatMap (fun g => g.ents.filter (fun i =>
        match resvOf i d with
        | some v => v.opn && !v.frozen
        | none => false))
      let d := fgnDrop old d
      let d := forAll f.ents (fun i d => resvSet i ((resvOf i d).map (fun v => { v with held := false })) d) d
      let d := withSch (fun s => { s with fgn := s.fgn.map (fun y => if y = f then { f with done := true } else y) }) d
      peerOut own (pSrc x) 0x05 (pMem x) 0 (pPid x) [] d

/-- COMMIT_OK (R252): once all are in, the permit is granted; during grace, when nothing new is granted, it is refused (R150,
R237). -/
def commitOk (own : Nat) (x : W64) (_ : List W64) (d : Dev) : Dev :=
  match crossOf x d with
  | none => d
  | some c =>
    if !c.commit then d
    else answered x c (fun c d =>
      if on SEC.PMSTAT.GRACE d then abortCross own c { reason := 0x0D } d else
      let d := withSch (fun s => { s with cross := s.cross.filter (· ≠ c) }) d
      match mslot c.mem d with
      | none => d
      | some k =>
        let l0 := (c.legs.getD 0 (0, 0)).1
        let v0 : Resv := { legResv c.mem (sfNow d) l0 with exit := (lEnter l0 + lDur l0) % 2 ^ 32 }
        grant k c.pid v0 ((c.legs.drop 1).map (·.2)) d) d

/-- COMMIT_LATE (R253). -/
def commitLate (own : Nat) (x : W64) (_ : List W64) (d : Dev) : Dev :=
  match crossOf x d with
  | none => d
  | some c => abortCross own c { reason := 0x10 } d

/-- An entry is frozen. -/
def isFrozen (i : Nat) (d : Dev) : Bool := (resvOf i d).any (·.frozen)

/-- ABORT (R253): frozen entries stay until an operator release (R256). -/
def abort (x : W64) (_ : List W64) (d : Dev) : Dev :=
  match fgnFor x d with
  | none => d
  | some f => fgnDrop (f.ents.filter (fun i => !isFrozen i d)) d

/-- The entry a leg of a RELEASE names (R254): of the member's entries held for that base, on that segment in that direction, and
not frozen (R256), the one of the packet's permit and the leg's ENTER; where there is none, one of that ENTER, then one of the
permit, then the first. -/
def releaseNames (x y : W64) (d : Dev) : Option Nat :=
  let l := (d.sch.fgn.filter (fun f => f.base == pSrc x && f.mem == pMem x)).flatMap (fun f => f.ents.filterMap (fun i =>
    match resvOf i d with
    | some v => if !v.frozen && lSeg y == v.seg && lDir y == v.dir then some (i, f.pid == pPid x, v.enter == lEnter y) else none
    | none => none))
  (l.find? (fun e => e.2.1 && e.2.2) <|> l.find? (·.2.2) <|> l.find? (·.2.1) <|> l.head?).map (·.1)

/-- RELEASE (R254): one entry of the member for each leg it names. -/
def peerRelease (x : W64) (ls : List W64) (d : Dev) : Dev :=
  forAll ls (fun y d => match releaseNames x y d with
    | some i => inc SCH.RELCNT (fgnDrop [i] d)
    | none => d) d

/-- CUT from an owner (R254): applied at the leg it names. -/
def peerCut (own : Nat) (x : W64) (ls : List W64) (d : Dev) : Dev :=
  let y := ls.getD 0 0
  match mslot (pMem x) d with
  | none => d
  | some k => match membOf k d with
    | none => d
    | some m =>
      let named (i : Nat) : Bool := (resvOf i d).any (fun v => v.seg == lSeg y && v.enter == lEnter y)
      let by_ := (ls.getD 1 0).toNat % 1024
      match findIx (fun e => e.any named) m.legs, d.sch.cross.find? (fun c => c.mem == m.id && (c.legs.drop 1).any (fun e => named e.2)) with
      | some j, _ => cutAt own k j by_ d
      | none, some c => cutHeld own c ((findIx (fun e => named e.2) (c.legs.drop 1)).getD 0 + 1) by_ d
      | none, none => d

/-- A member that is not LOST is left an open-ended reservation (R232): leg `i` becomes it where no other is (DEDUCED,
log 152). -/
def keepOpen (k i : Nat) (d : Dev) : Dev :=
  match membOf k d with
  | none => d
  | some m =>
    if (entries m).any (fun e => (resvOf e d).any (·.opn)) then d
    else match m.legs.getD i none with
      | some e => resvSet e ((resvOf e d).map (fun v => { v with opn := true })) d
      | none => d

/-- SINGLE from an owner (R254): the member singled, and its legs at other owners released. Where its open-ended last leg is among
those, the last leg left becomes open-ended; where every leg is, the last stays (R232 holds at every instant; DESIGN CHOICE, log
152). -/
def peerSingle (own : Nat) (x : W64) (_ : List W64) (d : Dev) : Dev :=
  match mslot (pMem x) d with
  | none => d
  | some k =>
    let d := single k 6 d
    match membOf k d with
    | none => d
    | some m =>
      let others := (List.range m.legs.length).filter (fun i => match (m.legs.getD i none).bind (fun e => resvOf e d) with
        | some v => v.shadow && segOwner v.seg d != pSrc x
        | none => false)
      let held := (List.range m.legs.length).filter (fun i => (m.legs.getD i none).isSome)
      let stays := (held.filter (fun i => !others.contains i)).getLast?.getD (held.getLast?.getD 0)
      keepOpen k stays (forAll (others.filter (· ≠ stays)) (fun i d => dropLeg own k i d) d)

/-- PEER_HB (R256). -/
def peerHb (x : W64) (_ : List W64) (d : Dev) : Dev :=
  let b := pSrc x
  wrBit SCH.TRKSTAT.PEERLOST b false
    (withSch (fun s => { s with peerSf := tset s.peerSf b (sfNow d + 1) 0, peerVer := tset s.peerVer b (pPid x) 0 }) d)

/-- PEER_HB sent (R255, R256). -/
def peerHbSend (own : Nat) (d : Dev) : Dev :=
  let now := sfNow d
  let last := d.sch.hbSf
  if last != 0 && decide (sfDiff now (last - 1) < d.sch.times.hbPer) then d
  else
    let d := withSch (fun s => { s with hbSf := now + 1 }) d
    let ok := b2n (!on SCH.TRKSTAT.INCONS d)
    forAll ((List.range 8).filter (fun b => b != own && bit (rd SCH.PEERMASK d) b))
      (fun b => peerOut own b 0x0B 0 0 (rd SCH.GRAPHVER d) [BitVec.ofNat 64 (now + ok * 2 ^ 32)]) d

/-- A hold, or an owner's answer, has waited HOLDTO (R253). -/
def holdExpiry (own : Nat) (d : Dev) : Dev :=
  let now := sfNow d
  match d.sch.fgn.find? (fun f => !f.done && decide (0 ≤ sfDiff now f.till)) with
  | some f => inc SCH.HOLDEXP (fgnDrop f.ents d)
  | none =>
    match d.sch.cross.find? (fun c => decide ((d.sch.times.holdTo : Int) ≤ sfDiff now c.asked)) with
    | some c => abortCross own c { reason := 0x11 } d
    | none => d

/-- An entry made open-ended and FROZEN, which is an extension of one that was not open-ended (R246). A foreign leg's extension is
its owner's to report. -/
def freezeOne (i : Nat) (d : Dev) : Dev :=
  match resvOf i d with
  | none => d
  | some v =>
    let w := { v with opn := true, frozen := true, held := false, ext := v.ext || !v.opn }
    if v.opn || v.shadow then resvSet i (some w) d else extended i w d

/-- Entries made open-ended and FROZEN, each as an extension (R246). -/
def freeze (own : Nat) (l : List Nat) (d : Dev) : Dev :=
  forAll l (fun i d => clashes own i (sfNow d) d) (forAll l freezeOne d)

/-- A base's silence has lasted PHBTO superframes since its last PEER_HB, or since it entered PEERMASK (R256). -/
def silent (b : Nat) (d : Dev) : Bool :=
  let long (x : Nat) : Bool := x == 0 || decide ((d.sch.times.hbTo : Int) ≤ sfDiff (sfNow d) (x - 1))
  long (tget d.sch.peerSf b 0) && long (tget d.sch.peerFrom b 0)

/-- PEERMASK written: silence is counted from here for the bases it brings in (R256). -/
def peerMask (v : Nat) (d : Dev) : Dev :=
  let new := (List.range 8).filter (fun b => bit v b && !bit (rd SCH.PEERMASK d) b)
  wr SCH.PEERMASK v (withSch (fun s => { s with peerFrom := new.foldl (fun t b => tset t b (sfNow d + 1) 0) s.peerFrom }) d)

/-- A peer base is lost (R256). -/
def peerLost (own b : Nat) (d : Dev) : Dev :=
  if b = own || !bit (rd SCH.PEERMASK d) b || bit (rd SCH.TRKSTAT.PEERLOST d) b || !silent b d then d
  else
    let d := lichen SCHi 0x0401 [b] (report 0x8B 0 0 0 [b] (wrBit SCH.TRKSTAT.PEERLOST b true d))
    let d := forAll (d.sch.cross.filter (fun c => c.owners.contains b)) (fun c => abortCross own c { reason := 0x0F }) d
    let d := fgnDrop ((d.sch.fgn.filter (fun f => f.base == b && !f.done)).flatMap (·.ents)) d
    let d := freeze own ((d.sch.fgn.filter (fun f => f.base == b)).flatMap (·.ents)) d
    forAll d.sch.memb (fun e d => match e.2 with
      | some m => if (entries m).any (fun i => match resvOf i d with
          | some v => segOwner v.seg d == b
          | none => false) then single e.1 7 d else d
      | none => d) d

/-! ## Lost members (R246–R248) -/

/-- LINK_LOST from RAD (R246). A permit still pending ends; what it held is the member's, and is frozen with the rest. -/
def lostMember (own id : Nat) (d : Dev) : Dev :=
    match mslot id d with
    | none => d
    | some k =>
      let pend := d.sch.cross.find? (fun c => c.mem == id)
      let d := match pend with
        | some c => membMod k (fun m => { m with legs := (entries m).map some ++ (c.legs.drop 1).map (fun e => some e.2), passed := 0,
                                                 pid := c.pid }) (giveUp own c { reason := 0x12 } d)
        | none => d
      let d := membMod k (fun m => { m with lost := true }) d
      match membOf k d with
      | none => d
      | some m => freeze own (entries m) (report 0x87 id 0 m.pid [] d)

/-- A link event taken from SQ18 (R246, R370). -/
def trackLost (own : Nat) (d : Dev) : Dev :=
  hwTry 18 id (fun p d => lostMember own ((p.items.getD 0 0).toNat % 1024) (hwTaken 18 d)) d

/-- The member has a connection again (R247). -/
def rejoined (id : Nat) (d : Dev) : Bool :=
  (List.range 144).any (fun c => link c d == lActive && rd (RAD.CTXCTL.ID c) d == id && rd (RAD.CTXCTL.KIND c) d == 0)

/-- The entry of a member on a segment, frozen. -/
def frozenOn (m : Memb) (seg : Nat) (d : Dev) : Option Nat :=
  (entries m).find? (fun i => match resvOf i d with
    | some v => v.frozen && v.seg == seg
    | none => false)

/-- The named reservation becomes the anchor, the others go (R247). -/
def unfreeze (own k : Nat) (seg : Nat) (d : Dev) : Dev :=
  match membOf k d with
  | none => d
  | some m => match frozenOn m seg d with
    | none => d
    | some i =>
      let d := forAll (List.range m.legs.length) (fun j d => if m.legs.getD j none = some i then d else dropLeg own k j d) d
      let d := resvSet i ((resvOf i d).map (fun v => { v with frozen := false, opn := true })) d
      let d := membMod k (fun m => { m with legs := [some i], passed := 0, lost := false, unfrz := none }) d
      report 0x88 m.id 0 m.pid [seg] d

/-- UNFREEZE (R247): decided at once, or by the next solution. -/
def unfreezeCmd (own : Nat) (x : W64) (r : List W64) (d : Dev) : Dev :=
  forMember x r 1 (fun k m d =>
    let seg := bits (r.getD 0 0).toNat 0 14
    if !m.lost || !rejoined m.id d || (frozenOn m seg d).isNone then status x 0x12 d
    else if segIndoor seg d then status x 0 (unfreeze own k seg d)
    else membSet k (some { m with unfrz := some seg }) d) d

/-- An accepted operator release from SEC (R248). A pending permit of the member ends. What a registered member keeps is its
open-ended anchor (R232); one that would keep nothing is deregistered, as with 0x3FFF (DEDUCED, log 104). -/
def releaseOf (own id seg : Nat) (d : Dev) : Dev :=
    let d := forAll (d.sch.cross.filter (fun c => c.mem == id)) (fun c => abortCross own c { reason := 0x12 }) d
    let on_ (i : Nat) : Bool := seg != 0x3FFF && (resvOf i d).any (fun v => v.seg == seg)
    let l := (d.sch.resv.map (·.1)).filter (fun i => (resvOf i d).any (fun v => v.fgn && v.mem == id) && !on_ i)
    let d := addTo SCH.RELCNT l.length (fgnDrop l d)
    match mslot id d with
    | none => d
    | some k => match membOf k d with
      | none => d
      | some m =>
        let keep := (entries m).find? on_
        let d := forAll (List.range m.legs.length) (fun j d => if m.legs.getD j none = keep then d else dropLeg own k j d) d
        match keep with
        | none => membSet k none d
        | some i =>
          membMod k (fun m => { m with legs := [some i], passed := 0 })
            (resvSet i ((resvOf i d).map (fun v => { v with opn := true })) d)

/-- One taken from SQ19 (R248, R370). -/
def operatorRelease (own : Nat) (d : Dev) : Dev :=
  hwTry 19 id (fun p d =>
    let x := (p.items.getD 0 0).toNat
    releaseOf own (bits x 0 10) (bits x 16 14) (hwTaken 19 d)) d

/-! ## Corridor supervision (R249–R251) -/

/-- The current legs' segments: unreleased legs with ENTER at or before now, or the anchor. -/
def currentSegs (m : Memb) (d : Dev) : List Nat :=
  (entries m).filterMap (fun i => match resvOf i d with
    | some v => if !moving m || decide (sfDiff v.enter (sfNow d) ≤ 0) then some v.seg else none
    | none => none)

/-- A solution decides a waiting UNFREEZE (R247). -/
def unfreezeBy (own k : Nat) (x : W64 × W64 × W64) (d : Dev) : Dev :=
  match membOf k d with
  | none => d
  | some m => match m.unfrz with
    | none => d
    | some seg =>
      let h := head0 0x09 m.id 0 m.pid
      if within seg x d && rejoined m.id d && (frozenOn m seg d).isSome then status h 0 (unfreeze own k seg d)
      else status h 0x12 (membSet k (some { m with unfrz := none }) d)

/-- A solution item (Table 06-6), from POS or firmware. -/
def solutionItem (own : Nat) (l : List W64) (d : Dev) : Dev :=
  let h := (l.getD 0 0).toNat
  let st := bits h 10 3
  let x : W64 × W64 × W64 := (l.getD 1 0, l.getD 2 0, l.getD 3 0)
  match mslot (bits h 0 10) d with
  | none => inc SCH.SOLIGN d
  | some k =>
    let fit := decide (1 ≤ st ∧ st ≤ 4) && !bit h 13
    if !fit then d
    else
      let d := membMod k (fun m => { m with sol := some x }) d
      let d := releases own k 32 (unfreezeBy own k x d)
      match membOf k d with
      | none => d
      | some m =>
        let segs := currentSegs m d
        if !on SCH.TRKCTL.SUPEN d || segs.isEmpty || segs.any (fun s => segIndoor s d) then d
        else
          let t := (bits h 16 32, BitVec.ofInt 32 (solE x), BitVec.ofInt 32 (solN x))
          let d := membSet k (some { m with tested := some t, testSf := sfNow d }) d
          if segs.all (fun s => outside s x d) then single k 1 d else d

/-- SQ24's next item (R251). -/
def solFromPos (own : Nat) (d : Dev) : Dev :=
  hwTry 24 id (fun p d => solutionItem own p.items (hwTaken 24 d)) d

/-- SOLIN (R251). -/
def solin (own : Nat) (x : W64) (r : List W64) (d : Dev) : Dev :=
  if r.length ≠ 4 then status x 0x01 d else status x 0 (solutionItem own r d)

/-- No tested item for NOFIXTO superframes (R250). -/
def nofix (k : Nat) (d : Dev) : Dev :=
  match membOf k d with
  | none => d
  | some m =>
    if on SCH.TRKCTL.NOFIXEN d && moving m && (currentSegs m d).any (fun s => !segIndoor s d) &&
        decide ((d.sch.times.nofix : Int) ≤ sfDiff (sfNow d) m.testSf) then single k 2 d
    else d

/-! ## Path queries (R257) -/

/-- A query: the member's ID, capability and footprint, its speed, whether a plan is wanted, where to. -/
structure Qry where
  mem  : Nat
  cap  : Nat
  foot : Nat
  v    : Nat
  plan : Bool
  to_  : Nat
  deriving DecidableEq, Repr

/-- A way begun: its last leg's segment, direction and ENTER, its departure, and the legs before, last first. -/
structure QWay where
  seg  : Nat
  dir  : Bool
  ent  : Nat
  dep  : Nat
  done : List Resv
  deriving DecidableEq, Repr

def qSpeed (q : Qry) (s : Nat) (d : Dev) : Nat := if q.v = 0 then segVmax s d else min q.v (segVmax s d)
def qTime (q : Qry) (s : Nat) (d : Dev) : Nat := cdiv (segLen s d * 100) (qSpeed q s d)

/-- A leg of a way may be used. -/
def qMay (q : Qry) (s : Nat) (rev : Bool) (d : Dev) : Bool :=
  segValid s d && dirOk s rev d && (segCap s d &&& q.cap) == segCap s d && qSpeed q s d != 0

def qFree (v : Resv) (d : Dev) : Bool := (firstConflict v d).isNone

/-- A way goes on over one more leg, if its last leg's interval is then free. -/
def qOn (q : Qry) (w : QWay) (s : Nat) (rev : Bool) (d : Dev) : Option QWay :=
  let ent := (w.ent + qTime q w.seg d) % 2 ^ 32
  let ex := (ent + cdiv ((segHalf w.seg d + q.foot) * 100) (qSpeed q s d) + d.sch.times.margin) % 2 ^ 32
  let leg : Resv := { enter := w.ent, exit := ex, seg := w.seg, dir := w.dir, mem := q.mem }
  if legStart s rev d = legEnd w.seg w.dir d ∧ qMay q s rev d = true ∧ qFree leg d = true ∧
      !(q.plan && !w.done.isEmpty && segHarbour w.seg d) then
    some { seg := s, dir := rev, ent := ent, dep := w.dep, done := leg :: w.done }
  else none

/-- Ways one leg longer, one for each segment, direction and ENTER. -/
def qLonger (q : Qry) (l : List QWay) (d : Dev) : List QWay :=
  let all_ := l.flatMap (fun w => (List.range 16384).flatMap (fun s => ([false, true].filterMap (fun r => qOn q w s r d))))
  all_.foldl (fun acc w => if acc.any (fun x => x.seg == w.seg && x.dir == w.dir && x.ent == w.ent) then acc else acc ++ [w]) []

/-- A way that has arrived, with its last leg. -/
def qArrive (q : Qry) (w : QWay) (d : Dev) : Option (Nat × QWay × Resv) :=
  let t := qTime q w.seg d
  let v : Resv := { enter := w.ent, exit := (w.ent + t) % 2 ^ 32, seg := w.seg, dir := w.dir, opn := q.plan, mem := q.mem }
  if w.seg = q.to_ ∧ qFree v d = true ∧ (!q.plan || segHarbour w.seg d) then some ((w.ent + t) % 2 ^ 32, w, v) else none

/-- All ways of up to n more legs that arrive. -/
def qAll (q : Qry) (d : Dev) : Nat → List QWay → List (Nat × QWay × Resv)
  | 0, _ => []
  | n + 1, l => l.filterMap (fun w => qArrive q w d) ++ qAll q d n (qLonger q l d)

/-- One of the ways arrives, or does so within n more legs. -/
def qFar (q : Qry) (d : Dev) : Nat → List QWay → Bool
  | 0, _ => false
  | n + 1, l => !l.isEmpty && (l.any (fun w => (qArrive q w d).isSome) || qFar q d n (qLonger q l d))

/-- The ways n legs longer. -/
def qGrown (q : Qry) (d : Dev) : Nat → List QWay → List QWay
  | 0, l => l
  | n + 1, l => if l.isEmpty then l else qGrown q d n (qLonger q l d)

/-- QUERY (R257): the earliest arrival; among equals by a free value (log 3). Without one of up to 32 legs, TOOLONG where a free
way arrives over more of them (up to 32,768, which is each segment in each direction once), NOPATH where none does. -/
def query (x : W64) (r : List W64) (d0 : Dev) : Dev :=
  let i1 := (r.getD 0 0).toNat
  let i2 := (r.getD 1 0).toNat
  match (if r.length = 2 then (mslot (hMem x) d0).bind (fun k => membOf k d0) else none) with
  | none => report 0x82 (hMem x) 0 (hPid x) [if r.length = 2 then 0x02 else 0x01] d0
  | some m =>
    let q : Qry := { mem := m.id, cap := m.cap, foot := m.foot, v := bits i2 0 16, plan := bit i1 15, to_ := bits i1 16 14 }
    let from_ := bits i1 0 14
    let rev := bit i1 14
    let dep := i1 / 2 ^ 32
    let starts := if qMay q from_ rev d0 then
        (List.range (bits i2 16 16 + 1)).map (fun w => (⟨from_, rev, (dep + w) % 2 ^ 32, (dep + w) % 2 ^ 32, []⟩ : QWay)) else []
    let ways := qAll q d0 32 starts
    let best := ways.filter (fun a => ways.all (fun b => decide (sfDiff a.1 dep ≤ sfDiff b.1 dep)))
    let d := inc SCH.QRYCNT (drawn d0)
    match best[(freeOf d0).toNat % max 1 best.length]? with
    | none =>
      let far := qFar q d0 32768 (qGrown q d0 32 starts)
      report 0x89 m.id 0 (hPid x) [if far then 2 else 1] d
    | some (t, w, v) =>
      let legs := (v :: w.done).reverse
      let n := legs.length
      let i := n * 2 ^ 8 + min (2 ^ 18 - 1) (ofS 32 ((t : Int) - w.dep)) * 2 ^ 14 + w.dep * 2 ^ 32
      report 0x89 m.id n (hPid x) (i :: (if q.plan then legs.map (fun v => (legItem v).toNat) else [])) d

/-! ## Control (R262, R263) -/

/-- A command with a reserved code (R233). -/
def commandBad (x : W64) (_ : List W64) (d : Dev) : Dev := status x 0x01 (inc SCH.CMDBAD d)

/-- Held reports go in as the report queue has room (R262). -/
def reportRoom (d : Dev) : Dev :=
  let v := qGet 26 d
  qSet 26 (drain 26 v.backlog.length v) d

/-- The reservation engine's heartbeat, each 1 ms while EN is 1 and its tables are consistent (R263). -/
def heartbeatOut (d : Dev) : Dev :=
  if on SCH.TRKCTL.EN d && !on SCH.TRKSTAT.INCONS d && hwRoom 15 1 d then hwPushAt 15 3 0 [0] d else d

end Sys2Proof.Machine
end

