-- ==== Sys2Proof/Machine/Auction.lean ====
section
/-! DEFINITION. Machine/Auction.lean: the task auction (R258–R261). Which of the assignments within its bound a run ends with,
and with what prices, the spec leaves open: they are the ending event's operands, taken only where they meet R260 (log 48). -/

namespace Sys2Proof.Machine

/-! ## The descriptor (Tables 07-8 and 07-9) -/

def aBase (d : Dev) : Nat := rd SCH.AUCTBASE d

/-- n bytes at a virtual address, as a number. -/
def aNum (va n : Nat) (d : Dev) : Nat := ofLe (islRead d.schRoot.toNat va n d)
def aM (d : Dev) : Nat := aNum (aBase d) 2 d
def aN (d : Dev) : Nat := aNum (aBase d + 2) 2 d
def aFlags (d : Dev) : Nat := aNum (aBase d + 4) 4 d
def aNull (i : Nat) (d : Dev) : Int := toS 32 (aNum (aBase d + 0x490 + 4 * i) 4 d)
def aTask (j : Nat) (d : Dev) : Nat := aNum (aBase d + 0x90 + 2 * j) 2 d
def aRaw (i j : Nat) (d : Dev) : Int := toS 32 (aNum (aBase d + 0x1800 + 4 * (aN d * i + j)) 4 d)

/-- The bytes of the descriptor. -/
def aSize (d : Dev) : Nat := 0x1800 + 4 * aM d * aN d

/-- Where a task's record lies. -/
def tAt (j : Nat) (d : Dev) : Nat := rd SCH.TASKBASE d + 32 * aTask j d

/-- A benefit in range. -/
def inRange (b : Int) : Bool := decide (b.natAbs ≤ 2 ^ 24 - 1)

/-- The value that forbids a pair. -/
def forbid : Int := -(2 ^ 31)

/-- The benefit of a pair; none where it is forbidden (R259). -/
def benefit (i j : Nat) (d : Dev) : Option Int :=
  let b := aRaw i j d
  let slot := aNum (aBase d + 0x10 + i) 1 d
  let mask := match membOf slot d with
    | some m => m.cap
    | none => 0
  let cap := aNum (tAt j d + 16) 4 d
  if b = forbid ∨ (bit (aFlags d) 0 = true ∧ mask &&& cap ≠ cap) ∨ (bit (aFlags d) 1 = true ∧ aNum (tAt j d + 7) 1 d ≠ 1) then none
  else some b

/-- m and n are in range. -/
def aSized (d : Dev) : Bool := decide (1 ≤ aM d ∧ aM d ≤ 128 ∧ 1 ≤ aN d ∧ aN d ≤ 512)

/-- Every number of the descriptor is in range (R259). -/
def auctOk (d : Dev) : Bool :=
  aSized d && (List.range (aM d)).all (fun i => inRange (aNull i d) &&
    (List.range (aN d)).all (fun j => aRaw i j d == forbid || inRange (aRaw i j d)))

/-- The descriptor and the records of its tasks reached at S level, the outputs too where they are to be written; false where
a translation faults (Table 07-14's note, R472). -/
def auctReach (out : Bool) (d0 : Dev) : Bool × Dev :=
  let r := d0.schRoot.toNat
  let b := aBase d0
  match islSpan r .load 2 b 0x1800 d0 with
  | (false, d) => (false, d)
  | (true, d) =>
    if !aSized d then (true, d)
    else match islSpan r .load 70 (b + 0x1800) (aSize d - 0x1800) d with
      | (false, d) => (false, d)
      | (true, d) => match (if out then islSpan r .store 2 (b + 0x690) 0x1110 d else (true, d)) with
        | (false, d) => (false, d)
        | (true, d) => (List.range (aN d)).foldl (fun e j => if e.1 then islSpan r .load 2 (tAt j e.2) 32 e.2 else e) (true, d)

/-! ## ε-scaling (R260), ε in Q16.16 -/

/-- The largest benefit magnitude. -/
def aMax (d : Dev) : Nat :=
  (List.range (aM d)).foldl (fun a i => max a (max (aNull i d).natAbs
    ((List.range (aN d)).foldl (fun x j => max x (match benefit i j d with
      | some b => b.natAbs
      | none => 0)) 0))) 0

/-- ε of a phase, counted from 0: a quarter of the largest magnitude, then a quarter of the last, down to AUCTEPSF. -/
def epsAt (d : Dev) : Nat → Nat
  | 0 => max (rd SCH.AUCTEPSF d) (aMax d * 2 ^ 16 / 4)
  | n + 1 => max (rd SCH.AUCTEPSF d) (epsAt d n / 4)

/-- The phases until AUCTEPSF is reached: at most 20, as 2^24 · 2^16 / 4^20 is 1. -/
def phases (d : Dev) : Nat := ((List.range 24).findIdx (fun n => decide (epsAt d n ≤ rd SCH.AUCTEPSF d))) + 1

/-! ## Results -/

/-- What a row receives. -/
def rowGets (i : Nat) (a : Nat) (d : Dev) : Option Int :=
  if a = 0xFFFF then some (aNull i d) else if a < aN d then benefit i a d else none

/-- The sum of benefits of an assignment. -/
def total (l : List Nat) (d : Dev) : Int :=
  ((List.range (aM d)).map (fun i => (rowGets i (l.getD i 0xFFFF) d).getD 0)).sum

/-- One column or null to each row, each column at most once, no forbidden pair. -/
def assigned (l : List Nat) (d : Dev) : Bool :=
  l.length == aM d && (l.zipIdx).all (fun e => (rowGets e.2 e.1 d).isSome) &&
    decide ((l.filter (· ≠ 0xFFFF)).Nodup)

/-- The prices show the assignment to be within m × ε of the optimum, as R260 promises: no price is negative, and what the
rows would receive at best at these prices, with the prices, exceeds the total by at most m × ε. All in Q48.16. -/
def withinBound (l : List Nat) (p : List Int) (eps : Nat) (d : Dev) : Bool :=
  let best (i : Nat) : Int := (List.range (aN d)).foldl (fun x j => match benefit i j d with
    | some b => max x (b * 2 ^ 16 - p.getD j 0)
    | none => x) (aNull i d * 2 ^ 16)
  let rows := ((List.range (aM d)).map best).sum
  let cols := ((List.range (aN d)).map (fun j => p.getD j 0)).sum
  p.all (fun x => decide (0 ≤ x)) && decide (rows + cols ≤ total l d * 2 ^ 16 + aM d * eps)

/-- A run ends (R261): the result, the time it took, its event. -/
def auctEnd (res : Nat) (d : Dev) : Dev :=
  let d := wr SCH.AUCTSTAT.RESULT res (wrB SCH.AUCTSTAT.BUSY false d)
  let d := wr SCH.AUCTTIME ((d.raw - d.sch.auctFrom) / 26) d
  if on SCH.AUCTEVT.TOK d then { d with sch := { d.sch with evs := d.sch.evs ++ [tokenItem SCHi (rd SCH.AUCTEVT.EVN d) 0] } } else d

/-- START (R259, R261). -/
def auctStart (d0 : Dev) : Dev :=
  if on SCH.AUCTSTAT.BUSY d0 then d0
  else
    let d := withSch (fun s => { s with auctFrom := d0.raw }) (wrB SCH.AUCTSTAT.BUSY true d0)
    let d := wr SCH.AUCTPHASE 0 (wr SCH.AUCTEPS 0 (wrB SCH.AUCTSTAT.OPT false (wr SCH.AUCTSTAT.RESULT 0 d)))
    match auctReach false d with
    | (false, d) => auctEnd 4 d
    | (true, d) => if auctOk d then d else auctEnd 4 d

/-- ABORT (R261). -/
def auctAbort (d : Dev) : Dev := if on SCH.AUCTSTAT.BUSY d then auctEnd 3 d else d

/-- A result written to the descriptor (Table 07-9), with its bound and OPT (R260). -/
def auctWrite (l : List Nat) (p : List Int) (eps ph : Nat) (d0 : Dev) : Dev :=
  let a := aBase d0
  let r := d0.schRoot.toNat
  let d := (islWrite r (a + 0x690) ((List.range (aM d0)).flatMap (fun i => leBytes 2 (l.getD i 0xFFFF))) d0).2
  let d := (islWrite r (a + 0x790) ((List.range (aN d0)).flatMap (fun j => leBytes 8 (ofS 64 (p.getD j 0)))) d).2
  let d := (islWrite r (a + 0x1790) (leBytes 8 (ofS 64 (total l d0)) ++ leBytes 8 (aM d0 * eps)) d).2
  wrB SCH.AUCTSTAT.OPT (decide (aM d0 * eps < 2 ^ 16)) (wr SCH.AUCTEPS eps (wr SCH.AUCTPHASE ph d))

/-- A run has reached AUCTTLIM (R261). -/
def auctLate (d : Dev) : Bool := decide (d.sch.auctFrom + rd SCH.AUCTTLIM d * 26 ≤ d.raw)

/-- The auction reaches its final ε (R260), before AUCTTLIM: a run that has reached it ends with AUCTION_TIMEOUT (R261). -/
def auctDone (l : List Nat) (p : List Int) (d0 : Dev) : Dev :=
  if !on SCH.AUCTSTAT.BUSY d0 || auctLate d0 then d0
  else match auctReach true d0 with
    | (false, d) => auctEnd 4 d
    | (true, d) =>
      if !auctOk d then auctEnd 4 d
      else
        let n := phases d
        let eps := epsAt d (n - 1)
        if assigned l d && withinBound l p eps d then auctEnd 1 (auctWrite l p eps n d) else d0

/-- The run reaches AUCTTLIM (R261): the last completed phase's result, or none. -/
def auctTimeout (ph : Nat) (l : List Nat) (p : List Int) (d0 : Dev) : Dev :=
  if !on SCH.AUCTSTAT.BUSY d0 || !auctLate d0 then d0
  else match auctReach (ph != 0) d0 with
    | (false, d) => auctEnd 4 d
    | (true, d) =>
      if !auctOk d then auctEnd 4 d
      else if ph = 0 then auctEnd 2 d
      else
        let eps := epsAt d (ph - 1)
        if decide (ph < phases d) && assigned l d && withinBound l p eps d then auctEnd 2 (auctWrite l p eps ph d) else d0

end Sys2Proof.Machine
end

