-- ==== Sys2Proof/Machine/KeyRows.lean ====
section
/-! DEFINITION. Machine/KeyRows.lean: SEC's requests, signed commands, tamper and debug access (Life cycle, the frond tree
and tamper). A request command serves the request whose turn it is, if that is one of its own kind (R524). -/

namespace Sys2Proof.Machine

/-- A J6 opening that waits at this raw count is taken before a resume (R146); its own turn then finds it taken. -/
def openFirst (l : List Instr) (d : Dev) : Dev :=
  l.foldl (fun d i => match i with
    | .j6FilterChange chB false => whenUp SECi (filterChange chB false) d
    | _ => d) d

/-- DERIVE (R515). -/
def execDerive (s : State) : Out := onFuses s (serve (isCode 0x01) reqDerive)
/-- DISCARD (R518). -/
def execDiscard (s : State) : Out := onFuses s (serve (isCode 0x02) reqDiscard)
/-- AES (R520). -/
def execAes (s : State) : Out := onFuses s (serve (isCode 0x03) reqAes)
/-- HMAC (R520). -/
def execHmac (s : State) : Out := onFuses s (serve (isCode 0x04) reqHmac)
/-- SHA256. -/
def execSha256 (s : State) : Out := onFuses s (serve (isCode 0x05) reqSha)
/-- VERIFY. -/
def execVerify (s : State) : Out := onFuses s (serve (isCode 0x06) reqVerify)
/-- RANDOM (R523). -/
def execRandom (s : State) : Out := onFuses s (serve (isCode 0x07) reqRandom)
/-- BEACON_GEN (R517). -/
def execBeaconGen (s : State) : Out := onFuses s (serve (isCode 0x08) reqBeaconGen)
/-- BEACON_KEY_SWITCH (R517). -/
def execBeaconKeySwitch (s : State) : Out := onSec s (fun _ => beaconSwitch)
/-- RESUME on a secure ferry (R144–R146). -/
def execResume (s : State) : Out := onFuses s (fun fu d => serve (isCode 0x09) reqResume fu (openFirst s.pending d))
/-- NETWORK_RESUME on a non-secure ferry (R145, R526, R527). -/
def execNetworkResume (s : State) : Out :=
  onFuses s (fun fu d => serve (fun r => !r.secure && r.code == 0x52) reqNetResume fu (openFirst s.pending d))
/-- SIGNED: any signed command, on either kind of ferry (R528). -/
def execSigned (s : State) : Out :=
  onFuses s (fun fu d => withWrm (serve (fun r => r.code == 0x0A) reqSigned fu d) fu d)
/-- SERVICE_ENTER (R505, R506). -/
def execServiceEnter (s : State) : Out :=
  onFuses s (fun fu d => withWrm (serve (isSigned 0x01) reqSigned fu d) fu d)
/-- SERVICE_EXIT (R505, R506). -/
def execServiceExit (s : State) : Out :=
  onFuses s (fun fu d => withWrm (serve (isSigned 0x02) reqSigned fu d) fu d)
/-- RETIRE (R508). -/
def execRetire (s : State) : Out :=
  onFuses s (fun fu d => withWrm (serve (isSigned 0x03) reqSigned fu d) fu d)
/-- IMAGEKEY (R528). -/
def execImagekey (s : State) : Out := onFuses s (serve (isSigned 0x04) reqSigned)
/-- SECVER (R528). -/
def execSecver (s : State) : Out := onFuses s (serve (isSigned 0x05) reqSigned)
/-- TAMPER_CLEAR: on a secure ferry, or in a frame at a port under TAMPER_HOLD (R532, R533). -/
def execTamperClear (f : Option PortFrame) (s : State) : Out :=
  match f with
  | none => onFuses s (fun fu d => withWrm (serve (isSigned 0x06) reqSigned fu d) fu d)
  | some x => onFuses s (fun fu d =>
      if isUp SECi d && isUp APPi d && x.etype == 0x88B5 then tamperFrame x.port x.src.toNat (nats x.body) fu d else (fu, d))
/-- DEBUG_UNLOCK (R534). -/
def execDebugUnlock (s : State) : Out := onFuses s (serve (isSigned 0x07) reqSigned)
/-- LICHEN_CLEAR (R551). -/
def execLichenClear (s : State) : Out := onFuses s (serve (isSigned 0x08) reqSigned)
/-- CHALLENGE (R529), on either kind of ferry. -/
def execChallenge (s : State) : Out := onFuses s (serve (fun r => r.code == 0x0B) reqChallenge)
/-- NONCE_EXPIRY (R529). -/
def execNonceExpiry (s : State) : Out :=
  onSec s (fun _ d => if (nonceNow d).isNone then { d with sec := { d.sec with nonce := none } } else d)
/-- SESSION (R521). -/
def execSession (s : State) : Out := onFuses s (serve (isCode 0x0C) reqSession)
/-- RINGKEY (R521). -/
def execRingkey (s : State) : Out := onFuses s (serve (isCode 0x0D) reqRingKey)
/-- SETOWNER (R571). -/
def execSetowner (s : State) : Out := onFuses s (serve (isCode 0x10) reqSetOwner)
/-- SETIMAGEKEY (R571). -/
def execSetimagekey (s : State) : Out := onFuses s (serve (isCode 0x11) reqSetImageKey)
/-- DEPLOY (R507): the WRM of step 4 follows. -/
def execDeploy (s : State) : Out :=
  onFuses s (fun fu d => withWrm (serve (isCode 0x12) reqDeploy fu d) fu d)
/-- RETIRE_LOCAL (R509). -/
def execRetireLocal (s : State) : Out :=
  onFuses s (fun fu d => withWrm (serve (isCode 0x13) reqRetireLocal fu d) fu d)
/-- SEC_REQUEST_BAD: a code SEC does not take, or not on this ferry (R524, R526). -/
def execSecRequestBad (s : State) : Out :=
  onFuses s (serve (fun r => !codeKnown r) (fun _ fu d => no sBadCode fu d))


/-- ANSWER_DROP (R524). -/
def execAnswerDrop (s : State) : Out := onSec s (fun _ => answerWait)

/-- KEY_MASK_REDRAW: the shares of every slot and table entry redrawn, every 1 ms (R519, R521). -/
def execKeyMaskRedraw (s : State) : Out :=
  onSec s (fun _ d =>
    if d.sec.maskAt + rawPerMs ≤ d.raw then redrawAll { d with sec := { d.sec with maskAt := d.raw } } else d)

/-- DRBG_FAIL: an entropy health test has failed (R523). -/
def execDrbgFail (s : State) : Out :=
  onSec s (fun _ d =>
    if on SEC.DRBGSTAT.FAIL d then d
    else critSet SEC.CRITSTAT.DRBG (lichen 1 0x0207 [] (wrB SEC.DRBGSTAT.OK false (wrB SEC.DRBGSTAT.FAIL true d))))

/-- TAMPER: a source alarms (0 LID, 1 LIGHT, 2 VGLITCH, 3 CGLITCH, 4 TEMP), outside a key operation or during the one
whose code is given (R530, R531). -/
def execTamper (src : Fin 5) (keyop : Option Byte) (s : State) : Out :=
  onAon s (fun fu => tamperAlarm src (keyop.map BitVec.toNat) fu)

/-- TAMPER_INFO (R533). -/
def execTamperInfo (s : State) : Out := onDev s (fun fu => whenUp APPi (tamperInfo fu))

/-- DEBUG_CLOSED: the unlocked minutes have passed (R534). -/
def execDebugClosed (s : State) : Out :=
  onSec s (fun _ d =>
    match d.sec.dbgEnd with
    | some (e, _) => if e ≤ d.raw then debugClose d else d
    | none => d)

/-- Whether the boot ROM runs APP, and no firmware. -/
def romRuns (d : Dev) : Bool := isUp APPi d && d.app.boot != .firmware

/-- ENROLMENT (R505, R512), from the boot ROM and under Wilyel's station key: 256 bits drawn afresh, the helper data that ties the
PUF's read-out to them, the check value of their spore, DEVID from it, and the PROVISIONED fuse. -/
def enrol (puf : BitVec 3570) (key : Bool) (fu : Fuses) (d : Dev) : Fuses × Dev :=
  if lcState fu ≠ 0 ∨ !key ∨ !isUp SECi d ∨ !romRuns d then (fu, d)
  else
    let secret := freeBytes 32 d
    let sp := sha256 secret
    let dev := beNat ((frond sp (label [0x57, 0x44, 0x49, 0x44] []) 256).take 8)
    let help := pufHelper puf (beNat secret)
    let d := drawnN 32 { d with keep := { d.keep with nor := { d.keep.nor with helper := some help, check := checkOf sp } } }
    let fu' := { fu with devid := dev, provisioned := true }
    (fu', resetAsk 0 (lichen 1 0x0204 [0, 1] d))

/-- ENROLMENT (R512): the PUF's read-out, and whether Wilyel's station key has been shown, by a check that is not stated. -/
def execEnrolment (puf : BitVec 3570) (key : Bool) (s : State) : Out := onFuses s (enrol puf key)

end Sys2Proof.Machine
end

