-- ==== Sys2Proof/Machine/TrackRows.lean ====
section
/-! DEFINITION. Machine/TrackRows.lean: the commands and events of the reservation engine and of the auction engine. A command
row serves the packet at the head of SQ25 if its code is the row's, a peer row the packet at the head of SQ28. -/

namespace Sys2Proof.Machine

/-- An effect on SCH: nothing happens while SCH is down (R357). The base ID is the settings'. -/
def onSch (s : State) (f : Nat → Dev → Dev) : Out := onDev s (fun fu => whenRuns SCHi (f (baseId fu)))

/-- A register of SCH written from S level up (R359). -/
def schReg (s : State) (w : Who) (f : Dev → Dev) : Out := onDev s (fun _ => whenUp SCHi (whenB (atS w) f))

/-- PERMIT (R234, R235, R252, R256). -/
def execPermit (s : State) : Out := onSch s (fun own => command (· == 0x01) (permit own))
/-- CANCEL (R240). -/
def execCancel (s : State) : Out := onSch s (fun own => command (· == 0x02) (cancel own))
/-- PASS (R238, R239). -/
def execPass (s : State) : Out := onSch s (fun own => command (· == 0x03) (pass own))
/-- CUTACK (R243, R244). -/
def execCutack (s : State) : Out := onSch s (fun _ => command (· == 0x04) cutAck)
/-- REGISTER (R231). -/
def execRegister (s : State) : Out := onSch s (fun _ => command (· == 0x05) register)
/-- DEREGISTER (R231). -/
def execDeregister (s : State) : Out := onSch s (fun own => command (· == 0x06) (deregister own))
/-- QUERY (R257). -/
def execQuery (s : State) : Out := onSch s (fun _ => command (· == 0x07) query)
/-- SOLIN (R251). -/
def execSolin (s : State) : Out := onSch s (fun own => command (· == 0x08) (solin own))
/-- UNFREEZE (R247). -/
def execUnfreeze (s : State) : Out := onSch s (fun own => command (· == 0x09) (unfreezeCmd own))
/-- TRACK_COMMAND_BAD (R233). -/
def execTrackCommandBad (s : State) : Out :=
  onSch s (fun _ => command (fun c => c == 0 || decide (0x09 < c)) commandBad)
/-- TRACK_EVAL (R242): with what ECC finds in the reservation SRAM (R263). -/
def execTrackEval (e : Ecc) (s : State) : Out := onSch s (fun own => trackEval own e)
/-- CUTACK_TIMEOUT (R244), for a slot of the member table. -/
def execCutackTimeout (k : Fin 128) (s : State) : Out := onSch s (fun _ => cutTimeout k)
/-- SOLUTION_ITEM (R238, R249, R251). -/
def execSolutionItem (s : State) : Out := onSch s solFromPos
/-- NOFIX_TIMEOUT (R250), for a slot of the member table. -/
def execNofixTimeout (k : Fin 128) (s : State) : Out := onSch s (fun _ => nofix k)
/-- MEMBER_LOST (R246). -/
def execMemberLost (s : State) : Out := onSch s trackLost

/-- An operator release at SEC (R248, R526, R527, Table 16-8): accepted, it goes to SCH on SQ19. -/
def reqRelease (r : Req) (fu : Fuses) (d : Dev) : Res :=
  let b := r.bytes 28
  let (st, d) := macCmd true 5 b r.w.length fu d
  if st ≠ sOk then no st fu d
  else if !hwRoom 19 1 d then no sRefused fu d
  else ok fu (hwPush 19 [BitVec.ofNat 64 (ofBe (sub b 4 2) % 1024 + ofBe (sub b 6 2) % 2 ^ 14 * 2 ^ 16)] d)

/-- OPERATOR_RELEASE (R248): SEC's check of the request, or SCH's taking of an accepted one. -/
def execOperatorRelease (sch : Bool) (s : State) : Out :=
  if sch then onSch s operatorRelease
  else onFuses s (serve (fun r => !r.secure && r.code == 0x4C) reqRelease)

/-- HOLD (R252, R253). -/
def execHold (s : State) : Out := onSch s (fun own => peerIn own 0x01 (hold own))
/-- HOLD_OK (R252). -/
def execHoldOk (s : State) : Out := onSch s (fun own => peerIn own 0x02 (holdOk own))
/-- HOLD_REF (R253). -/
def execHoldRef (s : State) : Out := onSch s (fun own => peerIn own 0x03 (holdRef own))
/-- COMMIT (R252, R253). -/
def execCommit (s : State) : Out := onSch s (fun own => peerIn own 0x04 (commit_ own))
/-- COMMIT_OK (R252). -/
def execCommitOk (s : State) : Out := onSch s (fun own => peerIn own 0x05 (commitOk own))
/-- COMMIT_LATE (R253). -/
def execCommitLate (s : State) : Out := onSch s (fun own => peerIn own 0x06 (commitLate own))
/-- ABORT (R253). -/
def execAbort (s : State) : Out := onSch s (fun own => peerIn own 0x07 abort)
/-- RELEASE (R254). -/
def execRelease (s : State) : Out := onSch s (fun own => peerIn own 0x08 peerRelease)
/-- PEER_CUT (R254). -/
def execPeerCut (s : State) : Out := onSch s (fun own => peerIn own 0x09 (peerCut own))
/-- SINGLE (R254). -/
def execSingle (s : State) : Out := onSch s (fun own => peerIn own 0x0A (peerSingle own))
/-- PEER_HB (R256). -/
def execPeerHb (s : State) : Out := onSch s (fun own => peerIn own 0x0B peerHb)
/-- PEER_HB_SEND (R255, R256). -/
def execPeerHbSend (s : State) : Out := onSch s peerHbSend
/-- HOLD_EXPIRY (R253). -/
def execHoldExpiry (s : State) : Out := onSch s holdExpiry
/-- PEER_LOST (R256). -/
def execPeerLost (b : Fin 8) (s : State) : Out := onSch s (fun own => peerLost own b)
/-- PEER_PACKET_BAD (R255). -/
def execPeerPacketBad (s : State) : Out := onSch s peerBad
/-- REPORT_QUEUE_ROOM (R262). -/
def execReportQueueRoom (s : State) : Out := onSch s (fun _ => reportRoom)

/-- TRKCTL_EN (R263). -/
def execTrkctlEn (v : Bool) (w : Who) (s : State) : Out := schReg s w (wrB SCH.TRKCTL.EN v)
/-- GRAPH_WRITE (R230): a 32-bit store to the node and segment regions. -/
def execGraphWrite (off : BitVec 20) (v : W32) (w : Who) (s : State) : Out :=
  schReg s w (graphWrite off.toNat v.toNat)
/-- AUCTION_START (R259–R261). -/
def execAuctionStart (w : Who) (s : State) : Out := schReg s w auctStart
/-- AUCTION_ABORT (R261). -/
def execAuctionAbort (w : Who) (s : State) : Out := schReg s w auctAbort
/-- AUCTION_DONE (R260). -/
def execAuctionDone (asg : List (BitVec 16)) (prices : List W64) (s : State) : Out :=
  onSch s (fun _ => auctDone (asg.map BitVec.toNat) (prices.map BitVec.toInt))
/-- AUCTION_TIMEOUT (R261). -/
def execAuctionTimeout (phases : BitVec 8) (asg : List (BitVec 16)) (prices : List W64) (s : State) : Out :=
  onSch s (fun _ => auctTimeout phases.toNat (asg.map BitVec.toNat) (prices.map BitVec.toInt))

end Sys2Proof.Machine
end

