-- ==== Sys2Proof/Machine/Mmio.lean ====
section
/-! DEFINITION. Machine/Mmio.lean: every access to a register window, queue window, ferry, doorbell block or the reservation
SRAM: where an address leads, who may reach it, what a read answers and what a write does (Scope and conventions: Registers;
Islands, straits, ferries and locks: Physical address map). -/

namespace Sys2Proof.Machine

/-! ## Where an address leads (Table 11-2) -/

/-- What Table 11-2 has at an address beside DRAM and the boot ROM. -/
inductive Win where
  | regs (isl : Nat) | queue (q : Nat) | ferry (f : Nat) | bell (r : Nat) | sram | unmapped
  deriving DecidableEq, Repr

/-- The base of the queue windows, the ferries, the doorbell blocks and the reservation SRAM. -/
def qBase : Nat := 0xF100000000
def fBase : Nat := 0xF100080000
def bBase : Nat := 0xF100090000
def sBase : Nat := 0xF200000000

/-- Table 11-2. -/
def winOf (a : Nat) : Win :=
  if winBase 0 ≤ a ∧ a < winBase 9 then .regs ((a - winBase 0) / 0x100000)
  else if qBase ≤ a ∧ a < qBase + 0x30000 then .queue ((a - qBase) / 0x1000)
  else if fBase ≤ a ∧ a < fBase + 0x1000 then .ferry ((a - fBase) / 0x100)
  else if bBase ≤ a ∧ a < bBase + 0x180 then .bell ((a - bBase) / 0x20)
  else if sBase ≤ a ∧ a < sBase + 0x180000 then .sram
  else .unmapped

/-- The island that answers (Table 11-4, note 1; R380, R385). -/
def winIsl : Win → Nat
  | .regs i => i
  | .queue q => qServer q
  | .ferry f => ferryIsl f
  | .bell r => bellIsl r
  | .sram => SCHi
  | .unmapped => AONi

/-- Whether a whole window is M level or SEC core only (R359). -/
def winAtM (a : Nat) : Win → Bool
  | .regs i => i == SECi && !decide (winBase SECi + 0x300 ≤ a ∧ a < winBase SECi + 0x500)
  | .queue q => qAtM q
  | .ferry f => decide (f < 8)
  | .bell r => r == 8
  | _ => false

/-- Whether a requester at its level may reach an address (R359). -/
def mayReach (w : Who) (a : Nat) : Bool := lvlOk (winAtM a (winOf a)) w

/-- The register tables an address may be in. -/
def tableOf : Win → List RegRow
  | .regs 0 => regRowsAON
  | .regs 1 => regRowsSEC
  | .regs 2 => regRowsAPP
  | .regs 3 => regRowsSCH
  | .regs 4 => regRowsMEM
  | .regs 5 => regRowsCTL
  | .regs 6 => regRowsNET
  | .regs 7 => regRowsRAD
  | .regs 8 => regRowsPOS
  | .queue _ => regRowsSQ
  | .ferry _ => regRowsFERRY
  | .bell _ => regRowsBELL
  | _ => []

/-- What no chapter assigns although a formula's index would reach it: NET's block 0 (Table 08-14), the windows of reserved
queues (Table 11-4, note 3), BATCHERR of receivers below 9 (Table 11-12). -/
def unassigned (a : Nat) : Bool :=
  let o := a - winBase NETi
  match winOf a with
  | .regs 6 => decide ((0x1000 ≤ o ∧ o < 0x1020) ∨ (0x2000 ≤ o ∧ o < 0x2010) ∨ (0x3000 ≤ o ∧ o < 0x3020))
  | .queue q => qProd q == .nobody
  | .bell r => decide (r < 9 ∧ (a - bBase) % 0x20 = 0x0C)
  | _ => false

/-- The fields of the register at an address. -/
def fieldsAt (a : Nat) : List Fld := if unassigned a then [] else (tableOf (winOf a)).filterMap (fun r => r.at a)

/-- Whether an address is the low word of a 64-bit pair (R9, R10); a queue's push and pop ports act as pairs (Table 11-5). -/
def pairLow (a : Nat) : Bool :=
  (fieldsAt a).any Fld.pair || match winOf a with
    | .queue q => !(qProd q == .nobody) && ((a - qBase) % 0x1000 == 0 || (a - qBase) % 0x1000 == 8)
    | _ => false

/-- Whether an address is the high word of a pair, but for a queue's ports. -/
def pairHigh (a : Nat) : Bool := decide (4 ≤ a) && (fieldsAt (a - 4)).any Fld.pair

/-! ## Registers whose value is not stored -/

/-- Bits of a list of conditions, the first in bit 0. -/
def packBits (l : List Bool) : Nat := l.foldr (fun b acc => b2n b + 2 * acc) 0

/-- AON's live registers (Tables 02-5 and 15-13). -/
def liveAon (o : Nat) (d : Dev) : Dev :=
  if o = 0x1000 then wr AON.RAW d.raw d
  else if o = 0x1040 then wrS AON.CYC (cycle d) d
  else if o = 0x1068 then wrB AON.CCTL.DIVERGED (decide (rd AON.CFOLMAX d < (calign d).natAbs)) d
  else if o = 0x1078 then wrS AON.CALIGN (calign d) d
  else if o = 0x1080 then wrS AON.WALL (wall d) d
  else if o = 0x10C8 then wr AON.WUNC (wunc d) d
  else if o = 0x310 then
    wr AON.WDLEFT (if on AON.WDCTL.EN d then (d.aon.wdFrom + d.aon.wdPer * rawPerMs - d.raw + rawPerMs - 1) / rawPerMs else 0) d
  else d

/-- Minutes until debug access closes, and its scope (R534, Table 16-15). -/
def dbgLeft (d : Dev) : Nat :=
  match d.sec.dbgEnd with
  | some (e, _) => (e - d.raw + 60 * rawPerS - 1) / (60 * rawPerS)
  | none => 0
def dbgScope (fu : Fuses) (d : Dev) : Nat :=
  if lcState fu ≠ 2 then 3
  else match d.sec.dbgEnd with
    | some (_, sc) => sc
    | none => 0

/-- SEC's live registers (Tables 01-7, 04-11, 16-15). -/
def liveSec (fu : Fuses) (o : Nat) (d : Dev) : Dev :=
  if o = 0x300 then wrB SEC.J6STAT.IOLIM (on AON.PWRSTAT.LIMITED d) (wrB SEC.J6STAT.IOSUP d.sec.ioSup d)
  else if o = 0x400 then pmMirror d
  else if o = 0x600 then
    let n := fu.imgKeys.length
    let d := wr SEC.LCSTAT.STATE (lcState fu) (wr SEC.LCSTAT.SVCCNT fu.svc d)
    let d := wrB SEC.LCSTAT.SETTINGS fu.settings.isSome (wrB SEC.LCSTAT.OWNERSET fu.owner.isSome d)
    wrB SEC.LCSTAT.IMGSET (decide (0 < n)) (wr SEC.LCSTAT.IMGSLOT (n - 1) d)
  else if o = 0x604 then wr SEC.SECVER fu.secver d
  else if o = 0x608 then wr SEC.DEVID fu.devid d
  else if o = 0x614 then
    wrB SEC.TAMPSTAT.HOLD d.keep.tampHold (wr SEC.TAMPSTAT.LATCHED d.keep.tampLatch (wr SEC.TAMPSTAT.LIVE (freeOf d).toNat d))
  else if o = 0x618 then wr SEC.KEYSTAT (packBits ((List.range 64).map (fun n => (slotAt n d).isSome))) d
  else if o = 0x640 then wr SEC.DBGSTAT.LEFT (dbgLeft d) (wr SEC.DBGSTAT.SCOPE (dbgScope fu d) d)
  else if o = 0x644 then wr SEC.DIETEMP (freeOf d).toNat d
  else d

/-- SCH's live registers (Tables 07-14, 11-9, 13-10). -/
def liveSch (o : Nat) (d : Dev) : Dev :=
  if o = 4 then
    let d' := wr SCH.DFSTAT.INFLIGHT d.sch.inf.length (wrB SCH.DFSTAT.FULL (full d) d)
    wrB SCH.DFSTAT.PAUSED (paused d) (wrB SCH.DFSTAT.RUN (on SCH.DFCTL.EN d && d.sch.run) d')
  else if o = 0x24 then wr SCH.READYCNT d.sch.ready.length d
  else if 0x30 ≤ o ∧ o < 0x70 then
    let l := (o - 0x30) / 4
    wr (SCH.LVLCNT l) ((d.sch.ready.filter (fun e => e.pri == l)).length) d
  else if 0x70 ≤ o ∧ o < 0x90 then
    let n := (o - 0x70) / 4
    let c := coreOf n d
    let d' := wrB (SCH.CORESTAT.FATAL n) c.fatal (wrB (SCH.CORESTAT.PLFENCE n) (on AON.PWRSTAT.LIMITED d && decide (4 ≤ n)) d)
    let d' := wrB (SCH.CORESTAT.STFENCE n) (bit d.app.stFence n || d.app.stCur == some n) d'
    let d' := wrB (SCH.CORESTAT.FWFENCE n) (bit (rd SCH.CFENCE d) n) (wrB (SCH.CORESTAT.NAP n) (c.run == .nap) d')
    let d' := wrB (SCH.CORESTAT.BUSY n) c.entry.isSome (wr (SCH.CORESTAT.CENTRY n) (c.entry.getD 0) d')
    wr (SCH.CORESTAT.PRI n) ((corePri n d).getD 0) d'
  else if 0x1200 ≤ o ∧ o < 0x1210 then
    let k := (o - 0x1200) / 4
    wr (SCH.LOCKHELD k) (packBits ((List.range 32).map (fun j => lockOf (32 * k + j) d != 0))) d
  else if 0x1218 ≤ o ∧ o < 0x1258 then
    let k := (o - 0x1218) / 4
    wr (SCH.LOCKHOLD k) ((List.range 8).foldl (fun a j => a + (lockOf (8 * k + j) d - 1) * 16 ^ j) 0) d
  else if o = 0x8004 then
    let en := on SCH.TRKCTL.EN d
    let d' := wrB SCH.TRKSTAT.RUN en (wrB SCH.TRKSTAT.HBOUT (en && !on SCH.TRKSTAT.INCONS d) d)
    wrB SCH.TRKSTAT.GRACE (on SEC.PMSTAT.GRACE d) d'
  else if o = 0x8038 then wr SCH.REGCNT d.sch.memb.length d
  else if o = 0x803C then wr SCH.RESUSED d.sch.resv.length d
  else d

/-- MEM's live registers (Tables 14-7, 15-13). When the eMMC becomes ready is not stated (log 49); bits 7:4 show the low four bits of
the number of the channel being served. -/
def liveMem (o : Nat) (d : Dev) : Dev :=
  if o = 0x28 then wr MEM.RETCNT d.aon.retCnt d
  else if o = 0x48 then wrB MEM.TLBSTAT.BUSY (decide (0 < d.mem.inval)) (wr MEM.TLBSTAT.PENDN d.mem.inval d)
  else if o = 0x100 then
    wrB MEM.EMMCSTAT.READY d.mem.ready (wrB MEM.EMMCSTAT.BUSY d.mem.host.isSome (wr MEM.EMMCSTAT.CHAN (d.mem.host.getD 0) d))
  else if o = 0x204 then wr MEM.CAPSTAT.ISL (if on MEM.CAPSTAT.BUSY d then d.aon.capIsl else 0) d
  else d

/-- CTL's live registers (Tables 09-8 and 10-8). -/
def liveCtl (o : Nat) (d : Dev) : Dev :=
  if o = 0xF00 then wr CTL.AXFLT (packBits (axes.map (fun a => axState a d == 5 || axState a d == 6))) d
  else if o = 0xF08 then wr CTL.AXMOV (packBits (axes.map (fun a => axState a d == 2 || axState a d == 3 || axState a d == 4))) d
  else if 0x200 ≤ o ∧ o < 0x2C0 then
    let a := (o - 0x200) / 4
    let h (en b : Fld) : Bool := on en d && on (CTL.LBSTAT.HOACT (rd b d)) d
    wrB (CTL.AXLOOP.HOACT a) (h (CTL.AXLOOP.PEN a) (CTL.AXLOOP.PB a) || h (CTL.AXLOOP.TEN a) (CTL.AXLOOP.TB a)) d
  else d

/-- NET's live registers (Table 08-15). -/
def liveNet (o : Nat) (d : Dev) : Dev :=
  if o = 4 then
    let d' := wrB NET.RINGSTAT.ALINK (linkOf 0 d != 0) (wrB NET.RINGSTAT.BLINK (linkOf 1 d != 0) d)
    wrB NET.RINGSTAT.ASLOW (linkOf 0 d == 1) (wrB NET.RINGSTAT.BSLOW (linkOf 1 d == 1) d')
  else d

/-- RAD's live registers (Chapter Fleet radio: Registers). The noise floors are not stated, and free (log 49). -/
def liveRad (fu : Fuses) (o : Nat) (d : Dev) : Dev :=
  if o = 0 then wr RAD.RADCTL.REGION (region fu) d
  else if o = 0x30 then
    wrS RAD.PWRCAP (pwrCap fu d) d
  else if o = 0x44 then wr RAD.SFNUM (sfNow d) d
  else if o = 0x48 then wr RAD.SFPHASE d.rad.phase d
  else if 0x100 ≤ o ∧ o < 0x194 then wr (RAD.DWELL ((o - 0x100) / 4)) (dwellSum ((o - 0x100) / 4) d) d
  else if 0x1000 ≤ o ∧ o < 0x1400 then
    let l := (o - 0x1000) / 0x100
    let k := (o - 0x1000) % 0x100
    if k = 0x10 then wr (RAD.CHNOW l) (chanOf fu l (sfNow d) d) d
    else if k = 0x50 then wr (RAD.CTXCNT l) (((List.range 144).filter (fun c => armed c d && laneOf c d == l)).length) d
    else if 0x5C ≤ k ∧ k < 0xF0 then wr (RAD.CHNOISE l ((k - 0x5C) / 4)) (freeOf d).toNat d
    else d
  else d

/-- POS's live registers (Tables 05-11, 05-13, 06-12). Gain, correlator powers and the lock indicator are measured, and free
(log 49). -/
def livePos (o : Nat) (d : Dev) : Dev :=
  if o = 4 then wr POS.BBSTAT.TRACKN ((chans.filter (fun c => on (POS.CHSTAT.TRACK c) d)).length) d
  else if o = 8 then wr POS.AGC (freeOf d).toNat d
  else if o = 0x500 then wr POS.EPHSTAT (ephStat d) d
  else if o = 0x504 then wr POS.HEALTH (healthBits d) d
  else if 0x10000 ≤ o ∧ o < 0x10C00 then
    let c := (o - 0x10000) / 0x80
    let k := (o - 0x10000) % 0x80
    if k = 4 then
      let n := chPrn c d
      wrB (POS.CHSTAT.EPH c) (ephValid n d) (wrB (POS.CHSTAT.HEALTHY c) (ephHealthy n d) d)
    else if k = 0x20 then wr (POS.LOCKT c) (lockMs c d) d
    else if 0x38 ≤ k ∧ k < 0x4C then wr (POS.CORR c ((k - 0x38) / 4)) (freeOf d).toNat d
    else if k = 0x4C then wr (POS.LOCKIND c) (freeOf d).toNat d
    else d
  else if o = 0x20004 then
    let act := ((List.range 128).filter (fun r => roven r d)).length
    let d' := wr POS.SOLSTAT.ACTIVE act (wr POS.SOLSTAT.STORECNT d.pos.store.length d)
    let d' := wr POS.SOLSTAT.PIPEBUSY (packBits ((List.range 4).map (fun p => pipeBusy p d))) d'
    let d' := wrB POS.SOLSTAT.CARROK (on POS.BASESTAT.FIXQ d) (wrB POS.SOLSTAT.BASEOK (on POS.BASECTL.VALID d) d')
    wrB POS.SOLSTAT.SITEOK (on POS.SITECTL.VALID d) (wrB POS.SOLSTAT.RUN (on POS.SOLCTL.EN d) d')
  else if 0x20400 ≤ o ∧ o < 0x20410 then
    let p := (o - 0x20400) / 4
    wrB (POS.PIPESTAT.BUSY p) (pipeBusy p d) (wr (POS.PIPESTAT.ROVER p) (match pipeOf p d with
      | some x => x.obs.r
      | none => 0) d)
  else d

/-- A queue's live registers (Tables 11-5 and 11-6). -/
def liveQueue (q : Nat) (d : Dev) : Dev :=
  let v := qGet q d
  let h : Option Packet := v.head.bind (fun i => v.pkts[i]?)
  let deep := qDepth q
  let code := if deep = 64 then 0 else if deep = 128 then 1 else if deep = 256 then 2 else if deep = 512 then 3 else 4
  let d := wr (SQ.QCTL.HEADLEN q) ((h.map (fun p => p.items.length)).getD 0) d
  let d := wrB (SQ.QSTAT.MARKED q) v.marked (wrB (SQ.QSTAT.LASTEND q) v.lastEnd (wrB (SQ.QSTAT.INPKT q) v.inPkt d))
  let d := wr (SQ.QSTAT.HEADPRI q) ((h.map (·.pri)).getD 0) (wrB (SQ.QSTAT.AVAIL q) h.isSome d)
  let d := wrB (SQ.QSTAT.FULL q) (decide (deep ≤ v.fill)) (wr (SQ.QSTAT.DEPTH q) code (wr (SQ.QSTAT.FILL q) v.fill d))
  let d := wr (SQ.QPKTA.P0 q) (v.count 0) (wr (SQ.QPKTA.P1 q) (v.count 1) d)
  wr (SQ.QPKTB.P2 q) (v.count 2) (wr (SQ.QPKTB.P3 q) (v.count 3) d)

/-- The block with the register at an address brought up to date: what a read of it shows. -/
def live (fu : Fuses) (a : Nat) (d : Dev) : Dev :=
  match winOf a with
  | .regs 0 => liveAon (a - winBase 0) d
  | .regs 1 => liveSec fu (a - winBase 1) d
  | .regs 3 => liveSch (a - winBase 3) d
  | .regs 4 => liveMem (a - winBase 4) d
  | .regs 5 => liveCtl (a - winBase 5) d
  | .regs 6 => liveNet (a - winBase 6) d
  | .regs 7 => liveRad fu (a - winBase 7) d
  | .regs 8 => livePos (a - winBase 8) d
  | .queue q => liveQueue q d
  | .ferry f => wrB (FERRY.FSTAT.FULL f) (ferryOf f d).full d
  | .bell r => wr (BELL.DBPEND r) (rd (BELL.DBELL r) d - (rd (BELL.DBELL r) d &&& rd (BELL.DBMASK r) d)) d
  | _ => d

/-- Reads that show a value the spec does not state draw a fresh one (log 49). -/
def drawsFree (a : Nat) : Bool :=
  match winOf a with
  | .regs 1 => a == winBase 1 + 0x614 || a == winBase 1 + 0x644
  | .regs 7 => decide (winBase 7 + 0x1000 ≤ a ∧ a < winBase 7 + 0x1400)
  | .regs 8 => a == winBase 8 + 8 || decide (winBase 8 + 0x10000 ≤ a ∧ a < winBase 8 + 0x10C00)
  | _ => false

/-! ## The reservation SRAM (Tables 07-11 to 07-13) -/

/-- A reservation entry's bytes (Table 07-12). -/
def resvBytes (i : Nat) (d : Dev) : List Nat :=
  match resvOf i d with
  | none => List.replicate 12 0
  | some r =>
    leBytes 4 r.enter ++ leBytes 4 r.exit ++ leBytes 2 (r.seg % 2 ^ 14 + b2n r.dir * 2 ^ 14 + b2n r.opn * 2 ^ 15) ++
      leBytes 2 (r.mem % 1024 + 2 ^ 10 + b2n r.held * 2 ^ 11 + b2n r.fgn * 2 ^ 12 + b2n r.shadow * 2 ^ 13 + b2n r.frozen * 2 ^ 14 +
        b2n r.ext * 2 ^ 15)

/-- A member-table entry's bytes (Table 07-13). The anchor is the member's last reservation. -/
def membBytes (k : Nat) (d : Dev) : List Nat :=
  match membOf k d with
  | none => List.replicate 128 0
  | some m =>
    let anchor := ((entries m).getLast?).getD 0xFFFF
    let aseg := ((resvOf anchor d).map (·.seg)).getD 0
    let t := m.tested.getD (0, 0, 0)
    let st := if m.lost then 3 else if moving m then 2 else 1
    leBytes 2 (m.id + 2 ^ 15) ++ [st, m.legs.length, (lowLeg m).getD 0, b2n (m.cutDl.isSome || !m.cutsOld.isEmpty) + 2 * b2n m.cross] ++
      leBytes 2 m.foot ++ leBytes 4 m.cap ++ leBytes 4 m.pid ++ leBytes 2 anchor ++ leBytes 2 aseg ++
      leBytes 4 t.1 ++ leBytes 4 t.2.1.toNat ++ leBytes 4 t.2.2.toNat ++
        leBytes 4 (m.cutDl.getD ((m.cutsOld.map (·.2.1)).headD 0)) ++ List.replicate 28 0 ++
      ((List.range 32).flatMap (fun i => leBytes 2 (((m.legs.getD i none)).getD 0xFFFF)))

/-- A byte of the window (Table 07-11). -/
def sramByte (o : Nat) (d : Dev) : Nat :=
  if o < 0xA0000 then (tget d.sch.sram o 0).toNat
  else if o < 0xA4000 then (membBytes ((o - 0xA0000) / 128) d).getD ((o - 0xA0000) % 128) 0
  else if 0xB0000 ≤ o ∧ o < 0x170000 then (resvBytes ((o - 0xB0000) / 12) d).getD ((o - 0xB0000) % 12) 0
  else 0

/-- n bytes of the window as a number. -/
def sramRead (o n : Nat) (d : Dev) : Nat := ofLe ((List.range n).map (fun i => sramByte (o + i) d))

/-- A store of n bytes to the window, word by word (R230). -/
def sramWrite (o n v : Nat) (d : Dev) : Dev :=
  if n % 4 = 0 then forAll (List.range (n / 4)) (fun k => graphWrite (o + 4 * k) (bits v (32 * k) 32)) d
  else
    let b := o / 4 * 4
    let sh := 2 ^ (8 * (o - b))
    let old := sramRead b 4 d
    graphWrite b (old - bits old (8 * (o - b)) (8 * n) * sh + v % 2 ^ (8 * n) * sh) d

/-! ## Reads -/

/-- The value the readable fields of a register make. -/
def wordOf (l : List Fld) (d : Dev) : Nat :=
  l.foldl (fun acc f => if f.kind = .wo then acc else acc + seen f d % 2 ^ f.width * 2 ^ f.lo) 0

/-- The rc fields of a register cleared (R4, R8). -/
def rcClear (l : List Fld) (d : Dev) : Dev := forAll (l.filter (fun f => f.kind == .rc)) cleared d

/-- Whether a requester is a ferry's sender, or its receiver (R382). -/
def ferryEnd (f : Nat) (w : Who) (d : Dev) : Bool :=
  let s := rd (FERRY.FCFG.SENDER f) d
  (s == 0x1F && decide (w.rq.val < 8)) || s == w.rq.val || ferryRecv f (ferryOf f d).hdr.toNat d == w.rq.val

/-- A read of a register by the rules of Table 00-3, R8 and R9. -/
def plainRead (fu : Fuses) (a : Nat) (d : Dev) : Dev :=
  if pairHigh a then { d with rdata := (tget d.latch a 0).setWidth 64 }
  else
    let l := fieldsAt a
    let v := wordOf l (live fu a d)
    let d := rcClear l (if drawsFree a then drawn d else d)
    let d := { d with rdata := BitVec.ofNat 64 (v % 2 ^ 32) }
    if l.any Fld.pair then { d with latch := tset d.latch (a + 4) (BitVec.ofNat 32 (v / 2 ^ 32)) 0 } else d

/-- Bytes of AON retention that its window shows: the POS keep area, the axis keep area, the retired-frame list. -/
def aonRam (o : Nat) : Bool := decide ((0x3000 ≤ o ∧ o < 0x4600) ∨ (0x5000 ≤ o ∧ o < 0x5400))

/-- A 32-bit read that reaches its island: reads with an effect of their own, and all others. -/
def regRead (fu : Fuses) (w : Who) (a : Nat) (d : Dev) : Dev :=
  let zero (d : Dev) : Dev := { d with rdata := 0 }
  match winOf a with
  | .regs 0 =>
    let o := a - winBase 0
    if aonRam o then { d with rdata := BitVec.ofNat 64 (ofLe (retRead o 4 d)) } else plainRead fu a d
  | .regs 3 =>
    let o := a - winBase 3
    if 0x1000 ≤ o ∧ o < 0x1200 then lockRead ((o - 0x1000) / 4) w.rq d else plainRead fu a d
  | .regs 4 => if a = winBase 4 + 0x14 then poolTake d else plainRead fu a d
  | .queue q =>
    let o := (a - qBase) % 0x1000
    if qProd q = .nobody then zero d
    else if o = 8 then fwPop q .clean d
    else if o = 0xC then { d with rdata := (tget d.latch a 0).setWidth 64 }
    else plainRead fu a d
  | .ferry f =>
    let o := (a - fBase) % 0x100
    if o < 0x80 then (if ferryEnd f w d then plainRead fu a d else zero d)
    else if o = 0x84 then ferryTake f w.rq d
    else if o = 0x88 then { d with rdata := if (ferryOf f d).full then (ferryOf f d).hdr.setWidth 64 else 0 }
    else plainRead fu a d
  | .bell r => if w.rq.val = r ∨ w.lvl = .m then plainRead fu a d else zero d
  | _ => plainRead fu a d

/-! ## Writes: what keeps one from taking effect -/

/-- A register in a state, or a requester at a level, in which writes to it are ignored. -/
def blocked (w : Who) (a : Nat) (d : Dev) : Bool :=
  let low := !atM w
  match winOf a with
  | .regs 0 =>
    let o := a - winBase 0
    low && decide (o = 0x304 ∨ o = 0x308 ∨ o = 0x314 ∨ o = 0x328 ∨ o = 0x338 ∨ o = 0x6070 ∨ (0x7000 ≤ o ∧ o < 0x7800))
  | .regs 2 => low
  | .regs 3 =>
    let o := a - winBase 3
    (low && decide (o < 0x100 ∨ o = 0x1214)) || (decide (o = 8 ∨ o = 0x10 ∨ o = 0x18) && on SCH.DFCTL.EN d)
  | .regs 4 =>
    let o := a - winBase 4
    (low && decide (o = 0 ∨ o = 8 ∨ o = 0x20 ∨ o = 0x28 ∨ o = 0x200)) || (o == 8 && on MEM.MEMCTL.POOLEN d) ||
      (decide (0x1000 ≤ o ∧ o < 0x1800 ∧ o % 0x40 ≠ 4) && !chOpen ((o - 0x1000) / 0x40) d)
  | .regs 6 =>
    let o := a - winBase 6
    (o == 8 && on NET.NETCTL.CYCEN d) || (decide (0x2000 ≤ o ∧ o < 0x2400) && ctlOwns ((o - 0x2000) / 0x10) d)
  | .regs 7 =>
    let o := a - winBase 7
    decide (0x40000 ≤ o ∧ (o % 0x80 = 4 ∨ o % 0x80 = 8)) && armed ((o - 0x40000) / 0x80) d
  | .regs 8 =>
    let o := a - winBase 8
    (decide (0x400 ≤ o ∧ o < 0x418) && on POS.BASECTL.VALID d) ||
      (decide (o = 0x20010 ∨ (0x20100 ≤ o ∧ o < 0x2013C)) && on POS.SOLCTL.EN d)
  | .bell r => decide (w.rq.val ≠ r ∧ w.lvl ≠ .m)
  | _ => false

/-- What an ignored write still does: CTXWERR counts (R97), a ferry's REFCNT is counted where the ferry refuses. -/
def blockedNote (a : Nat) (d : Dev) : Dev :=
  match winOf a with
  | .regs 7 => inc RAD.CTXWERR d
  | _ => d

/-- A value some registers do not take: bits that must be 0, the limits R264 gives against another register, and the ranges of the
fp32 values DF (from 0, below 1) and HOSTEP (above 0) of a loop block (Table 10-9). -/
def badValue (a v : Nat) (d : Dev) : Bool :=
  let z (n : Nat) : Bool := decide (v % 2 ^ n ≠ 0)
  match winOf a with
  | .regs 3 =>
    let o := a - winBase 3
    if o = 8 then z 6 else if o = 0x18 then z 12 else if o = 0xA008 then z 12
    else if o = 0x801C then decide (rd SCH.CUTLEAD d ≤ v)
    else if o = 0x802C then decide (v < 3 * rd SCH.PHBPER d)
    else false
  | .regs 4 =>
    let o := a - winBase 4
    if o = 8 then z 24 else if 0x1000 ≤ o ∧ o % 0x40 = 0x18 then z 5
    else if 0x1000 ≤ o ∧ o % 0x40 = 0x10 then z 12 || decide (2 ^ 40 ≤ v) else false
  | .regs 5 =>
    let o := a - winBase CTLi
    if 0x20000 ≤ o ∧ o < 0x21000 ∧ o % 0x40 = 0x24 then decide (0x3F800000 ≤ v ∧ v ≠ 0x80000000)
    else if 0x20000 ≤ o ∧ o < 0x21000 ∧ o % 0x40 = 0x28 then decide (v = 0 ∨ 0x7F800000 < v)
    else false
  | .regs 8 => if a = winBase 8 + 0x20010 then z 12 else false
  | _ => false

/-- A value as the register takes it: WSLEWMAX clamped (R51), DUMPBASE and SKBASE cut to their bits (Table 15-13). -/
def takenAs (a v : Nat) : Nat :=
  if a = winBase 0 + 0x10C4 then min v 219902326
  else if a = winBase 0 + 0x328 then bits v 26 14 * 2 ^ 26
  else if a = winBase 0 + 0x338 then bits v 16 24 * 2 ^ 16
  else v

/-- Fields a write leaves alone in the register's present state: CLASS, ALLOW and TYPEID while EN is 1 (Table 08-16); AXCFG's
binding unless the axis is DISABLED (R307). -/
def keptField (a : Nat) (f : Fld) (d : Dev) : Bool :=
  let o := a - winBase NETi
  let x := a - winBase CTLi
  match winOf a with
  | .regs 6 =>
    let m := (o - 0x1000) / 0x20
    decide (0x1000 ≤ o ∧ o < 0x1800 ∧ o % 0x20 = 0) && on (NET.MCFG.EN m) d && !(f == NET.MCFG.EN m || f == NET.MCFG.ADOPT m)
  | .regs 5 =>
    let k := (x - 0x10000) / 0x100
    decide (0x10000 ≤ x ∧ x < 0x13000 ∧ x % 0x100 = 0) && axState k d != 0 &&
      !(f == CTL.AXCFG.CMSEL k || f == CTL.AXCFG.SLEN k || f == CTL.AXCFG.HLEN k)
  | _ => false

/-- A write's effect on one field, by its kind (R4, R6, R7). -/
def fieldWrite (v : Nat) (f : Fld) (d : Dev) : Dev :=
  let x := bits v f.lo f.width
  match f.kind with
  | .rw => if f.vmin ≤ x ∧ x ≤ f.vmax then wr f x d else d
  | .wo => wr f x d
  | .w1c => wr f ((rd f d - (rd f d &&& x)) ||| evNow f d) d
  | _ => d

/-- A write's effect on the fields that have no operation of their own. A write to AXCFG that would change what it may not
counts in AXCMDREF (R307). -/
def plainWrite (a v : Nat) (d : Dev) : Dev :=
  let l := (fieldsAt a).filter (fun f => !f.own)
  let kept := l.filter (fun f => keptField a f d)
  let lost := kept.any (fun f => rd f d != bits v f.lo f.width)
  let d' := forAll (l.filter (fun f => !keptField a f d)) (fieldWrite v) d
  match winOf a with
  | .regs 5 => if lost then inc CTL.AXCMDREF d' else d'
  | _ => d'

/-! ## Writes with an operation of their own -/

/-- One bit of a written word. -/
def wbit (v i : Nat) (f : Dev → Dev) (d : Dev) : Dev := whenB (bit v i) f d

/-- AON. WCTL changes SRC before STEPACC acts, and WCSRC keeps its tag over WCORR writes (DESIGN CHOICE, log 126). -/
def aonWrite (o v : Nat) (d : Dev) : Dev :=
  if o = 0x204 then wbit v 0 restore d
  else if o = 0x1008 then wbit v 0 tsnap d
  else if o = 0x1048 then coffWrite (BitVec.ofNat 64 v) d
  else if o = 0x1068 then
    let st := bit v 1
    let d := if st && !on RAD.RADCTL.MOSS d then d else wrB AON.CCTL.STEPEN st d
    wbit v 2 (fun d => wrateGuard (armC d)) d
  else if o = 0x1070 ∨ o = 0x107C then checkDiverged d
  else if o = 0x10A8 then
    let src := bits v 0 2
    let d := if rd AON.WCTL.SRC d = src then d else wrateGuard (wr AON.WCTL.SRC src (holdover d))
    wbit v 2 stepAsk (wbit v 3 (fun d => wrateGuard (armW d)) d)
  else if o = 0x10B0 then accAfter (wrateGuard (correction (rd AON.WCSRC d) true (BitVec.ofNat 64 v).toInt d))
  else if 0x2000 ≤ o ∧ o < 0x2200 ∧ o % 0x20 = 0 then trigCtl ((o - 0x2000) / 0x20) v d
  else if 0x2000 ≤ o ∧ o < 0x2200 ∧ o % 0x20 = 4 then trigTgt ((o - 0x2004) / 0x20) v d
  else if o = 0x304 then
    if bits v 24 8 ≠ 0x5A ∨ d.aon.power ≠ .run then d
    else if rstWord v = 2 then rstAct 2 (resetAsk 0) d
    else if rstWord v = 1 then rstAct 1 (resetAsk (bits v 0 4)) d
    else d
  else if o = 0x308 then wdCtl v d
  else if o = 0x30C then wdKick (BitVec.ofNat 32 v) d
  else if o = 0x314 then
    if bits v 0 2 = 1 then lpAsk false d else if bits v 0 2 = 2 then lpAsk true d else d
  else if o = 0x324 then
    wbit v 5 (cleared AON.DUMPCTL.ABORTED) (wbit v 4 (cleared AON.DUMPCTL.NOBASE) (wbit v 0 (cleared AON.DUMPCTL.VALID) d))
  else if o = 0x6028 then lRead (v % 2 ^ 21) d
  else if 0x3000 ≤ o ∧ o < 0x4000 then
    if on POS.BBCTL.EN d then d else retWrite o (leBytes 4 v) d
  else d

/-- SEC. -/
def secWrite (fu : Fuses) (w : Who) (o v : Nat) (d : Dev) : Dev :=
  if o = 0x304 then
    let d := wbit v 0 (fun d => permitFollow (wrB SEC.J6STAT.POVLD false d)) d
    let d := wbit v 1 (wrB SEC.J6STAT.TPOVLD false) d
    let t := bit v 2
    let d := wrB SEC.J6CTL.TPEN t d
    tpulsePin (if t then d else { d with aon := { d.aon with ppsPin := false } })
  else if o = 0x404 then
    let d := whenB (bit v 2 && d.sec.fixq && !on SEC.PMSTAT.GRACE d) (wrB SEC.PMSTAT.CRAWL false) d
    let d := whenB (bit v 1 && atM w) graceReq d
    wbit v 0 (latchStop (if bits v 8 8 = 6 then cNetStop else cFwStop)) d
  else if o = 0x408 then appHb (BitVec.ofNat 32 v) d
  else if o = 0x410 then zgrantWrite v d
  else if o = 0x42C then unsingleWrite (v % 1024) d
  else if o = 0x500 then
    if bit v 1 then mossEnter d else if bit v 0 then mossLeave fu d else d
  else if o = 0x700 then forAll ((List.range 10).filter (fun b => bit v b)) critClear d
  else d

/-- SCH. -/
def schWrite (w : Who) (o v : Nat) (d : Dev) : Dev :=
  if o = 0 then dfCtl (bit v 0) d
  else if o = 0x90 then fenceSet (wr SCH.CFENCE v d)
  else if 0x2000 ≤ o ∧ o < 0x2800 ∧ o % 8 = 4 then evCfg ((o - 0x2004) / 8) v d
  else if 0x1000 ≤ o ∧ o < 0x1200 then lockWrite ((o - 0x1000) / 4) w.rq (v % 16) d
  else if o = 0x1214 then inc SCH.LOCKERR (lockSet (v % 128) 0 d)
  else if o = 0x8000 then wrB SCH.TRKCTL.EN (bit v 0) d
  else if o = 0x8008 then peerMask (v % 256) d
  else if o = 0xA000 then wbit v 1 auctAbort (wbit v 0 auctStart d)
  else d

/-- MEM. -/
def memWrite (w : Who) (o v : Nat) (d : Dev) : Dev :=
  if o = 0 then poolEn (bit v 0) d
  else if o = 0x18 then poolGive (v % 2 ^ 28) d
  else if o = 0x24 then fwRetire (v % 2 ^ 28) d
  else if o = 0x28 then whenB (v % 2 ^ 9 == 0) retClear d
  else if o = 0x40 then tlbInv d
  else if o = 0x200 then wbit v 0 (captureStart 1 w.rq) d
  else if 0x1000 ≤ o ∧ o < 0x1800 then
    let c := (o - 0x1000) / 0x40
    if o % 0x40 = 0 then chCtl c (bit v 0) (bits v 1 2) w.lvl d
    else if o % 0x40 = 4 then
      if bits v 0 2 = 1 then chResume c d else if bits v 0 2 = 2 then chSkip c d else if bits v 0 2 = 3 then chAbort c d else d
    else d
  else d

/-- CTL. -/
def ctlWrite (o v : Nat) (d : Dev) : Dev :=
  if o = 0 then ctlEn (bit v 0) d
  else if 0x40 ≤ o ∧ o < 0x80 then progtabWrite ((o - 0x40) / 4) v .clean d
  else if 0x200 ≤ o ∧ o < 0x2C0 then modereq ((o - 0x200) / 4) (bits v 16 2) d
  else if 0x10000 ≤ o ∧ o < 0x13000 then
    if o % 0x100 = 4 ∧ 1 ≤ v % 16 ∧ v % 16 ≤ 7 then cmdPost ((o - 0x10000) / 0x100) (v % 16) d else d
  else if 0x20000 ≤ o ∧ o < 0x21000 then
    let b := (o - 0x20000) / 0x40
    if o % 0x40 = 0 then wbit v 30 (lbcfgReset b) d
    else if o % 0x40 = 0x30 then lbSet b { lbOf b d with integW := some (BitVec.ofNat 32 v) } d
    else d
  else if 0x40000 ≤ o ∧ o < 0x44000 then pmemWrite ((o - 0x40000) / 4) v d
  else d

/-- NET. -/
def netWrite (o v : Nat) (d : Dev) : Dev :=
  if o = 0 then
    let d := whenB (!on NET.NETCTL.CYCEN d) (wrB NET.NETCTL.AUTH (bit v 2)) d
    cycenWrite (bit v 1) (ringenWrite (bit v 0) d)
  else d

/-- RAD. -/
def radWrite (fu : Fuses) (o v : Nat) (d : Dev) : Dev :=
  if o = 0x24 then wbit v 0 mapArm d
  else if o = 0x28 then rejoinWrite v (anyArmed d) d
  else if o = 0x30 then limitWrite fu .pwrcap v d
  else if o = 0x34 then limitWrite fu .dwellwin v d
  else if o = 0x38 then limitWrite fu .dwelllim v d
  else if o = 0x800 then
    let k := bits v 0 2
    if k = 0 then d else radStop k (bits v 2 6) (bits v 8 10) (bits v 18 8) d
  else if 0x1000 ≤ o ∧ o < 0x1400 then
    let l := (o - 0x1000) / 0x100
    let k := (o - 0x1000) % 0x100
    if k = 0 then wrB (RAD.LCTL.FENCE l) (bit v 1) d
    else if k = 8 then powerWrite fu l false (BitVec.ofNat 32 v).toInt d
    else if k = 0xC then powerWrite fu l true (BitVec.ofNat 32 v).toInt d
    else d
  else if 0x40000 ≤ o ∧ o % 0x80 = 0 then
    let c := (o - 0x40000) / 0x80
    if bit v 2 then termCtx c d else wbit v 1 (updArm c) (wbit v 0 (armCtx c) d)
  else d


/-- CHCTL of a channel (R159, Table 05-13 note 3). PIN cleared leaves a channel in WAIT as it is (DESIGN CHOICE, log 150). -/
def chctlWrite (c v : Nat) (d : Dev) : Dev :=
  if bit v 7 then chRelease c true (wrB (POS.CHCTL.PIN c) (bit v 6) (wrB (POS.CHCTL.EN c) (bit v 8) d))
  else
    let prn := bits v 0 6
    let set (d : Dev) : Dev := chPrnWrite c prn d
    if !bit v 8 then wrB (POS.CHCTL.PIN c) (bit v 6) (set (if on (POS.CHCTL.EN c) d then chRelease c false d else d))
    else
      let d := wrB (POS.CHCTL.EN c) true d
      if bit v 6 then chPin c prn d else wrB (POS.CHCTL.PIN c) false (set d)

/-- POS. -/
def posWrite (o v : Nat) (d : Dev) : Dev :=
  if o = 0 then bbCtl v d
  else if o = 0x418 then baseValid (bit v 0) d
  else if o = 0x438 then wrB POS.IONOCTL.VALID (bit v 0) d
  else if o = 0x20000 then solverEnable (bit v 0) d
  else if 0x20040 ≤ o ∧ o < 0x20050 then rovEnable ((o - 0x20040) / 4) v d
  else if o = 0x20050 then resetRovers [v % 128] d
  else if o = 0x2013C then siteValid (bit v 0) (wbit v 1 (wrB POS.SITECTL.REFUSED false) d)
  else if 0x10000 ≤ o ∧ o < 0x10C00 then
    let c := (o - 0x10000) / 0x80
    let k := (o - 0x10000) % 0x80
    if k = 0 then chctlWrite c v d else if 0x28 ≤ k ∧ k ≤ 0x34 then chSettings c d else d
  else d

/-- A queue's window (R363, R367, R368, R375). -/
def queueWrite (q : Nat) (w : Who) (o v : Nat) (d : Dev) : Dev :=
  if o = 4 then fwPush q (BitVec.ofNat 32 v) (w.rq + w.lvl.num * 16) d
  else if o = 0x10 then wbit v 8 (qMark q) (wbit v 10 (qRelease q) (wbit v 9 (qRewind q) d))
  else d

/-- A ferry (R380, R381): FCFG of F8–F15 is SEC's, until LOCK. -/
def ferryWrite (f : Nat) (w : Who) (o v : Nat) (d : Dev) : Dev :=
  if o = 0x80 then ferrySend f w.rq w.lvl v d
  else if o = 0x90 then
    if f < 8 ∨ w.rq.val ≠ 8 ∨ on (FERRY.FCFG.LOCK f) d then d
    else fcfgSet f v (wrB (FERRY.FCFG.LOCK f) (bit v 31) d)
  else if o < 0x80 then wr (FERRY.W f (o / 8)) v d
  else d

/-- What a write does beyond the fields without an operation of their own. -/
def ownWrite (fu : Fuses) (w : Who) (a v : Nat) (d : Dev) : Dev :=
  match winOf a with
  | .regs 0 => aonWrite (a - winBase 0) v d
  | .regs 1 => secWrite fu w (a - winBase 1) v d
  | .regs 2 => if a = winBase 2 + 0x100 then wrB APP.STCTL.EN (bit v 0) d else d
  | .regs 3 => schWrite w (a - winBase 3) v d
  | .regs 4 => memWrite w (a - winBase 4) v d
  | .regs 5 => ctlWrite (a - winBase 5) v d
  | .regs 6 => netWrite (a - winBase 6) v d
  | .regs 7 => radWrite fu (a - winBase 7) v d
  | .regs 8 => posWrite (a - winBase 8) v d
  | .queue q => queueWrite q w ((a - qBase) % 0x1000) v d
  | .ferry f => ferryWrite f w ((a - fBase) % 0x100) v d
  | .bell r =>
    let o := (a - bBase) % 0x20
    if o = 0 then wr (BELL.DBELL r) (rd (BELL.DBELL r) d - (rd (BELL.DBELL r) d &&& v)) d
    else if o = 4 then dbmask r v d
    else d
  | _ => d

/-- A ferry's payload refuses a write (R381). -/
def payRefused (w : Who) (a : Nat) (d : Dev) : Bool :=
  match winOf a with
  | .ferry f => decide ((a - fBase) % 0x100 < 0x80) && ((ferryOf f d).full || !ferrySender f w.rq w.lvl d)
  | _ => false

/-- A whole register written: 32 bits, or a pair's 64. -/
def wholeWrite (fu : Fuses) (w : Who) (a v : Nat) (d : Dev) : Dev :=
  if badValue a v d then d
  else
    let d := match winOf a with
      | .regs 0 => lBktWrite (a - winBase 0) v d
      | _ => d
    ownWrite fu w a (takenAs a v) (plainWrite a (takenAs a v) d)

/-- A 32-bit write that reaches its island (R4, R6, R10). -/
def regWrite (fu : Fuses) (w : Who) (a : Nat) (v : W32) (d : Dev) : Dev :=
  let b := if pairHigh a then a - 4 else a
  if unassigned a then d
  else
    let lo := tget d.held b 0
    let d := if pairHigh a then { d with held := tset d.held b 0 0 } else d
    if pairHigh a && payRefused w b d then
      match winOf a with
      | .ferry f => inc (FERRY.REFCNT f) d
      | _ => d
    else if blocked w b d then blockedNote b d
    else if pairHigh a then wholeWrite fu w b (lo.toNat + v.toNat * 2 ^ 32) d
    else if pairLow a then { d with held := tset d.held a v 0 }
    else wholeWrite fu w a v.toNat d

/-! ## Accesses of any requester (R357–R360) -/

/-- A read of n bytes from a window: none where it is a bus error. What it shows stands in rdata. -/
def mmioRead (fu : Fuses) (w : Who) (n a : Nat) (d : Dev) : Option Dev :=
  let x := winOf a
  if x = .unmapped ∨ !mayReach w a ∨ !isUp (winIsl x) d then none
  else if x = .sram then some { d with rdata := BitVec.ofNat 64 (sramRead (a - sBase) n d) }
  else if n = 4 then some (regRead fu w a d)
  else if n = 8 ∧ pairLow a then
    let d1 := regRead fu w a d
    let d2 := regRead fu w (a + 4) d1
    some { d2 with rdata := BitVec.ofNat 64 (d1.rdata.toNat % 2 ^ 32 + d2.rdata.toNat % 2 ^ 32 * 2 ^ 32) }
  else none

/-- What a write that is a bus error still does: below the level its ferry requires, a write to W or SEND is refused and counted
(R359, R381). -/
def busNote (w : Who) (n a : Nat) (d : Dev) : Dev :=
  match winOf a with
  | .ferry f =>
    let o := (a - fBase) % 0x100
    let word := decide (o < 0x80 ∧ ((n = 8 ∧ o % 8 = 0) ∨ (n = 4 ∧ o % 8 = 4)))
    whenB (!mayReach w a && isUp (ferryIsl f) d && (word || (o == 0x80 && n == 4))) (inc (FERRY.REFCNT f)) d
  | _ => d

/-- A write of n bytes to a window: none where it is a bus error; ignored while the island is down (R357). -/
def mmioWrite (fu : Fuses) (w : Who) (n a v : Nat) (d : Dev) : Option Dev :=
  let x := winOf a
  if x = .unmapped ∨ !mayReach w a then none
  else if x = .sram then some (whenUp SCHi (sramWrite (a - sBase) n v) d)
  else if n = 4 then some (whenUp (winIsl x) (regWrite fu w a (BitVec.ofNat 32 v)) d)
  else if n = 8 ∧ pairLow a then
    some (whenUp (winIsl x) (fun d =>
      regWrite fu w (a + 4) (BitVec.ofNat 32 (v / 2 ^ 32)) (regWrite fu w a (BitVec.ofNat 32 v) d)) d)
  else none

end Sys2Proof.Machine
end

