-- ==== Sys2Proof/Machine/Dma.lean ====
section
/-! DEFINITION. Machine/Dma.lean: the DMA channels at work: descriptors, turns, faults, the eMMC host; and DMA's commands (Memory,
hardware paging and DMA: DMA channels). -/

namespace Sys2Proof.Machine

/-! ## Faults (R469) -/

/-- The reason a fault has in Table 14-5. -/
def TFault.reason : TFault → Nat
  | .trans => 1
  | .perm => 2
  | .noFrame => 3
  | .ecc _ => 4
  | .bus => 5
  | .wait => 0

/-- A channel parks (R469, R471): state, position, record, event; the eMMC host ends its command. -/
def chPark (c reason : Nat) (w desc : Bool) (va : Nat) (d0 : Dev) : Dev :=
  let d := wr (MEM.CHSTAT.REASON c) reason (wr (MEM.CHSTAT.STATE c) chParked (inc (MEM.CHFLT c) d0))
  let i0 := c + reason * 2 ^ 8 + b2n w * 2 ^ 12 + b2n desc * 2 ^ 13 + va % 2 ^ 48 * 2 ^ 16
  let d := hwPush 32 [BitVec.ofNat 64 i0, BitVec.ofNat 64 (rd (MEM.CHCUR c) d % 2 ^ 48), BitVec.ofNat 64 (rd (MEM.CHDONE c) d)] d
  token 2 MEMi 0xF2 c (hostOff c (chanSet c { chanOf_ c d with skip := false } d))

/-- What stops a channel at a byte: the reason, whether it was a write, and the virtual address. -/
structure Stop_ where
  why : Nat
  w   : Bool
  va  : Nat
  deriving DecidableEq, Repr

/-- A stop of a channel: a wait for the sweep leaves it running, anything else parks it. -/
def chStop (c : Nat) (s : Stop_) (d : Dev) : Dev := if s.why = 0 then d else chPark c s.why s.w false s.va d

/-! ## Accesses (R358, R466, R468) -/

/-- Who a channel is on the windows (R466, Table 11-8). -/
def chWho (c : Nat) (d : Dev) : Who := ⟨Fin.ofNat 16 (12 + c / 8), lvlOf (rd (MEM.CHCTL.LEVEL c) d)⟩

/-- A channel's translation. -/
def chTrans (c : Nat) (acc : Acc) (va : Nat) (d : Dev) : Except TFault Nat × Dev :=
  match reachPa (rd (MEM.CHROOT c) d) (lvlOf (rd (MEM.CHCTL.LEVEL c) d)) acc va d with
  | (.error e, d) => (.error e, d)
  | (.ok r, d) => (.ok r.pa, used r acc d)

/-- Whether an address lies in a window that takes 32-bit accesses only (R358). -/
def inWindows (pa : Nat) : Bool := decide (dramSize ≤ pa) && !inRom pa 1 && winOf pa != .sram

/-- The aligned word of a window that holds an address, read once (log 156). -/
def chWord (fu : Fuses) (c pa : Nat) (d : Dev) : Except TFault Nat × Dev :=
  let read : Except TFault Nat × Dev :=
    match mmioRead fu (chWho c d) 4 (pa / 4 * 4) d with
    | none => (.error .bus, d)
    | some d' =>
      let v := d'.rdata.toNat
      (.ok v, chanSet c { chanOf_ c d' with rbuf := some (pa / 4 * 4, v) } { d' with rdata := d.rdata })
  match (chanOf_ c d).rbuf with
  | some (a, v) => if a = pa / 4 * 4 then (.ok v, d) else read
  | none => read

/-- A byte a channel reads; `whole`: whether it reads the whole of an aligned word whose byte with this number it is. -/
def chLoad (fu : Fuses) (c va : Nat) (whole : Nat → Bool) (d : Dev) : Except TFault Nat × Dev :=
  match chTrans c .load va d with
  | (.error e, d) => (.error e, d)
  | (.ok pa, d) =>
    if pa < dramSize then
      match eccRead pa 1 .clean d with
      | (none, d) => (.error (.ecc pa), d)
      | (some b, d) => (.ok (b.getD 0 0), d)
    else if inRom pa 1 then (.ok (romByte pa), d)
    else if winOf pa = .sram then
      (if mayReach (chWho c d) pa && isUp SCHi d then (.ok (sramRead (pa - sBase) 1 d), d) else (.error .bus, d))
    else if !whole (pa % 4) then (.error .bus, d)
    else match chWord fu c pa d with
      | (.error e, d) => (.error e, d)
      | (.ok v, d) => (.ok (bits v (8 * (pa % 4)) 8), d)

/-- A byte a channel writes to an address. Where it is the first of a whole aligned word that the descriptor covers, the word takes
fresh check bits (R447, log 119); a part of a word that holds an uncorrectable error is not stored. -/
def chPut (fu : Fuses) (c pa b : Nat) (whole : Bool) (d : Dev) : Except TFault Unit × Dev :=
  if pa < dramSize then
    match eccWrite pa [b] .clean (if whole && decide (pa % 8 = 0) then unmarked (pa / 8) (pa / 8 + 1) d else d) with
    | (false, d) => (.error (.ecc pa), d)
    | (true, d) => (.ok (), d)
  else if inRom pa 1 then (.error .bus, d)
  else match mmioWrite fu (chWho c d) 1 pa b d with
    | none => (.error .bus, d)
    | some d => (.ok (), d)

/-! ## Descriptors (R467) -/

/-- A descriptor from its bytes (Table 14-4); none where it is malformed (R467). -/
def descOf (b : List Nat) : Option Desc :=
  let x : Desc := { src := ofLe (sub b 0 8), dst := ofLe (sub b 8 8), len := ofLe (sub b 16 4), op := b.getD 20 0,
                    last := bit (b.getD 21 0) 0, evt := bit (b.getD 21 0) 1, evn := b.getD 22 0, next := ofLe (sub b 24 8) }
  if 3 < x.op ∨ 4 ≤ b.getD 21 0 ∨ b.getD 23 0 ≠ 0 ∨ x.len = 0 ∨ (2 ≤ x.op ∧ x.len % 512 ≠ 0) then none else some x

/-- The bytes of a descriptor fetched under the channel's own translation (R467). -/
def descFetch (fu : Fuses) (c : Nat) : Nat → Nat → Dev → Except (TFault × Nat) (List Nat) × Dev
  | _, 0, d => (.ok [], d)
  | va, n + 1, d =>
    match chLoad fu c va (fun _ => true) d with
    | (.error e, d) => (.error (e, va), d)
    | (.ok b, d) => match descFetch fu c (va + 1) n d with
      | (.error e, d) => (.error e, d)
      | (.ok l, d) => (.ok (b :: l), d)

/-- The descriptor a running channel works on, fetched where it is not yet (R467, R469). None: it could not go on. -/
def chDesc (fu : Fuses) (c : Nat) (d : Dev) : Option Desc × Dev :=
  match (chanOf_ c d).desc with
  | some x => (some x, d)
  | none =>
    let cur := rd (MEM.CHCUR c) d
    if cur % 32 ≠ 0 then (none, chEnd c chError (inc (MEM.CHFLT c) d))
    else match descFetch fu c cur 32 d with
      | (.error (.wait, _), d) => (none, d)
      | (.error (e, va), d) => (none, chPark c e.reason false true va d)
      | (.ok b, d) => match descOf b with
        | none => (none, chEnd c chError (inc (MEM.CHFLT c) d))
        | some x => (some x, chanSet c { chanOf_ c d with desc := some x, rbuf := none } d)

/-! ## Moving bytes (Table 14-4, R468, R471) -/

/-- Byte k of what a descriptor moves, from memory, from its pattern, or from the eMMC. -/
def dmaSource (fu : Fuses) (c : Nat) (x : Desc) (k : Nat) (d : Dev) : Except Stop_ Nat × Dev :=
  if x.op = 1 then (.ok (bits x.src (8 * ((x.dst + k) % 8)) 8), d)
  else if x.op = 2 then
    if sectors ≤ x.src + k / 512 then (.error ⟨6, true, x.dst + k⟩, inc MEM.EMMCERR d)
    else (.ok (sectorByte (512 * x.src + k) d), d)
  else match chLoad fu c (x.src + k) (fun i => decide (i ≤ k ∧ k - i + 4 ≤ x.len)) d with
    | (.error e, d) => (.error ⟨e.reason, false, x.src + k⟩, d)
    | (.ok b, d) => (.ok b, d)

/-- Bytes k, k + 1, … of what a descriptor moves. -/
def dmaSources (fu : Fuses) (c : Nat) (x : Desc) : Nat → Nat → Dev → Except Stop_ (List Nat) × Dev
  | _, 0, d => (.ok [], d)
  | k, n + 1, d => match dmaSource fu c x k d with
    | (.error s, d) => (.error s, d)
    | (.ok b, d) => match dmaSources fu c x (k + 1) n d with
      | (.error s, d) => (.error s, d)
      | (.ok l, d) => (.ok (b :: l), d)

/-- Byte k taken to the eMMC: a sector goes out when it is whole (R471). -/
def dmaSector (c : Nat) (x : Desc) (k b : Nat) (d : Dev) : Dev :=
  let sec := (chanOf_ c d).sec ++ [b]
  if k % 512 = 511 then sectorWrite (x.dst + k / 512) sec (chanSet c { chanOf_ c d with sec := [] } d)
  else chanSet c { chanOf_ c d with sec := sec } d

/-- What a descriptor moves at byte k: one byte, or the aligned word of a window (log 156). What stopped it, or how many bytes it
was. -/
def dmaUnit (fu : Fuses) (c : Nat) (x : Desc) (k : Nat) (d : Dev) : Except Stop_ Nat × Dev :=
  if x.op = 3 ∧ sectors ≤ x.dst + k / 512 then (.error ⟨6, false, x.src + k⟩, inc MEM.EMMCERR d)
  else match dmaSource fu c x k d with
    | (.error s, d) => (.error s, d)
    | (.ok b, d) =>
      if x.op = 3 then (.ok 1, dmaSector c x k b d)
      else
        let no (e : TFault) : Except Stop_ Nat := .error ⟨e.reason, true, x.dst + k⟩
        match chTrans c .store (x.dst + k) d with
        | (.error e, d) => (no e, d)
        | (.ok pa, d) =>
          if inWindows pa then
            if pa % 4 ≠ 0 ∨ x.len < k + 4 then (no .bus, d)
            else match dmaSources fu c x (k + 1) 3 d with
              | (.error s, d) => (.error s, d)
              | (.ok l, d) => match mmioWrite fu (chWho c d) 4 pa (ofLe (b :: l)) d with
                | none => (no .bus, busNote (chWho c d) 4 pa d)
                | some d => (.ok 4, d)
          else match chPut fu c pa b (decide (k + 8 ≤ x.len)) d with
            | (.error e, d) => (no e, d)
            | (.ok _, d) => (.ok 1, d)

/-- Bytes moved in ascending order up to byte `stop`, CHDONE counting them, in at most so many moves. -/
def dmaBytes (fu : Fuses) (c : Nat) (x : Desc) (stop : Nat) : Nat → Dev → Option Stop_ × Dev
  | 0, d => (none, d)
  | n + 1, d =>
    if stop ≤ rd (MEM.CHDONE c) d ∨ rd (MEM.CHSTAT.STATE c) d ≠ chRun then (none, d)
    else match dmaUnit fu c x (rd (MEM.CHDONE c) d) d with
      | (.error s, d) => (some s, d)
      | (.ok m, d) => dmaBytes fu c x stop n (addTo (MEM.CHBYTES c) m (addTo (MEM.CHDONE c) m d))

/-! ## Turns (R448, R468) -/

/-- Whether a channel's descriptor waits for the eMMC host: it serves another, or a lower channel waits too. -/
def hostWaits (c : Nat) (x : Desc) (d : Dev) : Bool :=
  let wants (k : Nat) : Bool := rd (MEM.CHSTAT.STATE k) d == chRun && match (chanOf_ k d).desc with
    | some y => decide (2 ≤ y.op)
    | none => false
  decide (2 ≤ x.op) && match d.mem.host with
    | some k => k != c
    | none => (List.range c).any wants

/-- The eMMC host takes up a channel's descriptor (R448). -/
def hostOn (c : Nat) (x : Desc) (d : Dev) : Dev :=
  if 2 ≤ x.op then { d with mem := { d.mem with host := some c, ready := true } } else d

/-- A channel's turn (R468): up to 64 bytes, and none past a byte that a limit names. A descriptor is fetched first, ends with its
last byte, and stops at what stops it (R467, R469). -/
def dmaTurn (fu : Fuses) (lim : Nat → Option Nat) (c : Nat) (d : Dev) : Dev :=
  if rd (MEM.CHSTAT.STATE c) d ≠ chRun then d
  else match chDesc fu c d with
    | (none, d) => d
    | (some x, d) =>
      if (chanOf_ c d).skip then descEnd c x false d
      else if hostWaits c x d then d
      else
        let k := rd (MEM.CHDONE c) d
        match dmaBytes fu c x (min (min x.len (k + 64)) ((lim c).getD x.len)) 64 (hostOn c x d) with
        | (some s, d) => chStop c s d
        | (none, d) =>
          if rd (MEM.CHSTAT.STATE c) d = chRun ∧ x.len ≤ rd (MEM.CHDONE c) d then descEnd c x true d else d

/-- A round of turns, in channel-number order (R468). -/
def dmaRound (fu : Fuses) (lim : Nat → Option Nat) (d : Dev) : Dev := forAll (List.range 32) (dmaTurn fu lim) d

/-- Rounds, at most so many, until a condition holds. -/
def dmaUntil (fu : Fuses) (lim : Nat → Option Nat) (stop : Dev → Bool) : Nat → Dev → Dev
  | 0, d => d
  | n + 1, d => if stop d then d else dmaUntil fu lim stop n (dmaRound fu lim d)

/-- The rounds in which every descriptor in hand comes to its end, if nothing stops it. -/
def roundsFor (d : Dev) : Nat :=
  (List.range 32).foldl (fun n c => n + match (chanOf_ c d).desc with
    | some x => x.len / 64 + 1
    | none => 1) 2

/-- Whether any channel runs. -/
def anyRuns (d : Dev) : Bool := (List.range 32).any (fun c => rd (MEM.CHSTAT.STATE c) d == chRun)

/-- A channel's current descriptor worked on to its end, or to what stops it, with the turns the other channels have meanwhile. -/
def chWork (fu : Fuses) (c : Nat) (d : Dev) : Dev :=
  if rd (MEM.CHSTAT.STATE c) d ≠ chRun then d
  else match chDesc fu c d with
    | (none, d) => d
    | (some _, d) =>
      dmaUntil fu (fun _ => none) (fun d => rd (MEM.CHSTAT.STATE c) d != chRun || (chanOf_ c d).desc.isNone) (roundsFor d) d

/-- A word that a channel is about to read is struck by an uncorrectable error. -/
def chStrike (c : Nat) (acc : Acc) (va : Nat) (d : Dev) : Dev :=
  match (chTrans c acc va d).1 with
  | .ok pa => if pa < dramSize then strike (pa / 8) true d else d
  | .error _ => d

/-- A running channel meets an uncorrectable error or an eMMC error (R446, R469). In its descriptor's fetch: an error in the byte with
that number of the descriptor. Else the channel works on to byte `at_`; an error of DRAM strikes the word it moves from or to there.
Where the channel does not come to that byte, or does not read that word, it does not park. -/
def chFail (fu : Fuses) (c at_ : Nat) (emmc w desc : Bool) (d : Dev) : Dev :=
  if rd (MEM.CHSTAT.STATE c) d ≠ chRun then d
  else if desc then
    if (chanOf_ c d).desc.isSome then d
    else (chDesc fu c (chStrike c .load (rd (MEM.CHCUR c) d + at_ % 32) d)).2
  else match chDesc fu c d with
    | (none, d) => d
    | (some x, d) =>
      if x.len ≤ at_ ∨ at_ < rd (MEM.CHDONE c) d ∨ (emmc ∧ x.op < 2) ∨ (chanOf_ c d).skip then d
      else
        let d := dmaUntil fu (fun k => if k = c then some at_ else none)
          (fun d => rd (MEM.CHSTAT.STATE c) d != chRun || decide (at_ ≤ rd (MEM.CHDONE c) d)) (roundsFor d) d
        if rd (MEM.CHSTAT.STATE c) d ≠ chRun ∨ rd (MEM.CHDONE c) d ≠ at_ ∨ hostWaits c x d then d
        else
          let wr_ := if x.op = 1 ∨ x.op = 2 then true else if x.op = 3 then false else w
          let va := (if wr_ then x.dst else x.src) + at_
          if emmc then chStop c ⟨6, wr_, va⟩ (inc MEM.EMMCERR d)
          else dmaTurn fu (fun _ => none) c (chStrike c (if wr_ then .store else .load) va d)

/-! ## Commands -/

/-- DMA_DESCRIPTOR_DONE (R467). -/
def execDmaDescriptorDone (c : Fin 32) (s : State) : Out := onDev s (fun fu => whenUp MEMi (chWork fu c))

/-- DMA_PARK at a byte, for an uncorrectable error or an eMMC error (R446, R469); a fault of a translation parks the channel
as it works on. -/
def execDmaPark (c : Fin 32) (at_ : W32) (emmc wr_ desc : Bool) (s : State) : Out :=
  onDev s (fun fu => whenUp MEMi (chFail fu c at_.toNat emmc wr_ desc))

end Sys2Proof.Machine
end

