-- ==== Sys2Proof/Machine/RegRows.lean ====
section
/-! DEFINITION. Machine/RegRows.lean: reads and writes of registers that have no row of their own, and register batches
(Scope and conventions: R4–R10; Islands, straits, ferries and locks: R357–R360, R384). -/

namespace Sys2Proof.Machine

/-- A register access; of a bus error, at an address no window has among others, it says what is left: a read shows 0, a write
changes nothing (R357–R359). The exception is a core's, at its own load or store. -/
def regAccess (err : Dev → Dev) (f : Fuses → Dev → Option Dev) (s : State) : Out := onDev s (fun fu d => (f fu d).getD (err d))

/-- A read that is a bus error, and a write that is one. -/
def readErr (d : Dev) : Dev := { d with rdata := 0 }
def writeErr (a : Nat) (w : Who) (d : Dev) : Dev := { busNote w 4 a d with rdata := 0 }

/-- A 32-bit write by a command, with the ties of its raw count. -/
def writeAccess (a : BitVec 40) (v : W32) (w : Who) (s : State) : Out :=
  regAccess (writeErr a.toNat w) (fun fu d => mmioWrite fu w 4 a.toNat v.toNat (ties s.pending d)) s

/-- REGISTER_WRITE (R4, R6, R7, R11). -/
def execRegisterWrite (a : BitVec 40) (v : W32) (w : Who) (s : State) : Out := writeAccess a v w s

/-- RC_READ (R4). -/
def execRcRead (a : BitVec 40) (w : Who) (s : State) : Out :=
  regAccess readErr (fun fu => mmioRead fu w 4 a.toNat) s

/-- PAIR_LOW_READ (R9). -/
def execPairLowRead (a : BitVec 40) (w : Who) (s : State) : Out :=
  regAccess readErr (fun fu => mmioRead fu w 4 a.toNat) s

/-- PAIR_LOW_WRITE (R10). -/
def execPairLowWrite (a : BitVec 40) (v : W32) (w : Who) (s : State) : Out := writeAccess a v w s

/-- PAIR_HIGH_WRITE (R10). -/
def execPairHighWrite (a : BitVec 40) (v : W32) (w : Who) (s : State) : Out := writeAccess a v w s

/-! ## Register batches (R384) -/

/-- The window base of a receiver of batches: CTL, POS and SCH are requesters 9, 10 and 11 (Table 11-8). -/
def batchBase (r : Nat) : Nat := winBase (if r = 9 then CTLi else if r = 10 then POSi else SCHi)

/-- Whether an offset's register takes writes at a level: assigned, not read-only, not reserved to a higher level. A write to
LOCK[n] releases the lock (R377, Table 11-9). -/
def batchOk (w : Who) (a : Nat) (d : Dev) : Bool :=
  let b := if pairHigh a then a - 4 else a
  let lock := decide (winBase SCHi + 0x1000 ≤ a ∧ a < winBase SCHi + 0x1200)
  mayReach w a && (lock || (fieldsAt b).any (fun f => !(f.kind == .ro || f.kind == .rc))) &&
    !(blocked w b d && !blocked { w with lvl := .m } b d)

/-- A batch's words as address and value, none where a word's bits 31:20 are not 0 or its offset may not be written. -/
def batchWords (w : Who) (base f : Nat) (d : Dev) : Option (List (Nat × Nat)) :=
  let l := ferryWords f d
  let good (x : Nat) : Bool := bits x 20 12 == 0 && batchOk w (base + bits x 0 20) d
  if l.all good then some (l.map (fun x => (base + bits x 0 20, bits x 32 32))) else none

/-- A full ferry whose message waits for a receiver, its doorbell bit unmasked (R383). -/
def batchWaits (r f : Nat) (d : Dev) : Bool :=
  let v := ferryOf f d
  v.full && ferryRecv f v.hdr.toNat d == r && !bit (rd (BELL.DBMASK r) d) (bits v.hdr.toNat 0 5)

/-- The island takes the message and applies all of it, or none and counts BATCHERR (R384). -/
def batchTake (fu : Fuses) (f : Nat) (d : Dev) : Dev :=
  let hdr := (ferryOf f d).hdr.toNat
  let r := ferryRecv f hdr d
  let w : Who := ⟨Fin.ofNat 16 (bits hdr 10 5), if bit hdr 20 then .m else .s⟩
  let ws := batchWords w (batchBase r) f d
  let d := ferryTaken f d
  let d := match ws with
    | none => inc (BELL.BATCHERR r) d
    | some l => forAll l (fun x d => regWrite fu w x.1 (BitVec.ofNat 32 x.2) d) d
  if (List.range 16).any (fun g => batchWaits r g d) then d else { d with batchDue := d.batchDue.filter (· ≠ r) }

/-- REGISTER_BATCH: the island a rung doorbell reached takes one of its messages (R383, R384). -/
def execRegisterBatch (f : Fin 16) (s : State) : Out :=
  onDev s (fun fu d =>
    let r := ferryRecv f (ferryOf f d).hdr.toNat d
    whenB (batchWaits r f d && d.batchDue.contains r && isUp (recvIsl r) d) (batchTake fu f) d)

end Sys2Proof.Machine
end

