-- ==== Sys2Proof/Machine/Dump.lean ====
section
/-! DEFINITION. Machine/Dump.lean: the post-mortem dump: how a capture goes through the islands, header, sections, blocks, and the end
of a capture (Start-up, moss service, resets and low power: Post-mortem dump). -/

namespace Sys2Proof.Config
open Sys2Proof.Machine

/-! ## What the spec leaves open of a capture (DESIGN CHOICE, log 89) -/

/-- How a core's context fills its 2 KiB: the layout is not stated. -/
opaque coreImage : Core → List Byte

/-- L2 with its tags, by the raw count: which lines it holds is no state of the model, and the layout is not stated. -/
opaque l2Image : Nat → List Byte

/-- A strait queue with its END and PRI marks and its pointers: the layout is not stated. -/
opaque queueImage : Nat → Queue → List Byte

/-- How long an island's section takes, by the count at which the capture started: within R500's limits it is not stated. -/
opaque capTime : Nat → Nat → Nat

/-- How many blocks of an island's section are done when its time is up, where it is cut short (Table 15-10). -/
opaque capCut : Nat → Nat → Option Nat

/-- Whether a word of a memory or queue image cannot be corrected: by the capture, the block's KIND and number, and the word. -/
opaque capLost : Nat → Nat → Nat → Nat → Bool

end Sys2Proof.Config

namespace Sys2Proof.Machine

/-! ## Blocks (Table 15-11) -/

/-- A block: its KIND, the core, queue or memory number, its source, and its data. -/
structure Block where
  kind  : Nat
  index : Nat
  src   : Nat
  data  : List Nat
  deriving DecidableEq, Repr

/-- A block as bytes, padded to 16. -/
def Block.bytes (b : Block) : List Nat :=
  let l := leBytes 2 b.kind ++ leBytes 2 b.index ++ leBytes 4 b.data.length ++ leBytes 8 b.src ++ b.data
  padTo ((l.length + 15) / 16 * 16) l

/-- Two words of a window, the upper one read after the lower one, so that a pair reads whole (R10). -/
def pairImage (fu : Fuses) (a : Nat) (d : Dev) : List Nat :=
  let low := regRead fu ⟨0, .m⟩ a d
  let high := regRead fu ⟨0, .m⟩ (a + 4) low
  leBytes 4 (low.rdata.toNat % 2 ^ 32) ++ leBytes 4 (high.rdata.toNat % 2 ^ 32)

/-- An island's register window as a capture reads it: every word by its register's value, with no side effect; unassigned
offsets 0 (R500). -/
def windowBlock (fu : Fuses) (i : Nat) (d : Dev) : Block :=
  ⟨1, 0, winBase i, (List.range (2 ^ 17)).flatMap (fun k => pairImage fu (winBase i + 8 * k) d)⟩

/-- An image of a stated length. -/
def fit (n : Nat) (l : List Byte) : List Nat := padTo n ((nats l).take n)

/-- The words of an image that cannot be corrected read as 0. -/
def lostWords (start : Nat) (b : Block) : Block :=
  if b.kind = 1 then b
  else { b with data := (b.data.zipIdx).map (fun x => if Config.capLost start b.kind b.index (x.2 / 8) then 0 else x.1) }

/-- Whether a block has such a word. -/
def hasLost (start : Nat) (b : Block) : Bool :=
  b.kind != 1 && (List.range ((b.data.length + 7) / 8)).any (Config.capLost start b.kind b.index)

/-- The queues in an island's section: those it consumes; the queue of a consumer in firmware stands with the island that serves its
window (DESIGN CHOICE, log 89). -/
def queuesAt (i : Nat) : List Nat :=
  (List.range 48).filter (fun q => match qCons q with
    | .hw j => i == j
    | .fw => qServer q == i
    | _ => false)

/-- The blocks of an island's section: its window; APP's cores and L2; SCH's SRAM; the queues. -/
def blocksOf (fu : Fuses) (i : Nat) (d : Dev) : List Block :=
  let own : List Block :=
    if i = APPi then
      (List.range 8).map (fun n => ⟨3, n, 0, fit 2048 (Config.coreImage (coreOf n d))⟩) ++
        [⟨4, 0, 0, fit (2 ^ 23) (Config.l2Image d.raw)⟩]
    else if i = SCHi then [⟨2, 0, sBase, (List.range 0x180000).map (fun k => sramByte k d)⟩]
    else []
  windowBlock fu i d :: own ++ (queuesAt i).map (fun q => ⟨5, q, 0, nats (Config.queueImage q (qGet q d))⟩)

/-! ## Sections (Table 15-10) -/

/-- The islands that a capture reads live (R500). -/
def liveIsl (i : Nat) : Bool := [AONi, MEMi, CTLi, NETi, RADi].contains i

/-- The blocks that fit in a number of bytes. -/
def blocksIn : Nat → List Block → List Block
  | _, [] => []
  | room, b :: l => if b.bytes.length ≤ room then b :: blocksIn (room - b.bytes.length) l else []

/-- The most that a dump holds: 32 MiB (R500). -/
def dumpMax : Nat := 2 ^ 25

/-- A section in at most so many bytes: the blocks taken before its time was up, and those that fit. -/
def dumpSection (fu : Fuses) (start i room : Nat) (d : Dev) : List Nat :=
  let all := blocksOf fu i d
  let got := blocksIn (room - 32) (all.take ((Config.capCut start i).getD all.length))
  let c := (got.map (fun b => (lostWords start b).bytes)).flatten
  [i, b2n (liveIsl i) + 2 * b2n (got.length != all.length) + 4 * b2n (got.any (hasLost start))] ++ leBytes 2 got.length ++
    leBytes 4 c.length ++ leBytes 8 d.aon.capSec ++ leBytes 8 d.raw ++ leBytes 4 (crc32 c) ++ leBytes 4 0 ++ c

/-- The present section is over: its own time, which is at most 3 ms, or the 20 ms of the whole capture (R500). -/
def sectionOver (start : Nat) (d : Dev) : Bool :=
  decide (d.aon.capSec + min (Config.capTime start d.aon.capIsl) (3 * rawPerMs) ≤ d.raw ∨ start + 20 * rawPerMs ≤ d.raw)

/-- A section written behind those before it, and the next one begun. -/
def sectionEnd (fu : Fuses) (start : Nat) (d0 : Dev) : Dev :=
  let at_ := 64 + d0.aon.capLen
  let sec := dumpSection fu start d0.aon.capIsl (dumpMax - at_ - 32 * (8 - d0.aon.capIsl)) d0
  let d := spanWrite (rd AON.DUMPBASE d0 + at_) sec d0
  { d with aon := { d.aon with capIsl := d.aon.capIsl + 1, capSec := d.raw, capLen := d.aon.capLen + sec.length } }

/-- A capture as time passes: the sections that are over, in the order of the islands (R500). -/
def captureTime (fu : Fuses) (d0 : Dev) : Dev :=
  match d0.aon.capFrom with
  | none => d0
  | some start => forAll (List.range 9) (fun _ d => if d.aon.capIsl < 9 ∧ sectionOver start d then sectionEnd fu start d else d) d0

/-! ## The whole dump -/

/-- The dump header (Table 15-9). -/
def dumpHeader (total start : Nat) (d : Dev) : List Nat :=
  let secver := match d.app.img with
    | some im => im.secver
    | none => 0
  let h := leBytes 4 0x44554D50 ++ leBytes 2 1 ++ leBytes 2 9 ++ leBytes 4 total ++ [rd AON.DUMPCTL.CAUSE d, d.aon.capRq, 0, 0] ++
    leBytes 8 start ++ leBytes 8 (ofS 64 (wallAt start d)) ++ leBytes 8 (ofS 64 (cycleAt start d)) ++ leBytes 4 (rstCause d) ++
    leBytes 4 secver ++ List.replicate 12 0
  h ++ leBytes 4 (crc32 h)

/-- The header before the sections, the dump's length, and VALID in place of BUSY (R447, R500, R501). -/
def dumpStore (start : Nat) (d0 : Dev) : Dev :=
  let total := 64 + d0.aon.capLen
  let d := spanWrite (rd AON.DUMPBASE d0) (dumpHeader total start d0) d0
  let d := wr MEM.CAPLEN total (wrB MEM.CAPSTAT.BUSY false (raise AON.DUMPCTL.VALID (wrB AON.DUMPCTL.BUSY false d)))
  { d with aon := { d.aon with capFrom := none } }

/-- The capture completes once its nine sections stand: the dump is valid, and a watchdog's WDR or a waiting reset follows
(R492, R499–R501). -/
def captureDone (d0 : Dev) : Dev :=
  match d0.aon.capFrom with
  | none => d0
  | some start =>
    if d0.aon.capIsl < 9 then d0
    else
      let d := dumpStore start d0
      if rd AON.DUMPCTL.CAUSE d0 = 2 then wdr (raise AON.RSTCAUSE.WDCAP d) else serveWaiting d

/-- CAPTURE_DONE (R500). -/
def execCaptureDone (s : State) : Out := onAon s (fun _ => captureDone)

end Sys2Proof.Machine
end

