-- ==== Sys2Proof/Machine/LichenRows.lean ====
section
/-! DEFINITION. Machine/LichenRows.lean: the events and commands of Lichen. -/

namespace Sys2Proof.Machine

/-- LICHEN_RECORD: Lichen takes the next packet, SQ34 first (R537, R539, R540, R545, R546). -/
def execLichenRecord (s : State) : Out := onAon s (fun _ => lTake)

/-- LICHEN_WRITE_DONE: both program operations of a record are complete (R538, R544). -/
def execLichenWriteDone (s : State) : Out := onAon s (fun _ => lWriteDone)

/-- LICHEN_SCAN: the start-up scan (R541–R543). -/
def execLichenScan (s : State) : Out := onAon s (fun _ => lScan)

/-- BUCKET_REFILL: a bucket holds a whole token again (R546); none is the default bucket. -/
def execBucketRefill (b : Option (Fin 256)) (s : State) : Out := onAon s (fun _ => lRefill (b.map (·.val)))

/-- LICHEN_READ: a write of LRDIDX reads a slot (R548, R553). -/
def execLichenRead (idx : BitVec 21) (w : Who) (s : State) : Out :=
  onAon s (fun _ => whenB (w.lvl != .u) (lRead idx.toNat))

/-- DIGEST_READY: the running digest is complete (R550). -/
def execDigestReady (s : State) : Out := onAon s (fun _ => lDigReady)

/-- BLOCK_ERASE_DONE: a block erase completes (R551, R552). -/
def execBlockEraseDone (s : State) : Out := onAon s (fun _ => lEraseDone)

end Sys2Proof.Machine
end

