-- ==== Sys2Proof/Machine/NetRows.lean ====
section
/-! DEFINITION. Machine/NetRows.lean: the commands and events of the drive ring. -/

namespace Sys2Proof.Machine

/-- An effect on NET: nothing happens while NET is down (R357). -/
def onNet (s : State) (f : Dev → Dev) : Out := onDev s (fun _ => whenUp NETi f)

/-- RING_CYCLE_START: CYCLE reaches a cycle start; the round trip the last cycle's copy A took, if it came back (R268, R270,
R273–R275, R278, R279, R285). -/
def execRingCycleStart (rtt : Option W32) (s : State) : Out := onNet s (ringCycle (rtt.map BitVec.toNat))

/-- TEST_DEADLINE: whether the test frames sent from A and from B have passed (R268, R269, R271). -/
def execTestDeadline (aPass bPass : Bool) (s : State) : Out := onNet s (testDeadline aPass bPass)

/-- PORT_LINK_CHANGE: a port has no link (0), 100BASE-TX (1) or 1000BASE-T (2) (R16, R266, R269). -/
def execPortLinkChange (port : Fin 2) (link : Fin 3) (s : State) : Out := onAon s (fun _ => linkChange port link)

/-- A frame of the ring's EtherType; of another it is no frame of the ring. -/
def ringFrame (f : PortFrame) (g : Dev → Dev) (d : Dev) : Dev := whenB (f.etype == 0x88B5) g d

/-- INPUT_FRAME at a port, and whether its FCS is right (R276, R279, R280, R282, R284, R285). -/
def execInputFrame (f : PortFrame) (fcs : Bool) (s : State) : Out :=
  onNet s (ringFrame f (inputFrame f.port f.dst.toNat f.src.toNat (f.body.map BitVec.toNat) fcs))

/-- INPUT_DEADLINE (R276, R284). -/
def execInputDeadline (s : State) : Out := onNet s inputDeadline

/-- CYCEN_WRITE (R273, R276). -/
def execCycenWrite (v : Bool) (w : Who) (s : State) : Out := onNet s (whenB (atS w) (cycenWrite v))

/-- RINGEN_WRITE (R288). -/
def execRingenWrite (v : Bool) (w : Who) (s : State) : Out := onNet s (whenB (atS w) (ringenWrite v))

/-- HOLD_FRAME: 2 ms of moss forwarding have passed (R288). -/
def execHoldFrame (s : State) : Out := onNet s holdFrame

/-- ORDINARY_FRAME received, or firmware's next to send (R56, R57, R271, R272, R288, R291, R472). -/
def execOrdinaryFrame (f : Option OrdFrame) (s : State) : Out := onNet s (ordinary f)

/-- ADDRESS: a second of admission (R285, R287, R289). -/
def execAddress (s : State) : Out := onNet s addressAll

/-- An ANNOUNCE at its port (R289, R290). -/
def announceAt (f : PortFrame) (d : Dev) : Dev :=
  ringFrame f (announce f.port f.dst.toNat f.src.toNat (f.body.map BitVec.toNat)) d

/-- The ANNOUNCE frames of port A among the commands of this cycle. -/
def announcesA (l : List Instr) : List PortFrame :=
  l.filterMap (fun i => match i with
    | .announce g => if g.port = 0 then some g else none
    | _ => none)

/-- They are taken now by a running ring, unless they have been. -/
def announceFirst (l : List Instr) (d : Dev) : Dev :=
  let fs := announcesA l
  if d.net.annDone ≠ 0 ∨ on NET.NETCTL.RINGEN d = false then d
  else forAll fs announceAt { d with net := { d.net with annDone := fs.length } }

/-- One that was taken before its turn. -/
def announceOnce (f : PortFrame) (d : Dev) : Dev :=
  if d.net.annDone = 0 then announceAt f d else { d with net := { d.net with annDone := d.net.annDone - 1 } }

/-- ANNOUNCE received (R289, R290): those that arrive in one cycle are taken in port order, so one at port B lets those that wait
at port A go first, and their own turn then brings nothing more. -/
def execAnnounce (f : PortFrame) (s : State) : Out :=
  onNet s (fun d => if f.port = 0 then announceOnce f d else announceAt f (announceFirst s.pending d))

end Sys2Proof.Machine
end

