-- ==== Sys2Proof/Machine/PretanMem.lean ====
section
/-! DEFINITION. Machine/PretanMem.lean: Pretan's loads, stores, atomics, vector memory and vector stream instructions
(Pretan instruction set: Memory order and atomics, Vector stream instructions). -/

namespace Sys2Proof.Machine

/-! ## Accesses of a core (R357–R359, R388, R446, R447, R449–R452) -/

/-- Who a core is on the windows. -/
def coreWho (n : Nat) (c : Core) : Who := ⟨Fin.ofNat 16 n, c.x.lvl⟩

/-- A window read of any width: the reservation SRAM takes every width (R358). -/
def winLoad (fu : Fuses) (w : Who) (nb pa : Nat) (d : Dev) : Option (Nat × Dev) :=
  if winOf pa = .sram then
    (if mayReach w pa && isUp SCHi d then some (sramRead (pa - sBase) nb d, d) else none)
  else (mmioRead fu w nb pa d).map (fun r => (r.rdata.toNat, r))

/-- A load of nb bytes: its value, an exception, or (none) a wait. -/
def loadAt (fu : Fuses) (n : Nat) (c : Core) (nb va : Nat) (e : Ecc) (d : Dev) : Except (Option Trap) Nat × Dev :=
  match c.reach .load va d with
  | (.error x, d) => (.error (faultTrap false false va x), d)
  | (.ok r, d) =>
    if r.pa + nb ≤ dramSize then
      match eccRead r.pa nb e d with
      | (none, d) => (.error (some ⟨xEcc, va, false⟩), d)
      | (some b, d) => (.ok (ofLe b), used r .load d)
    else if inRom r.pa nb then (.ok (ofLe ((List.range nb).map (fun i => romByte (r.pa + i)))), used r .load d)
    else match winLoad fu (coreWho n c) nb r.pa d with
      | none => (.error (some ⟨xBus, va, false⟩), d)
      | some x => (.ok x.1, used r .load x.2)

/-- A store of nb bytes. With it performed in DRAM the instruction comes to what `fin` says; a store to a window takes the
core as `cw` has it first, since the write may act on the core. -/
def storeAt (fu : Fuses) (n : Nat) (c : Core) (nb va v : Nat) (e : Ecc) (cw : Core) (fin : Dev → IRes) (d : Dev) : IRes :=
  match c.reach .store va d with
  | (.error x, d) => match faultTrap false true va x with
    | some t => .trap t c d
    | none => .wait d
  | (.ok r, d) =>
    if r.pa + nb ≤ dramSize then
      match eccOpen r.pa nb e d with
      | (none, d) => .trap ⟨xEcc, va, true⟩ c d
      | (some a, d) => fin (dramWrite a (leBytes nb v) (used r .store d))
    else match mmioWrite fu (coreWho n c) nb r.pa v (coreSet n cw (used r .store d)) with
      | none => .trap ⟨xBus, va, true⟩ c (busNote (coreWho n c) nb r.pa d)
      | some d => .settled d

/-- A load instruction of nb bytes (R388). -/
def loadOp (fu : Fuses) (nb : Nat) (base : RegNo) (off : BitVec 12) (e : Ecc) (put : Nat → Core → Core)
    (n _w : Nat) (c : Core) (d : Dev) : IRes :=
  let va := memAddr base off c
  if va % nb ≠ 0 then .trap ⟨xAlign, va, false⟩ c d
  else match loadAt fu n c nb va e d with
    | (.error (some t), d) => .trap t c d
    | (.error none, d) => .wait d
    | (.ok v, d) => .done (put v c).next d

/-- A store instruction of nb bytes (R388). -/
def storeOp (fu : Fuses) (nb : Nat) (base : RegNo) (off : BitVec 12) (e : Ecc) (v : Core → Nat)
    (n _w : Nat) (c : Core) (d : Dev) : IRes :=
  let va := memAddr base off c
  if va % nb ≠ 0 then .trap ⟨xAlign, va, false⟩ c d
  else storeAt fu n c nb va (v c) e { c.next with iret := c.iret + 1 } (fun d => .done c.next d) d

/-- A loaded value sign-extended, or zero-extended, into a g register. -/
def putS (rd : RegNo) (b v : Nat) (c : Core) : Core := c.put rd (BitVec.ofInt 64 (toS b v))
def putU (rd : RegNo) (v : Nat) (c : Core) : Core := c.put rd (BitVec.ofNat 64 v)

/-- LB. -/
def execLb (n : CoreNo) (rd base : RegNo) (off : BitVec 12) (e : Ecc) (s : State) : Out :=
  issueF (.m 0x10 rd base off) n s (fun fu => loadOp fu 1 base off e (putS rd 8) n)

/-- LBU. -/
def execLbu (n : CoreNo) (rd base : RegNo) (off : BitVec 12) (e : Ecc) (s : State) : Out :=
  issueF (.m 0x10 rd base off) n s (fun fu => loadOp fu 1 base off e (putU rd) n)

/-- LH. -/
def execLh (n : CoreNo) (rd base : RegNo) (off : BitVec 12) (e : Ecc) (s : State) : Out :=
  issueF (.m 0x10 rd base off) n s (fun fu => loadOp fu 2 base off e (putS rd 16) n)

/-- LHU. -/
def execLhu (n : CoreNo) (rd base : RegNo) (off : BitVec 12) (e : Ecc) (s : State) : Out :=
  issueF (.m 0x10 rd base off) n s (fun fu => loadOp fu 2 base off e (putU rd) n)

/-- LW. -/
def execLw (n : CoreNo) (rd base : RegNo) (off : BitVec 12) (e : Ecc) (s : State) : Out :=
  issueF (.m 0x10 rd base off) n s (fun fu => loadOp fu 4 base off e (putS rd 32) n)

/-- LWU. -/
def execLwu (n : CoreNo) (rd base : RegNo) (off : BitVec 12) (e : Ecc) (s : State) : Out :=
  issueF (.m 0x10 rd base off) n s (fun fu => loadOp fu 4 base off e (putU rd) n)

/-- LD. -/
def execLd (n : CoreNo) (rd base : RegNo) (off : BitVec 12) (e : Ecc) (s : State) : Out :=
  issueF (.m 0x10 rd base off) n s (fun fu => loadOp fu 8 base off e (putU rd) n)

/-- SB. -/
def execSb (n : CoreNo) (rd base : RegNo) (off : BitVec 12) (e : Ecc) (s : State) : Out :=
  issueW (.m 0x11 rd base off) n s (fun fu => storeOp fu 1 base off e (fun c => (c.get rd).toNat % 2 ^ 8) n)

/-- SH. -/
def execSh (n : CoreNo) (rd base : RegNo) (off : BitVec 12) (e : Ecc) (s : State) : Out :=
  issueW (.m 0x11 rd base off) n s (fun fu => storeOp fu 2 base off e (fun c => (c.get rd).toNat % 2 ^ 16) n)

/-- SW. -/
def execSw (n : CoreNo) (rd base : RegNo) (off : BitVec 12) (e : Ecc) (s : State) : Out :=
  issueW (.m 0x11 rd base off) n s (fun fu => storeOp fu 4 base off e (fun c => (c.get rd).toNat % 2 ^ 32) n)

/-- SD. -/
def execSd (n : CoreNo) (rd base : RegNo) (off : BitVec 12) (e : Ecc) (s : State) : Out :=
  issueW (.m 0x11 rd base off) n s (fun fu => storeOp fu 8 base off e (fun c => (c.get rd).toNat) n)

/-- VLD: 32 bytes, 32-byte aligned (R388). -/
def execVld (n : CoreNo) (vd base : RegNo) (off : BitVec 12) (e : Ecc) (s : State) : Out :=
  issueF (.m 0x14 vd base off) n s (fun fu => loadOp fu 32 base off e (fun v c => c.putVec vd (BitVec.ofNat 256 v)) n)

/-- VST: 32 bytes, 32-byte aligned (R388). -/
def execVst (n : CoreNo) (vd base : RegNo) (off : BitVec 12) (e : Ecc) (s : State) : Out :=
  issueW (.m 0x14 vd base off) n s (fun fu => storeOp fu 32 base off e (fun c => (c.vec vd).toNat) n)

/-! ## Atomics (R391, R392, Table 12-3) -/

/-- An exception of an atomic: whether ESTAT.W calls it a write is not stated, and free (log 3). -/
def atomTrap (t : Trap) (c : Core) (d : Dev) : IRes := .trap { t with w := bit (freeOf d).toNat 0 } c (drawn d)

/-- An atomic: `new` gives the word to write from the old one and rd, or none to leave memory as it is. -/
def atomOp (rd rs rt : RegNo) (dbl : Bool) (e : Ecc) (new : Nat → Nat → Nat → Option Nat)
    (_ : Nat) (c : Core) (d : Dev) : IRes :=
  let nb := if dbl then 8 else 4
  let va := (c.get rs).toNat
  let x := (c.get rd).toNat % 2 ^ (8 * nb)
  let y := (c.get rt).toNat % 2 ^ (8 * nb)
  if va % nb ≠ 0 then .trap ⟨xAlign, va, false⟩ c d
  else match c.reach .atomic va d with
    | (.error x, d) => match faultTrap false true va x with
      | some t => atomTrap t c d
      | none => .wait d
    | (.ok r, d) =>
      if r.nc ∨ dramSize < r.pa + nb then atomTrap ⟨xBus, va, true⟩ c d
      else match eccRead r.pa nb e d with
        | (none, d) => atomTrap ⟨xEcc, va, true⟩ c d
        | (some b, d1) =>
          let old := ofLe b
          let d2 := used r .atomic d1
          .done (putU rd old c).next (match new old x y with
            | some v => dramWrite (movedTo r.pa (struck (r.pa / 8) e d) d1) (leBytes nb (v % 2 ^ (8 * nb))) d2
            | none => d2)

/-- AADD. With one core's instructions in order, ACQ and REL ask for nothing more (R390). -/
def execAadd (n : CoreNo) (rd rs rt : RegNo) (dbl acq rel : Bool) (e : Ecc) (s : State) : Out :=
  issue ⟨0x12, [(21, 5, rd), (16, 5, rs), (11, 5, rt), (8, 3, 0), (7, 1, b2n dbl), (6, 1, b2n acq), (5, 1, b2n rel)]⟩ n s
    (atomOp rd rs rt dbl e (fun old _ y => some (old + y)))

/-- ASWP. -/
def execAswp (n : CoreNo) (rd rs rt : RegNo) (dbl acq rel : Bool) (e : Ecc) (s : State) : Out :=
  issue ⟨0x12, [(21, 5, rd), (16, 5, rs), (11, 5, rt), (8, 3, 1), (7, 1, b2n dbl), (6, 1, b2n acq), (5, 1, b2n rel)]⟩ n s
    (atomOp rd rs rt dbl e (fun _ _ y => some y))

/-- ACAS. -/
def execAcas (n : CoreNo) (rd rs rt : RegNo) (dbl acq rel : Bool) (e : Ecc) (s : State) : Out :=
  issue ⟨0x12, [(21, 5, rd), (16, 5, rs), (11, 5, rt), (8, 3, 2), (7, 1, b2n dbl), (6, 1, b2n acq), (5, 1, b2n rel)]⟩ n s
    (atomOp rd rs rt dbl e (fun old x y => if old = x then some y else none))

/-! ## Vector streams (R401, R402, Tables 12-4 and 12-5) -/

/-- What one element comes to: the next, an exception, a wait, or a store to a window that has seen to the core itself. -/
inductive SStep where
  | next (c : Core) (d : Dev)
  | trap (t : Trap) (d : Dev)
  | wait (d : Dev)
  | gone (d : Dev)

/-- Elements one by one, at most k of them before a pre-emption point is taken (R401, R413). What ECC finds concerns the
first. -/
def streamLoop (step : Ecc → Core → Dev → SStep) (n : Nat) : Nat → Ecc → Core → Dev → IRes
  | 0, _, c, d => if n ≤ c.x.residx then .done (c.res 0).next d else .part c d
  | k + 1, e, c, d =>
    if n ≤ c.x.residx then .done (c.res 0).next d
    else match step e c d with
      | .next c d => streamLoop step n k .clean c d
      | .trap t d => .trap t c d
      | .wait d => .part c d
      | .gone d => .settled d

/-- One element loaded, and what follows from it. -/
def elemLoad (fu : Fuses) (n nb va : Nat) (e : Ecc) (c : Core) (d : Dev) (f : Nat → Dev → SStep) : SStep :=
  match loadAt fu n c nb va e d with
  | (.error (some t), d) => .trap t d
  | (.error none, d) => .wait d
  | (.ok v, d) => f v d

/-- One element stored, which completes element RESIDX. -/
def elemStore (fu : Fuses) (n nb va v : Nat) (e : Ecc) (c c' : Core) (d : Dev) : SStep :=
  match storeAt fu n c nb va v e (c'.res (c.x.residx + 1)) (fun d => .done (c'.res (c.x.residx + 1)) d) d with
  | .done c d => .next c d
  | .trap t _ d => .trap t d
  | .settled d => .gone d
  | .part _ d => .wait d
  | .after _ _ d => .wait d
  | .wait d => .wait d

/-- An element's result, and the core with its sticky flags; an enabled trap comes before the result is written. -/
def elemRes (t : VTy) (c : Core) (fl : FRes) (d : Dev) (f : Nat → Core → SStep) : SStep :=
  if vIsF t ∧ fl.fl &&& bits c.x.fpcsr.toNat 16 5 ≠ 0 then .trap ⟨xFp, fl.fl, false⟩ d
  else f (fl.v % 2 ^ (vWidth t)) (if vIsF t then c.sticky fl.fl else c)

/-- a × b + x with one rounding, or wrapping; and a × b. -/
def elemMulAdd (t : VTy) (c : Core) (a b x : Nat) : FRes :=
  if vIsF t then fFma (vFmt t) c.rnd a b x else { v := a * b + x }
def elemMul (t : VTy) (c : Core) (a b : Nat) : FRes := if vIsF t then fMul (vFmt t) c.rnd a b else { v := a * b }

/-- Element i of an array. -/
def elemAt (t : VTy) (base : W64) (i : Nat) : Nat := (base + BitVec.ofNat 64 (vBytes t * i)).toNat

/-- A stream instruction: the legal types, its bases, and its element. -/
def streamOp (legal : Bool) (vb : RegNo) (t : VTy) (count : Nat) (e : Ecc) (bases : Core → List W64)
    (step : Nat → W64 → Ecc → Core → Dev → SStep) (w : Nat) (c : Core) (d : Dev) : IRes :=
  if vb = 31 ∨ !legal then .trap ⟨xIllegal, w, false⟩ c d
  else
    let n := (c.get vb).toNat % 2 ^ 40
    if n ≤ c.x.residx then .done (c.res 0).next d
    else match (bases c).find? (fun b => b.toNat % vBytes t ≠ 0) with
      | some b => .trap ⟨xAlign, b.toNat, false⟩ c d
      | none => streamLoop (fun e c d => step c.x.residx (c.get (vb.val + 1)) e c d) n count e c d

/-- VSCPY. -/
def execVscpy (n : CoreNo) (vd va vb : RegNo) (ty : VTy) (count : Nat) (e : Ecc) (s : State) : Out :=
  issueW (.stream 0 vd va vb ty) n s (fun fu w => streamOp true vb ty count e (fun c => [c.get vd, c.get va]) (fun i _ e c d =>
    elemLoad fu n (vBytes ty) (elemAt ty (c.get va) i) e c d (fun v d =>
      elemStore fu n (vBytes ty) (elemAt ty (c.get vd) i) v .clean c c d)) w)

/-- VSFILL. -/
def execVsfill (n : CoreNo) (vd vb : RegNo) (ty : VTy) (count : Nat) (e : Ecc) (s : State) : Out :=
  issueW (.stream 1 vd 0 vb ty) n s (fun fu w => streamOp true vb ty count e (fun c => [c.get vd]) (fun i x e c d =>
    elemStore fu n (vBytes ty) (elemAt ty (c.get vd) i) (x.toNat % 2 ^ (vWidth ty)) e c c d) w)

/-- VSAXPY. -/
def execVsaxpy (n : CoreNo) (vd va vb : RegNo) (ty : VTy) (count : Nat) (e : Ecc) (s : State) : Out :=
  issueW (.stream 2 vd va vb ty) n s
    (fun fu w => streamOp (vIsWide ty) vb ty count e (fun c => [c.get vd, c.get va]) (fun i x e c d =>
    elemLoad fu n (vBytes ty) (elemAt ty (c.get va) i) e c d (fun xi d =>
      elemLoad fu n (vBytes ty) (elemAt ty (c.get vd) i) .clean c d (fun yi d =>
        elemRes ty c (elemMulAdd ty c (x.toNat % 2 ^ (vWidth ty)) xi yi) d (fun v c' =>
          elemStore fu n (vBytes ty) (elemAt ty (c.get vd) i) v .clean c c' d)))) w)

/-- VSSCAL. -/
def execVsscal (n : CoreNo) (vd vb : RegNo) (ty : VTy) (count : Nat) (e : Ecc) (s : State) : Out :=
  issueW (.stream 3 vd 0 vb ty) n s (fun fu w => streamOp (vIsWide ty) vb ty count e (fun c => [c.get vd]) (fun i x e c d =>
    elemLoad fu n (vBytes ty) (elemAt ty (c.get vd) i) e c d (fun xi d =>
      elemRes ty c (elemMul ty c (x.toNat % 2 ^ (vWidth ty)) xi) d (fun v c' =>
        elemStore fu n (vBytes ty) (elemAt ty (c.get vd) i) v .clean c c' d))) w)

/-- A vector with one element replaced. -/
def setLane (t : VTy) (x : BitVec 256) (k v : Nat) : BitVec 256 :=
  ofLanes t ((List.range (vLanes t)).map (fun j => if j = k then v else lane t x j))

/-- VSDOT. -/
def execVsdot (n : CoreNo) (vd va vb : RegNo) (ty : VTy) (count : Nat) (e : Ecc) (s : State) : Out :=
  issueF (.stream 4 vd va vb ty) n s
    (fun fu w => streamOp (vIsWide ty) vb ty count e (fun c => [c.get va, c.get (vb.val + 1)]) (fun i y e c d =>
    elemLoad fu n (vBytes ty) (elemAt ty (c.get va) i) e c d (fun xi d =>
      elemLoad fu n (vBytes ty) (elemAt ty y i) .clean c d (fun yi d =>
        let k := i % vLanes ty
        elemRes ty c (elemMulAdd ty c xi yi (lane ty (c.vec vd) k)) d (fun v c' =>
          .next ((c'.putVec vd (setLane ty (c.vec vd) k v)).res (i + 1)) d)))) w)

end Sys2Proof.Machine
end

