-- ==== Sys2Proof/Machine/Dispatch.lean ====
section
/-! DEFINITION. Machine/Dispatch.lean: one arm per command. -/

namespace Sys2Proof.Machine

def exec (i : Instr) (s : State) : Host.Outcome State Fault Refusal :=
  match i with
  | .registerWrite a v w => Sys2Proof.Machine.execRegisterWrite a v w s
  | .rcRead a w => Sys2Proof.Machine.execRcRead a w s
  | .pairLowRead a w => Sys2Proof.Machine.execPairLowRead a w s
  | .pairLowWrite a v w => Sys2Proof.Machine.execPairLowWrite a v w s
  | .pairHighWrite a v w => Sys2Proof.Machine.execPairHighWrite a v w s
  | .powerGood a b => Sys2Proof.Machine.execPowerGood a b s
  | .powerGrantLow a b => Sys2Proof.Machine.execPowerGrantLow a b s
  | .portPowerLoss a b => Sys2Proof.Machine.execPortPowerLoss a b s
  | .restore w => Sys2Proof.Machine.execRestore w s
  | .brownOut rail => Sys2Proof.Machine.execBrownOut rail s
  | .j6FilterChange chB closed => Sys2Proof.Machine.execJ6FilterChange chB closed s
  | .testWindowCheck chB own other before after => Sys2Proof.Machine.execTestWindowCheck chB own other before after s
  | .stopDiscrepancy => Sys2Proof.Machine.execStopDiscrepancy s
  | .permitStuck => Sys2Proof.Machine.execPermitStuck s
  | .permitOvld => Sys2Proof.Machine.execPermitOvld s
  | .tpulseOvld => Sys2Proof.Machine.execTpulseOvld s
  | .povclr w => Sys2Proof.Machine.execPovclr w s
  | .tpovclr w => Sys2Proof.Machine.execTpovclr w s
  | .tpen v w => Sys2Proof.Machine.execTpen v w s
  | .antFault cur => Sys2Proof.Machine.execAntFault cur s
  | .biasRetry cur => Sys2Proof.Machine.execBiasRetry cur s
  | .tsnap => Sys2Proof.Machine.execTsnap s
  | .rarm onWall => Sys2Proof.Machine.execRarm onWall s
  | .rateChange onWall => Sys2Proof.Machine.execRateChange onWall s
  | .wallCorrection src fw amt => Sys2Proof.Machine.execWallCorrection src fw amt s
  | .slewEnd => Sys2Proof.Machine.execSlewEnd s
  | .stepacc => Sys2Proof.Machine.execStepacc s
  | .wallHoldover => Sys2Proof.Machine.execWallHoldover s
  | .srcChange src => Sys2Proof.Machine.execSrcChange src s
  | .cycleFollow => Sys2Proof.Machine.execCycleFollow s
  | .stepenWrite v => Sys2Proof.Machine.execStepenWrite v s
  | .coffWrite v => Sys2Proof.Machine.execCoffWrite v s
  | .trigctlWrite n v => Sys2Proof.Machine.execTrigctlWrite n v s
  | .triggerFire n => Sys2Proof.Machine.execTriggerFire n s
  | .tpulseRise => Sys2Proof.Machine.execTpulseRise s
  | .tpulseFall => Sys2Proof.Machine.execTpulseFall s
  | .superframeStart skew => Sys2Proof.Machine.execSuperframeStart skew s
  | .connectionEvent c => Sys2Proof.Machine.execConnectionEvent c s
  | .frameReceive c frame acc pair rssi off => Sys2Proof.Machine.execFrameReceive c frame acc pair rssi off s
  | .txPacket => Sys2Proof.Machine.execTxPacket s
  | .txpwrWrite l bcn v => Sys2Proof.Machine.execTxpwrWrite l bcn v s
  | .dwellLimitWrite r v => Sys2Proof.Machine.execDwellLimitWrite r v s
  | .rejoinchWrite v => Sys2Proof.Machine.execRejoinchWrite v s
  | .mapctlArm => Sys2Proof.Machine.execMapctlArm s
  | .arm c term => Sys2Proof.Machine.execArm c term s
  | .updarm c => Sys2Proof.Machine.execUpdarm c s
  | .term c => Sys2Proof.Machine.execTerm c s
  | .updateInstant c => Sys2Proof.Machine.execUpdateInstant c s
  | .linkLost c => Sys2Proof.Machine.execLinkLost c s
  | .joiningTimeout c => Sys2Proof.Machine.execJoiningTimeout c s
  | .joinEvent l => Sys2Proof.Machine.execJoinEvent l s
  | .joinReq l frame ctr pair rssi => Sys2Proof.Machine.execJoinReq l frame ctr pair rssi s
  | .fence l v => Sys2Proof.Machine.execFence l v s
  | .loopbackCheck r0 r1 r2 r3 => Sys2Proof.Machine.execLoopbackCheck r0 r1 r2 r3 s
  | .decisionInstant flt => Sys2Proof.Machine.execDecisionInstant flt s
  | .grantEval flt => Sys2Proof.Machine.execGrantEval flt s
  | .tokenDelivery e => Sys2Proof.Machine.execTokenDelivery e s
  | .withdrawal toCtl e => Sys2Proof.Machine.execWithdrawal toCtl e s
  | .decisionSnapshot e => Sys2Proof.Machine.execDecisionSnapshot e s
  | .globalStopRequest cause via => Sys2Proof.Machine.execGlobalStopRequest cause via s
  | .zoneStop z via => Sys2Proof.Machine.execZoneStop z via s
  | .singleMember m z via => Sys2Proof.Machine.execSingleMember m z via s
  | .forwardedStop toCtl e => Sys2Proof.Machine.execForwardedStop toCtl e s
  | .appHeartbeat v w => Sys2Proof.Machine.execAppHeartbeat v w s
  | .schHeartbeat e => Sys2Proof.Machine.execSchHeartbeat e s
  | .zgrantWrite v w => Sys2Proof.Machine.execZgrantWrite v w s
  | .unsingle m w => Sys2Proof.Machine.execUnsingle m w s
  | .pmctlGstop cause w => Sys2Proof.Machine.execPmctlGstop cause w s
  | .resume => Sys2Proof.Machine.execResume s
  | .networkResume => Sys2Proof.Machine.execNetworkResume s
  | .full w => Sys2Proof.Machine.execFull w s
  | .gracereq w => Sys2Proof.Machine.execGracereq w s
  | .graceLapse => Sys2Proof.Machine.execGraceLapse s
  | .graceTimeout => Sys2Proof.Machine.execGraceTimeout s
  | .bkey c nxt => Sys2Proof.Machine.execBkey c nxt s
  | .basebandEnable v w => Sys2Proof.Machine.execBasebandEnable v w s
  | .acqDwell peak noise lane => Sys2Proof.Machine.execAcqDwell peak noise lane s
  | .channelPin c prn w => Sys2Proof.Machine.execChannelPin c prn w s
  | .channelRelease c rel w => Sys2Proof.Machine.execChannelRelease c rel w s
  | .pllHandover c => Sys2Proof.Machine.execPllHandover c s
  | .pullinTimeout c => Sys2Proof.Machine.execPullinTimeout c s
  | .bitSync c => Sys2Proof.Machine.execBitSync c s
  | .frameSync c => Sys2Proof.Machine.execFrameSync c s
  | .carrierLoss c => Sys2Proof.Machine.execCarrierLoss c s
  | .codeLoss c => Sys2Proof.Machine.execCodeLoss c s
  | .reacqTimeout c => Sys2Proof.Machine.execReacqTimeout c s
  | .navWord c word => Sys2Proof.Machine.execNavWord c word s
  | .ionoValid v w => Sys2Proof.Machine.execIonoValid v w s
  | .basePositionValid v w => Sys2Proof.Machine.execBasePositionValid v w s
  | .measLatch m => Sys2Proof.Machine.execMeasLatch m s
  | .epochRecordComplete => Sys2Proof.Machine.execEpochRecordComplete s
  | .timeCorrection => Sys2Proof.Machine.execTimeCorrection s
  | .fixqReport e => Sys2Proof.Machine.execFixqReport e s
  | .keepUpdate => Sys2Proof.Machine.execKeepUpdate s
  | .recordIn => Sys2Proof.Machine.execRecordIn s
  | .recordDispatch => Sys2Proof.Machine.execRecordDispatch s
  | .recordWaitEnd => Sys2Proof.Machine.execRecordWaitEnd s
  | .solveDone p => Sys2Proof.Machine.execSolveDone p s
  | .roverEnable g v w => Sys2Proof.Machine.execRoverEnable g v w s
  | .rovrst r w => Sys2Proof.Machine.execRovrst r w s
  | .siteValid v w => Sys2Proof.Machine.execSiteValid v w s
  | .solverEnable v w => Sys2Proof.Machine.execSolverEnable v w s
  | .permit => Sys2Proof.Machine.execPermit s
  | .cancel => Sys2Proof.Machine.execCancel s
  | .pass => Sys2Proof.Machine.execPass s
  | .cutack => Sys2Proof.Machine.execCutack s
  | .register => Sys2Proof.Machine.execRegister s
  | .deregister => Sys2Proof.Machine.execDeregister s
  | .query => Sys2Proof.Machine.execQuery s
  | .solin => Sys2Proof.Machine.execSolin s
  | .unfreeze => Sys2Proof.Machine.execUnfreeze s
  | .trackCommandBad => Sys2Proof.Machine.execTrackCommandBad s
  | .trackEval e => Sys2Proof.Machine.execTrackEval e s
  | .cutackTimeout k => Sys2Proof.Machine.execCutackTimeout k s
  | .solutionItem => Sys2Proof.Machine.execSolutionItem s
  | .nofixTimeout k => Sys2Proof.Machine.execNofixTimeout k s
  | .memberLost => Sys2Proof.Machine.execMemberLost s
  | .operatorRelease sch => Sys2Proof.Machine.execOperatorRelease sch s
  | .hold => Sys2Proof.Machine.execHold s
  | .holdOk => Sys2Proof.Machine.execHoldOk s
  | .holdRef => Sys2Proof.Machine.execHoldRef s
  | .commit => Sys2Proof.Machine.execCommit s
  | .commitOk => Sys2Proof.Machine.execCommitOk s
  | .commitLate => Sys2Proof.Machine.execCommitLate s
  | .abort => Sys2Proof.Machine.execAbort s
  | .release => Sys2Proof.Machine.execRelease s
  | .peerCut => Sys2Proof.Machine.execPeerCut s
  | .single => Sys2Proof.Machine.execSingle s
  | .peerHb => Sys2Proof.Machine.execPeerHb s
  | .peerHbSend => Sys2Proof.Machine.execPeerHbSend s
  | .holdExpiry => Sys2Proof.Machine.execHoldExpiry s
  | .peerLost b => Sys2Proof.Machine.execPeerLost b s
  | .peerPacketBad => Sys2Proof.Machine.execPeerPacketBad s
  | .reportQueueRoom => Sys2Proof.Machine.execReportQueueRoom s
  | .trkctlEn v w => Sys2Proof.Machine.execTrkctlEn v w s
  | .graphWrite off v w => Sys2Proof.Machine.execGraphWrite off v w s
  | .auctionStart w => Sys2Proof.Machine.execAuctionStart w s
  | .auctionAbort w => Sys2Proof.Machine.execAuctionAbort w s
  | .auctionDone asg prices => Sys2Proof.Machine.execAuctionDone asg prices s
  | .auctionTimeout phases asg prices => Sys2Proof.Machine.execAuctionTimeout phases asg prices s
  | .ringCycleStart rtt => Sys2Proof.Machine.execRingCycleStart rtt s
  | .testDeadline aPass bPass => Sys2Proof.Machine.execTestDeadline aPass bPass s
  | .portLinkChange port link => Sys2Proof.Machine.execPortLinkChange port link s
  | .inputFrame f fcs => Sys2Proof.Machine.execInputFrame f fcs s
  | .inputDeadline => Sys2Proof.Machine.execInputDeadline s
  | .cycenWrite v w => Sys2Proof.Machine.execCycenWrite v w s
  | .ringenWrite v w => Sys2Proof.Machine.execRingenWrite v w s
  | .holdFrame => Sys2Proof.Machine.execHoldFrame s
  | .ordinaryFrame f => Sys2Proof.Machine.execOrdinaryFrame f s
  | .address => Sys2Proof.Machine.execAddress s
  | .announce f => Sys2Proof.Machine.execAnnounce f s
  | .inputHandoff => Sys2Proof.Machine.execInputHandoff s
  | .programStart e => Sys2Proof.Machine.execProgramStart e s
  | .cycleDeadline => Sys2Proof.Machine.execCycleDeadline s
  | .progtabWrite p v e w => Sys2Proof.Machine.execProgtabWrite p v e w s
  | .pmemWrite x v w => Sys2Proof.Machine.execPmemWrite x v w s
  | .ctlctlEn v w => Sys2Proof.Machine.execCtlctlEn v w s
  | .lbcfgReset b w => Sys2Proof.Machine.execLbcfgReset b w s
  | .modereq a m w => Sys2Proof.Machine.execModereq a m w s
  | .ctlEnd d a b => Sys2Proof.Machine.execCtlEnd d a b s
  | .ctlMov d a b => Sys2Proof.Machine.execCtlMov d a b s
  | .ctlLdk d imm => Sys2Proof.Machine.execCtlLdk d imm s
  | .ctlLd d cell e => Sys2Proof.Machine.execCtlLd d cell e s
  | .ctlSt d cell => Sys2Proof.Machine.execCtlSt d cell s
  | .ctlIn d m off ty bt => Sys2Proof.Machine.execCtlIn d m off ty bt s
  | .ctlOut d m off ty bt => Sys2Proof.Machine.execCtlOut d m off ty bt s
  | .ctlAdd d a b => Sys2Proof.Machine.execCtlAdd d a b s
  | .ctlSub d a b => Sys2Proof.Machine.execCtlSub d a b s
  | .ctlMul d a b => Sys2Proof.Machine.execCtlMul d a b s
  | .ctlMad d a b => Sys2Proof.Machine.execCtlMad d a b s
  | .ctlDiv d a b => Sys2Proof.Machine.execCtlDiv d a b s
  | .ctlSqrt d a b => Sys2Proof.Machine.execCtlSqrt d a b s
  | .ctlMin d a b => Sys2Proof.Machine.execCtlMin d a b s
  | .ctlMax d a b => Sys2Proof.Machine.execCtlMax d a b s
  | .ctlAbs d a b => Sys2Proof.Machine.execCtlAbs d a b s
  | .ctlNeg d a b => Sys2Proof.Machine.execCtlNeg d a b s
  | .ctlClt d a b => Sys2Proof.Machine.execCtlClt d a b s
  | .ctlCle d a b => Sys2Proof.Machine.execCtlCle d a b s
  | .ctlCeq d a b => Sys2Proof.Machine.execCtlCeq d a b s
  | .ctlSel d a b => Sys2Proof.Machine.execCtlSel d a b s
  | .ctlSkz a n => Sys2Proof.Machine.execCtlSkz a n s
  | .ctlSknz a n => Sys2Proof.Machine.execCtlSknz a n s
  | .ctlEvery k ph n => Sys2Proof.Machine.execCtlEvery k ph n s
  | .ctlPidstep d a b u h e => Sys2Proof.Machine.execCtlPidstep d a b u h e s
  | .ctlFilt2 d a b u e => Sys2Proof.Machine.execCtlFilt2 d a b u e s
  | .ctlLimit d a b => Sys2Proof.Machine.execCtlLimit d a b s
  | .ctlFfapply d a b u e => Sys2Proof.Machine.execCtlFfapply d a b u e s
  | .ctlProfile d a b u => Sys2Proof.Machine.execCtlProfile d a b u s
  | .ctlLoadang d a b u => Sys2Proof.Machine.execCtlLoadang d a b u s
  | .ctlModesw d a b u => Sys2Proof.Machine.execCtlModesw d a b u s
  | .enable a w => Sys2Proof.Machine.execEnable a w s
  | .disable a w => Sys2Proof.Machine.execDisable a w s
  | .move a w => Sys2Proof.Machine.execMove a w s
  | .jog a w => Sys2Proof.Machine.execJog a w s
  | .stop a w => Sys2Proof.Machine.execStop a w s
  | .home a w => Sys2Proof.Machine.execHome a w s
  | .frst a w => Sys2Proof.Machine.execFrst a w s
  | .idlePowerdown a => Sys2Proof.Machine.execIdlePowerdown a s
  | .queuePush q hi w => Sys2Proof.Machine.execQueuePush q hi w s
  | .packetPresentable q e => Sys2Proof.Machine.execPacketPresentable q e s
  | .queuePop q e w => Sys2Proof.Machine.execQueuePop q e w s
  | .mark q w => Sys2Proof.Machine.execMark q w s
  | .rewind q w => Sys2Proof.Machine.execRewind q w s
  | .queueRelease q w => Sys2Proof.Machine.execQueueRelease q w s
  | .lockRead n rqs => Sys2Proof.Machine.execLockRead n rqs s
  | .lockWrite n v w => Sys2Proof.Machine.execLockWrite n v w s
  | .lockfree n w => Sys2Proof.Machine.execLockfree n w s
  | .ferryWrite f j v w => Sys2Proof.Machine.execFerryWrite f j v w s
  | .send f hdr w => Sys2Proof.Machine.execSend f hdr w s
  | .take f w => Sys2Proof.Machine.execTake f w s
  | .dbmaskWrite r m w => Sys2Proof.Machine.execDbmaskWrite r m w s
  | .doorbell r => Sys2Proof.Machine.execDoorbell r s
  | .registerBatch f => Sys2Proof.Machine.execRegisterBatch f s
  | .add n rd rs rt => Sys2Proof.Machine.execAdd n rd rs rt s
  | .sub n rd rs rt => Sys2Proof.Machine.execSub n rd rs rt s
  | .and n rd rs rt => Sys2Proof.Machine.execAnd n rd rs rt s
  | .or n rd rs rt => Sys2Proof.Machine.execOr n rd rs rt s
  | .xor n rd rs rt => Sys2Proof.Machine.execXor n rd rs rt s
  | .nor n rd rs rt => Sys2Proof.Machine.execNor n rd rs rt s
  | .sll n rd rs rt => Sys2Proof.Machine.execSll n rd rs rt s
  | .srl n rd rs rt => Sys2Proof.Machine.execSrl n rd rs rt s
  | .sra n rd rs rt => Sys2Proof.Machine.execSra n rd rs rt s
  | .mul n rd rs rt => Sys2Proof.Machine.execMul n rd rs rt s
  | .mulhs n rd rs rt => Sys2Proof.Machine.execMulhs n rd rs rt s
  | .mulhu n rd rs rt => Sys2Proof.Machine.execMulhu n rd rs rt s
  | .div n rd rs rt => Sys2Proof.Machine.execDiv n rd rs rt s
  | .divu n rd rs rt => Sys2Proof.Machine.execDivu n rd rs rt s
  | .rem n rd rs rt => Sys2Proof.Machine.execRem n rd rs rt s
  | .remu n rd rs rt => Sys2Proof.Machine.execRemu n rd rs rt s
  | .min n rd rs rt => Sys2Proof.Machine.execMin n rd rs rt s
  | .max n rd rs rt => Sys2Proof.Machine.execMax n rd rs rt s
  | .minu n rd rs rt => Sys2Proof.Machine.execMinu n rd rs rt s
  | .maxu n rd rs rt => Sys2Proof.Machine.execMaxu n rd rs rt s
  | .addi n rd rs imm => Sys2Proof.Machine.execAddi n rd rs imm s
  | .andi n rd rs imm => Sys2Proof.Machine.execAndi n rd rs imm s
  | .ori n rd rs imm => Sys2Proof.Machine.execOri n rd rs imm s
  | .xori n rd rs imm => Sys2Proof.Machine.execXori n rd rs imm s
  | .lui n rd imm => Sys2Proof.Machine.execLui n rd imm s
  | .slli n rd rs amt => Sys2Proof.Machine.execSlli n rd rs amt s
  | .srli n rd rs amt => Sys2Proof.Machine.execSrli n rd rs amt s
  | .srai n rd rs amt => Sys2Proof.Machine.execSrai n rd rs amt s
  | .cmpeq n pd rs rt => Sys2Proof.Machine.execCmpeq n pd rs rt s
  | .cmpne n pd rs rt => Sys2Proof.Machine.execCmpne n pd rs rt s
  | .cmplt n pd rs rt => Sys2Proof.Machine.execCmplt n pd rs rt s
  | .cmpge n pd rs rt => Sys2Proof.Machine.execCmpge n pd rs rt s
  | .cmpltu n pd rs rt => Sys2Proof.Machine.execCmpltu n pd rs rt s
  | .cmpgeu n pd rs rt => Sys2Proof.Machine.execCmpgeu n pd rs rt s
  | .cmpi n pd rs cond imm => Sys2Proof.Machine.execCmpi n pd rs cond imm s
  | .pand n pd ps pt => Sys2Proof.Machine.execPand n pd ps pt s
  | .por n pd ps pt => Sys2Proof.Machine.execPor n pd ps pt s
  | .pxor n pd ps pt => Sys2Proof.Machine.execPxor n pd ps pt s
  | .pnot n pd ps => Sys2Proof.Machine.execPnot n pd ps s
  | .pmov n pd ps => Sys2Proof.Machine.execPmov n pd ps s
  | .sel n rd rs rt p => Sys2Proof.Machine.execSel n rd rs rt p s
  | .lb n rd base off e => Sys2Proof.Machine.execLb n rd base off e s
  | .lbu n rd base off e => Sys2Proof.Machine.execLbu n rd base off e s
  | .lh n rd base off e => Sys2Proof.Machine.execLh n rd base off e s
  | .lhu n rd base off e => Sys2Proof.Machine.execLhu n rd base off e s
  | .lw n rd base off e => Sys2Proof.Machine.execLw n rd base off e s
  | .lwu n rd base off e => Sys2Proof.Machine.execLwu n rd base off e s
  | .ld n rd base off e => Sys2Proof.Machine.execLd n rd base off e s
  | .sb n rd base off e => Sys2Proof.Machine.execSb n rd base off e s
  | .sh n rd base off e => Sys2Proof.Machine.execSh n rd base off e s
  | .sw n rd base off e => Sys2Proof.Machine.execSw n rd base off e s
  | .sd n rd base off e => Sys2Proof.Machine.execSd n rd base off e s
  | .aadd n rd rs rt dbl acq rel e => Sys2Proof.Machine.execAadd n rd rs rt dbl acq rel e s
  | .aswp n rd rs rt dbl acq rel e => Sys2Proof.Machine.execAswp n rd rs rt dbl acq rel e s
  | .acas n rd rs rt dbl acq rel e => Sys2Proof.Machine.execAcas n rd rs rt dbl acq rel e s
  | .pref n base off => Sys2Proof.Machine.execPref n base off s
  | .clean n base off => Sys2Proof.Machine.execClean n base off s
  | .cinval n base off => Sys2Proof.Machine.execCinval n base off s
  | .vld n vd base off e => Sys2Proof.Machine.execVld n vd base off e s
  | .vst n vd base off e => Sys2Proof.Machine.execVst n vd base off e s
  | .fenceM n => Sys2Proof.Machine.execFenceM n s
  | .fenceIo n => Sys2Proof.Machine.execFenceIo n s
  | .fenceI n => Sys2Proof.Machine.execFenceI n s
  | .br n off => Sys2Proof.Machine.execBr n off s
  | .call n off => Sys2Proof.Machine.execCall n off s
  | .bp n p sense off => Sys2Proof.Machine.execBp n p sense off s
  | .cbz n rs off => Sys2Proof.Machine.execCbz n rs off s
  | .cbnz n rs off => Sys2Proof.Machine.execCbnz n rs off s
  | .jr n rs => Sys2Proof.Machine.execJr n rs s
  | .jalr n rd rs => Sys2Proof.Machine.execJalr n rd rs s
  | .vadd n vd va vb pm ty => Sys2Proof.Machine.execVadd n vd va vb pm ty s
  | .vsub n vd va vb pm ty => Sys2Proof.Machine.execVsub n vd va vb pm ty s
  | .vmul n vd va vb pm ty => Sys2Proof.Machine.execVmul n vd va vb pm ty s
  | .vfma n vd va vb pm ty => Sys2Proof.Machine.execVfma n vd va vb pm ty s
  | .vdiv n vd va vb pm ty => Sys2Proof.Machine.execVdiv n vd va vb pm ty s
  | .vsqrt n vd va pm ty => Sys2Proof.Machine.execVsqrt n vd va pm ty s
  | .vmin n vd va vb pm ty => Sys2Proof.Machine.execVmin n vd va vb pm ty s
  | .vmax n vd va vb pm ty => Sys2Proof.Machine.execVmax n vd va vb pm ty s
  | .viadd n vd va vb pm ty => Sys2Proof.Machine.execViadd n vd va vb pm ty s
  | .visub n vd va vb pm ty => Sys2Proof.Machine.execVisub n vd va vb pm ty s
  | .vimul n vd va vb pm ty => Sys2Proof.Machine.execVimul n vd va vb pm ty s
  | .vand n vd va vb pm ty => Sys2Proof.Machine.execVand n vd va vb pm ty s
  | .vor n vd va vb pm ty => Sys2Proof.Machine.execVor n vd va vb pm ty s
  | .vxor n vd va vb pm ty => Sys2Proof.Machine.execVxor n vd va vb pm ty s
  | .vshl n vd va vb pm ty => Sys2Proof.Machine.execVshl n vd va vb pm ty s
  | .vshr n vd va vb pm ty => Sys2Proof.Machine.execVshr n vd va vb pm ty s
  | .vcmpeq n pd va vb pm ty => Sys2Proof.Machine.execVcmpeq n pd va vb pm ty s
  | .vcmplt n pd va vb pm ty => Sys2Proof.Machine.execVcmplt n pd va vb pm ty s
  | .vcmple n pd va vb pm ty => Sys2Proof.Machine.execVcmple n pd va vb pm ty s
  | .vbcast n vd ra pm ty => Sys2Proof.Machine.execVbcast n vd ra pm ty s
  | .vperm n vd va vb pm ty => Sys2Proof.Machine.execVperm n vd va vb pm ty s
  | .vext n rd va rb ty => Sys2Proof.Machine.execVext n rd va rb ty s
  | .vins n vd ra rb pm ty => Sys2Proof.Machine.execVins n vd ra rb pm ty s
  | .vred n rd va pm ty => Sys2Proof.Machine.execVred n rd va pm ty s
  | .vcvt n vd va pm ty toI => Sys2Proof.Machine.execVcvt n vd va pm ty toI s
  | .vscpy n vd va vb ty count e => Sys2Proof.Machine.execVscpy n vd va vb ty count e s
  | .vsfill n vd vb ty count e => Sys2Proof.Machine.execVsfill n vd vb ty count e s
  | .vsaxpy n vd va vb ty count e => Sys2Proof.Machine.execVsaxpy n vd va vb ty count e s
  | .vsscal n vd vb ty count e => Sys2Proof.Machine.execVsscal n vd vb ty count e s
  | .vsdot n vd va vb ty count e => Sys2Proof.Machine.execVsdot n vd va vb ty count e s
  | .fadd n rd rs rt dbl => Sys2Proof.Machine.execFadd n rd rs rt dbl s
  | .fsub n rd rs rt dbl => Sys2Proof.Machine.execFsub n rd rs rt dbl s
  | .fmul n rd rs rt dbl => Sys2Proof.Machine.execFmul n rd rs rt dbl s
  | .fdiv n rd rs rt dbl => Sys2Proof.Machine.execFdiv n rd rs rt dbl s
  | .fsqrt n rd rs dbl => Sys2Proof.Machine.execFsqrt n rd rs dbl s
  | .fma n rd rs rt dbl => Sys2Proof.Machine.execFma n rd rs rt dbl s
  | .fmin n rd rs rt dbl => Sys2Proof.Machine.execFmin n rd rs rt dbl s
  | .fmax n rd rs rt dbl => Sys2Proof.Machine.execFmax n rd rs rt dbl s
  | .fcvt n rd rs k => Sys2Proof.Machine.execFcvt n rd rs k s
  | .fcmpeq n pd rs rt dbl => Sys2Proof.Machine.execFcmpeq n pd rs rt dbl s
  | .fcmplt n pd rs rt dbl => Sys2Proof.Machine.execFcmplt n pd rs rt dbl s
  | .fcmple n pd rs rt dbl => Sys2Proof.Machine.execFcmple n pd rs rt dbl s
  | .timerd n rd sel => Sys2Proof.Machine.execTimerd n rd sel s
  | .rawrd n rd => Sys2Proof.Machine.execRawrd n rd s
  | .lktry n rd rs imm => Sys2Proof.Machine.execLktry n rd rs imm s
  | .lkrel n rd rs imm => Sys2Proof.Machine.execLkrel n rd rs imm s
  | .pgrel n rd rs rt count => Sys2Proof.Machine.execPgrel n rd rs rt count s
  | .pgpin n rd rs rt count => Sys2Proof.Machine.execPgpin n rd rs rt count s
  | .pgunpin n rd rs rt count => Sys2Proof.Machine.execPgunpin n rd rs rt count s
  | .dfready n rd rs => Sys2Proof.Machine.execDfready n rd rs s
  | .dfpost n rd rs slot => Sys2Proof.Machine.execDfpost n rd rs slot s
  | .dfcancel n rd rs => Sys2Proof.Machine.execDfcancel n rd rs s
  | .dfdone n rs => Sys2Proof.Machine.execDfdone n rs s
  | .dfyield n => Sys2Proof.Machine.execDfyield n s
  | .npb n => Sys2Proof.Machine.execNpb n s
  | .npe n => Sys2Proof.Machine.execNpe n s
  | .nptime n => Sys2Proof.Machine.execNptime n s
  | .mfs n rd rs imm => Sys2Proof.Machine.execMfs n rd rs imm s
  | .mts n rs imm => Sys2Proof.Machine.execMts n rs imm s
  | .svc n imm => Sys2Proof.Machine.execSvc n imm s
  | .mcall n imm => Sys2Proof.Machine.execMcall n imm s
  | .brk n imm => Sys2Proof.Machine.execBrk n imm s
  | .eret n => Sys2Proof.Machine.execEret n s
  | .preemption n => Sys2Proof.Machine.execPreemption n s
  | .eventToken e => Sys2Proof.Machine.execEventToken e s
  | .evcfgEn ev v w => Sys2Proof.Machine.execEvcfgEn ev v w s
  | .dispatchChoice => Sys2Proof.Machine.execDispatchChoice s
  | .napEntry n => Sys2Proof.Machine.execNapEntry n s
  | .dfBusyTimeout n => Sys2Proof.Machine.execDfBusyTimeout n s
  | .cfenceWrite v w => Sys2Proof.Machine.execCfenceWrite v w s
  | .dfctlEn v w => Sys2Proof.Machine.execDfctlEn v w s
  | .tlbinv hi w => Sys2Proof.Machine.execTlbinv hi w s
  | .poolen v w => Sys2Proof.Machine.execPoolen v w s
  | .sweepDone => Sys2Proof.Machine.execSweepDone s
  | .pooltake w => Sys2Proof.Machine.execPooltake w s
  | .poolgive f w => Sys2Proof.Machine.execPoolgive f w s
  | .memRetire f w => Sys2Proof.Machine.execMemRetire f w s
  | .retcntClear w => Sys2Proof.Machine.execRetcntClear w s
  | .scrub e => Sys2Proof.Machine.execScrub e s
  | .dmaStart c level w => Sys2Proof.Machine.execDmaStart c level w s
  | .dmaDescriptorDone c => Sys2Proof.Machine.execDmaDescriptorDone c s
  | .dmaPark c at_ emmc wr_ desc => Sys2Proof.Machine.execDmaPark c at_ emmc wr_ desc s
  | .dmaResume c w => Sys2Proof.Machine.execDmaResume c w s
  | .dmaSkip c w => Sys2Proof.Machine.execDmaSkip c w s
  | .dmaAbort c w => Sys2Proof.Machine.execDmaAbort c w s
  | .aonStartDone => Sys2Proof.Machine.execAonStartDone s
  | .bootSlotCheck => Sys2Proof.Machine.execBootSlotCheck s
  | .firmwareEntry => Sys2Proof.Machine.execFirmwareEntry s
  | .bootFail => Sys2Proof.Machine.execBootFail s
  | .recovery f => Sys2Proof.Machine.execRecovery f s
  | .sporeReady puf => Sys2Proof.Machine.execSporeReady puf s
  | .sporeRetry puf => Sys2Proof.Machine.execSporeRetry puf s
  | .leave enter w => Sys2Proof.Machine.execLeave enter w s
  | .enter w => Sys2Proof.Machine.execEnter w s
  | .wrm key w => Sys2Proof.Machine.execWrm key w s
  | .islgo isl key w => Sys2Proof.Machine.execIslgo isl key w s
  | .islandRelease isl => Sys2Proof.Machine.execIslandRelease isl s
  | .appIslandReset w => Sys2Proof.Machine.execAppIslandReset w s
  | .tmp => Sys2Proof.Machine.execTmp s
  | .wdkick v w => Sys2Proof.Machine.execWdkick v w s
  | .wdctlWrite v w => Sys2Proof.Machine.execWdctlWrite v w s
  | .watchdogExpiry => Sys2Proof.Machine.execWatchdogExpiry s
  | .secWatchdog => Sys2Proof.Machine.execSecWatchdog s
  | .standby w => Sys2Proof.Machine.execStandby w s
  | .hibernate w => Sys2Proof.Machine.execHibernate w s
  | .standbyWake src f puf => Sys2Proof.Machine.execStandbyWake src f puf s
  | .hibernateWake src => Sys2Proof.Machine.execHibernateWake src s
  | .capture w => Sys2Proof.Machine.execCapture w s
  | .captureDone => Sys2Proof.Machine.execCaptureDone s
  | .dumpClear w => Sys2Proof.Machine.execDumpClear w s
  | .derive => Sys2Proof.Machine.execDerive s
  | .discard => Sys2Proof.Machine.execDiscard s
  | .aes => Sys2Proof.Machine.execAes s
  | .hmac => Sys2Proof.Machine.execHmac s
  | .sha256 => Sys2Proof.Machine.execSha256 s
  | .verify => Sys2Proof.Machine.execVerify s
  | .random => Sys2Proof.Machine.execRandom s
  | .beaconGen => Sys2Proof.Machine.execBeaconGen s
  | .beaconKeySwitch => Sys2Proof.Machine.execBeaconKeySwitch s
  | .signed => Sys2Proof.Machine.execSigned s
  | .serviceEnter => Sys2Proof.Machine.execServiceEnter s
  | .serviceExit => Sys2Proof.Machine.execServiceExit s
  | .retire => Sys2Proof.Machine.execRetire s
  | .imagekey => Sys2Proof.Machine.execImagekey s
  | .secver => Sys2Proof.Machine.execSecver s
  | .tamperClear f => Sys2Proof.Machine.execTamperClear f s
  | .debugUnlock => Sys2Proof.Machine.execDebugUnlock s
  | .lichenClear => Sys2Proof.Machine.execLichenClear s
  | .challenge => Sys2Proof.Machine.execChallenge s
  | .nonceExpiry => Sys2Proof.Machine.execNonceExpiry s
  | .session => Sys2Proof.Machine.execSession s
  | .ringkey => Sys2Proof.Machine.execRingkey s
  | .setowner => Sys2Proof.Machine.execSetowner s
  | .setimagekey => Sys2Proof.Machine.execSetimagekey s
  | .deploy => Sys2Proof.Machine.execDeploy s
  | .retireLocal => Sys2Proof.Machine.execRetireLocal s
  | .secRequestBad => Sys2Proof.Machine.execSecRequestBad s
  | .answerDrop => Sys2Proof.Machine.execAnswerDrop s
  | .keyMaskRedraw => Sys2Proof.Machine.execKeyMaskRedraw s
  | .drbgFail => Sys2Proof.Machine.execDrbgFail s
  | .tamper src keyop => Sys2Proof.Machine.execTamper src keyop s
  | .tamperInfo => Sys2Proof.Machine.execTamperInfo s
  | .debugClosed => Sys2Proof.Machine.execDebugClosed s
  | .lichenRecord => Sys2Proof.Machine.execLichenRecord s
  | .lichenWriteDone => Sys2Proof.Machine.execLichenWriteDone s
  | .lichenScan => Sys2Proof.Machine.execLichenScan s
  | .bucketRefill b => Sys2Proof.Machine.execBucketRefill b s
  | .lichenRead idx w => Sys2Proof.Machine.execLichenRead idx w s
  | .digestReady => Sys2Proof.Machine.execDigestReady s
  | .blockEraseDone => Sys2Proof.Machine.execBlockEraseDone s
  | .beaconReport e => Sys2Proof.Machine.execBeaconReport e s
  | .beaconReportMissing => Sys2Proof.Machine.execBeaconReportMissing s
  | .critstatClear b w => Sys2Proof.Machine.execCritstatClear b w s
  | .selfTestTurn => Sys2Proof.Machine.execSelfTestTurn s
  | .selfTestDone pass => Sys2Proof.Machine.execSelfTestDone pass s
  | .clockFault isl bad => Sys2Proof.Machine.execClockFault isl bad s
  | .railFault isl bad => Sys2Proof.Machine.execRailFault isl bad s
  | .tcxoCheck ok_ => Sys2Proof.Machine.execTcxoCheck ok_ s
  | .rateLearned => Sys2Proof.Machine.execRateLearned s
  | .illegal n => Sys2Proof.Machine.execIllegal n s
  | .ioSupplyRegulation inReg => Sys2Proof.Machine.execIoSupplyRegulation inReg s
  | .enrolment puf key => Sys2Proof.Machine.execEnrolment puf key s

end Sys2Proof.Machine
end

