-- ==== Sys2Proof/Machine/Tick.lean ====
section
/-! DEFINITION. Machine/Tick.lean: what one count of the raw counter does by itself, with no command waiting (R43; log 2). -/

namespace Sys2Proof.Machine

/-- The raw counts between two heartbeats of the reservation engine: 1 ms (R263). -/
def hbEach : Nat := 26000

/-- The raw counts in a microsecond. -/
def rawPerUs : Nat := 26

/-- POS as time passes: held navigation words and solver items go out as their queues take them (R169, R219), channels come to
integration boundaries with something due (R163), and an idle search engine takes what work has come up (R159). -/
def posTime (d : Dev) : Dev :=
  workIdle (forAll chans chDue (outFlush d.pos.outQ.length (navFlushAll d)))

/-- What happens with time as such: invalidations end (R453), FULLTIME counts the microseconds spent FULL, stalled dataflow instructions
go on where there is room (R438), POS goes on, the reservation engine beats (R263), and CYCLE's drift from WALL crosses CFOLMAX or
comes back within it (R59). -/
def timePasses (d : Dev) : Dev :=
  let d := checkDiverged { d with mem := { d.mem with inval := 0 } }
  let d := whenB (runs SCHi d && full d && d.raw % rawPerUs == 0) (inc SCH.FULLTIME) d
  let d := whenB (runs APPi d && runs SCHi d) serveStalls d
  let d := whenRuns POSi posTime d
  whenB (runs SCHi d && d.raw % hbEach == 0) heartbeatOut d

/-- A raw count ends: a STEPACC that waited acts, and what stood in it as an event of this very count is past (R7, R8, R53). -/
def countEnds (d0 : Dev) : Dev :=
  let d := accAfter { d0 with aon := { d0.aon with accHold := false, rstAhead := 0 } }
  { d with sent := [], evs := [] }

/-- A bit error that strikes a word of DRAM in this raw count, and whether the eMMC has become ready (log 155, log 49). -/
def memEvents (d : Dev) : Dev :=
  let m := match Config.strike d.raw with
    | none => d.mem
    | some (w, double) => if w < dramSize / 8 then (strike w double d).mem else d.mem
  { d with mem := { m with ready := m.ready || Config.emmcUp d.raw } }

/-- The turns that DMA channels have in this raw count (R468, log 76). -/
def dmaTime (fu : Fuses) (d : Dev) : Dev :=
  if isUp MEMi d && anyRuns d then dmaUntil fu (fun _ => none) (fun _ => false) (Config.dmaRounds d.raw) d else d

/-- One count of the raw counter, while AON has power (R43, R475). -/
def tick (fu : Fuses) (d : Dev) : Dev :=
  if isUp AONi d then
    let d := countEnds d
    captureTime fu (dmaTime fu (timePasses (memEvents { d with raw := (d.raw + 1) % 2 ^ 64 })))
  else d

end Sys2Proof.Machine
end

