-- ==== Sys2Proof/Safety.lean ====
section
/-! DEFINITION. Safety.lean: the terms claims are stated in: steps that answer, and what no step may undo. -/

namespace Sys2Proof.Safety

open Sys2Proof.Machine

/-- A step from one state answers the other. -/
def Steps (s t : State) : Prop := step s = .next t

/-- A command carried out in one state answers the other. -/
def Runs (c : Instr) (s t : State) : Prop := exec c s = .next t

/-- The block as a command finds it: what the last command handed outside is gone. -/
def start (s : State) : Dev := { s.dev with sent := [] }

/-- A state with another block: its queue and fuses as they were. -/
def after (s : State) (d : Dev) : State := { s with dev := d }

/-- What a request's act gives once SEC has answered it: the fuses and the block (R524). -/
def served (r : Req) (x : Res) : Fuses × Dev := (x.fu, finish r x.st x.w0 x.ws x.d)

/-- A state with other fuses and another block: its queue as it was. -/
def both (s : State) (p : Fuses × Dev) : State := { s with fuses := p.1, dev := p.2 }

/-- The block once a queue's hardware consumer has read a packet that is not lost: a corrected error is noted (R370). -/
def heeded (q : Nat) (e : Ecc) (d : Dev) : Dev := if e = .single then wrB (SQ.QSTAT.ECCCOR q) true d else d

/-- A core about to carry out an instruction: it issues, its section is within NPLIM, and the fetch gives a word (R387, R417). -/
structure Issues (n : Nat) (d : Dev) (w : Nat) (d' : Dev) : Prop where
  runs : canIssue n d = true
  inTime : ¬ (coreOf n d).nplim < (coreOf n d).npcnt d.raw
  word : fetch (coreOf n d) d = (.ok w, d')

/-- An instruction retires: the core as it leaves it, counted; a pending cancellation then takes the core (R404, R439). -/
def retires (n : Nat) (c : Core) (d : Dev) : Dev := cancelHere n (coreSet n { c with iret := c.iret + 1 } d)

/-- A core runs no operation that is to be cancelled (R404, R439). -/
def Uncancelled (n : Nat) (d : Dev) : Prop :=
  ∀ k i g, (coreOf n d).entry = some k → infOf k d = some i → graphOf i.h d = some g →
    (opRead (g.ops + 256 * bits i.h 0 20) d).cancel = false

/-- An instruction of a core wrote general register rd at most, and stored nothing: the core's other registers, predicates,
vectors and level, every other core, memory, the queue and the fuses are as they were. -/
structure WroteOnly (n rd : Nat) (c : Core) (s : State) (d : Dev) (t : State) : Prop where
  regs : ∀ r, r ≠ rd ∨ rd = 0 → (coreOf n t.dev).get r = c.get r
  preds : (coreOf n t.dev).x.p = c.x.p
  vecs : (coreOf n t.dev).x.v = c.x.v
  fpcsr : (coreOf n t.dev).x.fpcsr = c.x.fpcsr
  level : (coreOf n t.dev).x.lvl = c.x.lvl
  traps : (coreOf n t.dev).es = c.es ∧ (coreOf n t.dev).em = c.em
  others : ∀ k, k ≠ n → coreOf k t.dev = coreOf k d
  bytes : ∀ a, dramGet a t.dev = dramGet a d
  special : t.dev.regs = d.regs
  queue : t.pending = s.pending
  fuses : t.fuses = s.fuses

/-- A program runs whose next word is an instruction's (R340, R341). -/
structure AtOp (d : Dev) (r : Running) (c : COp) : Prop where
  run : d.ctl.run = some r
  word : ∃ w, r.prog[r.next]? = some w ∧ w.toNat = c.enc
  valid : (COp.dec c.enc).isSome = true

/-- The block as a program's instruction takes effect: the next one is its successor, and INSTCNT has counted it. -/
def fetched (r : Running) (d : Dev) : Dev :=
  inc CTL.INSTCNT { d with ctl := { d.ctl with run := some { r with next := r.next + 1 } } }

/-- A command of a code waits, with no error, at the head of SQ25, and commands are being taken (R233, R262). -/
structure AsksTrack (d : Dev) (code : Nat) (x : W64) (r : List W64) : Prop where
  taking : cmdsOpen d = true
  head : ∃ p, hwPeek 25 d = some p ∧ p.ecc = .clean ∧ p.items = x :: r
  code : hCode x = code

/-- A peer packet of a type, for this base and with no error, stands at the head of SQ28 (R255). -/
structure PeerSays (d : Dev) (own typ : Nat) (x : W64) (r : List W64) : Prop where
  head : ∃ p, hwPeek 28 d = some p ∧ p.ecc = .clean ∧ p.items = x :: r
  typ : pTyp x = typ
  mine : pDst x = own

/-- A fuse that has blown stays blown (R504, R571): settings, owner key and image keys once written stand, counts only rise, and
no life-cycle stage is left backwards. -/
structure FusesKept (a b : Fuses) : Prop where
  provisioned : a.provisioned = true → b.provisioned = true
  deployed : a.deployed = true → b.deployed = true
  retired : a.retired = true → b.retired = true
  svc : a.svc ≤ b.svc
  secver : a.secver ≤ b.secver
  settings : ∀ x, a.settings = some x → b.settings = some x
  owner : ∀ x, a.owner = some x → b.owner = some x
  imgKeys : a.imgKeys <+: b.imgKeys
  devid : a.provisioned = true → b.devid = a.devid

/-- Fuses as the transitions of Table 16-2 leave them: each stage was reached from the one before, with what R507 asks for a
deployed module, and no count is beyond its fuses (R506, R528, R571). -/
structure LifeLegal (fu : Fuses) : Prop where
  deployed : fu.deployed = true → fu.provisioned = true ∧ fu.owner ≠ none ∧ fu.imgKeys ≠ []
  settings : fu.settings ≠ none ↔ fu.deployed = true
  owner : fu.owner ≠ none → fu.provisioned = true
  images : fu.imgKeys ≠ [] → fu.provisioned = true
  service : fu.svc ≠ 0 → fu.deployed = true
  retired : fu.retired = true → fu.provisioned = true
  svc : fu.svc ≤ 254
  secver : fu.secver ≤ 64
  slots : fu.imgKeys.length ≤ 4

end Sys2Proof.Safety
end

