-- ==== Sys2Proof/Certificates/Slice0/Obligations.lean ====
section
/-! DEFINITION. Certificates/Slice0/Obligations.lean: the statements for the provers. `start s` is the block of a state as a
command finds it, and `after s d` the same state with another block: a clause that names them says what a command changes and that
the queue and the fuses stay. -/

section

open Sys2Proof Sys2Proof.Machine Sys2Proof.Safety

/-- A step takes the command at the front of the queue: it is that command carried out with the queue's rest. -/
def Obligations.StepRunsFront : Prop :=
  ∀ (s : State) (c : Instr) (r : List Instr), s.pending = c :: r → step s = exec c { s with pending := r }

/-- The model's choice, log 2: with no command waiting, a step lets one count of the raw counter pass: the count ends, bit errors
strike, what time does happens, DMA channels have their turns and a running capture goes on. Nothing happens while AON has no
power. The queue and the fuses stay. -/
def Obligations.IdleTick : Prop :=
  ∀ s : State, s.pending = [] →
    step s = .next { s with dev := tick s.fuses s.dev } ∧ (isUp AONi s.dev = false → step s = .next s) ∧
      (isUp AONi s.dev = true → ∀ d : Dev, d = { countEnds s.dev with raw := ((countEnds s.dev).raw + 1) % 2 ^ 64 } →
        d.sent = [] ∧ d.evs = [] ∧
        tick s.fuses s.dev = captureTime s.fuses (dmaTime s.fuses (timePasses (memEvents d))))

/-- After reset no command waits, the module is BLANK with legal fuses, every island is down, every register field holds its
reset value, and no memory lists a byte. Where a table gives none, the value held is the choice of logs 1, 11, 18 and 19. -/
def Obligations.ResetState : Prop :=
  State.reset.pending = [] ∧ LifeLegal State.reset.fuses ∧ lcState State.reset.fuses = 0 ∧
    (∀ i, isUp i State.reset.dev = false) ∧ (∀ f : Fld, f.rst < 2 ^ 64 → rd f State.reset.dev = f.rst) ∧
    (∀ a, dramGet a State.reset.dev = 0) ∧ twf State.reset.dev.mem.dram 0 = true ∧ twf State.reset.dev.keep.emmc 0 = true

/-- No command carried out adds to the queue or takes from it. -/
def Obligations.PendingKept : Prop :=
  ∀ (c : Instr) (s t : State), Runs c s t → t.pending = s.pending

/-- No step undoes a fuse: what has blown stays blown (R504, R571). -/
def Obligations.FusesOnlyBlow : Prop :=
  ∀ s t : State, Steps s t → FusesKept s.fuses t.fuses

/-- Every step keeps the fuses as the transitions of Table 16-2 leave them (R504, R505, R506, R507, R528, R571). -/
def Obligations.LifeCycleLegal : Prop :=
  ∀ s t : State, LifeLegal s.fuses → Steps s t → LifeLegal t.fuses

/-- Every cycle instruction a word can spell is read back from its word, every field at every value (R341, Table 10-2). -/
def Obligations.CycleCodeRoundTrip : Prop :=
  ∀ c : COp, c.wf = true → COp.dec c.enc = some c ∧ c.enc < 2 ^ 32

/-- A word that spells a cycle instruction is that instruction's word, and its only one: no two words spell one instruction
(R341, Table 10-2). -/
def Obligations.CycleWordExact : Prop :=
  ∀ (w : Nat) (c : COp), w < 2 ^ 32 → COp.dec w = some c → c.wf = true ∧ c.enc = w

/-- Bytes written to DRAM read back, and no byte beside them changes. -/
def Obligations.DramWriteExact : Prop :=
  ∀ (a : Nat) (l : List Nat) (d : Dev),
    (∀ i, i < l.length → a + i < dramSize → dramGet (a + i) (dramWrite a l d) = l.getD i 0 % 256) ∧
    (∀ b, b < a ∨ a + l.length ≤ b ∨ dramSize ≤ b → dramGet b (dramWrite a l d) = dramGet b d)

/-- A write to a pair's low word is held; the write to its high word writes all 64 bits of the pair at once, with the held low
word, which is 0 again afterwards. The held word is 0 after reset, and after a high-word write that is refused or ignored. -/
def Obligations.PairWrites : Prop :=
  (∀ a, tget State.reset.dev.held a 0 = 0) ∧
  ∀ (s : State) (d : Dev) (a : BitVec 40) (v : W32) (w : Who), d = ties s.pending (start s) →
    winOf a.toNat ≠ .unmapped → winOf a.toNat ≠ .sram → mayReach w a.toNat = true → isUp (winIsl (winOf a.toNat)) d = true →
    unassigned a.toNat = false →
    (pairLow a.toNat = true → pairHigh a.toNat = false → blocked w a.toNat d = false →
      Runs (.pairLowWrite a v w) s (after s { d with held := tset d.held a.toNat v 0 })) ∧
    (pairHigh a.toNat = true → payRefused w (a.toNat - 4) d = false → blocked w (a.toNat - 4) d = false →
      Runs (.pairHighWrite a v w) s (after s (wholeWrite s.fuses w (a.toNat - 4)
        ((tget d.held (a.toNat - 4) 0).toNat + v.toNat * 2 ^ 32) { d with held := tset d.held (a.toNat - 4) 0 0 }))) ∧
    (pairHigh a.toNat = true → payRefused w (a.toNat - 4) d = true ∨ blocked w (a.toNat - 4) d = true →
      ∃ t, Runs (.pairHighWrite a v w) s t ∧ tget t.dev.held (a.toNat - 4) 0 = 0)

/-- A read of a pair's low word answers it and latches the high word; the next read of the high word answers what was latched.
The three ranges named hold no pair: retention bytes, locks, POOLTAKE. -/
def Obligations.PairReads : Prop :=
  ∀ (s : State) (d : Dev) (a b : BitVec 40) (w : Who) (i v : Nat), d = start s → b.toNat = a.toNat + 4 →
    winOf a.toNat = .regs i → winOf b.toNat = .regs i → mayReach w a.toNat = true → mayReach w b.toNat = true →
    isUp i d = true → (fieldsAt a.toNat).any Fld.pair = true → pairHigh a.toNat = false → pairHigh b.toNat = true →
    (i = 0 → aonRam (a.toNat - winBase 0) = false ∧ aonRam (b.toNat - winBase 0) = false) →
    (i = 3 → a.toNat < winBase 3 + 0xFFC ∨ winBase 3 + 0x1200 ≤ a.toNat) →
    (i = 4 → a.toNat ≠ winBase 4 + 0x14 ∧ b.toNat ≠ winBase 4 + 0x14) →
    v = wordOf (fieldsAt a.toNat) (live s.fuses a.toNat d) → v < 2 ^ 64 →
    ∃ t u, Runs (.pairLowRead a w) s t ∧ t.dev.rdata.toNat = v % 2 ^ 32 ∧
      Runs (.rcRead b w) t u ∧ u.dev.rdata.toNat = v / 2 ^ 32

/-- A read of a free lock answers 0 and makes the reader its holder; a read of a held lock answers the holder's number plus 1
and changes nothing but what is read. -/
def Obligations.LockReads : Prop :=
  ∀ (s : State) (d : Dev) (n : Fin 128) (w : Who), d = start s → isUp SCHi d = true → lvlOk false w = true →
    (lockOf n d = 0 →
      ∃ t, Runs (.lockRead n [w]) s t ∧ t.dev.rdata = 0 ∧ lockOf n t.dev = w.rq.val + 1 ∧
        ∀ m, m ≠ n.val → lockOf m t.dev = lockOf m d) ∧
    (∀ h : Fin 16, lockOf n d = h.val + 1 →
      Runs (.lockRead n [w]) s
        (after s { d with rdata := BitVec.ofNat 64 (h.val + 1), lockSeen := [(w.rq.val, h.val + 1)] }))

/-- The holder's write of its own number frees a lock; every other write is ignored and counted in LOCKERR. -/
def Obligations.LockWrites : Prop :=
  ∀ (s : State) (d : Dev) (n : Fin 128) (v : Fin 16) (w : Who), d = start s → isUp SCHi d = true → lvlOk false w = true →
    (lockOf n d = w.rq.val + 1 → v = w.rq →
      ∃ t, Runs (.lockWrite n v w) s t ∧ lockOf n t.dev = 0 ∧ ∀ m, m ≠ n.val → lockOf m t.dev = lockOf m d) ∧
    (¬ (lockOf n d = w.rq.val + 1 ∧ v = w.rq) → Runs (.lockWrite n v w) s (after s (inc SCH.LOCKERR d)))

/-- Of several requesters that read one free lock at once, the lowest becomes holder and reads 0, whatever their number; every
other reads the winner's number plus 1. -/
def Obligations.LockTies : Prop :=
  ∀ (s : State) (d : Dev) (n : Fin 128) (w : Who) (l : List Who), d = start s → isUp SCHi d = true → lockOf n d = 0 →
    w ∈ l → (∀ q ∈ l, lvlOk false q = true ∧ w.rq ≤ q.rq) → (l.map (·.rq)).Nodup →
    ∃ t, Runs (.lockRead n l) s t ∧ lockOf n t.dev = w.rq.val + 1 ∧ (∀ m, m ≠ n.val → lockOf m t.dev = lockOf m d) ∧
      (w.rq.val, 0) ∈ t.dev.lockSeen ∧ ∀ q ∈ l, q ≠ w → (q.rq.val, w.rq.val + 1) ∈ t.dev.lockSeen

/-- POOLTAKE takes a free frame, marks it OTHER and answers its number, or 0xFFFF_FFFF where none is free; POOLGIVE frees an
OTHER or MAPPED frame, and counts a write of any other in POOLERR. Which free frame is taken is free (log 3). -/
def Obligations.PoolFrames : Prop :=
  ∀ (s : State) (d : Dev) (w : Who), d = start s → isUp MEMi d = true → atS w = true →
    rd MEM.FTBASE d + 8 * frames ≤ dramSize →
    (∀ f, pickBlock 1 d = some f → ftState (ftGet f d) = fFree ∧
      ∃ t, Runs (.pooltake w) s t ∧ t.dev.rdata.toNat = f ∧ ftState (ftGet f t.dev) = fOther) ∧
    (pickBlock 1 d = none → (∀ f, f < frames → ftState (ftGet f d) ≠ fFree) ∧
      ∃ t, Runs (.pooltake w) s t ∧ t.dev.rdata = 0xFFFFFFFF) ∧
    (∀ f : BitVec 28, f.toNat < frames → (ftState (ftGet f.toNat d) = fOther ∨ ftState (ftGet f.toNat d) = fMapped) →
      ∃ t, Runs (.poolgive f w) s t ∧ ftState (ftGet f.toNat t.dev) = fFree) ∧
    (∀ f : BitVec 28, ¬ (f.toNat < frames ∧ (ftState (ftGet f.toNat d) = fOther ∨ ftState (ftGet f.toNat d) = fMapped)) →
      Runs (.poolgive f w) s (after s (inc MEM.POOLERR d)))

/-- ERET above U takes the pc, the level and the section's state from its level's registers, clears EACT and restarts NPCNT
where a section is active again; at U it raises PRIV. -/
def Obligations.EretReturns : Prop :=
  ∀ (s : State) (d : Dev) (n : CoreNo) (w : Nat) (d' : Dev) (c : Core), d = start s → Issues n d w d' → c = coreOf n d →
    reads (.d 0x37 3 []) w = true →
    (c.x.lvl ≠ .u → Uncancelled n (coreSet n c d') →
      ∃ t, Runs (.eret n) s t ∧ (coreOf n t.dev).x.pc = (c.exc c.x.lvl).epc ∧ (coreOf n t.dev).x.lvl = (c.exc c.x.lvl).plev ∧
        (coreOf n t.dev).np = (c.exc c.x.lvl).pnp ∧ ((coreOf n t.dev).exc c.x.lvl).eact = false ∧
        ((c.exc c.x.lvl).pnp = true → (coreOf n t.dev).npcnt t.dev.raw = 0)) ∧
    (c.x.lvl = .u → Runs (.eret n) s (after s (cancelHere n (takeTrap n ⟨xPriv, w, false⟩ c.x.pc (coreSet n c d')))))

/-- The return from an exception just taken comes back to the level, the pc and the section's state it was taken from, and
leaves the level's registers ready for the next (R409, R411). -/
def Obligations.TrapThenReturn : Prop :=
  ∀ (c : Core) (x : Trap) (epc : W64) (raw raw' : Nat) (l : Level), l = trapLevel c x.code →
    (c.enter x l epc raw).x.lvl = l ∧ (c.enter x l epc raw).x.pc = (c.exc l).evec ∧ (c.enter x l epc raw).np = false ∧
    ((c.enter x l epc raw).exc l).eact = true ∧ ((c.enter x l epc raw).exc l).code = x.code ∧
    ((c.enter x l epc raw).leave raw').x.lvl = c.x.lvl ∧ ((c.enter x l epc raw).leave raw').x.pc = epc ∧
    ((c.enter x l epc raw).leave raw').np = c.np ∧ (((c.enter x l epc raw).leave raw').exc l).eact = false ∧
    ((c.enter x l epc raw).leave raw').x.g = c.x.g

/-- Pretan's integer instructions change their destination register, the pc and IRET, and nothing else; a write to g0 changes
no register (R386). -/
def Obligations.IntegerFrame : Prop :=
  ∀ (s : State) (d : Dev) (n : CoreNo) (w : Nat) (d' : Dev) (c : Core) (rd rs rt : RegNo) (imm : BitVec 16) (amt : Fin 64)
    (p : Fin 8) (cmd : Instr),
    d = start s → Issues n d w d' → c = coreOf n d → Uncancelled n (coreSet n c d') →
    (cmd ∈ [.add n rd rs rt, .sub n rd rs rt, .and n rd rs rt, .or n rd rs rt, .xor n rd rs rt, .nor n rd rs rt,
        .sll n rd rs rt, .srl n rd rs rt, .sra n rd rs rt, .mul n rd rs rt, .mulhs n rd rs rt, .mulhu n rd rs rt,
        .div n rd rs rt, .divu n rd rs rt, .rem n rd rs rt, .remu n rd rs rt, .min n rd rs rt, .max n rd rs rt,
        .minu n rd rs rt, .maxu n rd rs rt] ∧ reads (.a 0x01 rd rs rt) w = true) ∨
    (cmd ∈ [.addi n rd rs imm] ∧ reads ⟨0x02, [(21, 5, rd), (16, 5, rs), (0, 16, imm.toNat)]⟩ w = true) ∨
    (cmd ∈ [.andi n rd rs imm] ∧ reads ⟨0x03, [(21, 5, rd), (16, 5, rs), (0, 16, imm.toNat)]⟩ w = true) ∨
    (cmd ∈ [.ori n rd rs imm] ∧ reads ⟨0x04, [(21, 5, rd), (16, 5, rs), (0, 16, imm.toNat)]⟩ w = true) ∨
    (cmd ∈ [.xori n rd rs imm] ∧ reads ⟨0x05, [(21, 5, rd), (16, 5, rs), (0, 16, imm.toNat)]⟩ w = true) ∨
    (cmd ∈ [.lui n rd imm] ∧ reads ⟨0x06, [(21, 5, rd), (0, 16, imm.toNat)]⟩ w = true) ∨
    (cmd ∈ [.slli n rd rs amt, .srli n rd rs amt, .srai n rd rs amt] ∧
      reads ⟨0x07, [(21, 5, rd), (16, 5, rs), (0, 6, amt)]⟩ w = true) ∨
    (cmd ∈ [.sel n rd rs rt p] ∧ reads ⟨0x0B, [(21, 5, rd), (16, 5, rs), (11, 5, rt), (0, 3, p)]⟩ w = true) →
    ∃ t, exec cmd s = .next t ∧ WroteOnly n rd c s d' t ∧ (coreOf n t.dev).x.pc = c.x.pc + 4 ∧
      (coreOf n t.dev).iret = c.iret + 1

/-- Stores of a core to DRAM where ECC finds nothing: the bytes stored at the translated address are the register's low bytes, every
byte outside them is as the access through its leaf left it, and every register of every core but the pc is as it was (R388, R389,
R447, R452). -/
def Obligations.StoreFrame : Prop :=
  ∀ (s : State) (d : Dev) (n : CoreNo) (w : Nat) (d' : Dev) (c : Core) (rd base : RegNo) (off : BitVec 12) (r : Reached)
    (d2 u : Dev) (nb : Nat) (cmd : Instr),
    d = ties s.pending (start s) → Issues n d w d' → c = coreOf n d → reads (.m 0x11 rd base off) w = true →
    memAddr base off c % nb = 0 →
    (nb = 1 ∧ cmd = .sb n rd base off .clean ∨ nb = 2 ∧ cmd = .sh n rd base off .clean ∨
      nb = 4 ∧ cmd = .sw n rd base off .clean ∨ nb = 8 ∧ cmd = .sd n rd base off .clean) →
    c.reach .store (memAddr base off c) d' = (.ok r, d2) → r.pa + nb ≤ dramSize → marked (r.pa / 8) 1 d2 = [] →
    u = used r .store d2 → Uncancelled n (coreSet n c (dramWrite r.pa (leBytes nb (c.get rd).toNat) u)) →
    ∃ t, exec cmd s = .next t ∧ dramRead r.pa nb t.dev = leBytes nb (c.get rd).toNat ∧
      (∀ a, a < r.pa ∨ r.pa + nb ≤ a → dramGet a t.dev = dramGet a u) ∧
      (coreOf n t.dev).x = c.next.x ∧ (∀ k, k ≠ n.val → coreOf k t.dev = coreOf k d2) ∧
      t.dev.regs = d2.regs ∧ t.pending = s.pending ∧ t.fuses = s.fuses

/-- Rates, snapshots, corrections, steps, trigger units and the time pulse of the time bases. -/
def Obligations.TimeBasesRun : Prop :=
  ∀ (s : State) (d : Dev), d = start s →
    (isUp AONi d → exec .tsnap s = .next (after s (wrS AON.SNAPWALL (wall d) (wrS AON.SNAPCYC (cycle d) (wr AON.SNAPRAW d.raw
      d))))) ∧
    (∀ (onWall : Bool), isUp AONi d → (if onWall then d.aon.wPend else d.aon.cPend) = none → exec (.rarm onWall) s =
      .next (after s (wrateGuard (if onWall then
      { d with aon := { d.aon with wPend := some (rateNext (toS 32 (rd AON.WRATENXT d)) (rd AON.WRATEAT d) d.raw) } } else
      { d with aon := { d.aon with cPend := some (rateNext (toS 32 (rd AON.CRATENXT d)) (rd AON.CRATEAT d) d.raw) } })))) ∧
    (∀ (onWall : Bool) (p : RateNext) (x : Dev), isUp AONi d → (if onWall then d.aon.wPend else d.aon.cPend) = some p →
      ¬ d.raw < p.at_ → x = (if onWall then { d with aon := { d.aon with wPend := none } } else
      { d with aon := { d.aon with cPend := none } }) → exec (.rateChange onWall) s =
      .next (after s (wrateGuard (if onWall then (if p.late then raise AON.WSTAT.RATELATE (noted x (takeWrate p.rate x)) else
      inTime (takeWrate p.rate) x) else (if p.late then raise AON.CCTL.RATELATE (noted x (takeCrate p.rate x)) else
      inTime (takeCrate p.rate) x))))) ∧
    (∀ (src : Fin 4) (fw : Bool) (amt : W64) (y : Dev), isUp AONi d →
      y = whenB fw (unheld (winBase AONi + 0x10B0)) (ties s.pending d) → rd AON.WCTL.SRC y = src.val → src.val ≠ 0 →
      (fw = true → src.val ≠ 1) → exec (.wallCorrection src fw amt) s =
      .next (after s (accAfter (wrateGuard (noted y (checkDiverged (received amt.toInt y))))))) ∧
    (∀ (w : Slew), isUp AONi d → d.aon.slew = some w → slewDone ((d.raw : Int) - rd AON.WBASE d) w = true → exec .slewEnd s =
      .next (after s (noted d (wrB AON.WSTAT.SLEWING false
      { rebaseWall d with aon := { (rebaseWall d).aon with slew := none } })))) ∧
    (∀ (y : Dev), isUp AONi d → y = ties s.pending d → s.pending.any (bringsCorrection d) = false →
      on AON.WSTAT.STEPPEND y = true → exec .stepacc s = .next (after s (stepAcc y))) ∧
    (∀ (y : Dev), isUp AONi d → y = ties s.pending d → s.pending.any (bringsCorrection d) = true → exec .stepacc s =
      .next (after s ((fun x => { x with aon := { x.aon with accDue := true } }) y))) ∧
    (∀ (y : Dev), isUp AONi d → y = ties s.pending d → s.pending.any (bringsCorrection d) = false →
      on AON.WSTAT.STEPPEND y = false → exec .stepacc s = .next (after s (raise AON.WSTAT.ACCNONE y))) ∧
    (isUp AONi d → rd AON.WCTL.HOLDTO d * rawPerS ≤ d.raw - d.aon.lastCorr → on AON.WSTAT.VALID d = true →
      on AON.WSTAT.HOLDOVER d = false → exec .wallHoldover s =
      .next (after s (lichen 0 0x0105 [] ((fun x =>
      { x with aon := { x.aon with lockFrom := none, holdRaw := x.raw, holdUnc := wunc d } }) (wrB AON.WSTAT.LOCKED false (wrB
      AON.WSTAT.HOLDOVER true d)))))) ∧
    (∀ (src : Fin 4), isUp AONi d → rd AON.WCTL.SRC d ≠ src.val → exec (.srcChange src) s =
      .next (after s (wrateGuard (wr AON.WCTL.SRC src (holdover d))))) ∧
    (∀ (x : Dev), isUp AONi d → x = checkDiverged d → on AON.CCTL.FOLLOW x = true → on AON.WSTAT.LOCKED x = true →
      on AON.CCTL.DIVERGED x = false → x.aon.follRaw + rawPerS ≤ x.raw ∨ x.aon.follRaw = 0 → exec .cycleFollow s =
      .next (after s (noted x (takeCrate (followRate x) (drawn { x with aon := { x.aon with follRaw := x.raw } }))))) ∧
    (∀ (v : Bool), isUp AONi d → (v = true → on RAD.RADCTL.MOSS d = true) → exec (.stepenWrite v) s =
      .next (after s (wrB AON.CCTL.STEPEN v d))) ∧
    (∀ (v : W64) (x y z r : Dev), isUp AONi d → x = unheld (winBase AONi + 0x1048) d → on AON.CCTL.STEPEN x = true →
      y = wr AON.COFF v.toNat x → z = realignAll false (cycle x) (cycle y) y → r = ctlStep (cycle x) (cycle y) (cycNs z) z →
      exec (.coffWrite v) s = .next (after s (noted x (checkDiverged (radStep (cycle x) (cycle y)
      { r with net := { r.net with cycLast := if cycle y % (cycNs z : Int) = 0 then none else some (ofS 64 (cycle y) / cycNs z) } })))))
      ∧
    (∀ (n : Fin 16) (v : W32), isUp AONi d → exec (.trigctlWrite n v) s = .next (after s (trigCtl n v.toNat d))) ∧
    (∀ (n : Fin 16), isUp AONi d → exec (.triggerFire n) s = .next (after s (fireUpTo n (ties s.pending d)))) ∧
    (∀ (n : Fin 16) (y z : Dev), isUp AONi d → y = ties s.pending d →
      (List.range n.val).filter (fun m => rd (AON.TRIGCTL.DEST m) y == rd (AON.TRIGCTL.DEST n) y) = [] → fires n y = true →
      z = fireLater n (inc (AON.FIRECNT n) (raise (AON.TRIGCTL.FIRED n) y)) → on (AON.TRIGCTL.PER n) z = false →
      exec (.triggerFire n) s = .next (after s (deliver n (rd (AON.TRIGTGT n) y) (wrB (AON.TRIGCTL.EN n) false z)))) ∧
    (∀ (n : Fin 16) (y : Dev), isUp AONi d → y = ties s.pending d →
      (List.range n.val).filter (fun m => rd (AON.TRIGCTL.DEST m) y == rd (AON.TRIGCTL.DEST n) y) = [] →
      s.pending.any (clearsEn n d) = true → exec (.triggerFire n) s = .next (after s y)) ∧
    (isUp AONi d → (wall d).fdiv 1000000000 ≠ d.aon.ppsSec → d.aon.ppsRaw = none → exec .tpulseRise s =
      .next (after s (tpulsePin (inc AON.TPSTAT.PULSECNT
      { d with aon := { d.aon with ppsSec := (wall d).fdiv 1000000000, ppsHigh := true, ppsRaw := some d.raw, ppsPin := on SEC.J6CTL.TPEN d && !on SEC.J6STAT.TPOVLD d } }))))
      ∧
    (∀ (r : Nat), isUp AONi d → d.aon.ppsRaw = some r → d.aon.ppsHigh = true → r + rawPerS / 10 ≤ d.raw → exec .tpulseFall s =
      .next (after s (tpulsePin { d with aon := { d.aon with ppsHigh := false } }))) ∧
    (∀ (r : Nat), isUp AONi d → d.aon.lockFrom = some r → on AON.WSTAT.LOCKED d = true → r + 7200 * rawPerS ≤ d.raw →
      exec .rateLearned s = .next (after s (wrB AON.WSTAT.RATELRN true d)))

/-- Lichen takes, writes, limits, reads, digests and erases records. -/
def Obligations.LichenKeeps : Prop :=
  ∀ (s : State) (d : Dev), d = start s →
    (∀ (p : Packet) (x : Dev), isUp AONi d → on AON.LSTAT.SCAN d = false → hwPeek 34 d = some p → p.ecc ≠ .double →
      x = hwTaken 34 (heeded 34 p.ecc d) → exec .lichenRecord s =
      .next (after s (lLimit (lStamp ((p.items.getD 0 0).toNat % 2 ^ 16) p.who (leBytes 8 (p.items.getD 1 0).toNat ++ leBytes
      4 (p.items.getD 2 0).toNat) x) x))) ∧
    (∀ (r : LRec) (l : List LRec), isUp AONi d → lWritable d = true → d.aon.lich.buf = r :: l → exec .lichenWriteDone s =
      .next (after s (lGapOut (lWriteRec r (withLich (fun x => { x with buf := l }) d))))) ∧
    (isUp AONi d → on AON.LSTAT.SCAN d = true → exec .lichenScan s = .next (after s (lScan d))) ∧
    (∀ (b : Option (Fin 256)), isUp AONi d → rd (lCntF (b.map (·.val))) d ≠ 0 → lTok ≤ lLevel (b.map (·.val)) d →
      exec (.bucketRefill b) s = .next (after s (lSuppOut (b.map (·.val)) d))) ∧
    (∀ (idx : BitVec 21) (w : Who), isUp AONi d → w.lvl ≠ .u → exec (.lichenRead idx w) s =
      .next (after s (lRead idx.toNat d))) ∧
    (isUp AONi d → on AON.LSTAT.SCAN d = false → on AON.LSTAT.DIGOK d = false → exec .digestReady s =
      .next (after s (if on AON.LSTAT.CLRPEND (wrB AON.LSTAT.DIGOK true d) then lClose (wrB AON.LSTAT.DIGOK true d) else
      wrB AON.LSTAT.DIGOK true d))) ∧
    (isUp AONi d → on AON.LSTAT.ERASING d = true → rd AON.LERASE d ≠ 0 → exec .blockEraseDone s =
      .next (after s (lEraseFrom (rd AON.LERASE d + 1) (lEraseBlk (rd AON.LERASE d) d))))

/-- The superframe, events and frames of the radio. -/
def Obligations.RadioSends : Prop :=
  ∀ (s : State) (d : Dev), d = start s →
    (∀ (skew : Bool), isUp RADi d → d.rad.sfLast ≠ some (sfNow d) → ¬ d.raw < d.rad.relRaw + 20 * rawPerMs →
      atSlot 0 d = true → exec (.superframeStart skew) s = .next (after s (sfBeacon s.fuses (sfNow d) (beacon (sfNow d)
      (sfBoundary (sfNow d) skew d)) (sfBoundary (sfNow d) skew d)))) ∧
    (∀ (c : Fin 144), isUp RADi d → eventDue c d = true → displaced c (atInstant c d) = false →
      (ctxOf c (atInstant c d)).term = false → joinTakes c (atInstant c d) = false → exec (.connectionEvent c) s =
      .next (after s ((fun x => if bcast c x then endEvent c false x else
      x) ((fun x => ctxSet c { ctxOf c x with isOpen := true } x) (sendDown s.fuses c (atInstant c d)))))) ∧
    (∀ (c : Fin 144), isUp RADi d → eventDue c d = true → displaced c (atInstant c d) = false →
      (ctxOf c (atInstant c d)).term = true → joinTakes c (atInstant c d) = false →
      termHeld s.fuses c (atInstant c d) = false → exec (.connectionEvent c) s =
      .next (after s (freeCtx c (sendTerminate s.fuses c (atInstant c d))))) ∧
    (∀ (c : Fin 144), isUp RADi d → eventDue c d = true → displaced c (atInstant c d) = false →
      joinTakes c (atInstant c d) = true → exec (.connectionEvent c) s = .next (after s (passEvent c (atInstant c d)))) ∧
    (∀ (c : Fin 144) (frame : List Byte) (acc : Fin 33) (pair : Bool) (rssi : Byte) (off : W32), isUp RADi d →
      hears d = true → joinCuts c d = false → (ctxOf c d).isOpen = true → ¬ 2 < acc.val → rxWindow c off.toInt d = true →
      divHears (laneOf c d) pair d = true → exec (.frameReceive c frame acc pair rssi off) s =
      .next (after s (frameHeard s.fuses c (nats frame) pair rssi.toNat (divCount (laneOf c d) pair d)))) ∧
    (∀ (p : Packet), isUp RADi d → hwPeek 8 d = some p → p.ecc ≠ .double → exec .txPacket s =
      .next (after s (txItems p.items (hwTaken 8 (heeded 8 p.ecc d))))) ∧
    (∀ (l : Fin 4) (v : Bool), isUp RADi d → exec (.fence l v) s = .next (after s (wrB (RAD.LCTL.FENCE l) v d))) ∧
    (∀ (r0 r1 r2 r3 : Option Byte), isUp RADi d → d.rad.lbDue = true → lbSlot s.fuses d = true →
      exec (.loopbackCheck r0 r1 r2 r3) s = .next (after s (forAll (List.range 4) (fun l => laneLoop (([r0, r1, r2,
      r3].getD l none).map BitVec.toNat) l) { d with rad := { d.rad with lbDue := false } })))

/-- Power, dwell, hopping, joins, and the arming, updating and ending of radio contexts. -/
def Obligations.RadioContextsRun : Prop :=
  ∀ (s : State) (d : Dev), d = start s →
    (∀ (l : Fin 4) (bcn : Bool) (v : W32), isUp RADi d → exec (.txpwrWrite l bcn v) s =
      .next (after s ((fun c => (if c = v.toInt then id else wrB (RAD.LSTAT.PWRCLAMP l) true) (wrS (if bcn then RAD.BCNPWR l
      else RAD.TXPWR l) c d)) (max (-10) (min v.toInt (pwrCap s.fuses d)))))) ∧
    (∀ (v : W32), isUp RADi d → exec (.dwellLimitWrite .pwrcap v) s =
      .next (after s (wrS RAD.PWRCAP (min (toS 32 v.toNat) (regionMax s.fuses)) d))) ∧
    (∀ (v : W32), isUp RADi d → v.toNat ≠ 0 → exec (.dwellLimitWrite .dwellwin v) s =
      .next (after s (wr RAD.DWELLWIN (min v.toNat 400) d))) ∧
    (∀ (v : W32), isUp RADi d → v.toNat ≠ 0 → exec (.dwellLimitWrite .dwelllim v) s =
      .next (after s (budget (wr RAD.DWELLLIM (min v.toNat 400) d)))) ∧
    (∀ (v : W32), isUp RADi d → on RAD.RADCTL.MOSS d = true → anyArmed d = false → v.toNat ≤ 36 → exec (.rejoinchWrite v) s =
      .next (after s ((fun x => { x with aon := { d.aon with mapCopy := some (rd RAD.CHMAP d, v.toNat) } }) (wr RAD.REJOINCH
      v.toNat d)))) ∧
    (isUp RADi d → mapBad d = false → exec .mapctlArm s = .next (after s (mapTake d))) ∧
    (∀ (l : Fin 4) (x : Dev) (q : JoinReq) (rest : List JoinReq), isUp RADi d → joinDue s.fuses l d = true →
      x = joinHeld l (forAll (List.range 144) (fun c d => if joinCuts c d then endEvent c false d else d) d) →
      x.rad.joinQ = q :: rest → dwellOk (chanOf s.fuses l (sfNow x) x) 184 x = true → exec (.joinEvent l) s =
      .next (after s (joinAnswer s.fuses l q { x with rad := { x.rad with joinQ := rest } }))) ∧
    (∀ (l : Fin 4) (frame : List Byte) (ctr : W32) (pair : Bool) (rssi : Byte), isUp RADi d → hears d = true →
      joinOpen s.fuses l d = true → fromSlot 78 d = true → (List.range 4).any (fun l => sending l d) = false →
      divHears l pair d = true → exec (.joinReq l frame ctr pair rssi) s =
      .next (after s (joinHeard l (nats frame) ctr.toNat pair rssi.toNat (divCount l pair d)))) ∧
    (∀ (c : Fin 144), isUp RADi d → armed c d = false → placeErr c (placeWord c d) (timersWord c d) (rd (RAD.FIRSTSF c) d) d =
      0 → exec (.arm c false) s = .next (after s ((fun x => mapRetell c (setLink c (if bcast c x then lActive else
      lJoining) (wr (RAD.NEXTSF c) (rd (RAD.FIRSTSF c) x) x))) (linkReset c (wrB (RAD.CTXCTL.ARM c) true d))))) ∧
    (∀ (c : Fin 144), isUp RADi d → armed c d = true → exec (.arm c true) s =
      .next (after s (ctxSet c { ctxOf c d with term := true } d))) ∧
    (∀ (c : Fin 144), isUp RADi d → armed c d = true → exec (.term c) s =
      .next (after s (ctxSet c { ctxOf c d with term := true } d))) ∧
    (∀ (c : Fin 144), isUp RADi d → armed c d = true → displaced c d = false → (ctxOf c d).upd = none →
      ¬ toS 16 (ofS 16 ((rd (RAD.EVC.INSTANT c) d : Int) - rd (RAD.EVC.EVENT c) d)) < 6 →
      placeErr c (placeNxt c d) (timersNxt c d) (instSf c (rd (RAD.EVC.INSTANT c) d) d) d = 0 → exec (.updarm c) s =
      .next (after s ((fun u => (fun x => mapRetell c (queueCtl c (paramUpdate c u x) x)) (wrB (RAD.STATE.UPDPEND c) true
      (ctxSet c { ctxOf c d with upd := some u } d))) ⟨placeNxt c d, timersNxt c d, rd (RAD.EVC.INSTANT c) d⟩))) ∧
    (∀ (c : Fin 144), isUp RADi d → armed c d = true → displaced c d = true →
      placeErr c (placeNxt c d) (timersNxt c d) (rd (RAD.FIRSTSF c) d) d = 0 → exec (.updarm c) s =
      .next (after s ((fun x => mapRetell c (setLink c lJoining (wr (RAD.NEXTSF c) (rd (RAD.FIRSTSF c) x) (linkReset c x))))
      ((fun x => if (ctxOf c x).keyUsed then wrB (RAD.KEYH.VALID c) false x else
      x) (setTimers c (timersNxt c d) (setPlace c (placeNxt c d) d)))))) ∧
    (∀ (c : Fin 144) (u : Upd), isUp RADi d → armed c d = true → (ctxOf c d).isOpen = false → (ctxOf c d).mapAt = none →
      (ctxOf c d).upd = some u → u.inst = rd (RAD.EVC.EVENT c) d → exec (.updateInstant c) s =
      .next (after s ((fun x => if on (RAD.LSTAT.FENCED (laneOf c x)) x then toMigrating c x else
      x) (setTimers c u.timers (setPlace c u.place (wrB (RAD.STATE.UPDPEND c) false (ctxSet c { ctxOf c d with upd := none }
      d))))))) ∧
    (∀ (c : Fin 144) (i : Nat) (x : Dev), isUp RADi d → supDue c d = true → link c d = lActive ∨ link c d = lMigrating →
      (ctxOf c d).told = false → i = rd (RAD.CTXCTL.ID c) d →
      x = setLink c lLost (ctxSet c { ctxOf c d with told := true, adrift := link c d == lMigrating } d) →
      exec (.linkLost c) s = .next (after s (lichen 7 0x0801 ([c.val] ++ leBytes 2 i) (token 5 7 0xEB (c + i % 1024 * 2 ^ 16)
      (if rd (RAD.CTXCTL.KIND c) x = 0 then hwPush 18 [BitVec.ofNat 64 (i % 1024)] x else x))))) ∧
    (∀ (c : Fin 144), isUp RADi d → supDue c d = true → link c d = lJoining → exec (.joiningTimeout c) s =
      .next (after s (freeCtx c d)))

/-- Stop requests, withdrawals and tokens on the stop chain. -/
def Obligations.StopChainRuns : Prop :=
  ∀ (s : State) (d : Dev), d = start s →
    (∀ (cause : Byte), isUp RADi d → exec (.globalStopRequest cause .reg) s = .next (after s (radStop 1 0 0 cause.toNat d))) ∧
    (∀ (cause : Byte) (via : StopVia) (p : Packet), isUp RADi d → via ≠ .reg → hwPeek (if via = .sch then 16 else
      17) d = some p → p.ecc ≠ .double → bits (p.items.getD 0 0).toNat 0 2 = 1 → exec (.globalStopRequest cause via) s =
      .next (after s (radStop 1 (bits (p.items.getD 0 0).toNat 2 6) (bits (p.items.getD 0 0).toNat 8 10) (bits (p.items.getD 0
      0).toNat 18 8) (hwTaken (if via = .sch then 16 else 17) (heeded (if via = .sch then 16 else 17) p.ecc d))))) ∧
    (∀ (z : Fin 64), isUp RADi d → exec (.zoneStop z .reg) s = .next (after s (radStop 2 z 0 0 d))) ∧
    (∀ (z : Fin 64) (via : StopVia) (p : Packet), isUp RADi d → via ≠ .reg → hwPeek (if via = .sch then 16 else
      17) d = some p → p.ecc ≠ .double → bits (p.items.getD 0 0).toNat 0 2 = 2 → exec (.zoneStop z via) s =
      .next (after s (radStop 2 (bits (p.items.getD 0 0).toNat 2 6) (bits (p.items.getD 0 0).toNat 8 10) (bits (p.items.getD 0
      0).toNat 18 8) (hwTaken (if via = .sch then 16 else 17) (heeded (if via = .sch then 16 else 17) p.ecc d))))) ∧
    (∀ (m : BitVec 10) (z : Fin 64), isUp RADi d → exec (.singleMember m z .reg) s =
      .next (after s (radStop 3 z m.toNat 0 d))) ∧
    (∀ (m : BitVec 10) (z : Fin 64) (via : StopVia) (p : Packet), isUp RADi d → via ≠ .reg →
      hwPeek (if via = .sch then 16 else 17) d = some p → p.ecc ≠ .double → bits (p.items.getD 0 0).toNat 0 2 = 3 →
      exec (.singleMember m z via) s = .next (after s (radStop 3 (bits (p.items.getD 0 0).toNat 2 6) (bits (p.items.getD 0
      0).toNat 8 10) (bits (p.items.getD 0 0).toNat 18 8) (hwTaken (if via = .sch then 16 else
      17) (heeded (if via = .sch then 16 else 17) p.ecc d))))) ∧
    (∀ (e : Ecc) (p : Packet), isUp RADi d → hwPeek 10 d = some p → worseEcc e p.ecc ≠ .double → exec (.tokenDelivery e) s =
      .next (after s (tokenArrives (tokOf p.items) (hwTaken 10 (heeded 10 (worseEcc e p.ecc) d))))) ∧
    (∀ (e : Ecc) (p : Packet), isUp RADi d → hwPeek 10 d = some p → worseEcc e p.ecc = .double → exec (.tokenDelivery e) s =
      .next (after s (toksVoid (chainLost (sqEcc 10 (hwTaken 10 d)))))) ∧
    (∀ (e : Ecc) (p : Packet), isUp RADi d → hwPeek 11 d = some p → worseEcc e p.ecc ≠ .double → p.items.getD 0 0 = 0 →
      exec (.withdrawal false e) s = .next (after s (taken s.fuses 11 ((fun x =>
      { x with rad := { x.rad with wd := some ((p.items.getD 1 0).toNat, (p.items.getD 2 0) != 0, (p.items.getD 3 0).toNat), cause := some (p.items.getD 1 0).toNat } })
      (hwTaken 11 (heeded 11 (worseEcc e p.ecc) d)))))) ∧
    (∀ (e : Ecc) (p : Packet), isUp CTLi d → hwPeek 12 d = some p → worseEcc e p.ecc ≠ .double → p.items.getD 0 0 = 0 →
      exec (.withdrawal true e) s = .next (after s (ctlStop none (hwTaken 12 (heeded 12 (worseEcc e p.ecc) d))))) ∧
    (∀ (e : Ecc) (p : Packet), isUp CTLi d → hwPeek 12 d = some p → worseEcc e p.ecc ≠ .double → p.items.getD 0 0 = 1 →
      exec (.decisionSnapshot e) s = .next (after s (wr CTL.ZGMIR (p.items.getD 1 0).toNat (hwTaken 12 (heeded 12 (worseEcc e
      p.ecc) d))))) ∧
    (∀ (e : Ecc) (p : Packet), isUp SECi d → hwPeek 13 d = some p → worseEcc e p.ecc ≠ .double → p.items.length = 4 →
      exec (.forwardedStop false e) s = .next (after s (taken s.fuses 13 (secStop (p.items.getD 0 0).toNat (p.items.getD 1
      0).toNat (p.items.getD 2 0).toNat (p.items.getD 3 0).toNat (hwTaken 13 (heeded 13 (worseEcc e p.ecc) d)))))) ∧
    (∀ (e : Ecc) (p : Packet), isUp CTLi d → hwPeek 14 d = some p → worseEcc e p.ecc ≠ .double →
      exec (.forwardedStop true e) s = .next (after s ((if (p.items.getD 0 0).toNat = 1 then ctlStop none else
      if (p.items.getD 0 0).toNat = 2 then ctlStop (some (p.items.getD 1 0).toNat) else
      id) (hwTaken 14 (heeded 14 (worseEcc e p.ecc) d))))) ∧
    (∀ (e : Ecc) (p : Packet), isUp SECi d → hwPeek 13 d = some p → worseEcc e p.ecc ≠ .double → p.items.length = 2 →
      exec (.beaconReport e) s = .next (after s (taken s.fuses 13 (bcnReport ((p.items.getD 0 0).toNat % 2 ^ 32)
      ((p.items.getD 0 0).toNat / 2 ^ 32) ((p.items.getD 1 0).toNat % 2 ^ 32) (bit (p.items.getD 1 0).toNat 32) (hwTaken 13
      (heeded 13 (worseEcc e p.ecc) d)))))) ∧
    (isUp SECi d → bcnLate d = true → exec .beaconReportMissing s =
      .next (after s (bcnMismatch (sfNow d) { d with sec := { d.sec with bcnSf := some (sfNow d) } })))

/-- The permission monitor's decisions, heartbeats, grace and firmware writes. -/
def Obligations.PermissionRuns : Prop :=
  ∀ (s : State) (d : Dev), d = start s →
    (∀ (flt : Option HalfFault), isUp SECi d → exec (.decisionInstant flt) s = .next (after s (decide_ s.fuses flt d))) ∧
    (∀ (flt : Option HalfFault), isUp SECi d → exec (.grantEval flt) s = .next (after s (evalGrant flt d))) ∧
    (∀ (v : W32) (w : Who), isUp SECi d → atS w = true → d.sec.hbLast = none → exec (.appHeartbeat v w) s =
      .next (after s (hbAccept v d))) ∧
    (∀ (v p : W32) (w : Who), isUp SECi d → atS w = true → d.sec.hbLast = some p → d.sec.hbAny = true ∨ v = p + 1 →
      exec (.appHeartbeat v w) s = .next (after s (hbAccept v d))) ∧
    (∀ (e : Ecc) (p : Packet) (x : Dev), isUp SECi d → hwPeek 15 d = some p → worseEcc e p.ecc ≠ .double →
      x = hwTaken 15 (heeded 15 (worseEcc e p.ecc) d) → exec (.schHeartbeat e) s =
      .next (after s (pmMirror { x with sec := { x.sec with schRaw := some x.raw } }))) ∧
    (∀ (v : W64) (w : Who), isUp SECi d → atS w = true → on SEC.PMSTAT.GRACE d = false → exec (.zgrantWrite v w) s =
      .next (after s ((if d.sec.cutRaw = some d.raw then d.sec.cutZones else
      []).foldl (fun x z => wrBit SEC.ZGRANT z false x) (wr SEC.ZGRANT v.toNat d)))) ∧
    (∀ (m : BitVec 10) (w : Who), isUp SECi d → atS w = true → on SEC.PMSTAT.GRACE d = false →
      d.sec.cutRaw ≠ some d.raw ∨ m.toNat ∉ d.sec.cutMembs → exec (.unsingle m w) s =
      .next (after s ({ d with sec := { d.sec with unsingle := d.sec.unsingle ++ [m.toNat] } }))) ∧
    (∀ (cause : Byte) (w : Who), isUp SECi d → atS w = true → exec (.pmctlGstop cause w) s =
      .next (after s (latchStop (if cause = 6 then cNetStop else cFwStop) d))) ∧
    (∀ (w : Who), isUp SECi d → atS w = true → d.sec.fixq = true → on SEC.PMSTAT.GRACE d = false → exec (.full w) s =
      .next (after s (wrB SEC.PMSTAT.CRAWL false d))) ∧
    (∀ (w : Who), isUp SECi d → atM w = true → appHbOk d = true → d.sec.hbSteady + rawPerS ≤ d.raw → (∀ r,
      d.sec.graceEnd = some r → r + 10 * rawPerS ≤ d.raw) → exec (.gracereq w) s =
      .next (after s (wrB SEC.PMSTAT.GRACEARM true { d with sec := { d.sec with graceArm := some d.raw } }))) ∧
    (∀ (r : Nat), isUp SECi d → d.sec.graceArm = some r → r + 100 * rawPerMs < d.raw → exec .graceLapse s =
      .next (after s (wrB SEC.PMSTAT.GRACEARM false { d with sec := { d.sec with graceArm := none } }))) ∧
    (∀ (r : Nat), isUp SECi d → d.sec.graceAt = some r → r + 500 * rawPerMs ≤ d.raw → exec .graceTimeout s =
      .next (after s (latchStop cGraceEnd (wrB SEC.PMSTAT.GRACE false
      { d with sec := { d.sec with graceAt := none, graceEnd := some d.raw } })))) ∧
    (∀ (c : Fin 144) (k : List Nat), isUp SECi d → isUp RADi d → slotKey 2 d = some k → armed c d = true →
      rd (RAD.CTXCTL.KIND c) d = 0 → exec (.bkey c false) s =
      .next (after s (bkeySend c (rd SEC.BKGEN.CUR d) d.keep.nor.genSf k (redraw 2 d)))) ∧
    (∀ (c : Fin 144) (k : List Nat), isUp SECi d → isUp RADi d → slotKey 3 d = some k → armed c d = true →
      rd (RAD.CTXCTL.KIND c) d = 0 → on SEC.BKGEN.NEXTPEND d = true → exec (.bkey c true) s =
      .next (after s (bkeySend c (rd SEC.BKGEN.NEXT d) (rd SEC.BKFIRST d) k (redraw 3 d))))

/-- Start-up, boot, spore and moss service. -/
def Obligations.StartUpRuns : Prop :=
  ∀ (s : State) (d : Dev), d = start s →
    (isUp AONi d → d.aon.power = .starting → exec .aonStartDone s = .next (after s (forAll [1, 2, 3, 4, 5, 6, 7,
      8] startIsl (inc AON.STARTCNT { d with aon := { d.aon with power := .run } })))) ∧
    (isUp APPi d → d.app.boot = .rom → d.keep.tampHold = false → isUp SECi d = true → isUp MEMi d = true →
      exec .bootSlotCheck s = .next (after s (bootCheck s.fuses d))) ∧
    (∀ (im : Image), isUp APPi d → d.app.boot = .passed → d.app.img = some im → exec .firmwareEntry s =
      .next (after s (coresEnter (coresNow d) im.entry { d with app := { d.app with boot := .firmware } }))) ∧
    (isUp APPi d → d.app.boot = .failed → exec .bootFail s = .next (after s (lichen 2 0x0303 [] (wr AON.BOOTSTAT.SLOT 2
      { d with app := { d.app with boot := .recovery 0 } })))) ∧
    (∀ (f : PortFrame) (n : Nat), isUp APPi d → toPort f = true → d.app.boot = .recovery n →
      ofBe ((nats f.body).take 2) = 0x0010 → ofBe (sub (nats f.body) 2 4) = n → n % 1024 = 0 →
      ofBe (sub (nats f.body) 6 2) ≠ 0 → ofBe (sub (nats f.body) 6 2) ≤ 1024 → exec (.recovery f) s =
      .next (after s (recoveryChunk f.port f.src.toNat n (sub (nats f.body) 8 (ofBe (sub (nats f.body) 6 2))) s.fuses d))) ∧
    (∀ (f : PortFrame) (n : Nat), isUp APPi d → toPort f = true → d.app.boot = .recovery n →
      ofBe ((nats f.body).take 2) = 0x0010 → ofBe (sub (nats f.body) 2 4) ≠ n → exec (.recovery f) s =
      .next (after s (recoveryAck f.port f.src.toNat n 0 d))) ∧
    (∀ (puf : BitVec 3570) (sp : List Nat × Nat), isUp SECi d → sporeDue d = true → sporeOf puf d = some sp →
      exec (.sporeReady puf) s = .next (after s (deriveRoots s.fuses sp.1 (wr SEC.SPORESTAT.CORR sp.2 (wrB SEC.SPORESTAT.READY
      true { d with sec := { d.sec with spore := some sp.1 } }))))) ∧
    (∀ (puf : BitVec 3570), isUp SECi d → sporeDue d = true → d.keep.nor.helper.isSome = true → sporeOf puf d = none →
      exec (.sporeRetry puf) s = .next (after s (sporeFail d))) ∧
    (∀ (puf : BitVec 3570), isUp SECi d → sporeDue d = true → d.keep.nor.helper.isSome = true → sporeOf puf d = none →
      exec (.sporeReady puf) s = .next (after s (sporeFail d))) ∧
    (∀ (w : Who), isUp SECi d → atM w = true → s.pending.any enters = false → on SEC.PMSTAT.MOSS d = true →
      d.sec.enterRaw ≠ some d.raw → leaveWhy s.fuses d = 0 → exec (.leave false w) s =
      .next (after s ((fun x => { x with rad := { x.rad with mossNext := some false } }) (wrB SEC.PMSTAT.CRAWL true (wrB
      SEC.PMSTAT.MOSS false d))))) ∧
    (∀ (w : Who), s.pending.any enters = true → exec (.leave false w) s = .next (after s d)) ∧
    (∀ (w : Who), isUp SECi d → atM w = true → exec (.leave true w) s =
      .next (after s
      ({ secMoss d with rad := { (secMoss d).rad with mossNext := some true }, sec := { (secMoss d).sec with enterRaw := some (secMoss d).raw } })))
      ∧
    (∀ (w : Who), isUp SECi d → atM w = true → exec (.enter w) s =
      .next (after s
      ({ secMoss d with rad := { (secMoss d).rad with mossNext := some true }, sec := { (secMoss d).sec with enterRaw := some (secMoss d).raw } })))
      ∧
    (∀ (puf : BitVec 3570) (sp : List Nat) (nor : NorS), isUp SECi d → romRuns d = true → lcState s.fuses = 0 →
      sp = sha256 (freeBytes 32 d) → nor =
      { d.keep.nor with helper := some (pufHelper puf (beNat (freeBytes 32 d))), check := checkOf sp } →
      exec (.enrolment puf true) s = .next
      { s with fuses := { s.fuses with devid := beNat ((frond sp (label [0x57, 0x44, 0x49, 0x44] []) 256).take 8), provisioned := true }, dev := resetAsk 0 (lichen 1 0x0204 [0, 1] (drawnN 32 { d with keep := { d.keep with nor := nor } })) })

/-- Resets of the module and of islands, the watchdogs, Standby, Hibernate and the capture. -/
def Obligations.ResetsAndLowPower : Prop :=
  ∀ (s : State) (d : Dev), d = start s →
    (∀ (w : Who), isUp AONi d → atM w = true → d.aon.power = .run → on AON.DUMPCTL.BUSY (rstNote 2 d) = false →
      deeper s.pending 2 d = false → exec (.wrm 0x5A w) s = .next (after s (wrm (rstNote 2 d)))) ∧
    (∀ (key : Byte) (w : Who), deeper s.pending 2 d = true → exec (.wrm key w) s = .next (after s d)) ∧
    (∀ (isl : Fin 16) (w : Who), isUp AONi d → atM w = true → d.aon.power = .run → on AON.DUMPCTL.BUSY (rstNote 1 d) = false →
      1 ≤ isl.val → isl.val ≤ 8 → isl.val ≠ APPi → deeper s.pending 1 d = false → exec (.islgo isl 0x5A w) s =
      .next (after s (islReset isl (rstNote 1 d)))) ∧
    (∀ (w : Who), isUp AONi d → atM w = true → d.aon.power = .run → on AON.DUMPCTL.BUSY (rstNote 1 d) = false →
      deeper s.pending 1 d = false → exec (.islgo 2 0x5A w) s = .next (after s (appReset (rstNote 1 d)))) ∧
    (∀ (isl : Fin 16) (key : Byte) (w : Who), deeper s.pending 1 d = true → exec (.islgo isl key w) s = .next (after s d)) ∧
    (∀ (isl : Fin 9) (u : Nat), isUp AONi d → tget d.isl isl .off = .held u → u ≤ d.raw → tget d.aon.holds isl 0 = 0 →
      exec (.islandRelease isl) s = .next (after s (startIsl isl d))) ∧
    (∀ (w : Who), isUp AONi d → atM w = true → d.aon.power = .run → isUp APPi d → on AON.DUMPCTL.BUSY (rstNote 1 d) = false →
      deeper s.pending 1 d = false → exec (.appIslandReset w) s = .next (after s (appReset (rstNote 1 d)))) ∧
    (isUp AONi d → d.aon.tmpDue = true → deeper s.pending 4 d = false → exec .tmp s =
      .next (after s (Sys2Proof.Machine.tmp (rstNote 4 d)))) ∧
    (∀ (v : W32) (w : Who), isUp AONi d → atS w = true → on AON.WDCTL.EN d = true → d.aon.wdLast = none →
      exec (.wdkick v w) s = .next (after s (wdArm { d with aon := { d.aon with wdLast := some v } }))) ∧
    (∀ (v p : W32) (w : Who), isUp AONi d → atS w = true → on AON.WDCTL.EN d = true → d.aon.wdLast = some p → v = p + 1 →
      exec (.wdkick v w) s = .next (after s (wdArm { d with aon := { d.aon with wdLast := some v } }))) ∧
    (∀ (v : W32) (w : Who), isUp AONi d → atM w = true → on AON.WDCTL.LOCK d = false → 10 ≤ bits v.toNat 0 16 →
      bits v.toNat 0 16 ≤ 10000 → exec (.wdctlWrite v w) s = .next (after s ((fun x => if bit v.toNat 16 = true ∧
      on AON.WDCTL.EN (wr AON.WDCTL.PERIOD (bits v.toNat 0 16) d) = false then wdArm
      { x with aon := { x.aon with wdLast := none } } else x) (wrB AON.WDCTL.LOCK (bit v.toNat 18) (wrB AON.WDCTL.CAPEN (bit
      v.toNat 17) (wrB AON.WDCTL.EN (bit v.toNat 16) (wr AON.WDCTL.PERIOD (bits v.toNat 0 16) d))))))) ∧
    (isUp AONi d → wdExpired d = true → on AON.WDCTL.CAPEN d = true → captureOk d = true → captureLate d = false →
      exec .watchdogExpiry s = .next (after s (captureStart 2 0xFF d))) ∧
    (isUp AONi d → wdrNow d = true → deeper s.pending 3 d = false → exec .watchdogExpiry s =
      .next (after s (wdrGo (rstNote 3 d)))) ∧
    (isUp AONi d → captureLate d = true → deeper s.pending 3 d = false → exec .watchdogExpiry s =
      .next (after s (wdrGo (rstNote 3 d)))) ∧
    (isUp AONi d → isUp SECi d → deeper s.pending 1 d = false → exec .secWatchdog s =
      .next (after s (resetAsk SECi (raise AON.RSTCAUSE.SECWD (rstNote 1 d))))) ∧
    (∀ (w : Who), isUp AONi d → atM w = true → d.aon.power = .run → lpWhy false d = 0 → exec (.standby w) s =
      .next (after s (Sys2Proof.Machine.standby d))) ∧
    (∀ (w : Who), isUp AONi d → atM w = true → d.aon.power = .run → lpWhy true d = 0 → exec (.hibernate w) s =
      .next (after s (Sys2Proof.Machine.hibernate d))) ∧
    (∀ (src : Fin 18) (f : Option PortFrame) (puf : BitVec 3570), isUp AONi d → d.aon.power = .standby → wakes src d = true →
      wakeHeard src f d = true → exec (.standbyWake src f puf) s =
      .next (after s ((if (wakeIslands src s.fuses d).keep.tampHold ∨ (wakeIslands src s.fuses d).aon.power ≠ .run then id
      else wakeFirmware puf s.fuses) (wakeIslands src s.fuses d)))) ∧
    (∀ (src : Fin 18), isUp AONi d → d.aon.power = .hibernate → wakes src d = true → src.val ≠ 16 →
      wakeHeard src none d = true → exec (.hibernateWake src) s =
      .next (after s (grantAgain (lStart (inc AON.STARTCNT (levelAgain (holdAll (raise AON.RSTCAUSE.HIBWAKE (tamperAtWake
      s.fuses (wr AON.LPSTAT.WAKESRC src d)))))))))) ∧
    (∀ (w : Who), isUp MEMi d → atM w = true → captureOk d = true → exec (.capture w) s =
      .next (after s ((fun x =>
      { x with aon := { x.aon with capFrom := some x.raw, capRq := w.rq, capIsl := 0, capSec := x.raw, capLen := 0 } }) (wrB
      AON.DUMPCTL.BUSY true (wr AON.DUMPCTL.CAUSE 1 (wrB MEM.CAPSTAT.BUSY true (whenUp RADi (radStop 1 0 0 cFwStop) d))))))) ∧
    (∀ (r : Nat), isUp AONi d → d.aon.capFrom = some r → 9 ≤ d.aon.capIsl → rd AON.DUMPCTL.CAUSE d ≠ 2 → exec .captureDone s =
      .next (after s (serveWaiting (dumpStore r d)))) ∧
    (∀ (r : Nat), isUp AONi d → d.aon.capFrom = some r → 9 ≤ d.aon.capIsl → rd AON.DUMPCTL.CAUSE d = 2 → exec .captureDone s =
      .next (after s (wdr (raise AON.RSTCAUSE.WDCAP (dumpStore r d))))) ∧
    (∀ (w : Who), isUp AONi d → atS w = true → exec (.dumpClear w) s = .next (after s (cleared AON.DUMPCTL.VALID d)))

/-- Power grants, brown-out and restored operation; J6's channels, PERMIT and the time pulse pin. -/
def Obligations.PowerAndJ6Run : Prop :=
  ∀ (s : State) (d : Dev), d = start s →
    (∀ (a b : Fin 5), 2 ≤ max a.val b.val → d.aon.power = .off → exec (.powerGood a b) s =
      .next (after s (setLimited (bestGrant (aonStart a b d) == 2)
      { aonStart a b d with aon := { (aonStart a b d).aon with power := .starting } }))) ∧
    (∀ (a b : Fin 5), 2 ≤ max a.val b.val → d.aon.power = .grantHold → exec (.powerGood a b) s =
      .next (after s (setLimited (bestGrant (noteLoss (setGrants a b d)) == 2)
      { noteLoss (setGrants a b d) with aon := { (noteLoss (setGrants a b d)).aon with power := .starting } }))) ∧
    (∀ (a b : Fin 5), max a.val b.val = 1 → d.aon.power = .off → exec (.powerGrantLow a b) s =
      .next (after s (lichen 0 0x0103 [] { aonStart a b d with aon := { (aonStart a b d).aon with power := .grantHold } }))) ∧
    (∀ (a b : Fin 5), isUp AONi d → exec (.portPowerLoss a b) s = .next (after s (grantChange a b d))) ∧
    (∀ (w : Who), isUp AONi d → w.lvl ≠ .u → on AON.PWRSTAT.FULLAVL d = true → d.app.boot ≠ .firmware → exec (.restore w) s =
      .next (after s (setLimited false d))) ∧
    (∀ (w : Who) (im : Image), isUp AONi d → w.lvl ≠ .u → on AON.PWRSTAT.FULLAVL d = true → d.app.boot = .firmware →
      d.app.img = some im → exec (.restore w) s = .next (after s (coresEnter [4, 5, 6, 7] im.entry (setLimited false d)))) ∧
    (∀ (rail : Bool), isUp AONi d → rail = true ∨ holdUpOver d = true → exec (.brownOut rail) s =
      .next (after s (noPower (permitFollow (wrB SEC.PMSTAT.GRANT false ((if rail then lTear else lBrownOut) d)))))) ∧
    (∀ (cur : Byte), isUp POSi d → on POS.ANTSTAT.BIASEN (wr POS.ANTSTAT.CURRENT cur.toNat d) = true →
      on POS.ANTSTAT.SHORT (wr POS.ANTSTAT.CURRENT cur.toNat d) = false → exec (.antFault cur) s =
      .next (after s (antSet (decide (cur.toNat < 4)) (decide (120 < cur.toNat)) (wr POS.ANTSTAT.CURRENT cur.toNat d)))) ∧
    (∀ (cur : Byte) (r : Nat), isUp POSi d → d.pos.biasCut = some r → on POS.ANTSTAT.BIASEN d = true →
      ¬ d.raw < r + 5 * rawPerS → cur.toNat ≤ 120 → exec (.biasRetry cur) s =
      .next (after s (antSet (decide (cur.toNat < 4)) false (wr POS.ANTSTAT.CURRENT cur.toNat d)))) ∧
    (∀ (chB closed : Bool), isUp SECi d → (if chB then on SEC.J6STAT.BCLOSED d else on SEC.J6STAT.ACLOSED d) ≠ closed →
      filterDue chB d = true → exec (.j6FilterChange chB closed) s = .next (after s (j6Change chB closed d))) ∧
    (∀ (chB closed : Bool), isUp SECi d → (if chB then d.sec.setB else d.sec.setA) = false → filterDue chB d = true →
      exec (.j6FilterChange chB closed) s = .next (after s (j6Change chB closed d))) ∧
    (∀ (chB own other before aft : Bool) (w : Nat), isUp SECi d → windowPart chB d = some w → (if chB then d.sec.winB else
      d.sec.winA).any (w ≤ ·) = false → exec (.testWindowCheck chB own other before aft) s =
      .next (after s (testWindow chB own other before aft (w % 2 == 1) (if chB then
      { d with sec := { d.sec with winB := some w } } else { d with sec := { d.sec with winA := some w } })))) ∧
    (∀ (r : Nat), isUp SECi d → d.sec.discFrom = some r → r + 50 * rawPerMs < d.raw → on SEC.J6STAT.DISCREP d = false →
      exec .stopDiscrepancy s = .next (after s (j6FaultLatch (wrB SEC.J6STAT.DISCREP true d)))) ∧
    (isUp SECi d → d.sec.permit = false → ¬ d.raw ≤ d.sec.permLow + rawPerMs → exec .permitStuck s =
      .next (after s (critSet SEC.CRITSTAT.PSTUCK (permitFollow (wrB SEC.J6STAT.PSTUCK true
      { d with sec := { d.sec with pinHigh := true } }))))) ∧
    (isUp SECi d → d.sec.permit = true → exec .permitOvld s = .next (after s (permitFollow (wrB SEC.J6STAT.POVLD true d)))) ∧
    (isUp SECi d → exec .tpulseOvld s = .next (after s (tpulsePin
      { wrB SEC.J6STAT.TPOVLD true d with aon := { d.aon with ppsPin := false } }))) ∧
    (∀ (w : Who), isUp SECi d → w.lvl ≠ .u → exec (.povclr w) s =
      .next (after s (permitFollow (wrB SEC.J6STAT.POVLD false d)))) ∧
    (∀ (w : Who), isUp SECi d → w.lvl ≠ .u → exec (.tpovclr w) s = .next (after s (wrB SEC.J6STAT.TPOVLD false d))) ∧
    (∀ (v : Bool) (w : Who), isUp SECi d → w.lvl ≠ .u → exec (.tpen v w) s =
      .next (after s (tpulsePin (if v then wrB SEC.J6CTL.TPEN true d else
      { wrB SEC.J6CTL.TPEN false d with aon := { d.aon with ppsPin := false } })))) ∧
    (∀ (inReg : Bool), exec (.ioSupplyRegulation inReg) s = .next (after s (permitFollow
      { d with sec := { d.sec with ioSup := inReg } })))

/-- Requests on keys that SEC carries out. -/
def Obligations.KeyRequestsRun : Prop :=
  ∀ (s : State) (d : Dev), d = start s →
    (∀ (r : Req), runs SECi d = true → nextReq d = some r → isCode 0x01 r = true → (reqDerive r s.fuses d).st = sOk →
      exec .derive s = .next (both s (served r (reqDerive r s.fuses d)))) ∧
    (∀ (r : Req), runs SECi d = true → nextReq d = some r → isCode 0x02 r = true → (reqDiscard r s.fuses d).st = sOk →
      exec .discard s = .next (both s (served r (reqDiscard r s.fuses d)))) ∧
    (∀ (r : Req), runs SECi d = true → nextReq d = some r → isCode 0x03 r = true → (reqAes r s.fuses d).st = sOk →
      exec .aes s = .next (both s (served r (reqAes r s.fuses d)))) ∧
    (∀ (r : Req), runs SECi d = true → nextReq d = some r → isCode 0x04 r = true → (reqHmac r s.fuses d).st = sOk →
      exec .hmac s = .next (both s (served r (reqHmac r s.fuses d)))) ∧
    (∀ (r : Req), runs SECi d = true → nextReq d = some r → isCode 0x05 r = true → r.w.length = 3 →
      ¬ dramSize < r.word 1 + r.word 2 → exec .sha256 s = .next (both s (served r
      ⟨s.fuses, eccLook (r.word 1) (r.word 2) d, sOk, 0, wordsOf (Sys2Proof.Machine.sha256 (dramView (r.word 1) (r.word 2) d))⟩)))
      ∧
    (∀ (r : Req), runs SECi d = true → nextReq d = some r → isCode 0x06 r = true → r.w.length = 14 →
      ¬ dramSize < r.word 1 + 64 → ecdsaOk (dramView (r.word 1) 64 d) (((r.w.drop 2).take 4).flatMap (leBytes 8)) (((r.w.drop
      6).take 8).flatMap (leBytes 8)) = true → exec .verify s =
      .next (both s (served r (ok s.fuses (eccLook (r.word 1) 64 d))))) ∧
    (∀ (r : Req), runs SECi d = true → nextReq d = some r → isCode 0x07 r = true → r.w.length = 1 → bits (r.word 0) 4 60 = 0 →
      bits (r.word 0) 0 4 ≠ 0 → drbgOk d = true → exec .random s =
      .next (both s (served r
      ⟨s.fuses, drbgUsed (drawnN (8 * bits (r.word 0) 0 4) d), sOk, 0, wordsOf (freeBytes (8 * bits (r.word 0) 0 4) d)⟩))) ∧
    (∀ (r : Req), runs SECi d = true → nextReq d = some r → r.code = 0x0B → r.w = [] → drbgOk d = true → exec .challenge s =
      .next (both s (served r ⟨s.fuses, newNonce d, sOk, 0, [ofLe (freeBytes 8 d)]⟩))) ∧
    (∀ (r : Req), runs SECi d = true → nextReq d = some r → isCode 0x0C r = true → (reqSession r s.fuses d).st = sOk →
      exec .session s = .next (both s (served r (reqSession r s.fuses d)))) ∧
    (∀ (r : Req), runs SECi d = true → nextReq d = some r → isCode 0x0D r = true → (reqRingKey r s.fuses d).st = sOk →
      exec .ringkey s = .next (both s (served r (reqRingKey r s.fuses d)))) ∧
    (∀ (r : Req), runs SECi d = true → nextReq d = some r → isCode 0x08 r = true → (reqBeaconGen r s.fuses d).st = sOk →
      exec .beaconGen s = .next (both s (served r (reqBeaconGen r s.fuses d)))) ∧
    (∀ (r : Req) (x : Dev), openFirst s.pending d = x → runs SECi x = true → nextReq x = some r → isCode 0x09 r = true →
      r.w.length = 1 → ¬ 2 ^ 32 ≤ r.word 0 → lcState s.fuses = 2 → resumeOk (r.word 0) x = true → exec .resume s =
      .next (both s (served r (ok s.fuses (Sys2Proof.Machine.resume (r.word 0) x))))) ∧
    (∀ (r : Req) (x : Dev), openFirst s.pending d = x → runs SECi x = true → nextReq x = some r → r.secure = false →
      r.code = 0x52 → (reqNetResume r s.fuses x).st = sOk → exec .networkResume s =
      .next (both s (served r (reqNetResume r s.fuses x)))) ∧
    (∀ (r : Req), runs SECi d = true → nextReq d = some r → codeKnown r = false → exec .secRequestBad s =
      .next (both s (s.fuses, finish r sBadCode 0 [] d))) ∧
    (∀ (k : List Nat), isUp SECi d → on SEC.BKGEN.NEXTPEND d = true →
      0 ≤ toS 32 (ofS 32 ((sfNow d : Int) - Sys2Proof.Machine.rd SEC.BKFIRST d)) → slotKey 3 d = some k →
      exec .beaconKeySwitch s = .next (after s ((fun x =>
      { x with keep := { x.keep with nor := { x.keep.nor with gen := Sys2Proof.Machine.rd SEC.BKGEN.NEXT d, genSf := Sys2Proof.Machine.rd SEC.BKFIRST d, genNxt := none } } })
      (wrB SEC.BKGEN.NEXTPEND false (wr SEC.BKGEN.CUR (Sys2Proof.Machine.rd SEC.BKGEN.NEXT d) (emptySlot 3 (fillSlot 2 0 2 k
      d)))))))

/-- Signed commands that pass their checks. -/
def Obligations.SignedCommandsRun : Prop :=
  ∀ (s : State) (d : Dev), d = start s →
    (∀ (r : Req), runs SECi d = true → nextReq d = some r → r.code = 0x0A → r.w.length = 15 →
      signedCheck r.secure false (r.bytes 120) s.fuses d = sOk →
      (signedAct (r.bytes 120) s.fuses (signedUsed (r.bytes 120) d)).st = sOk → exec .signed s =
      .next (both s (withWrm (served r (signedAct (r.bytes 120) s.fuses (signedUsed (r.bytes 120) d))) s.fuses d))) ∧
    (∀ (r : Req), runs SECi d = true → nextReq d = some r → isSigned 1 r = true → r.w.length = 15 →
      signedCheck r.secure false (r.bytes 120) s.fuses d = sOk → (r.bytes 120).getD 0 0 = 1 → s.fuses.svc < 254 →
      exec .serviceEnter s = .next (both s (withWrm (served r (actServiceEnter s.fuses (signedUsed (r.bytes 120) d))) s.fuses
      d))) ∧
    (∀ (r : Req), runs SECi d = true → nextReq d = some r → isSigned 2 r = true → r.w.length = 15 →
      signedCheck r.secure false (r.bytes 120) s.fuses d = sOk → (r.bytes 120).getD 0 0 = 2 → s.fuses.svc < 254 →
      exec .serviceExit s = .next (both s (withWrm (served r (transition 3 { s.fuses with svc := s.fuses.svc + 1 } (signedUsed
      (r.bytes 120) d))) s.fuses d))) ∧
    (∀ (r : Req), runs SECi d = true → nextReq d = some r → isSigned 3 r = true → r.w.length = 15 →
      signedCheck r.secure false (r.bytes 120) s.fuses d = sOk → (r.bytes 120).getD 0 0 = 3 → exec .retire s =
      .next (both s (withWrm (served r (Sys2Proof.Machine.retire s.fuses (signedUsed (r.bytes 120) d))) s.fuses d))) ∧
    (∀ (r : Req), runs SECi d = true → nextReq d = some r → isSigned 4 r = true → r.w.length = 15 →
      signedCheck r.secure false (r.bytes 120) s.fuses d = sOk → (r.bytes 120).getD 0 0 = 4 → s.fuses.imgKeys.length < 4 →
      exec .imagekey s = .next (both s (served r (ok { s.fuses with imgKeys := s.fuses.imgKeys ++ [sub (r.bytes 120) 24 32] }
      (signedUsed (r.bytes 120) d))))) ∧
    (∀ (r : Req) (v : Nat), runs SECi d = true → nextReq d = some r → isSigned 5 r = true → r.w.length = 15 →
      signedCheck r.secure false (r.bytes 120) s.fuses d = sOk → (r.bytes 120).getD 0 0 = 5 →
      v = (sub (r.bytes 120) 24 32).getD 0 0 → s.fuses.secver < v → v ≤ 64 → exec .secver s =
      .next (both s (served r (ok { s.fuses with secver := v } (signedUsed (r.bytes 120) d))))) ∧
    (∀ (r : Req), runs SECi d = true → nextReq d = some r → isSigned 6 r = true → r.w.length = 15 →
      signedCheck r.secure false (r.bytes 120) s.fuses d = sOk → (r.bytes 120).getD 0 0 = 6 → exec (.tamperClear none) s =
      .next (both s (withWrm (served r (actTamperClear s.fuses (signedUsed (r.bytes 120) d))) s.fuses d))) ∧
    (∀ (f : PortFrame), isUp SECi d → isUp APPi d → f.etype = 0x88B5 → ofBe ((nats f.body).take 2) = 0x13 →
      d.keep.tampHold = true → signedCheck true true ((nats f.body).drop 2) s.fuses (ethOut f.port f.src.toNat [0x00, 0x14,
      sOk] d) = sOk → signedCheck true true ((nats f.body).drop 2) s.fuses d = sOk → exec (.tamperClear (some f)) s =
      .next (both s ((actTamperClear s.fuses (signedUsed ((nats f.body).drop 2) (ethOut f.port f.src.toNat [0x00, 0x14,
      sOk] d))).fu, resetAsk 0 (actTamperClear s.fuses (signedUsed ((nats f.body).drop 2) (ethOut f.port f.src.toNat [0x00,
      0x14, sOk] d))).d))) ∧
    (∀ (r : Req), runs SECi d = true → nextReq d = some r → isSigned 7 r = true → r.w.length = 15 →
      signedCheck r.secure false (r.bytes 120) s.fuses d = sOk → (r.bytes 120).getD 0 0 = 7 →
      (actDebugUnlock (sub (r.bytes 120) 24 32) s.fuses (signedUsed (r.bytes 120) d)).st = sOk → exec .debugUnlock s =
      .next (both s (served r (actDebugUnlock (sub (r.bytes 120) 24 32) s.fuses (signedUsed (r.bytes 120) d))))) ∧
    (∀ (r : Req), runs SECi d = true → nextReq d = some r → isSigned 8 r = true → r.w.length = 15 →
      signedCheck r.secure false (r.bytes 120) s.fuses d = sOk → (r.bytes 120).getD 0 0 = 8 →
      on AON.LSTAT.ERASING (signedUsed (r.bytes 120) d) = false → exec .lichenClear s =
      .next (both s (served r (ok s.fuses (lClear (signedUsed (r.bytes 120) d))))))

/-- Provisioning requests, tamper, nonce, key-mask and debug events. -/
def Obligations.ProvisioningRuns : Prop :=
  ∀ (s : State) (d : Dev), d = start s →
    (∀ (r : Req), runs SECi d = true → nextReq d = some r → isCode 0x10 r = true → r.w.length = 8 → lcState s.fuses = 1 →
      s.fuses.owner = none → exec .setowner s = .next (both s (served r (ok { s.fuses with owner := some (r.bytes 64) } d))))
      ∧
    (∀ (r : Req), runs SECi d = true → nextReq d = some r → isCode 0x11 r = true → r.w.length = 4 → lcState s.fuses = 1 →
      s.fuses.imgKeys = [] → exec .setimagekey s = .next (both s (served r (ok { s.fuses with imgKeys := [r.bytes 32] } d))))
      ∧
    (∀ (r : Req), runs SECi d = true → nextReq d = some r → isCode 0x12 r = true → (reqDeploy r s.fuses d).st = sOk →
      exec .deploy s = .next (both s (withWrm (served r (reqDeploy r s.fuses d)) s.fuses d))) ∧
    (∀ (r : Req), runs SECi d = true → nextReq d = some r → isCode 0x13 r = true → r.w.length = 1 → lcState s.fuses = 1 →
      s.fuses.owner = none → r.word 0 = s.fuses.devid → exec .retireLocal s =
      .next (both s (withWrm (served r (Sys2Proof.Machine.retire s.fuses d)) s.fuses d))) ∧
    (∀ (n : List Nat) (t : Nat), isUp SECi d → d.sec.nonce = some (n, t) → t + 60 * rawPerS ≤ d.raw → exec .nonceExpiry s =
      .next (after s ({ d with sec := { d.sec with nonce := none } }))) ∧
    (∀ (a : Answer), isUp SECi d → d.sec.ans = some a → (ferryOf a.ferry d).full = false → d.raw ≤ a.from_ + 10 * rawPerMs →
      exec .answerDrop s = .next (after s (secSend a.ferry a.hdr a.words { d with sec := { d.sec with ans := none } }))) ∧
    (∀ (a : Answer), isUp SECi d → d.sec.ans = some a → (ferryOf a.ferry d).full = true → a.from_ + 10 * rawPerMs ≤ d.raw →
      exec .answerDrop s = .next (after s (inc SEC.ANSDROP { d with sec := { d.sec with ans := none } }))) ∧
    (isUp SECi d → d.sec.maskAt + rawPerMs ≤ d.raw → exec .keyMaskRedraw s =
      .next (after s (redrawAll { d with sec := { d.sec with maskAt := d.raw } }))) ∧
    (isUp SECi d → on SEC.DRBGSTAT.FAIL d = false → exec .drbgFail s =
      .next (after s (critSet SEC.CRITSTAT.DRBG (lichen 1 0x0207 [] (wrB SEC.DRBGSTAT.OK false (wrB SEC.DRBGSTAT.FAIL true
      d)))))) ∧
    (∀ (src : Fin 5) (keyop : Option Byte), isUp AONi d → lcState s.fuses ≠ 0 → exec (.tamper src keyop) s =
      .next (after s (tamperAlarm src (keyop.map BitVec.toNat) s.fuses d))) ∧
    (isUp APPi d → d.keep.tampHold = true → exec .tamperInfo s = .next (after s (Sys2Proof.Machine.tamperInfo s.fuses d))) ∧
    (∀ (e sc : Nat), isUp SECi d → d.sec.dbgEnd = some (e, sc) → e ≤ d.raw → exec .debugClosed s =
      .next (after s (debugClose d)))

/-- Strait queues from the side of firmware, locks, ferries and doorbells. -/
def Obligations.StraitsRun : Prop :=
  ∀ (s : State) (d : Dev), d = start s →
    (∀ (q : Fin 48) (hi : W32) (w : Who), lvlOk (qAtM q) w = true → qWinUp q d = true → qProd q = .fw → qLive q d = true →
      ¬ qDepth q ≤ (qGet q d).fill → ¬ 64 ≤ (qGet q d).opn.length → on (SQ.QCTL.END q) d = true → exec (.queuePush q hi w) s =
      .next (after s ((fun it v => wr (SQ.QCTL.END q) 0 (qSet q
      { v with opn := [], pkts := v.pkts ++ [{ items := v.opn ++ [it], pri := if v.opn = [] then rd (SQ.QCTL.PRI q) d else v.opri, who := if v.opn = [] then w.rq + w.lvl.num * 16 else v.owho }] }
      { d with held := tset d.held (SQ.QPUSHLO q).addr 0 0 })) (BitVec.ofNat 64 ((tget d.held (SQ.QPUSHLO q).addr 0).toNat +
      hi.toNat * 2 ^ 32)) (qGet q d)))) ∧
    (∀ (q : Fin 48) (hi : W32) (w : Who), lvlOk (qAtM q) w = true → qWinUp q d = true → qProd q = .fw → qLive q d = true →
      ¬ qDepth q ≤ (qGet q d).fill → ¬ 64 ≤ (qGet q d).opn.length → on (SQ.QCTL.END q) d = false →
      exec (.queuePush q hi w) s = .next (after s ((fun it v => qSet q
      { v with opn := v.opn ++ [it], opri := if v.opn = [] then rd (SQ.QCTL.PRI q) d else v.opri, owho := if v.opn = [] then w.rq + w.lvl.num * 16 else v.owho }
      { d with held := tset d.held (SQ.QPUSHLO q).addr 0 0 }) (BitVec.ofNat 64 ((tget d.held (SQ.QPUSHLO q).addr 0).toNat +
      hi.toNat * 2 ^ 32)) (qGet q d)))) ∧
    (∀ (q : Fin 48) (e : Ecc) (i : Nat) (p : Packet), qLive q d = true → findIx (fun p => !p.shown) (qGet q d).pkts = some i →
      (qGet q d).pkts[i]? = some p → exec (.packetPresentable q e) s =
      .next (after s (taken s.fuses q (qSet q
      { qGet q d with pkts := (qGet q d).pkts.set i { p with shown := true, at_ := d.raw, ecc := e } } d)))) ∧
    (∀ (q : Fin 48) (e : Ecc) (w : Who) (it : W64) (fin : Bool) (v : Queue), lvlOk (qAtM q) w = true → qWinUp q d = true →
      qCons q = .fw → (qGet q d).take = some (it, fin, v) → worseEcc e (headEcc q d) ≠ .double → exec (.queuePop q e w) s =
      .next (after s ((fun x =>
      { qSet q v x with rdata := BitVec.ofNat 64 (it.toNat % 2 ^ 32), latch := tset x.latch (SQ.QPOPHI q).addr (BitVec.ofNat 32 (it.toNat / 2 ^ 32)) 0 })
      (heeded q (worseEcc e (headEcc q d)) d)))) ∧
    (∀ (q : Fin 48) (e : Ecc) (w : Who) (it : W64) (fin : Bool) (v : Queue), lvlOk (qAtM q) w = true → qWinUp q d = true →
      qCons q = .fw → (qGet q d).take = some (it, fin, v) → worseEcc e (headEcc q d) = .double → exec (.queuePop q e w) s =
      .next (after s ((fun x => { x with rdata := 0, latch := tset x.latch (SQ.QPOPHI q).addr 0 0 }) (sqEcc q (qSet q
      { (qGet q d).skip with lastEnd := fin } d))))) ∧
    (∀ (q : Fin 48) (w : Who), lvlOk (qAtM q) w = true → qWinUp q d = true → fwReads q = true → (qGet q d).inPkt = false →
      exec (.mark q w) s = .next (after s (qSet q (qGet q d).mark d))) ∧
    (∀ (q : Fin 48) (w : Who), lvlOk (qAtM q) w = true → qWinUp q d = true → fwReads q = true → (qGet q d).marked = true →
      exec (.rewind q w) s = .next (after s (qSet q (qGet q d).rewind d))) ∧
    (∀ (q : Fin 48) (w : Who), lvlOk (qAtM q) w = true → qWinUp q d = true → fwReads q = true → exec (.queueRelease q w) s =
      .next (after s (qSet q (drain q (qGet q d).release.backlog.length (qGet q d).release) d))) ∧
    (∀ (n : Fin 128) (w : Who), isUp SCHi d → lvlOk false w = true → exec (.lockRead n [w]) s =
      .next (after s ((fun x => { x with lockSeen := [(w.rq.val, x.rdata.toNat)] }) (if lockOf n d = 0 then
      { lockSet n (w.rq.val + 1) d with rdata := 0 } else { d with rdata := BitVec.ofNat 64 (lockOf n d) })))) ∧
    (∀ (n : Fin 128) (r : Fin 16) (w : Who), isUp SCHi d → lvlOk false w = true → w.rq = r → lockOf n d = r.val + 1 →
      exec (.lockWrite n r w) s = .next (after s (lockSet n 0 d))) ∧
    (∀ (n : Fin 128) (w : Who), isUp SCHi d → lvlOk true w = true → exec (.lockfree n w) s =
      .next (after s (inc SCH.LOCKERR (lockSet n 0 d)))) ∧
    (∀ (f i : Fin 16) (v : W64) (w : Who), isUp (ferryIsl f) d → (ferryOf f d).full = false →
      ferrySender f w.rq w.lvl d = true → exec (.ferryWrite f i v w) s =
      .next (after s (wr (FERRY.W f i) v.toNat { d with held := tset d.held (FERRY.W f i).addr 0 0 }))) ∧
    (∀ (f : Fin 16) (hdr : W32) (w : Who), isUp (ferryIsl f) d → sendBad f w.rq w.lvl hdr.toNat d = false →
      exec (.send f hdr w) s = .next (after s ((fun h x => ringBell (ferryRecv f h d) (bits h 0 5)
      { x with ferrySeq := ferryTurn d.raw f d.ferrySeq }) (sentHdr f w.rq w.lvl hdr.toNat) (ferrySet f
      { full := true, hdr := BitVec.ofNat 32 (sentHdr f w.rq w.lvl hdr.toNat) } d)))) ∧
    (∀ (f : Fin 16) (w : Who), isUp (ferryIsl f) d → lvlOk (decide (f.val < 8)) w = true →
      ferryRecv f (ferryOf f d).hdr.toNat d = w.rq → (ferryOf f d).full = true → exec (.take f w) s =
      .next (after s (answerWait (ferryTaken f d)))) ∧
    (∀ (r : Fin 12) (m : W32) (w : Who), isUp (bellIsl r) d → lvlOk (decide (r.val = 8)) w = true →
      w.lvl = .m ∨ w.rq.val = r.val → exec (.dbmaskWrite r m w) s = .next (after s (dbmask r m.toNat d))) ∧
    (∀ (r : Fin 12), isUp (recvIsl r) d → tget d.bellDue r 0 ≠ 0 → exec (.doorbell r) s =
      .next (after s (bellGo r { d with bellDue := tset d.bellDue r 0 0 })))

/-- Integer instructions and SEL of Pretan write their result and move on. The core issues the word. -/
def Obligations.IntegerResults : Prop :=
  ∀ (s : State) (d : Dev) (n : CoreNo) (w : Nat) (d' : Dev) (c : Core), d = start s → Issues n d w d' →
      c = coreOf n d →
    (∀ (rd rs rt : RegNo), reads (.a 0x01 rd rs rt) w = true → exec (.add n rd rs rt) s =
      .next (after s (retires n ((c.put rd (c.get rs + c.get rt)).next) d'))) ∧
    (∀ (rd rs rt : RegNo), reads (.a 0x01 rd rs rt) w = true → exec (.sub n rd rs rt) s =
      .next (after s (retires n ((c.put rd (c.get rs - c.get rt)).next) d'))) ∧
    (∀ (rd rs rt : RegNo), reads (.a 0x01 rd rs rt) w = true → exec (.and n rd rs rt) s =
      .next (after s (retires n ((c.put rd (c.get rs &&& c.get rt)).next) d'))) ∧
    (∀ (rd rs rt : RegNo), reads (.a 0x01 rd rs rt) w = true → exec (.or n rd rs rt) s =
      .next (after s (retires n ((c.put rd (c.get rs ||| c.get rt)).next) d'))) ∧
    (∀ (rd rs rt : RegNo), reads (.a 0x01 rd rs rt) w = true → exec (.xor n rd rs rt) s =
      .next (after s (retires n ((c.put rd (c.get rs ^^^ c.get rt)).next) d'))) ∧
    (∀ (rd rs rt : RegNo), reads (.a 0x01 rd rs rt) w = true → exec (.nor n rd rs rt) s =
      .next (after s (retires n ((c.put rd (~~~(c.get rs ||| c.get rt))).next) d'))) ∧
    (∀ (rd rs rt : RegNo), reads (.a 0x01 rd rs rt) w = true → exec (.sll n rd rs rt) s =
      .next (after s (retires n ((c.put rd (shiftReg 0 (c.get rs) (c.get rt))).next) d'))) ∧
    (∀ (rd rs rt : RegNo), reads (.a 0x01 rd rs rt) w = true → exec (.srl n rd rs rt) s =
      .next (after s (retires n ((c.put rd (shiftReg 1 (c.get rs) (c.get rt))).next) d'))) ∧
    (∀ (rd rs rt : RegNo), reads (.a 0x01 rd rs rt) w = true → exec (.sra n rd rs rt) s =
      .next (after s (retires n ((c.put rd (shiftReg 2 (c.get rs) (c.get rt))).next) d'))) ∧
    (∀ (rd rs rt : RegNo), reads (.a 0x01 rd rs rt) w = true → exec (.mul n rd rs rt) s =
      .next (after s (retires n ((c.put rd (c.get rs * c.get rt)).next) d'))) ∧
    (∀ (rd rs rt : RegNo), reads (.a 0x01 rd rs rt) w = true → exec (.mulhs n rd rs rt) s =
      .next (after s (retires n ((c.put rd (BitVec.ofInt 64 (((c.get rs).toInt * (c.get rt).toInt).fdiv (2 ^ 64)))).next)
      d'))) ∧
    (∀ (rd rs rt : RegNo), reads (.a 0x01 rd rs rt) w = true → exec (.mulhu n rd rs rt) s =
      .next (after s (retires n ((c.put rd (BitVec.ofNat 64 ((c.get rs).toNat * (c.get rt).toNat / 2 ^ 64))).next) d'))) ∧
    (∀ (rd rs rt : RegNo), reads (.a 0x01 rd rs rt) w = true → exec (.div n rd rs rt) s =
      .next (after s (retires n ((c.put rd (divS false (c.get rs) (c.get rt))).next) d'))) ∧
    (∀ (rd rs rt : RegNo), reads (.a 0x01 rd rs rt) w = true → exec (.divu n rd rs rt) s =
      .next (after s (retires n ((c.put rd (divU false (c.get rs) (c.get rt))).next) d'))) ∧
    (∀ (rd rs rt : RegNo), reads (.a 0x01 rd rs rt) w = true → exec (.rem n rd rs rt) s =
      .next (after s (retires n ((c.put rd (divS true (c.get rs) (c.get rt))).next) d'))) ∧
    (∀ (rd rs rt : RegNo), reads (.a 0x01 rd rs rt) w = true → exec (.remu n rd rs rt) s =
      .next (after s (retires n ((c.put rd (divU true (c.get rs) (c.get rt))).next) d'))) ∧
    (∀ (rd rs rt : RegNo), reads (.a 0x01 rd rs rt) w = true → exec (.min n rd rs rt) s =
      .next (after s (retires n ((c.put rd (if (c.get rt).slt (c.get rs) then c.get rt else c.get rs)).next) d'))) ∧
    (∀ (rd rs rt : RegNo), reads (.a 0x01 rd rs rt) w = true → exec (.max n rd rs rt) s =
      .next (after s (retires n ((c.put rd (if (c.get rs).slt (c.get rt) then c.get rt else c.get rs)).next) d'))) ∧
    (∀ (rd rs rt : RegNo), reads (.a 0x01 rd rs rt) w = true → exec (.minu n rd rs rt) s =
      .next (after s (retires n ((c.put rd (if c.get rt < c.get rs then c.get rt else c.get rs)).next) d'))) ∧
    (∀ (rd rs rt : RegNo), reads (.a 0x01 rd rs rt) w = true → exec (.maxu n rd rs rt) s =
      .next (after s (retires n ((c.put rd (if c.get rs < c.get rt then c.get rt else c.get rs)).next) d'))) ∧
    (∀ (rd rs : RegNo) (imm : BitVec 16), reads ⟨0x02, [(21, 5, rd), (16, 5, rs), (0, 16, imm.toNat)]⟩ w = true →
      exec (.addi n rd rs imm) s = .next (after s (retires n ((c.put rd (c.get rs + imm.signExtend 64)).next) d'))) ∧
    (∀ (rd rs : RegNo) (imm : BitVec 16), reads ⟨0x03, [(21, 5, rd), (16, 5, rs), (0, 16, imm.toNat)]⟩ w = true →
      exec (.andi n rd rs imm) s = .next (after s (retires n ((c.put rd (c.get rs &&& imm.signExtend 64)).next) d'))) ∧
    (∀ (rd rs : RegNo) (imm : BitVec 16), reads ⟨0x04, [(21, 5, rd), (16, 5, rs), (0, 16, imm.toNat)]⟩ w = true →
      exec (.ori n rd rs imm) s = .next (after s (retires n ((c.put rd (c.get rs ||| imm.signExtend 64)).next) d'))) ∧
    (∀ (rd rs : RegNo) (imm : BitVec 16), reads ⟨0x05, [(21, 5, rd), (16, 5, rs), (0, 16, imm.toNat)]⟩ w = true →
      exec (.xori n rd rs imm) s = .next (after s (retires n ((c.put rd (c.get rs ^^^ imm.signExtend 64)).next) d'))) ∧
    (∀ (rd : RegNo) (imm : BitVec 16), reads ⟨0x06, [(21, 5, rd), (0, 16, imm.toNat)]⟩ w = true → exec (.lui n rd imm) s =
      .next (after s (retires n ((c.put rd ((imm.signExtend 64) <<< 16)).next) d'))) ∧
    (∀ (rd rs : RegNo) (amt : Fin 64), reads ⟨0x07, [(21, 5, rd), (16, 5, rs), (0, 6, amt)]⟩ w = true →
      exec (.slli n rd rs amt) s = .next (after s (retires n ((c.put rd (c.get rs <<< amt.val)).next) d'))) ∧
    (∀ (rd rs : RegNo) (amt : Fin 64), reads ⟨0x07, [(21, 5, rd), (16, 5, rs), (0, 6, amt)]⟩ w = true →
      exec (.srli n rd rs amt) s = .next (after s (retires n ((c.put rd (c.get rs >>> amt.val)).next) d'))) ∧
    (∀ (rd rs : RegNo) (amt : Fin 64), reads ⟨0x07, [(21, 5, rd), (16, 5, rs), (0, 6, amt)]⟩ w = true →
      exec (.srai n rd rs amt) s = .next (after s (retires n ((c.put rd ((c.get rs).sshiftRight amt.val)).next) d'))) ∧
    (∀ (rd rs rt : RegNo) (p : Fin 8), reads ⟨0x0B, [(21, 5, rd), (16, 5, rs), (11, 5, rt), (0, 3, p)]⟩ w = true →
      exec (.sel n rd rs rt p) s = .next (after s (retires n ((c.put rd (if c.pred p = 0xFFFFFFFF then c.get rs else
      c.get rt)).next) d')))

/-- Comparisons and predicate instructions write their predicate and move on. The core issues the word. -/
def Obligations.PredicateResults : Prop :=
  ∀ (s : State) (d : Dev) (n : CoreNo) (w : Nat) (d' : Dev) (c : Core), d = start s → Issues n d w d' →
      c = coreOf n d →
    (∀ (pd : Fin 8) (rs rt : RegNo), reads ⟨0x08, [(16, 5, rs), (11, 5, rt)]⟩ w = true → exec (.cmpeq n pd rs rt) s =
      .next (after s (retires n ((c.putPred pd (allBits (c.get rs == c.get rt))).next) d'))) ∧
    (∀ (pd : Fin 8) (rs rt : RegNo), reads ⟨0x08, [(16, 5, rs), (11, 5, rt)]⟩ w = true → exec (.cmpne n pd rs rt) s =
      .next (after s (retires n ((c.putPred pd (allBits (c.get rs != c.get rt))).next) d'))) ∧
    (∀ (pd : Fin 8) (rs rt : RegNo), reads ⟨0x08, [(16, 5, rs), (11, 5, rt)]⟩ w = true → exec (.cmplt n pd rs rt) s =
      .next (after s (retires n ((c.putPred pd (allBits ((c.get rs).slt (c.get rt)))).next) d'))) ∧
    (∀ (pd : Fin 8) (rs rt : RegNo), reads ⟨0x08, [(16, 5, rs), (11, 5, rt)]⟩ w = true → exec (.cmpge n pd rs rt) s =
      .next (after s (retires n ((c.putPred pd (allBits (!(c.get rs).slt (c.get rt)))).next) d'))) ∧
    (∀ (pd : Fin 8) (rs rt : RegNo), reads ⟨0x08, [(16, 5, rs), (11, 5, rt)]⟩ w = true → exec (.cmpltu n pd rs rt) s =
      .next (after s (retires n ((c.putPred pd (allBits ((c.get rs).ult (c.get rt)))).next) d'))) ∧
    (∀ (pd : Fin 8) (rs rt : RegNo), reads ⟨0x08, [(16, 5, rs), (11, 5, rt)]⟩ w = true → exec (.cmpgeu n pd rs rt) s =
      .next (after s (retires n ((c.putPred pd (allBits (!(c.get rs).ult (c.get rt)))).next) d'))) ∧
    (∀ (pd : Fin 8) (rs : RegNo) (cond : Fin 8) (imm : BitVec 13), ¬ 5 < cond.val →
      reads ⟨0x09, [(23, 3, pd), (16, 5, rs), (13, 3, cond), (0, 13, imm.toNat)]⟩ w = true → exec (.cmpi n pd rs cond imm) s =
      .next (after s (retires n ((c.putPred pd (allBits (condOf cond (c.get rs) (imm.signExtend 64)))).next) d'))) ∧
    (∀ (pd : Fin 8) (rs : RegNo) (cond : Fin 8) (imm : BitVec 13), 5 < cond.val →
      reads ⟨0x09, [(23, 3, pd), (16, 5, rs), (13, 3, cond), (0, 13, imm.toNat)]⟩ w = true → exec (.cmpi n pd rs cond imm) s =
      .next (after s (cancelHere n (takeTrap n ⟨xIllegal, w, false⟩ c.x.pc (coreSet n c d'))))) ∧
    (∀ (pd ps pt : Fin 8), reads ⟨0x0A, []⟩ w = true → exec (.pand n pd ps pt) s =
      .next (after s (retires n ((c.putPred pd (c.pred ps &&& c.pred pt)).next) d'))) ∧
    (∀ (pd ps pt : Fin 8), reads ⟨0x0A, []⟩ w = true → exec (.por n pd ps pt) s =
      .next (after s (retires n ((c.putPred pd (c.pred ps ||| c.pred pt)).next) d'))) ∧
    (∀ (pd ps pt : Fin 8), reads ⟨0x0A, []⟩ w = true → exec (.pxor n pd ps pt) s =
      .next (after s (retires n ((c.putPred pd (c.pred ps ^^^ c.pred pt)).next) d'))) ∧
    (∀ (pd ps : Fin 8), reads ⟨0x0A, []⟩ w = true → exec (.pnot n pd ps) s =
      .next (after s (retires n ((c.putPred pd (~~~c.pred ps)).next) d'))) ∧
    (∀ (pd ps : Fin 8), reads ⟨0x0A, []⟩ w = true → exec (.pmov n pd ps) s =
      .next (after s (retires n ((c.putPred pd (c.pred ps)).next) d')))

/-- Branches, calls and jumps go where they say; hints, fences, time reads and sections do their work. The core issues the word. -/
def Obligations.BranchesAndFences : Prop :=
  ∀ (s : State) (d : Dev) (n : CoreNo) (w : Nat) (d' : Dev) (c : Core), d = start s → Issues n d w d' →
      c = coreOf n d →
    (∀ (off : BitVec 21), reads ⟨0x18, [(0, 21, off.toNat)]⟩ w = true → exec (.br n off) s =
      .next (after s (retires n (c.goto_ (c.x.pc + off.signExtend 64 * 4)) d'))) ∧
    (∀ (off : BitVec 21), reads ⟨0x19, [(0, 21, off.toNat)]⟩ w = true → exec (.call n off) s =
      .next (after s (retires n ((c.put 31 (c.x.pc + 4)).goto_ ((c.put 31 (c.x.pc + 4)).x.pc + off.signExtend 64 * 4)) d'))) ∧
    (∀ (p : Fin 8) (sense : Bool) (off : BitVec 21), (c.pred p == 0xFFFFFFFF) = sense →
      reads ⟨0x1A, [(23, 3, p), (22, 1, b2n sense), (0, 21, off.toNat)]⟩ w = true → exec (.bp n p sense off) s =
      .next (after s (retires n (c.goto_ (c.x.pc + off.signExtend 64 * 4)) d'))) ∧
    (∀ (p : Fin 8) (sense : Bool) (off : BitVec 21), (c.pred p == 0xFFFFFFFF) ≠ sense →
      reads ⟨0x1A, [(23, 3, p), (22, 1, b2n sense), (0, 21, off.toNat)]⟩ w = true → exec (.bp n p sense off) s =
      .next (after s (retires n c.next d'))) ∧
    (∀ (rs : RegNo) (off : BitVec 21), c.get rs = 0 → reads ⟨0x1B, [(21, 5, rs), (0, 21, off.toNat)]⟩ w = true →
      exec (.cbz n rs off) s = .next (after s (retires n (c.goto_ (c.x.pc + off.signExtend 64 * 4)) d'))) ∧
    (∀ (rs : RegNo) (off : BitVec 21), c.get rs ≠ 0 → reads ⟨0x1B, [(21, 5, rs), (0, 21, off.toNat)]⟩ w = true →
      exec (.cbz n rs off) s = .next (after s (retires n c.next d'))) ∧
    (∀ (rs : RegNo) (off : BitVec 21), c.get rs ≠ 0 → reads ⟨0x1C, [(21, 5, rs), (0, 21, off.toNat)]⟩ w = true →
      exec (.cbnz n rs off) s = .next (after s (retires n (c.goto_ (c.x.pc + off.signExtend 64 * 4)) d'))) ∧
    (∀ (rs : RegNo) (off : BitVec 21), c.get rs = 0 → reads ⟨0x1C, [(21, 5, rs), (0, 21, off.toNat)]⟩ w = true →
      exec (.cbnz n rs off) s = .next (after s (retires n c.next d'))) ∧
    (∀ (rs : RegNo), reads ⟨0x1D, [(16, 5, rs)]⟩ w = true → exec (.jr n rs) s =
      .next (after s (retires n (c.goto_ (c.get rs)) d'))) ∧
    (∀ (rd rs : RegNo), reads ⟨0x1D, [(21, 5, rd), (16, 5, rs)]⟩ w = true → exec (.jalr n rd rs) s =
      .next (after s (retires n ((c.put rd (c.x.pc + 4)).goto_ (c.get rs)) d'))) ∧
    (∀ (base : RegNo) (off : BitVec 12), reads ⟨0x13, [(16, 5, base), (0, 12, off.toNat)]⟩ w = true →
      exec (.pref n base off) s = .next (after s (retires n c.next d'))) ∧
    (∀ (base : RegNo) (off : BitVec 12), reads ⟨0x13, [(16, 5, base), (0, 12, off.toNat)]⟩ w = true →
      exec (.clean n base off) s = .next (after s (retires n c.next d'))) ∧
    (∀ (base : RegNo) (off : BitVec 12), c.x.lvl = .m → reads ⟨0x13, [(16, 5, base), (0, 12, off.toNat)]⟩ w = true →
      exec (.cinval n base off) s = .next (after s (retires n c.next d'))) ∧
    (∀ (base : RegNo) (off : BitVec 12), c.x.lvl ≠ .m → reads ⟨0x13, [(16, 5, base), (0, 12, off.toNat)]⟩ w = true →
      exec (.cinval n base off) s = .next (after s (cancelHere n (takeTrap n ⟨xPriv, w, false⟩ c.x.pc (coreSet n c d'))))) ∧
    (reads ⟨0x15, []⟩ w = true → exec (.fenceM n) s = .next (after s (retires n c.next d'))) ∧
    (reads ⟨0x15, []⟩ w = true → exec (.fenceIo n) s = .next (after s (retires n c.next d'))) ∧
    (reads ⟨0x15, []⟩ w = true → exec (.fenceI n) s = .next (after s (retires n c.next d'))) ∧
    (∀ (rd : RegNo), reads (.d 0x30 0 [(21, 5, rd), (0, 2, ((0 : Fin 4) : Nat))]) w = true → exec (.timerd n rd 0) s =
      .next (after s (retires n ((c.put rd (BitVec.ofInt 64 (replCycle d'))).next) d'))) ∧
    (∀ (rd : RegNo), reads (.d 0x30 0 [(21, 5, rd), (0, 2, ((1 : Fin 4) : Nat))]) w = true → exec (.timerd n rd 1) s =
      .next (after s (retires n ((c.put rd (BitVec.ofInt 64 (replWall d'))).next) d'))) ∧
    (∀ (rd : RegNo) (sel : Fin 4), illegalWord w = true → exec (.timerd n rd sel) s =
      .next (after s (cancelHere n (takeTrap n ⟨xIllegal, w, false⟩ c.x.pc d')))) ∧
    (∀ (rd : RegNo), reads (.d 0x30 1 [(21, 5, rd)]) w = true → exec (.rawrd n rd) s =
      .next (after s (retires n ((c.put rd (BitVec.ofNat 64 d'.raw)).next) d'))) ∧
    (c.x.lvl ≠ .u → c.np = false → reads (.d 0x35 0 []) w = true → exec (.npb n) s =
      .next (after s (retires n ({ c.next with np := true, npAt := d'.raw }) d'))) ∧
    (c.x.lvl ≠ .u → c.np = true → reads (.d 0x35 0 []) w = true → exec (.npb n) s = .next (after s (retires n c.next d'))) ∧
    (c.x.lvl = .u → reads (.d 0x35 0 []) w = true → exec (.npb n) s =
      .next (after s (cancelHere n (takeTrap n ⟨xPriv, w, false⟩ c.x.pc (coreSet n c d'))))) ∧
    (c.x.lvl ≠ .u → c.np = true → reads (.d 0x35 1 []) w = true → exec (.npe n) s =
      .next (after s (retires n ((c.endNp d'.raw).next) d'))) ∧
    (c.x.lvl ≠ .u → c.np = false → reads (.d 0x35 1 []) w = true → exec (.npe n) s = .next (after s (retires n c.next d'))) ∧
    (c.x.lvl = .u → reads (.d 0x35 1 []) w = true → exec (.npe n) s =
      .next (after s (cancelHere n (takeTrap n ⟨xPriv, w, false⟩ c.x.pc (coreSet n c d')))))

/-- LKTRY, LKREL, the system registers, traps, illegal instructions and the return from an exception. The core issues the word. -/
def Obligations.SystemAndTraps : Prop :=
  ∀ (s : State) (d : Dev) (n : CoreNo) (w : Nat) (d' : Dev) (c : Core), d = start s → Issues n d w d' →
      c = coreOf n d →
    (∀ (rd rs : RegNo) (imm : BitVec 12) (k : Nat), isUp SCHi d' = true → k = numOf 7 imm (c.get rs) → lockOf k d' = 0 →
      reads (.d 0x31 0 [(21, 5, rd), (16, 5, rs), (0, 12, imm.toNat)]) w = true → exec (.lktry n rd rs imm) s =
      .next (after s (retires n ((fun x => { x with x := { x.x with lkcnt := c.x.lkcnt + 1 } }) (c.put rd 0).next) (lockSet k
      (n.val + 1) d')))) ∧
    (∀ (rd rs : RegNo) (imm : BitVec 12) (k : Nat), isUp SCHi d' = true → k = numOf 7 imm (c.get rs) → lockOf k d' ≠ 0 →
      reads (.d 0x31 0 [(21, 5, rd), (16, 5, rs), (0, 12, imm.toNat)]) w = true → exec (.lktry n rd rs imm) s =
      .next (after s (retires n ((c.put rd (BitVec.ofNat 64 (lockOf k d'))).next) d'))) ∧
    (∀ (rd rs : RegNo) (imm : BitVec 12) (k : Nat), isUp SCHi d' = true → k = numOf 7 imm (c.get rs) →
      lockOf k d' = n.val + 1 → reads (.d 0x31 1 [(21, 5, rd), (16, 5, rs), (0, 12, imm.toNat)]) w = true →
      exec (.lkrel n rd rs imm) s = .next (after s (retires n ((fun x => { x with x := { x.x with lkcnt := c.x.lkcnt - 1 } })
      (c.put rd 0).next) (lockWrite k n n d')))) ∧
    (∀ (rd rs : RegNo) (imm : BitVec 12) (num : Nat) (l : Level) (v : W64), num = numOf 12 imm (c.get rs) → num ≠ 0x01C →
      sysRead n num c d' = some (l, v) → l.num ≤ c.x.lvl.num → reads (.d 0x36 0 [(21, 5, rd), (16, 5, rs), (0, 12,
      imm.toNat)]) w = true → exec (.mfs n rd rs imm) s = .next (after s (retires n ((c.put rd v).next) d'))) ∧
    (∀ (rd rs : RegNo) (imm : BitVec 12) (num : Nat), num = numOf 12 imm (c.get rs) → num = 0x01C → c.x.lvl ≠ .u →
      reads (.d 0x36 0 [(21, 5, rd), (16, 5, rs), (0, 12, imm.toNat)]) w = true → exec (.mfs n rd rs imm) s =
      .next (after s (retires n (({ c with npmax := 0 }.put rd (BitVec.ofNat 64 (max c.npmax (c.npcnt d'.raw)))).next) d'))) ∧
    (∀ (rd rs : RegNo) (imm : BitVec 12) (num : Nat), num = numOf 12 imm (c.get rs) → sysRead n num c d' = none →
      reads (.d 0x36 0 [(21, 5, rd), (16, 5, rs), (0, 12, imm.toNat)]) w = true → exec (.mfs n rd rs imm) s =
      .next (after s (cancelHere n (takeTrap n ⟨xIllegal, w, false⟩ c.x.pc (coreSet n c d'))))) ∧
    (∀ (rs : RegNo) (imm : BitVec 12) (num : Nat) (l : Level) (v : W64), num = numOf 12 imm (c.get rs) →
      sysRead n num c d' = some (l, v) → (sysWriteLevel num l).num ≤ c.x.lvl.num → reads (.d 0x36 1 [(16, 5, rs), (0, 12,
      imm.toNat)]) w = true → exec (.mts n rs imm) s = .next (after s (retires n (((fun c' => if (and (Core.eact c') (!(or
      c.np c.eact))) = true then { c' with npAt := d'.raw } else
      c') (sysWrite num (c.get rs) { c with npmax := max c.npmax (c.npcnt d'.raw) })).next) d'))) ∧
    (∀ (imm : BitVec 12), reads (.d 0x37 0 [(0, 12, imm.toNat)]) w = true → exec (.svc n imm) s =
      .next (after s (cancelHere n (takeTrap n ⟨xSvc, imm.toNat, false⟩ (c.x.pc + 4) (coreSet n { c with iret := c.iret + 1 }
      d'))))) ∧
    (∀ (imm : BitVec 12), reads (.d 0x37 1 [(0, 12, imm.toNat)]) w = true → exec (.mcall n imm) s =
      .next (after s (cancelHere n (takeTrap n ⟨xMcall, imm.toNat, false⟩ (c.x.pc + 4) (coreSet n
      { c with iret := c.iret + 1 } d'))))) ∧
    (∀ (imm : BitVec 12), reads (.d 0x37 2 [(0, 12, imm.toNat)]) w = true → exec (.brk n imm) s =
      .next (after s (cancelHere n (takeTrap n ⟨xBrk, imm.toNat, false⟩ (c.x.pc + 4) (coreSet n { c with iret := c.iret + 1 }
      d'))))) ∧
    (c.x.lvl ≠ .u → reads (.d 0x37 3 []) w = true → exec (.eret n) s = .next (after s (retires n (c.leave d'.raw) d'))) ∧
    (c.x.lvl = .u → reads (.d 0x37 3 []) w = true → exec (.eret n) s =
      .next (after s (cancelHere n (takeTrap n ⟨xPriv, w, false⟩ c.x.pc (coreSet n c d'))))) ∧
    (reads .none_ w = true → exec (.illegal n) s = .next (after s (cancelHere n (takeTrap n ⟨xIllegal, w, false⟩ c.x.pc
      (coreSet n c d'))))) ∧
    (∀ (rd rs rt : RegNo), illegalWord w = true → exec (.add n rd rs rt) s =
      .next (after s (cancelHere n (takeTrap n ⟨xIllegal, w, false⟩ c.x.pc d')))) ∧
    (∀ (rd base : RegNo) (off : BitVec 12) (e : Ecc), illegalWord w = true → exec (.lw n rd base off e) s =
      .next (after s (cancelHere n (takeTrap n ⟨xIllegal, w, false⟩ c.x.pc d')))) ∧
    (∀ (off : BitVec 21), illegalWord w = true → exec (.br n off) s =
      .next (after s (cancelHere n (takeTrap n ⟨xIllegal, w, false⟩ c.x.pc d')))) ∧
    (∀ (vd va vb : RegNo) (pm : Fin 8) (ty : VTy), illegalWord w = true → exec (.vadd n vd va vb pm ty) s =
      .next (after s (cancelHere n (takeTrap n ⟨xIllegal, w, false⟩ c.x.pc d')))) ∧
    (∀ (rd rs rt : RegNo) (dbl : Bool), illegalWord w = true → exec (.fadd n rd rs rt dbl) s =
      .next (after s (cancelHere n (takeTrap n ⟨xIllegal, w, false⟩ c.x.pc d')))) ∧
    (∀ (rd rs : RegNo) (imm : BitVec 12), illegalWord w = true → exec (.lktry n rd rs imm) s =
      .next (after s (cancelHere n (takeTrap n ⟨xIllegal, w, false⟩ c.x.pc d')))) ∧
    (∀ (rd rs : RegNo) (imm : BitVec 12), illegalWord w = true → exec (.mfs n rd rs imm) s =
      .next (after s (cancelHere n (takeTrap n ⟨xIllegal, w, false⟩ c.x.pc d')))) ∧
    (∀ (imm : BitVec 12), illegalWord w = true → exec (.svc n imm) s =
      .next (after s (cancelHere n (takeTrap n ⟨xIllegal, w, false⟩ c.x.pc d'))))

/-- Scalar floating instructions write their rounded result and raise its flags, or the trap enabled for one. The core issues the word. -/
def Obligations.FloatingResults : Prop :=
  ∀ (s : State) (d : Dev) (n : CoreNo) (w : Nat) (d' : Dev) (c : Core), d = start s → Issues n d w d' →
      c = coreOf n d →
    (∀ (rd rs rt : RegNo) (dbl : Bool) (r : FRes), r = fAdd (fmtOf dbl) c.rnd (fpArg dbl (c.get rs)) (fpArg dbl (c.get rt)) →
      r.fl &&& bits c.x.fpcsr.toNat 16 5 = 0 → reads (.a 0x28 rd rs rt) w = true → exec (.fadd n rd rs rt dbl) s =
      .next (after s (retires n (((c.put rd (fpReg dbl r.v)).sticky r.fl).next) d'))) ∧
    (∀ (rd rs rt : RegNo) (dbl : Bool) (r : FRes), r = fSub (fmtOf dbl) c.rnd (fpArg dbl (c.get rs)) (fpArg dbl (c.get rt)) →
      r.fl &&& bits c.x.fpcsr.toNat 16 5 = 0 → reads (.a 0x28 rd rs rt) w = true → exec (.fsub n rd rs rt dbl) s =
      .next (after s (retires n (((c.put rd (fpReg dbl r.v)).sticky r.fl).next) d'))) ∧
    (∀ (rd rs rt : RegNo) (dbl : Bool) (r : FRes), r = fMul (fmtOf dbl) c.rnd (fpArg dbl (c.get rs)) (fpArg dbl (c.get rt)) →
      r.fl &&& bits c.x.fpcsr.toNat 16 5 = 0 → reads (.a 0x28 rd rs rt) w = true → exec (.fmul n rd rs rt dbl) s =
      .next (after s (retires n (((c.put rd (fpReg dbl r.v)).sticky r.fl).next) d'))) ∧
    (∀ (rd rs rt : RegNo) (dbl : Bool) (r : FRes), r = fDiv (fmtOf dbl) c.rnd (fpArg dbl (c.get rs)) (fpArg dbl (c.get rt)) →
      r.fl &&& bits c.x.fpcsr.toNat 16 5 = 0 → reads (.a 0x28 rd rs rt) w = true → exec (.fdiv n rd rs rt dbl) s =
      .next (after s (retires n (((c.put rd (fpReg dbl r.v)).sticky r.fl).next) d'))) ∧
    (∀ (rd rs rt : RegNo) (dbl : Bool) (r : FRes), r = fFma (fmtOf dbl) c.rnd (fpArg dbl (c.get rs)) (fpArg dbl (c.get rt))
      (fpArg dbl (c.get rd)) → r.fl &&& bits c.x.fpcsr.toNat 16 5 = 0 → reads (.a 0x28 rd rs rt) w = true →
      exec (.fma n rd rs rt dbl) s = .next (after s (retires n (((c.put rd (fpReg dbl r.v)).sticky r.fl).next) d'))) ∧
    (∀ (rd rs rt : RegNo) (dbl : Bool) (r : FRes), r = fMinMax (fmtOf dbl) false (fpArg dbl (c.get rs)) (fpArg dbl (c.get rt))
      → r.fl &&& bits c.x.fpcsr.toNat 16 5 = 0 → reads (.a 0x28 rd rs rt) w = true → exec (.fmin n rd rs rt dbl) s =
      .next (after s (retires n (((c.put rd (fpReg dbl r.v)).sticky r.fl).next) d'))) ∧
    (∀ (rd rs rt : RegNo) (dbl : Bool) (r : FRes), r = fMinMax (fmtOf dbl) true (fpArg dbl (c.get rs)) (fpArg dbl (c.get rt))
      → r.fl &&& bits c.x.fpcsr.toNat 16 5 = 0 → reads (.a 0x28 rd rs rt) w = true → exec (.fmax n rd rs rt dbl) s =
      .next (after s (retires n (((c.put rd (fpReg dbl r.v)).sticky r.fl).next) d'))) ∧
    (∀ (rd rs : RegNo) (dbl : Bool) (r : FRes), r = fSqrt (fmtOf dbl) c.rnd (fpArg dbl (c.get rs)) →
      r.fl &&& bits c.x.fpcsr.toNat 16 5 = 0 → reads ⟨0x28, [(21, 5, rd), (16, 5, rs)]⟩ w = true →
      exec (.fsqrt n rd rs dbl) s = .next (after s (retires n (((c.put rd (fpReg dbl r.v)).sticky r.fl).next) d'))) ∧
    (∀ (rd rs : RegNo) (r : FRes), r = fCvt f32 f64 c.rnd ((c.get rs).toNat % 2 ^ 32) →
      r.fl &&& bits c.x.fpcsr.toNat 16 5 = 0 → reads ⟨0x28, [(21, 5, rd), (16, 5, rs)]⟩ w = true →
      exec (.fcvt n rd rs .sToD) s = .next (after s (retires n (((c.put rd (fpReg true r.v)).sticky r.fl).next) d'))) ∧
    (∀ (rd rs : RegNo) (r : FRes), r = fCvt f64 f32 c.rnd (c.get rs).toNat → r.fl &&& bits c.x.fpcsr.toNat 16 5 = 0 →
      reads ⟨0x28, [(21, 5, rd), (16, 5, rs)]⟩ w = true → exec (.fcvt n rd rs .dToS) s =
      .next (after s (retires n (((c.put rd (fpReg false r.v)).sticky r.fl).next) d'))) ∧
    (∀ (rd rs : RegNo) (r : FRes), r = toInt f32 c.rnd 64 ((c.get rs).toNat % 2 ^ 32) →
      r.fl &&& bits c.x.fpcsr.toNat 16 5 = 0 → reads ⟨0x28, [(21, 5, rd), (16, 5, rs)]⟩ w = true →
      exec (.fcvt n rd rs .sToInt) s = .next (after s (retires n (((c.put rd (fpReg true r.v)).sticky r.fl).next) d'))) ∧
    (∀ (rd rs : RegNo) (r : FRes), r = toInt f64 c.rnd 64 (c.get rs).toNat → r.fl &&& bits c.x.fpcsr.toNat 16 5 = 0 →
      reads ⟨0x28, [(21, 5, rd), (16, 5, rs)]⟩ w = true → exec (.fcvt n rd rs .dToInt) s =
      .next (after s (retires n (((c.put rd (fpReg true r.v)).sticky r.fl).next) d'))) ∧
    (∀ (rd rs : RegNo) (r : FRes), r = ofInt f32 c.rnd (c.get rs).toInt → r.fl &&& bits c.x.fpcsr.toNat 16 5 = 0 →
      reads ⟨0x28, [(21, 5, rd), (16, 5, rs)]⟩ w = true → exec (.fcvt n rd rs .intToS) s =
      .next (after s (retires n (((c.put rd (fpReg false r.v)).sticky r.fl).next) d'))) ∧
    (∀ (rd rs : RegNo) (r : FRes), r = ofInt f64 c.rnd (c.get rs).toInt → r.fl &&& bits c.x.fpcsr.toNat 16 5 = 0 →
      reads ⟨0x28, [(21, 5, rd), (16, 5, rs)]⟩ w = true → exec (.fcvt n rd rs .intToD) s =
      .next (after s (retires n (((c.put rd (fpReg true r.v)).sticky r.fl).next) d'))) ∧
    (∀ (rd rs rt : RegNo) (dbl : Bool) (r : FRes), r = fAdd (fmtOf dbl) c.rnd (fpArg dbl (c.get rs)) (fpArg dbl (c.get rt)) →
      r.fl &&& bits c.x.fpcsr.toNat 16 5 ≠ 0 → reads (.a 0x28 rd rs rt) w = true → exec (.fadd n rd rs rt dbl) s =
      .next (after s (cancelHere n (takeTrap n ⟨xFp, r.fl, false⟩ c.x.pc (coreSet n c d'))))) ∧
    (∀ (pd : Fin 8) (rs rt : RegNo) (dbl : Bool) (r : Bool × Nat),
      r = fCmp (fmtOf dbl) 0 (fpArg dbl (c.get rs)) (fpArg dbl (c.get rt)) → r.2 &&& bits c.x.fpcsr.toNat 16 5 = 0 →
      reads ⟨0x29, [(16, 5, rs), (11, 5, rt)]⟩ w = true → exec (.fcmpeq n pd rs rt dbl) s =
      .next (after s (retires n (((c.putPred pd (allBits r.1)).sticky r.2).next) d'))) ∧
    (∀ (pd : Fin 8) (rs rt : RegNo) (dbl : Bool) (r : Bool × Nat),
      r = fCmp (fmtOf dbl) 1 (fpArg dbl (c.get rs)) (fpArg dbl (c.get rt)) → r.2 &&& bits c.x.fpcsr.toNat 16 5 = 0 →
      reads ⟨0x29, [(16, 5, rs), (11, 5, rt)]⟩ w = true → exec (.fcmplt n pd rs rt dbl) s =
      .next (after s (retires n (((c.putPred pd (allBits r.1)).sticky r.2).next) d'))) ∧
    (∀ (pd : Fin 8) (rs rt : RegNo) (dbl : Bool) (r : Bool × Nat),
      r = fCmp (fmtOf dbl) 2 (fpArg dbl (c.get rs)) (fpArg dbl (c.get rt)) → r.2 &&& bits c.x.fpcsr.toNat 16 5 = 0 →
      reads ⟨0x29, [(16, 5, rs), (11, 5, rt)]⟩ w = true → exec (.fcmple n pd rs rt dbl) s =
      .next (after s (retires n (((c.putPred pd (allBits r.1)).sticky r.2).next) d'))) ∧
    (∀ (rd rs rt : RegNo) (dbl : Bool) (r : FRes), r = fAdd (fmtOf dbl) c.rnd (fpArg dbl (c.get rs)) (fpArg dbl (c.get rt)) →
      r.fl &&& bits c.x.fpcsr.toNat 16 5 ≠ 0 → reads (.a 0x28 rd rs rt) w = true → exec (.fadd n rd rs rt dbl) s =
      .next (after s (cancelHere n (takeTrap n ⟨xFp, r.fl, false⟩ c.x.pc (coreSet n c d'))))) ∧
    (∀ (rd rs rt : RegNo) (dbl : Bool) (r : FRes), r = fSub (fmtOf dbl) c.rnd (fpArg dbl (c.get rs)) (fpArg dbl (c.get rt)) →
      r.fl &&& bits c.x.fpcsr.toNat 16 5 ≠ 0 → reads (.a 0x28 rd rs rt) w = true → exec (.fsub n rd rs rt dbl) s =
      .next (after s (cancelHere n (takeTrap n ⟨xFp, r.fl, false⟩ c.x.pc (coreSet n c d'))))) ∧
    (∀ (rd rs rt : RegNo) (dbl : Bool) (r : FRes), r = fMul (fmtOf dbl) c.rnd (fpArg dbl (c.get rs)) (fpArg dbl (c.get rt)) →
      r.fl &&& bits c.x.fpcsr.toNat 16 5 ≠ 0 → reads (.a 0x28 rd rs rt) w = true → exec (.fmul n rd rs rt dbl) s =
      .next (after s (cancelHere n (takeTrap n ⟨xFp, r.fl, false⟩ c.x.pc (coreSet n c d'))))) ∧
    (∀ (rd rs rt : RegNo) (dbl : Bool) (r : FRes), r = fDiv (fmtOf dbl) c.rnd (fpArg dbl (c.get rs)) (fpArg dbl (c.get rt)) →
      r.fl &&& bits c.x.fpcsr.toNat 16 5 ≠ 0 → reads (.a 0x28 rd rs rt) w = true → exec (.fdiv n rd rs rt dbl) s =
      .next (after s (cancelHere n (takeTrap n ⟨xFp, r.fl, false⟩ c.x.pc (coreSet n c d'))))) ∧
    (∀ (rd rs rt : RegNo) (dbl : Bool) (r : FRes), r = fFma (fmtOf dbl) c.rnd (fpArg dbl (c.get rs)) (fpArg dbl (c.get rt))
      (fpArg dbl (c.get rd)) → r.fl &&& bits c.x.fpcsr.toNat 16 5 ≠ 0 → reads (.a 0x28 rd rs rt) w = true →
      exec (.fma n rd rs rt dbl) s = .next (after s (cancelHere n (takeTrap n ⟨xFp, r.fl, false⟩ c.x.pc (coreSet n c d'))))) ∧
    (∀ (rd rs rt : RegNo) (dbl : Bool) (r : FRes), r = fMinMax (fmtOf dbl) false (fpArg dbl (c.get rs)) (fpArg dbl (c.get rt))
      → r.fl &&& bits c.x.fpcsr.toNat 16 5 ≠ 0 → reads (.a 0x28 rd rs rt) w = true → exec (.fmin n rd rs rt dbl) s =
      .next (after s (cancelHere n (takeTrap n ⟨xFp, r.fl, false⟩ c.x.pc (coreSet n c d'))))) ∧
    (∀ (rd rs rt : RegNo) (dbl : Bool) (r : FRes), r = fMinMax (fmtOf dbl) true (fpArg dbl (c.get rs)) (fpArg dbl (c.get rt))
      → r.fl &&& bits c.x.fpcsr.toNat 16 5 ≠ 0 → reads (.a 0x28 rd rs rt) w = true → exec (.fmax n rd rs rt dbl) s =
      .next (after s (cancelHere n (takeTrap n ⟨xFp, r.fl, false⟩ c.x.pc (coreSet n c d'))))) ∧
    (∀ (rd rs : RegNo) (dbl : Bool) (r : FRes), r = fSqrt (fmtOf dbl) c.rnd (fpArg dbl (c.get rs)) →
      r.fl &&& bits c.x.fpcsr.toNat 16 5 ≠ 0 → reads ⟨0x28, [(21, 5, rd), (16, 5, rs)]⟩ w = true →
      exec (.fsqrt n rd rs dbl) s = .next (after s (cancelHere n (takeTrap n ⟨xFp, r.fl, false⟩ c.x.pc (coreSet n c d'))))) ∧
    (∀ (rd rs : RegNo) (r : FRes), r = fCvt f32 f64 c.rnd ((c.get rs).toNat % 2 ^ 32) →
      r.fl &&& bits c.x.fpcsr.toNat 16 5 ≠ 0 → reads ⟨0x28, [(21, 5, rd), (16, 5, rs)]⟩ w = true →
      exec (.fcvt n rd rs .sToD) s = .next (after s (cancelHere n (takeTrap n ⟨xFp, r.fl, false⟩ c.x.pc (coreSet n c d'))))) ∧
    (∀ (rd rs : RegNo) (r : FRes), r = fCvt f64 f32 c.rnd (c.get rs).toNat → r.fl &&& bits c.x.fpcsr.toNat 16 5 ≠ 0 →
      reads ⟨0x28, [(21, 5, rd), (16, 5, rs)]⟩ w = true → exec (.fcvt n rd rs .dToS) s =
      .next (after s (cancelHere n (takeTrap n ⟨xFp, r.fl, false⟩ c.x.pc (coreSet n c d'))))) ∧
    (∀ (rd rs : RegNo) (r : FRes), r = toInt f32 c.rnd 64 ((c.get rs).toNat % 2 ^ 32) →
      r.fl &&& bits c.x.fpcsr.toNat 16 5 ≠ 0 → reads ⟨0x28, [(21, 5, rd), (16, 5, rs)]⟩ w = true →
      exec (.fcvt n rd rs .sToInt) s = .next (after s (cancelHere n (takeTrap n ⟨xFp, r.fl, false⟩ c.x.pc (coreSet n c d')))))
      ∧
    (∀ (rd rs : RegNo) (r : FRes), r = toInt f64 c.rnd 64 (c.get rs).toNat → r.fl &&& bits c.x.fpcsr.toNat 16 5 ≠ 0 →
      reads ⟨0x28, [(21, 5, rd), (16, 5, rs)]⟩ w = true → exec (.fcvt n rd rs .dToInt) s =
      .next (after s (cancelHere n (takeTrap n ⟨xFp, r.fl, false⟩ c.x.pc (coreSet n c d'))))) ∧
    (∀ (rd rs : RegNo) (r : FRes), r = ofInt f32 c.rnd (c.get rs).toInt → r.fl &&& bits c.x.fpcsr.toNat 16 5 ≠ 0 →
      reads ⟨0x28, [(21, 5, rd), (16, 5, rs)]⟩ w = true → exec (.fcvt n rd rs .intToS) s =
      .next (after s (cancelHere n (takeTrap n ⟨xFp, r.fl, false⟩ c.x.pc (coreSet n c d'))))) ∧
    (∀ (rd rs : RegNo) (r : FRes), r = ofInt f64 c.rnd (c.get rs).toInt → r.fl &&& bits c.x.fpcsr.toNat 16 5 ≠ 0 →
      reads ⟨0x28, [(21, 5, rd), (16, 5, rs)]⟩ w = true → exec (.fcvt n rd rs .intToD) s =
      .next (after s (cancelHere n (takeTrap n ⟨xFp, r.fl, false⟩ c.x.pc (coreSet n c d'))))) ∧
    (∀ (pd : Fin 8) (rs rt : RegNo) (dbl : Bool) (r : Bool × Nat),
      r = fCmp (fmtOf dbl) 0 (fpArg dbl (c.get rs)) (fpArg dbl (c.get rt)) → r.2 &&& bits c.x.fpcsr.toNat 16 5 ≠ 0 →
      reads ⟨0x29, [(16, 5, rs), (11, 5, rt)]⟩ w = true → exec (.fcmpeq n pd rs rt dbl) s =
      .next (after s (cancelHere n (takeTrap n ⟨xFp, r.2, false⟩ c.x.pc (coreSet n c d'))))) ∧
    (∀ (pd : Fin 8) (rs rt : RegNo) (dbl : Bool) (r : Bool × Nat),
      r = fCmp (fmtOf dbl) 1 (fpArg dbl (c.get rs)) (fpArg dbl (c.get rt)) → r.2 &&& bits c.x.fpcsr.toNat 16 5 ≠ 0 →
      reads ⟨0x29, [(16, 5, rs), (11, 5, rt)]⟩ w = true → exec (.fcmplt n pd rs rt dbl) s =
      .next (after s (cancelHere n (takeTrap n ⟨xFp, r.2, false⟩ c.x.pc (coreSet n c d'))))) ∧
    (∀ (pd : Fin 8) (rs rt : RegNo) (dbl : Bool) (r : Bool × Nat),
      r = fCmp (fmtOf dbl) 2 (fpArg dbl (c.get rs)) (fpArg dbl (c.get rt)) → r.2 &&& bits c.x.fpcsr.toNat 16 5 ≠ 0 →
      reads ⟨0x29, [(16, 5, rs), (11, 5, rt)]⟩ w = true → exec (.fcmple n pd rs rt dbl) s =
      .next (after s (cancelHere n (takeTrap n ⟨xFp, r.2, false⟩ c.x.pc (coreSet n c d')))))

/-- Vector floating instructions write the selected elements and raise their flags, or trap. The core issues the word. -/
def Obligations.VectorFloatResults : Prop :=
  ∀ (s : State) (d : Dev) (n : CoreNo) (w : Nat) (d' : Dev) (c : Core), d = start s → Issues n d w d' →
      c = coreOf n d →
    (∀ (vd va vb : RegNo) (pm : Fin 8) (ty : VTy) (r : BitVec 256 × Nat), vIsF ty = true →
      r = lanes ty (c.pred pm) (c.vec vd) (fun i => fAdd (vFmt ty) c.rnd (lane ty (c.vec va) i) (lane ty (c.vec vb) i)) →
      r.2 &&& bits c.x.fpcsr.toNat 16 5 = 0 → reads (.v 0x20 vd va vb pm ty) w = true → exec (.vadd n vd va vb pm ty) s =
      .next (after s (retires n (((c.putVec vd r.1).sticky r.2).next) d'))) ∧
    (∀ (vd va vb : RegNo) (pm : Fin 8) (ty : VTy) (r : BitVec 256 × Nat), vIsF ty = true →
      r = lanes ty (c.pred pm) (c.vec vd) (fun i => fSub (vFmt ty) c.rnd (lane ty (c.vec va) i) (lane ty (c.vec vb) i)) →
      r.2 &&& bits c.x.fpcsr.toNat 16 5 = 0 → reads (.v 0x20 vd va vb pm ty) w = true → exec (.vsub n vd va vb pm ty) s =
      .next (after s (retires n (((c.putVec vd r.1).sticky r.2).next) d'))) ∧
    (∀ (vd va vb : RegNo) (pm : Fin 8) (ty : VTy) (r : BitVec 256 × Nat), vIsF ty = true →
      r = lanes ty (c.pred pm) (c.vec vd) (fun i => fMul (vFmt ty) c.rnd (lane ty (c.vec va) i) (lane ty (c.vec vb) i)) →
      r.2 &&& bits c.x.fpcsr.toNat 16 5 = 0 → reads (.v 0x20 vd va vb pm ty) w = true → exec (.vmul n vd va vb pm ty) s =
      .next (after s (retires n (((c.putVec vd r.1).sticky r.2).next) d'))) ∧
    (∀ (vd va vb : RegNo) (pm : Fin 8) (ty : VTy) (r : BitVec 256 × Nat), vIsF ty = true →
      r = lanes ty (c.pred pm) (c.vec vd) (fun i => fDiv (vFmt ty) c.rnd (lane ty (c.vec va) i) (lane ty (c.vec vb) i)) →
      r.2 &&& bits c.x.fpcsr.toNat 16 5 = 0 → reads (.v 0x20 vd va vb pm ty) w = true → exec (.vdiv n vd va vb pm ty) s =
      .next (after s (retires n (((c.putVec vd r.1).sticky r.2).next) d'))) ∧
    (∀ (vd va vb : RegNo) (pm : Fin 8) (ty : VTy) (r : BitVec 256 × Nat), vIsF ty = true →
      r = lanes ty (c.pred pm) (c.vec vd) (fun i => fMinMax (vFmt ty) false (lane ty (c.vec va) i) (lane ty (c.vec vb) i)) →
      r.2 &&& bits c.x.fpcsr.toNat 16 5 = 0 → reads (.v 0x20 vd va vb pm ty) w = true → exec (.vmin n vd va vb pm ty) s =
      .next (after s (retires n (((c.putVec vd r.1).sticky r.2).next) d'))) ∧
    (∀ (vd va vb : RegNo) (pm : Fin 8) (ty : VTy) (r : BitVec 256 × Nat), vIsF ty = true →
      r = lanes ty (c.pred pm) (c.vec vd) (fun i => fMinMax (vFmt ty) true (lane ty (c.vec va) i) (lane ty (c.vec vb) i)) →
      r.2 &&& bits c.x.fpcsr.toNat 16 5 = 0 → reads (.v 0x20 vd va vb pm ty) w = true → exec (.vmax n vd va vb pm ty) s =
      .next (after s (retires n (((c.putVec vd r.1).sticky r.2).next) d'))) ∧
    (∀ (vd va vb : RegNo) (pm : Fin 8) (ty : VTy) (r : BitVec 256 × Nat), vIsF ty = true →
      r = lanes ty (c.pred pm) (c.vec vd) (fun i => fFma (vFmt ty) c.rnd (lane ty (c.vec va) i) (lane ty (c.vec vb) i) (lane
      ty (c.vec vd) i)) → r.2 &&& bits c.x.fpcsr.toNat 16 5 = 0 → reads (.v 0x20 vd va vb pm ty) w = true →
      exec (.vfma n vd va vb pm ty) s = .next (after s (retires n (((c.putVec vd r.1).sticky r.2).next) d'))) ∧
    (∀ (vd va : RegNo) (pm : Fin 8) (ty : VTy) (r : BitVec 256 × Nat), vIsF ty = true →
      r = lanes ty (c.pred pm) (c.vec vd) (fun i => fSqrt (vFmt ty) c.rnd (lane ty (c.vec va) i)) →
      r.2 &&& bits c.x.fpcsr.toNat 16 5 = 0 → reads ⟨0x20, [(21, 5, vd), (16, 5, va), (8, 3, pm), (5, 3, vCode ty)]⟩ w = true
      → exec (.vsqrt n vd va pm ty) s = .next (after s (retires n (((c.putVec vd r.1).sticky r.2).next) d'))) ∧
    (∀ (vd va : RegNo) (pm : Fin 8) (ty : VTy) (r : BitVec 256 × Nat), vIsF ty = true →
      r = lanes ty (c.pred pm) (c.vec vd) (fun i => toInt (vFmt ty) c.rnd (vWidth ty) (lane ty (c.vec va) i)) →
      r.2 &&& bits c.x.fpcsr.toNat 16 5 = 0 → reads ⟨0x24, [(21, 5, vd), (16, 5, va), (8, 3, pm), (5, 3, vCode ty)]⟩ w = true
      → exec (.vcvt n vd va pm ty true) s = .next (after s (retires n (((c.putVec vd r.1).sticky r.2).next) d'))) ∧
    (∀ (vd va : RegNo) (pm : Fin 8) (ty : VTy) (r : BitVec 256 × Nat), vIsF ty = true →
      r = lanes ty (c.pred pm) (c.vec vd) (fun i => ofInt (vFmt ty) c.rnd (toS (vWidth ty) (lane ty (c.vec va) i))) →
      r.2 &&& bits c.x.fpcsr.toNat 16 5 = 0 → reads ⟨0x24, [(21, 5, vd), (16, 5, va), (8, 3, pm), (5, 3, vCode ty)]⟩ w = true
      → exec (.vcvt n vd va pm ty false) s = .next (after s (retires n (((c.putVec vd r.1).sticky r.2).next) d'))) ∧
    (∀ (vd va vb : RegNo) (pm : Fin 8) (ty : VTy), vIsF ty = false → reads (.v 0x20 vd va vb pm ty) w = true →
      exec (.vadd n vd va vb pm ty) s = .next (after s (cancelHere n (takeTrap n ⟨xIllegal, w, false⟩ c.x.pc (coreSet n c
      d'))))) ∧
    (∀ (pd : Fin 8) (va vb : RegNo) (pm : Fin 8) (ty : VTy), vIsWide ty = true →
      cmpFlags 0 ty (c.pred pm) (c.vec va) (c.vec vb) &&& bits c.x.fpcsr.toNat 16 5 = 0 →
      reads ⟨0x22, [(21, 3, pd), (16, 5, va), (11, 5, vb), (8, 3, pm), (5, 3, vCode ty)]⟩ w = true →
      exec (.vcmpeq n pd va vb pm ty) s = .next (after s (retires n (((c.putPred pd (cmpBits 0 ty (c.pred pm) (c.pred pd)
      (c.vec va) (c.vec vb))).sticky (cmpFlags 0 ty (c.pred pm) (c.vec va) (c.vec vb))).next) d'))) ∧
    (∀ (pd : Fin 8) (va vb : RegNo) (pm : Fin 8) (ty : VTy), vIsWide ty = true →
      cmpFlags 1 ty (c.pred pm) (c.vec va) (c.vec vb) &&& bits c.x.fpcsr.toNat 16 5 = 0 →
      reads ⟨0x22, [(21, 3, pd), (16, 5, va), (11, 5, vb), (8, 3, pm), (5, 3, vCode ty)]⟩ w = true →
      exec (.vcmplt n pd va vb pm ty) s = .next (after s (retires n (((c.putPred pd (cmpBits 1 ty (c.pred pm) (c.pred pd)
      (c.vec va) (c.vec vb))).sticky (cmpFlags 1 ty (c.pred pm) (c.vec va) (c.vec vb))).next) d'))) ∧
    (∀ (pd : Fin 8) (va vb : RegNo) (pm : Fin 8) (ty : VTy), vIsWide ty = true →
      cmpFlags 2 ty (c.pred pm) (c.vec va) (c.vec vb) &&& bits c.x.fpcsr.toNat 16 5 = 0 →
      reads ⟨0x22, [(21, 3, pd), (16, 5, va), (11, 5, vb), (8, 3, pm), (5, 3, vCode ty)]⟩ w = true →
      exec (.vcmple n pd va vb pm ty) s = .next (after s (retires n (((c.putPred pd (cmpBits 2 ty (c.pred pm) (c.pred pd)
      (c.vec va) (c.vec vb))).sticky (cmpFlags 2 ty (c.pred pm) (c.vec va) (c.vec vb))).next) d'))) ∧
    (∀ (vd va vb : RegNo) (pm : Fin 8) (ty : VTy) (r : BitVec 256 × Nat), vIsF ty = true →
      r = lanes ty (c.pred pm) (c.vec vd) (fun i => fAdd (vFmt ty) c.rnd (lane ty (c.vec va) i) (lane ty (c.vec vb) i)) →
      r.2 &&& bits c.x.fpcsr.toNat 16 5 ≠ 0 → reads (.v 0x20 vd va vb pm ty) w = true → exec (.vadd n vd va vb pm ty) s =
      .next (after s (cancelHere n (takeTrap n ⟨xFp, r.2, false⟩ c.x.pc (coreSet n c d'))))) ∧
    (∀ (vd va vb : RegNo) (pm : Fin 8) (ty : VTy) (r : BitVec 256 × Nat), vIsF ty = true →
      r = lanes ty (c.pred pm) (c.vec vd) (fun i => fSub (vFmt ty) c.rnd (lane ty (c.vec va) i) (lane ty (c.vec vb) i)) →
      r.2 &&& bits c.x.fpcsr.toNat 16 5 ≠ 0 → reads (.v 0x20 vd va vb pm ty) w = true → exec (.vsub n vd va vb pm ty) s =
      .next (after s (cancelHere n (takeTrap n ⟨xFp, r.2, false⟩ c.x.pc (coreSet n c d'))))) ∧
    (∀ (vd va vb : RegNo) (pm : Fin 8) (ty : VTy), vIsF ty = false → reads (.v 0x20 vd va vb pm ty) w = true →
      exec (.vsub n vd va vb pm ty) s = .next (after s (cancelHere n (takeTrap n ⟨xIllegal, w, false⟩ c.x.pc (coreSet n c
      d'))))) ∧
    (∀ (vd va vb : RegNo) (pm : Fin 8) (ty : VTy) (r : BitVec 256 × Nat), vIsF ty = true →
      r = lanes ty (c.pred pm) (c.vec vd) (fun i => fMul (vFmt ty) c.rnd (lane ty (c.vec va) i) (lane ty (c.vec vb) i)) →
      r.2 &&& bits c.x.fpcsr.toNat 16 5 ≠ 0 → reads (.v 0x20 vd va vb pm ty) w = true → exec (.vmul n vd va vb pm ty) s =
      .next (after s (cancelHere n (takeTrap n ⟨xFp, r.2, false⟩ c.x.pc (coreSet n c d'))))) ∧
    (∀ (vd va vb : RegNo) (pm : Fin 8) (ty : VTy), vIsF ty = false → reads (.v 0x20 vd va vb pm ty) w = true →
      exec (.vmul n vd va vb pm ty) s = .next (after s (cancelHere n (takeTrap n ⟨xIllegal, w, false⟩ c.x.pc (coreSet n c
      d'))))) ∧
    (∀ (vd va vb : RegNo) (pm : Fin 8) (ty : VTy) (r : BitVec 256 × Nat), vIsF ty = true →
      r = lanes ty (c.pred pm) (c.vec vd) (fun i => fDiv (vFmt ty) c.rnd (lane ty (c.vec va) i) (lane ty (c.vec vb) i)) →
      r.2 &&& bits c.x.fpcsr.toNat 16 5 ≠ 0 → reads (.v 0x20 vd va vb pm ty) w = true → exec (.vdiv n vd va vb pm ty) s =
      .next (after s (cancelHere n (takeTrap n ⟨xFp, r.2, false⟩ c.x.pc (coreSet n c d'))))) ∧
    (∀ (vd va vb : RegNo) (pm : Fin 8) (ty : VTy), vIsF ty = false → reads (.v 0x20 vd va vb pm ty) w = true →
      exec (.vdiv n vd va vb pm ty) s = .next (after s (cancelHere n (takeTrap n ⟨xIllegal, w, false⟩ c.x.pc (coreSet n c
      d'))))) ∧
    (∀ (vd va vb : RegNo) (pm : Fin 8) (ty : VTy) (r : BitVec 256 × Nat), vIsF ty = true →
      r = lanes ty (c.pred pm) (c.vec vd) (fun i => fMinMax (vFmt ty) false (lane ty (c.vec va) i) (lane ty (c.vec vb) i)) →
      r.2 &&& bits c.x.fpcsr.toNat 16 5 ≠ 0 → reads (.v 0x20 vd va vb pm ty) w = true → exec (.vmin n vd va vb pm ty) s =
      .next (after s (cancelHere n (takeTrap n ⟨xFp, r.2, false⟩ c.x.pc (coreSet n c d'))))) ∧
    (∀ (vd va vb : RegNo) (pm : Fin 8) (ty : VTy), vIsF ty = false → reads (.v 0x20 vd va vb pm ty) w = true →
      exec (.vmin n vd va vb pm ty) s = .next (after s (cancelHere n (takeTrap n ⟨xIllegal, w, false⟩ c.x.pc (coreSet n c
      d'))))) ∧
    (∀ (vd va vb : RegNo) (pm : Fin 8) (ty : VTy) (r : BitVec 256 × Nat), vIsF ty = true →
      r = lanes ty (c.pred pm) (c.vec vd) (fun i => fMinMax (vFmt ty) true (lane ty (c.vec va) i) (lane ty (c.vec vb) i)) →
      r.2 &&& bits c.x.fpcsr.toNat 16 5 ≠ 0 → reads (.v 0x20 vd va vb pm ty) w = true → exec (.vmax n vd va vb pm ty) s =
      .next (after s (cancelHere n (takeTrap n ⟨xFp, r.2, false⟩ c.x.pc (coreSet n c d'))))) ∧
    (∀ (vd va vb : RegNo) (pm : Fin 8) (ty : VTy), vIsF ty = false → reads (.v 0x20 vd va vb pm ty) w = true →
      exec (.vmax n vd va vb pm ty) s = .next (after s (cancelHere n (takeTrap n ⟨xIllegal, w, false⟩ c.x.pc (coreSet n c
      d'))))) ∧
    (∀ (vd va vb : RegNo) (pm : Fin 8) (ty : VTy) (r : BitVec 256 × Nat), vIsF ty = true →
      r = lanes ty (c.pred pm) (c.vec vd) (fun i => fFma (vFmt ty) c.rnd (lane ty (c.vec va) i) (lane ty (c.vec vb) i) (lane
      ty (c.vec vd) i)) → r.2 &&& bits c.x.fpcsr.toNat 16 5 ≠ 0 → reads (.v 0x20 vd va vb pm ty) w = true →
      exec (.vfma n vd va vb pm ty) s = .next (after s (cancelHere n (takeTrap n ⟨xFp, r.2, false⟩ c.x.pc (coreSet n c d')))))
      ∧
    (∀ (vd va vb : RegNo) (pm : Fin 8) (ty : VTy), vIsF ty = false → reads (.v 0x20 vd va vb pm ty) w = true →
      exec (.vfma n vd va vb pm ty) s = .next (after s (cancelHere n (takeTrap n ⟨xIllegal, w, false⟩ c.x.pc (coreSet n c
      d'))))) ∧
    (∀ (vd va : RegNo) (pm : Fin 8) (ty : VTy) (r : BitVec 256 × Nat), vIsF ty = true →
      r = lanes ty (c.pred pm) (c.vec vd) (fun i => fSqrt (vFmt ty) c.rnd (lane ty (c.vec va) i)) →
      r.2 &&& bits c.x.fpcsr.toNat 16 5 ≠ 0 → reads ⟨0x20, [(21, 5, vd), (16, 5, va), (8, 3, pm), (5, 3, vCode ty)]⟩ w = true
      → exec (.vsqrt n vd va pm ty) s = .next (after s (cancelHere n (takeTrap n ⟨xFp, r.2, false⟩ c.x.pc (coreSet n c d')))))
      ∧
    (∀ (vd va : RegNo) (pm : Fin 8) (ty : VTy), vIsF ty = false →
      reads ⟨0x20, [(21, 5, vd), (16, 5, va), (8, 3, pm), (5, 3, vCode ty)]⟩ w = true → exec (.vsqrt n vd va pm ty) s =
      .next (after s (cancelHere n (takeTrap n ⟨xIllegal, w, false⟩ c.x.pc (coreSet n c d'))))) ∧
    (∀ (vd va : RegNo) (pm : Fin 8) (ty : VTy) (r : BitVec 256 × Nat), vIsF ty = true →
      r = lanes ty (c.pred pm) (c.vec vd) (fun i => toInt (vFmt ty) c.rnd (vWidth ty) (lane ty (c.vec va) i)) →
      r.2 &&& bits c.x.fpcsr.toNat 16 5 ≠ 0 → reads ⟨0x24, [(21, 5, vd), (16, 5, va), (8, 3, pm), (5, 3, vCode ty)]⟩ w = true
      → exec (.vcvt n vd va pm ty true) s = .next (after s (cancelHere n (takeTrap n ⟨xFp, r.2, false⟩ c.x.pc (coreSet n c
      d'))))) ∧
    (∀ (vd va : RegNo) (pm : Fin 8) (ty : VTy) (k : Bool), vIsF ty = false →
      reads ⟨0x24, [(21, 5, vd), (16, 5, va), (8, 3, pm), (5, 3, vCode ty)]⟩ w = true → exec (.vcvt n vd va pm ty k) s =
      .next (after s (cancelHere n (takeTrap n ⟨xIllegal, w, false⟩ c.x.pc (coreSet n c d'))))) ∧
    (∀ (vd va : RegNo) (pm : Fin 8) (ty : VTy) (r : BitVec 256 × Nat), vIsF ty = true →
      r = lanes ty (c.pred pm) (c.vec vd) (fun i => ofInt (vFmt ty) c.rnd (toS (vWidth ty) (lane ty (c.vec va) i))) →
      r.2 &&& bits c.x.fpcsr.toNat 16 5 ≠ 0 → reads ⟨0x24, [(21, 5, vd), (16, 5, va), (8, 3, pm), (5, 3, vCode ty)]⟩ w = true
      → exec (.vcvt n vd va pm ty false) s = .next (after s (cancelHere n (takeTrap n ⟨xFp, r.2, false⟩ c.x.pc (coreSet n c
      d'))))) ∧
    (∀ (pd : Fin 8) (va vb : RegNo) (pm : Fin 8) (ty : VTy), vIsWide ty = true →
      cmpFlags 0 ty (c.pred pm) (c.vec va) (c.vec vb) &&& bits c.x.fpcsr.toNat 16 5 ≠ 0 →
      reads ⟨0x22, [(21, 3, pd), (16, 5, va), (11, 5, vb), (8, 3, pm), (5, 3, vCode ty)]⟩ w = true →
      exec (.vcmpeq n pd va vb pm ty) s = .next (after s (cancelHere n (takeTrap n
      ⟨xFp, cmpFlags 0 ty (c.pred pm) (c.vec va) (c.vec vb), false⟩ c.x.pc (coreSet n c d'))))) ∧
    (∀ (pd : Fin 8) (va vb : RegNo) (pm : Fin 8) (ty : VTy), vIsWide ty = false →
      reads ⟨0x22, [(21, 3, pd), (16, 5, va), (11, 5, vb), (8, 3, pm), (5, 3, vCode ty)]⟩ w = true →
      exec (.vcmpeq n pd va vb pm ty) s = .next (after s (cancelHere n (takeTrap n ⟨xIllegal, w, false⟩ c.x.pc (coreSet n c
      d'))))) ∧
    (∀ (pd : Fin 8) (va vb : RegNo) (pm : Fin 8) (ty : VTy), vIsWide ty = true →
      cmpFlags 1 ty (c.pred pm) (c.vec va) (c.vec vb) &&& bits c.x.fpcsr.toNat 16 5 ≠ 0 →
      reads ⟨0x22, [(21, 3, pd), (16, 5, va), (11, 5, vb), (8, 3, pm), (5, 3, vCode ty)]⟩ w = true →
      exec (.vcmplt n pd va vb pm ty) s = .next (after s (cancelHere n (takeTrap n
      ⟨xFp, cmpFlags 1 ty (c.pred pm) (c.vec va) (c.vec vb), false⟩ c.x.pc (coreSet n c d'))))) ∧
    (∀ (pd : Fin 8) (va vb : RegNo) (pm : Fin 8) (ty : VTy), vIsWide ty = false →
      reads ⟨0x22, [(21, 3, pd), (16, 5, va), (11, 5, vb), (8, 3, pm), (5, 3, vCode ty)]⟩ w = true →
      exec (.vcmplt n pd va vb pm ty) s = .next (after s (cancelHere n (takeTrap n ⟨xIllegal, w, false⟩ c.x.pc (coreSet n c
      d'))))) ∧
    (∀ (pd : Fin 8) (va vb : RegNo) (pm : Fin 8) (ty : VTy), vIsWide ty = true →
      cmpFlags 2 ty (c.pred pm) (c.vec va) (c.vec vb) &&& bits c.x.fpcsr.toNat 16 5 ≠ 0 →
      reads ⟨0x22, [(21, 3, pd), (16, 5, va), (11, 5, vb), (8, 3, pm), (5, 3, vCode ty)]⟩ w = true →
      exec (.vcmple n pd va vb pm ty) s = .next (after s (cancelHere n (takeTrap n
      ⟨xFp, cmpFlags 2 ty (c.pred pm) (c.vec va) (c.vec vb), false⟩ c.x.pc (coreSet n c d'))))) ∧
    (∀ (pd : Fin 8) (va vb : RegNo) (pm : Fin 8) (ty : VTy), vIsWide ty = false →
      reads ⟨0x22, [(21, 3, pd), (16, 5, va), (11, 5, vb), (8, 3, pm), (5, 3, vCode ty)]⟩ w = true →
      exec (.vcmple n pd va vb pm ty) s = .next (after s (cancelHere n (takeTrap n ⟨xIllegal, w, false⟩ c.x.pc (coreSet n c
      d')))))

/-- Vector integer, logic and data-movement instructions write the selected elements; other types are ILLEGAL. The core issues the word. -/
def Obligations.VectorIntegerResults : Prop :=
  ∀ (s : State) (d : Dev) (n : CoreNo) (w : Nat) (d' : Dev) (c : Core), d = start s → Issues n d w d' →
      c = coreOf n d →
    (∀ (vd va vb : RegNo) (pm : Fin 8) (ty : VTy), isInt ty = true → reads (.v 0x21 vd va vb pm ty) w = true →
      exec (.viadd n vd va vb pm ty) s = .next (after s (retires n ((c.putVec vd (lanes ty (c.pred pm) (c.vec vd) (fun i =>
      { v := (lane ty (c.vec va) i + lane ty (c.vec vb) i) % 2 ^ vWidth ty })).1).next) d'))) ∧
    (∀ (vd va vb : RegNo) (pm : Fin 8) (ty : VTy), isInt ty = true → reads (.v 0x21 vd va vb pm ty) w = true →
      exec (.visub n vd va vb pm ty) s = .next (after s (retires n ((c.putVec vd (lanes ty (c.pred pm) (c.vec vd) (fun i =>
      { v := (ofS (vWidth ty) ((lane ty (c.vec va) i : Int) - lane ty (c.vec vb) i)) % 2 ^ vWidth ty })).1).next) d'))) ∧
    (∀ (vd va vb : RegNo) (pm : Fin 8) (ty : VTy), isInt ty = true → reads (.v 0x21 vd va vb pm ty) w = true →
      exec (.vimul n vd va vb pm ty) s = .next (after s (retires n ((c.putVec vd (lanes ty (c.pred pm) (c.vec vd) (fun i =>
      { v := (lane ty (c.vec va) i * lane ty (c.vec vb) i) % 2 ^ vWidth ty })).1).next) d'))) ∧
    (∀ (vd va vb : RegNo) (pm : Fin 8) (ty : VTy), isInt ty = true → reads (.v 0x21 vd va vb pm ty) w = true →
      exec (.vshl n vd va vb pm ty) s = .next (after s (retires n ((c.putVec vd (lanes ty (c.pred pm) (c.vec vd) (fun i =>
      { v := (laneShift 0 ty (lane ty (c.vec va) i) (lane ty (c.vec vb) i)) % 2 ^ vWidth ty })).1).next) d'))) ∧
    (∀ (vd va vb : RegNo) (pm : Fin 8) (ty : VTy), isInt ty = true → reads (.v 0x21 vd va vb pm ty) w = true →
      exec (.vshr n vd va vb pm ty) s = .next (after s (retires n ((c.putVec vd (lanes ty (c.pred pm) (c.vec vd) (fun i =>
      { v := (laneShift 1 ty (lane ty (c.vec va) i) (lane ty (c.vec vb) i)) % 2 ^ vWidth ty })).1).next) d'))) ∧
    (∀ (vd va vb : RegNo) (pm : Fin 8) (ty : VTy), vIsWide ty = true → reads (.v 0x21 vd va vb pm ty) w = true →
      exec (.vand n vd va vb pm ty) s = .next (after s (retires n ((c.putVec vd (lanes ty (c.pred pm) (c.vec vd) (fun i =>
      { v := (lane ty (c.vec va) i &&& lane ty (c.vec vb) i) % 2 ^ vWidth ty })).1).next) d'))) ∧
    (∀ (vd va vb : RegNo) (pm : Fin 8) (ty : VTy), vIsWide ty = true → reads (.v 0x21 vd va vb pm ty) w = true →
      exec (.vor n vd va vb pm ty) s = .next (after s (retires n ((c.putVec vd (lanes ty (c.pred pm) (c.vec vd) (fun i =>
      { v := (lane ty (c.vec va) i ||| lane ty (c.vec vb) i) % 2 ^ vWidth ty })).1).next) d'))) ∧
    (∀ (vd va vb : RegNo) (pm : Fin 8) (ty : VTy), vIsWide ty = true → reads (.v 0x21 vd va vb pm ty) w = true →
      exec (.vxor n vd va vb pm ty) s = .next (after s (retires n ((c.putVec vd (lanes ty (c.pred pm) (c.vec vd) (fun i =>
      { v := (lane ty (c.vec va) i ^^^ lane ty (c.vec vb) i) % 2 ^ vWidth ty })).1).next) d'))) ∧
    (∀ (vd ra : RegNo) (pm : Fin 8) (ty : VTy), vIsWide ty = true →
      reads ⟨0x23, [(21, 5, vd), (8, 3, pm), (5, 3, vCode ty)]⟩ w = true → exec (.vbcast n vd ra pm ty) s =
      .next (after s (retires n ((c.putVec vd (lanes ty (c.pred pm) (c.vec vd) (fun _ =>
      { v := (c.get ra).toNat % 2 ^ vWidth ty })).1).next) d'))) ∧
    (∀ (vd va vb : RegNo) (pm : Fin 8) (ty : VTy), vIsWide ty = true → reads (.v 0x23 vd va vb pm ty) w = true →
      exec (.vperm n vd va vb pm ty) s = .next (after s (retires n ((c.putVec vd (lanes ty (c.pred pm) (c.vec vd) (fun i =>
      { v := lane ty (c.vec va) (lane ty (c.vec vb) i % vLanes ty) })).1).next) d'))) ∧
    (∀ (vd ra rb : RegNo) (pm : Fin 8) (ty : VTy), vIsWide ty = true →
      reads ⟨0x23, [(21, 5, vd), (8, 3, pm), (5, 3, vCode ty)]⟩ w = true → exec (.vins n vd ra rb pm ty) s =
      .next (after s (retires n ((c.putVec vd (lanes ty (c.pred pm) (c.vec vd) (fun i =>
      { v := if i = (c.get rb).toNat % vLanes ty then (c.get ra).toNat % 2 ^ vWidth ty else lane ty (c.vec vd) i })).1).next)
      d'))) ∧
    (∀ (rd va rb : RegNo) (ty : VTy), vIsWide ty = true → reads ⟨0x23, [(21, 5, rd), (16, 5, va), (5, 3, vCode ty)]⟩ w = true
      → exec (.vext n rd va rb ty) s = .next (after s (retires n ((c.put rd (fpReg (vBytes ty == 8) (lane ty (c.vec va)
      ((c.get rb).toNat % vLanes ty)))).next) d'))) ∧
    (∀ (rd va : RegNo) (pm : Fin 8) (ty : VTy), vIsWide ty = true →
      reads ⟨0x23, [(21, 5, rd), (16, 5, va), (8, 3, pm), (5, 3, vCode ty)]⟩ w = true → exec (.vred n rd va pm ty) s =
      .next (after s (retires n ((c.put rd (laneSum ty (c.pred pm) (c.vec va))).next) d'))) ∧
    (∀ (vd va vb : RegNo) (pm : Fin 8) (ty : VTy), isInt ty = false → reads (.v 0x21 vd va vb pm ty) w = true →
      exec (.viadd n vd va vb pm ty) s = .next (after s (cancelHere n (takeTrap n ⟨xIllegal, w, false⟩ c.x.pc (coreSet n c
      d'))))) ∧
    (∀ (vd va vb : RegNo) (pm : Fin 8) (ty : VTy), isInt ty = false → reads (.v 0x21 vd va vb pm ty) w = true →
      exec (.visub n vd va vb pm ty) s = .next (after s (cancelHere n (takeTrap n ⟨xIllegal, w, false⟩ c.x.pc (coreSet n c
      d'))))) ∧
    (∀ (vd va vb : RegNo) (pm : Fin 8) (ty : VTy), isInt ty = false → reads (.v 0x21 vd va vb pm ty) w = true →
      exec (.vimul n vd va vb pm ty) s = .next (after s (cancelHere n (takeTrap n ⟨xIllegal, w, false⟩ c.x.pc (coreSet n c
      d'))))) ∧
    (∀ (vd va vb : RegNo) (pm : Fin 8) (ty : VTy), isInt ty = false → reads (.v 0x21 vd va vb pm ty) w = true →
      exec (.vshl n vd va vb pm ty) s = .next (after s (cancelHere n (takeTrap n ⟨xIllegal, w, false⟩ c.x.pc (coreSet n c
      d'))))) ∧
    (∀ (vd va vb : RegNo) (pm : Fin 8) (ty : VTy), isInt ty = false → reads (.v 0x21 vd va vb pm ty) w = true →
      exec (.vshr n vd va vb pm ty) s = .next (after s (cancelHere n (takeTrap n ⟨xIllegal, w, false⟩ c.x.pc (coreSet n c
      d'))))) ∧
    (∀ (vd va vb : RegNo) (pm : Fin 8) (ty : VTy), vIsWide ty = false → reads (.v 0x21 vd va vb pm ty) w = true →
      exec (.vand n vd va vb pm ty) s = .next (after s (cancelHere n (takeTrap n ⟨xIllegal, w, false⟩ c.x.pc (coreSet n c
      d'))))) ∧
    (∀ (vd va vb : RegNo) (pm : Fin 8) (ty : VTy), vIsWide ty = false → reads (.v 0x21 vd va vb pm ty) w = true →
      exec (.vor n vd va vb pm ty) s = .next (after s (cancelHere n (takeTrap n ⟨xIllegal, w, false⟩ c.x.pc (coreSet n c
      d'))))) ∧
    (∀ (vd va vb : RegNo) (pm : Fin 8) (ty : VTy), vIsWide ty = false → reads (.v 0x21 vd va vb pm ty) w = true →
      exec (.vxor n vd va vb pm ty) s = .next (after s (cancelHere n (takeTrap n ⟨xIllegal, w, false⟩ c.x.pc (coreSet n c
      d'))))) ∧
    (∀ (vd ra : RegNo) (pm : Fin 8) (ty : VTy), vIsWide ty = false →
      reads ⟨0x23, [(21, 5, vd), (8, 3, pm), (5, 3, vCode ty)]⟩ w = true → exec (.vbcast n vd ra pm ty) s =
      .next (after s (cancelHere n (takeTrap n ⟨xIllegal, w, false⟩ c.x.pc (coreSet n c d'))))) ∧
    (∀ (vd va vb : RegNo) (pm : Fin 8) (ty : VTy), vIsWide ty = false → reads (.v 0x23 vd va vb pm ty) w = true →
      exec (.vperm n vd va vb pm ty) s = .next (after s (cancelHere n (takeTrap n ⟨xIllegal, w, false⟩ c.x.pc (coreSet n c
      d'))))) ∧
    (∀ (vd ra rb : RegNo) (pm : Fin 8) (ty : VTy), vIsWide ty = false →
      reads ⟨0x23, [(21, 5, vd), (8, 3, pm), (5, 3, vCode ty)]⟩ w = true → exec (.vins n vd ra rb pm ty) s =
      .next (after s (cancelHere n (takeTrap n ⟨xIllegal, w, false⟩ c.x.pc (coreSet n c d'))))) ∧
    (∀ (rd va rb : RegNo) (ty : VTy), vIsWide ty = false → reads ⟨0x23, [(21, 5, rd), (16, 5, va), (5, 3, vCode ty)]⟩ w = true
      → exec (.vext n rd va rb ty) s = .next (after s (cancelHere n (takeTrap n ⟨xIllegal, w, false⟩ c.x.pc (coreSet n c
      d'))))) ∧
    (∀ (rd va : RegNo) (pm : Fin 8) (ty : VTy), vIsWide ty = false →
      reads ⟨0x23, [(21, 5, rd), (16, 5, va), (8, 3, pm), (5, 3, vCode ty)]⟩ w = true → exec (.vred n rd va pm ty) s =
      .next (after s (cancelHere n (takeTrap n ⟨xIllegal, w, false⟩ c.x.pc (coreSet n c d')))))

/-- Aligned loads write what they read; a stream that only reads takes its element. The core issues the word. -/
def Obligations.LoadsRead : Prop :=
  ∀ (s : State) (d : Dev) (n : CoreNo) (w : Nat) (d' : Dev) (c : Core), d = start s → Issues n d w d' →
      c = coreOf n d →
    (∀ (rd base : RegNo) (off : BitVec 12) (e : Ecc) (v : Nat) (d2 : Dev), memAddr base off c % 1 = 0 →
      loadAt s.fuses n c 1 (memAddr base off c) e d' = (.ok v, d2) → reads (.m 0x10 rd base off) w = true →
      exec (.lb n rd base off e) s = .next (after s (retires n ((putS rd 8 v c).next) d2))) ∧
    (∀ (rd base : RegNo) (off : BitVec 12) (e : Ecc) (v : Nat) (d2 : Dev), memAddr base off c % 1 = 0 →
      loadAt s.fuses n c 1 (memAddr base off c) e d' = (.ok v, d2) → reads (.m 0x10 rd base off) w = true →
      exec (.lbu n rd base off e) s = .next (after s (retires n ((putU rd v c).next) d2))) ∧
    (∀ (rd base : RegNo) (off : BitVec 12) (e : Ecc) (v : Nat) (d2 : Dev), memAddr base off c % 2 = 0 →
      loadAt s.fuses n c 2 (memAddr base off c) e d' = (.ok v, d2) → reads (.m 0x10 rd base off) w = true →
      exec (.lh n rd base off e) s = .next (after s (retires n ((putS rd 16 v c).next) d2))) ∧
    (∀ (rd base : RegNo) (off : BitVec 12) (e : Ecc) (v : Nat) (d2 : Dev), memAddr base off c % 2 = 0 →
      loadAt s.fuses n c 2 (memAddr base off c) e d' = (.ok v, d2) → reads (.m 0x10 rd base off) w = true →
      exec (.lhu n rd base off e) s = .next (after s (retires n ((putU rd v c).next) d2))) ∧
    (∀ (rd base : RegNo) (off : BitVec 12) (e : Ecc) (v : Nat) (d2 : Dev), memAddr base off c % 4 = 0 →
      loadAt s.fuses n c 4 (memAddr base off c) e d' = (.ok v, d2) → reads (.m 0x10 rd base off) w = true →
      exec (.lw n rd base off e) s = .next (after s (retires n ((putS rd 32 v c).next) d2))) ∧
    (∀ (rd base : RegNo) (off : BitVec 12) (e : Ecc) (v : Nat) (d2 : Dev), memAddr base off c % 4 = 0 →
      loadAt s.fuses n c 4 (memAddr base off c) e d' = (.ok v, d2) → reads (.m 0x10 rd base off) w = true →
      exec (.lwu n rd base off e) s = .next (after s (retires n ((putU rd v c).next) d2))) ∧
    (∀ (rd base : RegNo) (off : BitVec 12) (e : Ecc) (v : Nat) (d2 : Dev), memAddr base off c % 8 = 0 →
      loadAt s.fuses n c 8 (memAddr base off c) e d' = (.ok v, d2) → reads (.m 0x10 rd base off) w = true →
      exec (.ld n rd base off e) s = .next (after s (retires n ((putU rd v c).next) d2))) ∧
    (∀ (vd base : RegNo) (off : BitVec 12) (e : Ecc) (v : Nat) (d2 : Dev), memAddr base off c % 32 = 0 →
      loadAt s.fuses n c 32 (memAddr base off c) e d' = (.ok v, d2) → reads (.m 0x14 vd base off) w = true →
      exec (.vld n vd base off e) s = .next (after s (retires n ((c.putVec vd (BitVec.ofNat 256 v)).next) d2))) ∧
    (∀ (rd base : RegNo) (off : BitVec 12) (e : Ecc), memAddr base off c % 8 ≠ 0 → reads (.m 0x10 rd base off) w = true →
      exec (.ld n rd base off e) s = .next (after s (cancelHere n (takeTrap n ⟨xAlign, memAddr base off c, false⟩ c.x.pc
      (coreSet n c d'))))) ∧
    (∀ (vd va vb : RegNo) (ty : VTy) (count : Nat) (e : Ecc), vb ≠ 31 → vIsWide ty = true →
      (c.get vb).toNat % 2 ^ 40 ≤ c.x.residx → reads (.stream 4 vd va vb ty) w = true →
      exec (.vsdot n vd va vb ty count e) s = .next (after s (retires n ((c.res 0).next) d'))) ∧
    (∀ (vd va vb : RegNo) (ty : VTy) (e : Ecc) (i x y : Nat) (d2 d3 d4 : Dev) (c2 : Core), vb ≠ 31 → vIsWide ty = true →
      i = c.x.residx → (c.get vb).toNat % 2 ^ 40 = i + 1 → (c.get va).toNat % vBytes ty = 0 →
      (c.get (vb.val + 1)).toNat % vBytes ty = 0 → loadAt s.fuses n c (vBytes ty) (elemAt ty (c.get va) i) e d' = (.ok x,
      d2) → loadAt s.fuses n c (vBytes ty) (elemAt ty (c.get (vb.val + 1)) i) .clean d2 = (.ok y, d3) →
      elemRes ty c (elemMulAdd ty c x y (lane ty (c.vec vd) (i % vLanes ty))) d3 (fun z c' => .next ((c'.putVec vd (setLane ty
      (c.vec vd) (i % vLanes ty) z)).res (i + 1)) d3) = .next (c2.res (i + 1)) d4 → reads (.stream 4 vd va vb ty) w = true →
      exec (.vsdot n vd va vb ty 1 e) s = .next (after s (retires n (((c2.res (i + 1)).res 0).next) d4)))

/-- Aligned atomics on cacheable DRAM return the old value and store the new one. The core issues the word. -/
def Obligations.AtomicResults : Prop :=
  ∀ (s : State) (d : Dev) (n : CoreNo) (w : Nat) (d' : Dev) (c : Core), d = start s → Issues n d w d' →
      c = coreOf n d →
    (∀ (rd rs rt : RegNo) (dbl acq rel : Bool) (e : Ecc) (nb : Nat) (r : Reached) (b : List Nat) (d2 d3 : Dev),
      nb = (if dbl then 8 else 4) → (c.get rs).toNat % nb = 0 → c.reach .atomic (c.get rs).toNat d' = (.ok r, d2) →
      r.nc = false → r.pa + nb ≤ dramSize → eccRead r.pa nb e d2 = (some b, d3) →
      reads ⟨0x12, [(21, 5, rd), (16, 5, rs), (11, 5, rt), (8, 3, 0), (7, 1, b2n dbl), (6, 1, b2n acq), (5, 1, b2n rel)]⟩ w =
      true → exec (.aadd n rd rs rt dbl acq rel e) s = .next (after s (retires n ((putU rd (ofLe b) c).next) (dramWrite
      (movedTo r.pa (struck (r.pa / 8) e d2) d3) (leBytes nb ((ofLe b + (c.get rt).toNat % 2 ^ (8 * nb)) % 2 ^ (8 * nb)))
      (used r .atomic d3))))) ∧
    (∀ (rd rs rt : RegNo) (dbl acq rel : Bool) (e : Ecc) (nb : Nat) (r : Reached) (b : List Nat) (d2 d3 : Dev),
      nb = (if dbl then 8 else 4) → (c.get rs).toNat % nb = 0 → c.reach .atomic (c.get rs).toNat d' = (.ok r, d2) →
      r.nc = false → r.pa + nb ≤ dramSize → eccRead r.pa nb e d2 = (some b, d3) →
      reads ⟨0x12, [(21, 5, rd), (16, 5, rs), (11, 5, rt), (8, 3, 1), (7, 1, b2n dbl), (6, 1, b2n acq), (5, 1, b2n rel)]⟩ w =
      true → exec (.aswp n rd rs rt dbl acq rel e) s = .next (after s (retires n ((putU rd (ofLe b) c).next) (dramWrite
      (movedTo r.pa (struck (r.pa / 8) e d2) d3) (leBytes nb ((c.get rt).toNat % 2 ^ (8 * nb) % 2 ^ (8 * nb))) (used r .atomic
      d3))))) ∧
    (∀ (rd rs rt : RegNo) (dbl acq rel : Bool) (e : Ecc) (nb : Nat) (r : Reached) (b : List Nat) (d2 d3 : Dev),
      nb = (if dbl then 8 else 4) → (c.get rs).toNat % nb = 0 → c.reach .atomic (c.get rs).toNat d' = (.ok r, d2) →
      r.nc = false → r.pa + nb ≤ dramSize → eccRead r.pa nb e d2 = (some b, d3) → ofLe b = (c.get rd).toNat % 2 ^ (8 * nb) →
      reads ⟨0x12, [(21, 5, rd), (16, 5, rs), (11, 5, rt), (8, 3, 2), (7, 1, b2n dbl), (6, 1, b2n acq), (5, 1, b2n rel)]⟩ w =
      true → exec (.acas n rd rs rt dbl acq rel e) s = .next (after s (retires n ((putU rd (ofLe b) c).next) (dramWrite
      (movedTo r.pa (struck (r.pa / 8) e d2) d3) (leBytes nb ((c.get rt).toNat % 2 ^ (8 * nb) % 2 ^ (8 * nb))) (used r .atomic
      d3))))) ∧
    (∀ (rd rs rt : RegNo) (dbl acq rel : Bool) (e : Ecc) (nb : Nat) (r : Reached) (b : List Nat) (d2 d3 : Dev),
      nb = (if dbl then 8 else 4) → (c.get rs).toNat % nb = 0 → c.reach .atomic (c.get rs).toNat d' = (.ok r, d2) →
      r.nc = false → r.pa + nb ≤ dramSize → eccRead r.pa nb e d2 = (some b, d3) → ofLe b ≠ (c.get rd).toNat % 2 ^ (8 * nb) →
      reads ⟨0x12, [(21, 5, rd), (16, 5, rs), (11, 5, rt), (8, 3, 2), (7, 1, b2n dbl), (6, 1, b2n acq), (5, 1, b2n rel)]⟩ w =
      true → exec (.acas n rd rs rt dbl acq rel e) s = .next (after s (retires n ((putU rd (ofLe b) c).next) (used r .atomic
      d3))))

/-- Aligned stores store at the address they compute; vector streams do one element, and end with their last. The core issues the word, after what comes first in the same count. -/
def Obligations.StoresAndStreams : Prop :=
  ∀ (s : State) (d : Dev) (n : CoreNo) (w : Nat) (d' : Dev) (c : Core), d = ties s.pending (start s) → Issues n d w d' →
      c = coreOf n d →
    (∀ (rd base : RegNo) (off : BitVec 12) (e : Ecc) (r : Reached) (a : Nat) (d2 d3 : Dev), memAddr base off c % 1 = 0 →
      c.reach .store (memAddr base off c) d' = (.ok r, d2) → r.pa + 1 ≤ dramSize → eccOpen r.pa 1 e d2 = (some a, d3) →
      reads (.m 0x11 rd base off) w = true → exec (.sb n rd base off e) s =
      .next (after s (retires n c.next (dramWrite a (leBytes 1 ((c.get rd).toNat % 2 ^ 8)) (used r .store d3))))) ∧
    (∀ (rd base : RegNo) (off : BitVec 12) (e : Ecc) (r : Reached) (d2 d3 : Dev), memAddr base off c % 1 = 0 →
      c.reach .store (memAddr base off c) d' = (.ok r, d2) → ¬ r.pa + 1 ≤ dramSize →
      mmioWrite s.fuses (coreWho n c) 1 r.pa ((c.get rd).toNat % 2 ^ 8) (coreSet n { c.next with iret := c.iret + 1 } (used r
      .store d2)) = some d3 → reads (.m 0x11 rd base off) w = true → exec (.sb n rd base off e) s =
      .next (after s (cancelHere n d3))) ∧
    (∀ (rd base : RegNo) (off : BitVec 12) (e : Ecc) (r : Reached) (a : Nat) (d2 d3 : Dev), memAddr base off c % 2 = 0 →
      c.reach .store (memAddr base off c) d' = (.ok r, d2) → r.pa + 2 ≤ dramSize → eccOpen r.pa 2 e d2 = (some a, d3) →
      reads (.m 0x11 rd base off) w = true → exec (.sh n rd base off e) s =
      .next (after s (retires n c.next (dramWrite a (leBytes 2 ((c.get rd).toNat % 2 ^ 16)) (used r .store d3))))) ∧
    (∀ (rd base : RegNo) (off : BitVec 12) (e : Ecc) (r : Reached) (d2 d3 : Dev), memAddr base off c % 2 = 0 →
      c.reach .store (memAddr base off c) d' = (.ok r, d2) → ¬ r.pa + 2 ≤ dramSize →
      mmioWrite s.fuses (coreWho n c) 2 r.pa ((c.get rd).toNat % 2 ^ 16) (coreSet n { c.next with iret := c.iret + 1 } (used r
      .store d2)) = some d3 → reads (.m 0x11 rd base off) w = true → exec (.sh n rd base off e) s =
      .next (after s (cancelHere n d3))) ∧
    (∀ (rd base : RegNo) (off : BitVec 12) (e : Ecc) (r : Reached) (a : Nat) (d2 d3 : Dev), memAddr base off c % 4 = 0 →
      c.reach .store (memAddr base off c) d' = (.ok r, d2) → r.pa + 4 ≤ dramSize → eccOpen r.pa 4 e d2 = (some a, d3) →
      reads (.m 0x11 rd base off) w = true → exec (.sw n rd base off e) s =
      .next (after s (retires n c.next (dramWrite a (leBytes 4 ((c.get rd).toNat % 2 ^ 32)) (used r .store d3))))) ∧
    (∀ (rd base : RegNo) (off : BitVec 12) (e : Ecc) (r : Reached) (d2 d3 : Dev), memAddr base off c % 4 = 0 →
      c.reach .store (memAddr base off c) d' = (.ok r, d2) → ¬ r.pa + 4 ≤ dramSize →
      mmioWrite s.fuses (coreWho n c) 4 r.pa ((c.get rd).toNat % 2 ^ 32) (coreSet n { c.next with iret := c.iret + 1 } (used r
      .store d2)) = some d3 → reads (.m 0x11 rd base off) w = true → exec (.sw n rd base off e) s =
      .next (after s (cancelHere n d3))) ∧
    (∀ (rd base : RegNo) (off : BitVec 12) (e : Ecc) (r : Reached) (a : Nat) (d2 d3 : Dev), memAddr base off c % 8 = 0 →
      c.reach .store (memAddr base off c) d' = (.ok r, d2) → r.pa + 8 ≤ dramSize → eccOpen r.pa 8 e d2 = (some a, d3) →
      reads (.m 0x11 rd base off) w = true → exec (.sd n rd base off e) s =
      .next (after s (retires n c.next (dramWrite a (leBytes 8 ((c.get rd).toNat)) (used r .store d3))))) ∧
    (∀ (rd base : RegNo) (off : BitVec 12) (e : Ecc) (r : Reached) (d2 d3 : Dev), memAddr base off c % 8 = 0 →
      c.reach .store (memAddr base off c) d' = (.ok r, d2) → ¬ r.pa + 8 ≤ dramSize →
      mmioWrite s.fuses (coreWho n c) 8 r.pa ((c.get rd).toNat) (coreSet n { c.next with iret := c.iret + 1 } (used r .store
      d2)) = some d3 → reads (.m 0x11 rd base off) w = true → exec (.sd n rd base off e) s =
      .next (after s (cancelHere n d3))) ∧
    (∀ (vd base : RegNo) (off : BitVec 12) (e : Ecc) (r : Reached) (a : Nat) (d2 d3 : Dev), memAddr base off c % 32 = 0 →
      c.reach .store (memAddr base off c) d' = (.ok r, d2) → r.pa + 32 ≤ dramSize → eccOpen r.pa 32 e d2 = (some a, d3) →
      reads (.m 0x14 vd base off) w = true → exec (.vst n vd base off e) s =
      .next (after s (retires n c.next (dramWrite a (leBytes 32 ((c.vec vd).toNat)) (used r .store d3))))) ∧
    (∀ (vd base : RegNo) (off : BitVec 12) (e : Ecc) (r : Reached) (d2 d3 : Dev), memAddr base off c % 32 = 0 →
      c.reach .store (memAddr base off c) d' = (.ok r, d2) → ¬ r.pa + 32 ≤ dramSize →
      mmioWrite s.fuses (coreWho n c) 32 r.pa ((c.vec vd).toNat) (coreSet n { c.next with iret := c.iret + 1 } (used r .store
      d2)) = some d3 → reads (.m 0x14 vd base off) w = true → exec (.vst n vd base off e) s =
      .next (after s (cancelHere n d3))) ∧
    (∀ (rd base : RegNo) (off : BitVec 12) (e : Ecc), memAddr base off c % 8 ≠ 0 → reads (.m 0x11 rd base off) w = true →
      exec (.sd n rd base off e) s = .next (after s (cancelHere n (takeTrap n ⟨xAlign, memAddr base off c, false⟩ c.x.pc
      (coreSet n c d'))))) ∧
    (∀ (vd va vb : RegNo) (ty : VTy) (count : Nat) (e : Ecc), vb ≠ 31 → (c.get vb).toNat % 2 ^ 40 ≤ c.x.residx →
      reads (.stream 0 vd va vb ty) w = true → exec (.vscpy n vd va vb ty count e) s =
      .next (after s (retires n ((c.res 0).next) d'))) ∧
    (∀ (vd va vb : RegNo) (ty : VTy) (e : Ecc) (i v : Nat) (d2 d3 : Dev), vb ≠ 31 → i = c.x.residx →
      (c.get vb).toNat % 2 ^ 40 = i + 1 → (c.get vd).toNat % vBytes ty = 0 → (c.get va).toNat % vBytes ty = 0 →
      loadAt s.fuses n c (vBytes ty) (elemAt ty (c.get va) i) e d' = (.ok v, d2) →
      elemStore s.fuses n (vBytes ty) (elemAt ty (c.get vd) i) v .clean c c d2 = .next (c.res (i + 1)) d3 →
      reads (.stream 0 vd va vb ty) w = true → exec (.vscpy n vd va vb ty 1 e) s =
      .next (after s (retires n (((c.res (i + 1)).res 0).next) d3))) ∧
    (∀ (vd vb : RegNo) (ty : VTy) (count : Nat) (e : Ecc), vb ≠ 31 → (c.get vb).toNat % 2 ^ 40 ≤ c.x.residx →
      reads (.stream 1 vd 0 vb ty) w = true → exec (.vsfill n vd vb ty count e) s =
      .next (after s (retires n ((c.res 0).next) d'))) ∧
    (∀ (vd vb : RegNo) (ty : VTy) (e : Ecc) (i : Nat) (d3 : Dev), vb ≠ 31 → i = c.x.residx →
      (c.get vb).toNat % 2 ^ 40 = i + 1 → (c.get vd).toNat % vBytes ty = 0 →
      elemStore s.fuses n (vBytes ty) (elemAt ty (c.get vd) i) ((c.get (vb.val + 1)).toNat % 2 ^ vWidth ty) e c c d' = .next
      (c.res (i + 1)) d3 → reads (.stream 1 vd 0 vb ty) w = true → exec (.vsfill n vd vb ty 1 e) s =
      .next (after s (retires n (((c.res (i + 1)).res 0).next) d3))) ∧
    (∀ (vd va vb : RegNo) (ty : VTy) (count : Nat) (e : Ecc), vb ≠ 31 → vIsWide ty = true →
      (c.get vb).toNat % 2 ^ 40 ≤ c.x.residx → reads (.stream 2 vd va vb ty) w = true →
      exec (.vsaxpy n vd va vb ty count e) s = .next (after s (retires n ((c.res 0).next) d'))) ∧
    (∀ (vd va vb : RegNo) (ty : VTy) (e : Ecc) (i x y : Nat) (d2 d3 d4 : Dev) (c2 : Core), vb ≠ 31 → vIsWide ty = true →
      i = c.x.residx → (c.get vb).toNat % 2 ^ 40 = i + 1 → (c.get vd).toNat % vBytes ty = 0 →
      (c.get va).toNat % vBytes ty = 0 → loadAt s.fuses n c (vBytes ty) (elemAt ty (c.get va) i) e d' = (.ok x, d2) →
      loadAt s.fuses n c (vBytes ty) (elemAt ty (c.get vd) i) .clean d2 = (.ok y, d3) →
      elemRes ty c (elemMulAdd ty c ((c.get (vb.val + 1)).toNat % 2 ^ vWidth ty) x y) d3 (fun z c' => elemStore s.fuses n
      (vBytes ty) (elemAt ty (c.get vd) i) z .clean c c' d3) = .next (c2.res (i + 1)) d4 →
      reads (.stream 2 vd va vb ty) w = true → exec (.vsaxpy n vd va vb ty 1 e) s =
      .next (after s (retires n (((c2.res (i + 1)).res 0).next) d4))) ∧
    (∀ (vd vb : RegNo) (ty : VTy) (count : Nat) (e : Ecc), vb ≠ 31 → vIsWide ty = true →
      (c.get vb).toNat % 2 ^ 40 ≤ c.x.residx → reads (.stream 3 vd 0 vb ty) w = true → exec (.vsscal n vd vb ty count e) s =
      .next (after s (retires n ((c.res 0).next) d'))) ∧
    (∀ (vd vb : RegNo) (ty : VTy) (e : Ecc) (i x : Nat) (d2 d4 : Dev) (c2 : Core), vb ≠ 31 → vIsWide ty = true →
      i = c.x.residx → (c.get vb).toNat % 2 ^ 40 = i + 1 → (c.get vd).toNat % vBytes ty = 0 →
      loadAt s.fuses n c (vBytes ty) (elemAt ty (c.get vd) i) e d' = (.ok x, d2) →
      elemRes ty c (elemMul ty c ((c.get (vb.val + 1)).toNat % 2 ^ vWidth ty) x) d2 (fun z c' => elemStore s.fuses n (vBytes
      ty) (elemAt ty (c.get vd) i) z .clean c c' d2) = .next (c2.res (i + 1)) d4 → reads (.stream 3 vd 0 vb ty) w = true →
      exec (.vsscal n vd vb ty 1 e) s = .next (after s (retires n (((c2.res (i + 1)).res 0).next) d4)))

/-- Page instructions complete with their last page; dataflow instructions that SCH takes. The core issues the word. -/
def Obligations.PagesAndFlow : Prop :=
  ∀ (s : State) (d : Dev) (n : CoreNo) (w : Nat) (d' : Dev) (c : Core), d = start s → Issues n d w d' →
      c = coreOf n d →
    (∀ (rd rs rt : RegNo) (c0 c2 : Core) (d2 : Dev), c.x.lvl ≠ .u → rd.val ≠ 0 → rs.val ≠ 0 → rt.val ≠ 0 → rd ≠ rs → rd ≠ rt →
      rs ≠ rt → (c.get rs).toNat % 4096 = 0 → c0 = (if c.x.residx = 0 then c.put rd 0 else c) →
      ¬ (c.get rt).toNat ≤ c0.x.residx → relPage rd (c.get rs).toNat (c.get rt).toNat c0 d' = .next c2 d2 →
      (c.get rt).toNat ≤ c2.x.residx → reads (.d 0x32 0 [(21, 5, rd), (16, 5, rs)]) w = true → exec (.pgrel n rd rs rt 1) s =
      .next (after s (retires n ((c2.res 0).next) d2))) ∧
    (∀ (rd rs rt : RegNo) (count : Nat), c.x.lvl = .u → reads (.d 0x32 0 [(21, 5, rd), (16, 5, rs)]) w = true →
      exec (.pgrel n rd rs rt count) s = .next (after s (cancelHere n (takeTrap n ⟨xPriv, w, false⟩ c.x.pc (coreSet n c
      d'))))) ∧
    (∀ (rd rs rt : RegNo) (c0 c2 : Core) (d2 : Dev), c.x.lvl ≠ .u → rd.val ≠ 0 → rs.val ≠ 0 → rt.val ≠ 0 → rd ≠ rs → rd ≠ rt →
      rs ≠ rt → (c.get rs).toNat % 4096 = 0 → c0 = (if c.x.residx = 0 then c.put rd 0 else c) →
      ¬ (c.get rt).toNat ≤ c0.x.residx → pinPage rd (c.get rs).toNat c0 d' = .next c2 d2 → (c.get rt).toNat ≤ c2.x.residx →
      reads (.d 0x32 1 [(21, 5, rd), (16, 5, rs)]) w = true → exec (.pgpin n rd rs rt 1) s =
      .next (after s (retires n ((c2.res 0).next) d2))) ∧
    (∀ (rd rs rt : RegNo) (count : Nat), c.x.lvl = .u → reads (.d 0x32 1 [(21, 5, rd), (16, 5, rs)]) w = true →
      exec (.pgpin n rd rs rt count) s = .next (after s (cancelHere n (takeTrap n ⟨xPriv, w, false⟩ c.x.pc (coreSet n c
      d'))))) ∧
    (∀ (rd rs rt : RegNo) (c0 c2 : Core) (d2 : Dev), c.x.lvl ≠ .u → rd.val ≠ 0 → rs.val ≠ 0 → rt.val ≠ 0 → rd ≠ rs → rd ≠ rt →
      rs ≠ rt → (c.get rs).toNat % 4096 = 0 → c0 = (if c.x.residx = 0 then c.put rd 0 else c) →
      ¬ (c.get rt).toNat ≤ c0.x.residx → unpinPage rd (c.get rs).toNat c0 d' = .next c2 d2 → (c.get rt).toNat ≤ c2.x.residx →
      reads (.d 0x32 2 [(21, 5, rd), (16, 5, rs)]) w = true → exec (.pgunpin n rd rs rt 1) s =
      .next (after s (retires n ((c2.res 0).next) d2))) ∧
    (∀ (rd rs rt : RegNo) (count : Nat), c.x.lvl = .u → reads (.d 0x32 2 [(21, 5, rd), (16, 5, rs)]) w = true →
      exec (.pgunpin n rd rs rt count) s = .next (after s (cancelHere n (takeTrap n ⟨xPriv, w, false⟩ c.x.pc (coreSet n c
      d'))))) ∧
    (∀ (rd rs : RegNo) (d2 : Dev), c.eact = false → runs SCHi d' = true → ahead (2 + n) s.pending = false →
      readyReq ((c.get rs).toNat % 2 ^ 32) c.x.lvl d' = (some dfOk, d2) → reads (.d 0x33 0 [(21, 5, rd), (16, 5,
      rs)]) w = true → exec (.dfready n rd rs) s = .next (after s (whenRuns SCHi (tiesDone s.pending) (retires n (c.put rd
      (BitVec.ofNat 64 dfOk)).next d2)))) ∧
    (∀ (rd rs : RegNo), c.eact = false → runs SCHi d' = true → ahead (2 + n) s.pending = true → reads (.d 0x33 0 [(21, 5, rd),
      (16, 5, rs)]) w = true → exec (.dfready n rd rs) s = .next (after s (whenRuns SCHi (tiesDone s.pending) (cancelHere n
      (coreSet n { c with stall := some (.ready rd ((c.get rs).toNat % 2 ^ 32) d'.raw) } d'))))) ∧
    (∀ (rd rs : RegNo) (slot : Fin 16) (d2 : Dev), c.eact = false → runs SCHi d' = true → ahead (2 + n) s.pending = false →
      postReq ((c.get rs).toNat % 2 ^ 32) slot (c.get rd) c.x.lvl d' = (some dfOk, d2) → reads (.d 0x33 1 [(21, 5, rd), (16,
      5, rs), (0, 4, slot)]) w = true → exec (.dfpost n rd rs slot) s =
      .next (after s (whenRuns SCHi (tiesDone s.pending) (retires n (c.put rd (BitVec.ofNat 64 dfOk)).next d2)))) ∧
    (∀ (rd rs : RegNo) (slot : Fin 16), c.eact = false → runs SCHi d' = true → ahead (2 + n) s.pending = true →
      reads (.d 0x33 1 [(21, 5, rd), (16, 5, rs), (0, 4, slot)]) w = true → exec (.dfpost n rd rs slot) s =
      .next (after s (whenRuns SCHi (tiesDone s.pending) (cancelHere n (coreSet n
      { c with stall := some (.post rd ((c.get rs).toNat % 2 ^ 32) slot (c.get rd) d'.raw) } d'))))) ∧
    (∀ (rd rs : RegNo) (d2 : Dev), c.eact = false → runs SCHi d' = true → ahead cancelRank s.pending = false →
      cancelReq ((c.get rs).toNat % 2 ^ 32) c.x.lvl d' = (dfOk, d2) → (coreOf n (serveStalls d2)).entry = c.entry →
      reads (.d 0x33 2 [(21, 5, rd), (16, 5, rs)]) w = true → exec (.dfcancel n rd rs) s =
      .next (after s (whenRuns SCHi (tiesDone s.pending) (retires n (c.put rd (BitVec.ofNat 64 dfOk)).next (serveStalls
      d2))))) ∧
    (∀ (rd rs : RegNo) (h : Nat), c.eact = false → runs SCHi d' = true → ahead cancelRank s.pending = true →
      h = (c.get rs).toNat % 2 ^ 32 → reads (.d 0x33 2 [(21, 5, rd), (16, 5, rs)]) w = true → exec (.dfcancel n rd rs) s =
      .next (after s (whenRuns SCHi (tiesDone s.pending) (cancelHere n (coreSet n
      { c with stall := some (.cancel rd h (doneBehind h s.pending d')) } d'))))) ∧
    (∀ (rs : RegNo) (d2 : Dev), c.eact = false → runs SCHi d' = true → c.x.lkcnt = 0 →
      doneReq n (c.get rs) (coreSet n { c.endNp d'.raw with iret := c.iret + 1 } d') = (true, d2) → reads (.d 0x34 0 [(16, 5,
      rs)]) w = true → exec (.dfdone n rs) s = .next (after s (whenRuns SCHi (tiesDone s.pending) (cancelHere n d2)))) ∧
    (∀ (rs : RegNo), c.eact = false → runs SCHi d' = true → 0 < c.x.lkcnt → reads (.d 0x34 0 [(16, 5, rs)]) w = true →
      exec (.dfdone n rs) s = .next (after s (whenRuns SCHi (tiesDone s.pending) (cancelHere n (takeTrap n
      ⟨xLock, c.x.lkcnt, false⟩ c.x.pc (coreSet n c d')))))) ∧
    (c.eact = false → runs SCHi d' = true → c.x.lkcnt = 0 → canYield n d' = true → cancelPend n d' = false →
      reads (.d 0x34 1 []) w = true → exec (.dfyield n) s = .next (after s (cancelHere n (inc SCH.YIELDCNT (leaveCore n false
      (coreSet n { (c.endNp d'.raw).next with iret := c.iret + 1 } d')))))) ∧
    (∀ (rd rs : RegNo), c.eact = true → reads (.d 0x33 0 [(21, 5, rd), (16, 5, rs)]) w = true → exec (.dfready n rd rs) s =
      .next (after s (whenRuns SCHi (tiesDone s.pending) (cancelHere n (takeTrap n ⟨xDfCtx, w, false⟩ c.x.pc (coreSet n c
      d'))))))

/-- The frame pool, retirement, the scrubber and the DMA channels. -/
def Obligations.MemoryUnits : Prop :=
  ∀ (s : State) (d : Dev), d = start s →
    (∀ (hi : W32) (w : Who) (x : Dev), isUp MEMi d → atS w = true → x = unheld (winBase MEMi + 0x40) d → x.mem.inval < 8 →
      exec (.tlbinv hi w) s = .next (after s ({ x with mem := { x.mem with inval := x.mem.inval + 1 } }))) ∧
    (∀ (w : Who), isUp MEMi d → atM w = true → on MEM.MEMCTL.POOLEN d = false → exec (.poolen true w) s =
      .next (after s (wrB MEM.MEMSTAT.SWEEP true (wrB MEM.MEMCTL.POOLEN true d)))) ∧
    (∀ (w : Who), isUp MEMi d → atM w = true → exec (.poolen false w) s =
      .next (after s (wrB MEM.MEMSTAT.SWEEP false (wrB MEM.MEMSTAT.POOLRUN false (wrB MEM.MEMCTL.POOLEN false d))))) ∧
    (isUp MEMi d → on MEM.MEMSTAT.SWEEP d = true → exec .sweepDone s = .next (after s (Sys2Proof.Machine.sweepDone d))) ∧
    (∀ (w : Who) (f : Nat), isUp MEMi d → atS w = true → pickBlock 1 d = some f → exec (.pooltake w) s =
      .next (after s ({ poolMove (-1) (ftSet f fOther 0 (drawn d)) with rdata := BitVec.ofNat 64 f }))) ∧
    (∀ (w : Who), isUp MEMi d → atS w = true → pickBlock 1 d = none → exec (.pooltake w) s =
      .next (after s ({ drawn d with rdata := 0xFFFFFFFF }))) ∧
    (∀ (f : BitVec 28) (w : Who), isUp MEMi d → atS w = true → f.toNat < frames →
      ftState (ftGet f.toNat d) = fOther ∨ ftState (ftGet f.toNat d) = fMapped → exec (.poolgive f w) s =
      .next (after s (poolMove 1 (ftSet f.toNat fFree 0 d)))) ∧
    (∀ (f : BitVec 28) (w : Who), isUp MEMi d → atS w = true → exec (.memRetire f w) s =
      .next (after s (fwRetire f.toNat d))) ∧
    (∀ (w : Who), isUp MEMi d → atM w = true → exec (.retcntClear w) s =
      .next (after s (wrB MEM.MEMSTAT.RETFULL false
      { d with aon := { d.aon with retCnt := 0, ret := tclear d.aon.ret 0x5000 0x5400 } }))) ∧
    (∀ (e : Ecc), isUp MEMi d → on MEM.MEMCTL.SCRUBEN d = true → d.mem.scrubAt + scrubGap d ≤ d.raw → exec (.scrub e) s =
      .next (after s (Sys2Proof.Machine.scrub e d))) ∧
    (∀ (c : Fin 32) (level : Fin 4) (w : Who), isUp MEMi d → atS w = true → chOpen c d = true → level.val ≤ w.lvl.num →
      level.val < 3 → exec (.dmaStart c level w) s = .next (after s ((fun x => chanSet c {} (wr (MEM.CHSTAT.STATE c) chRun (wr
      (MEM.CHCUR c) (Sys2Proof.Machine.rd (MEM.CHDESC c) x) (wr (MEM.CHDONE c) 0 x)))) (wr (MEM.CHCTL.LEVEL c) level (wrB
      (MEM.CHCTL.EN c) true d))))) ∧
    (∀ (c : Fin 32) (x : Desc) (d1 : Dev), isUp MEMi d → Sys2Proof.Machine.rd (MEM.CHSTAT.STATE c) d = chRun →
      chDesc s.fuses c d = (some x, d1) → exec (.dmaDescriptorDone c) s =
      .next (after s (dmaUntil s.fuses (fun _ => none) (fun y => !(Sys2Proof.Machine.rd (MEM.CHSTAT.STATE c) y == chRun &&
      (chanOf_ c y).desc.isSome)) (roundsFor d1) d1))) ∧
    (∀ (c : Fin 32) (at_ : W32) (wr_ : Bool) (x : Desc) (d1 d2 : Dev) (y : Bool), isUp MEMi d →
      Sys2Proof.Machine.rd (MEM.CHSTAT.STATE c) d = chRun → chDesc s.fuses c d = (some x, d1) → at_.toNat < x.len →
      Sys2Proof.Machine.rd (MEM.CHDONE c) d1 ≤ at_.toNat → (chanOf_ c d1).skip = false →
      d2 = dmaUntil s.fuses (fun k => if k = c then some at_.toNat else
      none) (fun y => !(Sys2Proof.Machine.rd (MEM.CHSTAT.STATE c) y == chRun && !decide (at_.toNat ≤ Sys2Proof.Machine.rd
      (MEM.CHDONE c) y))) (roundsFor d1) d1 → Sys2Proof.Machine.rd (MEM.CHSTAT.STATE c) d2 = chRun →
      Sys2Proof.Machine.rd (MEM.CHDONE c) d2 = at_.toNat → hostWaits c x d2 = false →
      y = (if x.op = 1 ∨ x.op = 2 then true else if x.op = 3 then false else wr_) → exec (.dmaPark c at_ false wr_ false) s =
      .next (after s (dmaTurn s.fuses (fun _ => none) c (chStrike c (if y then .store else .load) ((if y then x.dst else
      x.src) + at_.toNat) d2)))) ∧
    (∀ (c : Fin 32) (at_ : W32) (wr_ : Bool) (x : Desc) (d1 d2 : Dev) (y : Bool), isUp MEMi d →
      Sys2Proof.Machine.rd (MEM.CHSTAT.STATE c) d = chRun → chDesc s.fuses c d = (some x, d1) → at_.toNat < x.len →
      Sys2Proof.Machine.rd (MEM.CHDONE c) d1 ≤ at_.toNat → (chanOf_ c d1).skip = false → 2 ≤ x.op →
      d2 = dmaUntil s.fuses (fun k => if k = c then some at_.toNat else
      none) (fun y => !(Sys2Proof.Machine.rd (MEM.CHSTAT.STATE c) y == chRun && !decide (at_.toNat ≤ Sys2Proof.Machine.rd
      (MEM.CHDONE c) y))) (roundsFor d1) d1 → Sys2Proof.Machine.rd (MEM.CHSTAT.STATE c) d2 = chRun →
      Sys2Proof.Machine.rd (MEM.CHDONE c) d2 = at_.toNat → hostWaits c x d2 = false →
      y = (if x.op = 1 ∨ x.op = 2 then true else if x.op = 3 then false else wr_) → exec (.dmaPark c at_ true wr_ false) s =
      .next (after s (chStop c ⟨6, y, (if y then x.dst else x.src) + at_.toNat⟩ (inc MEM.EMMCERR d2)))) ∧
    (∀ (c : Fin 32) (at_ : W32) (emmc wr_ : Bool), isUp MEMi d → Sys2Proof.Machine.rd (MEM.CHSTAT.STATE c) d = chRun →
      (chanOf_ c d).desc = none → exec (.dmaPark c at_ emmc wr_ true) s =
      .next (after s ((chDesc s.fuses c (chStrike c .load (Sys2Proof.Machine.rd (MEM.CHCUR c) d + at_.toNat % 32) d)).2))) ∧
    (∀ (c : Fin 32) (w : Who), isUp MEMi d → atS w = true → s.pending.any (aborts c) = false →
      Sys2Proof.Machine.rd (MEM.CHSTAT.STATE c) d = chParked → exec (.dmaResume c w) s =
      .next (after s (wr (MEM.CHSTAT.STATE c) chRun d))) ∧
    (∀ (c : Fin 32) (w : Who), s.pending.any (aborts c) = true → exec (.dmaResume c w) s = .next (after s d)) ∧
    (∀ (c : Fin 32) (w : Who) (x : Desc), isUp MEMi d → atS w = true →
      Sys2Proof.Machine.rd (MEM.CHSTAT.STATE c) d = chParked → (chanOf_ c d).desc = some x → exec (.dmaSkip c w) s =
      .next (after s (descEnd c x false d))) ∧
    (∀ (c : Fin 32) (w : Who), isUp MEMi d → atS w = true → Sys2Proof.Machine.rd (MEM.CHSTAT.STATE c) d = chParked →
      (chanOf_ c d).desc = none → exec (.dmaSkip c w) s = .next (after s (chanSet c { chanOf_ c d with skip := true } (wr
      (MEM.CHSTAT.STATE c) chRun d)))) ∧
    (∀ (c : Fin 32) (w : Who), isUp MEMi d → atS w = true → Sys2Proof.Machine.rd (MEM.CHSTAT.STATE c) d = chParked ∨
      Sys2Proof.Machine.rd (MEM.CHSTAT.STATE c) d = chRun → exec (.dmaAbort c w) s = .next (after s (chEnd c chAborted d)))

/-- Critical faults and the clock, rail and TCXO monitors. -/
def Obligations.MonitorsRun : Prop :=
  ∀ (s : State) (d : Dev), d = start s →
    (∀ (b : Fin 32) (w : Who) (f : Fld), isUp SECi d → atM w = true → critBit b = some f → on f d = true →
      critCause b d = false → tget d.sec.critRaw b 0 + rawPerS ≤ d.raw → exec (.critstatClear b w) s =
      .next (after s (pmMirror (wrB f false d)))) ∧
    (∀ (isl : Fin 9), isUp AONi d → isl.val ≠ 0 → tget d.isl isl.val .off ≠ .off → exec (.clockFault isl true) s =
      .next (after s (whenUp SECi (fun x => wr SEC.CRITSTAT.CLKISL isl (critSet SEC.CRITSTAT.CLOCK x)) (rstAsk s.pending 1
      (resetAsk isl) (holdSet isl 1 true d))))) ∧
    (∀ (isl : Fin 9), isUp AONi d → isl.val ≠ 0 → tget d.isl isl.val .off ≠ .off → bit (tget d.aon.holds isl.val 0) 1 = true →
      exec (.clockFault isl false) s = .next (after s ((fun x =>
      { x with sec := { x.sec with critRaw := tset x.sec.critRaw SEC.CRITSTAT.CLOCK.lo x.raw 0 } }) (holdSet isl 1 false d))))
      ∧
    (∀ (isl : Fin 9), isUp AONi d → isl.val ≠ 0 → tget d.isl isl.val .off ≠ .off → exec (.railFault isl true) s =
      .next (after s (whenUp SECi (fun x => wr SEC.CRITSTAT.RAILISL isl (critSet SEC.CRITSTAT.RAIL x)) (rstAsk s.pending 1
      (resetAsk isl) (holdSet isl 2 true d))))) ∧
    (isUp AONi d → exec (.railFault 0 true) s = .next (after s (noPower (permitFollow (wrB SEC.PMSTAT.GRANT false (lTear
      d)))))) ∧
    (isUp AONi d → d.aon.power = .run → bit (tget d.aon.holds 1 0) 4 = false → exec (.tcxoCheck false) s =
      .next (after s (forAll [1, 2, 3, 4, 5, 6, 7, 8] (fun i x => resetAsk i (holdSet i 4 true x)) (whenUp SECi (critSet
      SEC.CRITSTAT.TCXO) d)))) ∧
    (isUp AONi d → d.aon.power = .run → bit (tget d.aon.holds 1 0) 4 = true → exec (.tcxoCheck true) s =
      .next (after s (Sys2Proof.Machine.tcxoCheck true d)))

/-- The drive ring: cycles, frames, controls, admission and ordinary traffic. -/
def Obligations.RingRuns : Prop :=
  ∀ (s : State) (d : Dev), d = start s →
    (∀ (rtt : Option W32), isUp NETi d → on NET.NETCTL.RINGEN d = true → exec (.ringCycleStart rtt) s =
      .next (after s (ringCycle (rtt.map BitVec.toNat) d))) ∧
    (∀ (a b : Bool), isUp NETi d → on NET.NETCTL.RINGEN d = true → exec (.testDeadline a b) s =
      .next (after s (Sys2Proof.Machine.testDeadline a b d))) ∧
    (∀ (port : Fin 2) (link : Fin 3), isUp AONi d → exec (.portLinkChange port link) s =
      .next (after s (linkChange port link d))) ∧
    (∀ (f : PortFrame) (fcs : Bool), f.etype = 0x88B5 → isUp NETi d → on NET.NETCTL.RINGEN d = true →
      on NET.NETCTL.CYCEN d = true → exec (.inputFrame f fcs) s =
      .next (after s (Sys2Proof.Machine.inputFrame f.port f.dst.toNat f.src.toNat (f.body.map BitVec.toNat) fcs d))) ∧
    (∀ (f : PortFrame) (fcs : Bool), f.etype ≠ 0x88B5 → exec (.inputFrame f fcs) s = .next (after s d)) ∧
    (isUp NETi d → d.net.isOpen = true → exec .inputDeadline s = .next (after s (Sys2Proof.Machine.inputDeadline d))) ∧
    (isUp NETi d → on NET.RINGSTAT.MOSS d = true → exec .holdFrame s = .next (after s (Sys2Proof.Machine.holdFrame d))) ∧
    (∀ (w : Who), isUp NETi d → atS w = true → on NET.NETCTL.CYCEN d = false → cycFits d = true →
      exec (.cycenWrite true w) s = .next (after s (wrB NET.NETCTL.CYCEN true d))) ∧
    (∀ (w : Who), isUp NETi d → atS w = true → on NET.NETCTL.CYCEN d = false → cycFits d = false →
      exec (.cycenWrite true w) s = .next (after s (wrB NET.RINGSTAT.FITERR true d))) ∧
    (∀ (w : Who), isUp NETi d → atS w = true → exec (.cycenWrite false w) s =
      .next (after s (releaseWaiting { wrB NET.NETCTL.CYCEN false d with net := { d.net with isOpen := false } }))) ∧
    (∀ (w : Who), isUp NETi d → atS w = true → on NET.NETCTL.RINGEN d = false → exec (.ringenWrite true w) s =
      .next (after s (ringOn d))) ∧
    (∀ (w : Who), isUp NETi d → atS w = true → on NET.NETCTL.RINGEN d = true → exec (.ringenWrite false w) s =
      .next (after s (releaseWaiting (ringOff false d)))) ∧
    (∀ (f : OrdFrame), isUp NETi d → exec (.ordinaryFrame (some f)) s =
      .next (after s (ordIn f.port f.tag.toNat (nats f.bytes) d))) ∧
    (∀ (p : Packet), isUp NETi d → hwPeek 30 d = some p → p.ecc ≠ .double → exec (.ordinaryFrame none) s =
      .next (after s (ordDesc p.items (hwTaken 30 (heeded 30 p.ecc d))))) ∧
    (∀ (p : Packet), isUp NETi d → hwPeek 30 d = some p → p.ecc = .double → exec (.ordinaryFrame none) s =
      .next (after s (frmDropped (sqEcc 30 (hwTaken 30 d))))) ∧
    (isUp NETi d → on NET.NETCTL.RINGEN d = true → exec .address s = .next (after s (addressAll d))) ∧
    (∀ (f : PortFrame), isUp NETi d → f.etype = 0x88B5 → d.net.annDone = 0 → on NET.NETCTL.RINGEN d = true →
      ofBe (sub (f.body.map BitVec.toNat) 0 2) = 6 → 8 ≤ f.body.length → f.port = 0 → exec (.announce f) s =
      .next (after s (Sys2Proof.Machine.announce 0 f.dst.toNat f.src.toNat (f.body.map BitVec.toNat) d))) ∧
    (∀ (f : PortFrame), isUp NETi d → f.etype = 0x88B5 → f.port = 1 → exec (.announce f) s =
      .next (after s (Sys2Proof.Machine.announce 1 f.dst.toNat f.src.toNat (f.body.map BitVec.toNat) (announceFirst s.pending
      d))))

/-- Reads and writes of registers by address, and register batches. -/
def Obligations.RegistersByAddress : Prop :=
  ∀ (s : State) (d : Dev), d = start s →
    (∀ (a : BitVec 40) (v : W32) (w : Who) (y : Dev), mmioWrite s.fuses w 4 a.toNat v.toNat (ties s.pending d) = some y →
      exec (.registerWrite a v w) s = .next (after s y)) ∧
    (∀ (a : BitVec 40) (v : W32) (w : Who) (x : Dev), x = ties s.pending d → mmioWrite s.fuses w 4 a.toNat v.toNat x = none →
      exec (.registerWrite a v w) s = .next (after s ({ busNote w 4 a.toNat d with rdata := 0 }))) ∧
    (∀ (a : BitVec 40) (v : W32) (w : Who) (y : Dev), mmioWrite s.fuses w 4 a.toNat v.toNat (ties s.pending d) = some y →
      exec (.pairLowWrite a v w) s = .next (after s y)) ∧
    (∀ (a : BitVec 40) (v : W32) (w : Who) (x : Dev), x = ties s.pending d → mmioWrite s.fuses w 4 a.toNat v.toNat x = none →
      exec (.pairLowWrite a v w) s = .next (after s ({ busNote w 4 a.toNat d with rdata := 0 }))) ∧
    (∀ (a : BitVec 40) (v : W32) (w : Who) (y : Dev), mmioWrite s.fuses w 4 a.toNat v.toNat (ties s.pending d) = some y →
      exec (.pairHighWrite a v w) s = .next (after s y)) ∧
    (∀ (a : BitVec 40) (v : W32) (w : Who) (x : Dev), x = ties s.pending d → mmioWrite s.fuses w 4 a.toNat v.toNat x = none →
      exec (.pairHighWrite a v w) s = .next (after s ({ busNote w 4 a.toNat d with rdata := 0 }))) ∧
    (∀ (a : BitVec 40) (w : Who) (y : Dev), mmioRead s.fuses w 4 a.toNat d = some y → exec (.rcRead a w) s =
      .next (after s y)) ∧
    (∀ (a : BitVec 40) (w : Who), mmioRead s.fuses w 4 a.toNat d = none → exec (.rcRead a w) s =
      .next (after s ({ d with rdata := 0 }))) ∧
    (∀ (a : BitVec 40) (w : Who) (y : Dev), mmioRead s.fuses w 4 a.toNat d = some y → exec (.pairLowRead a w) s =
      .next (after s y)) ∧
    (∀ (a : BitVec 40) (w : Who), mmioRead s.fuses w 4 a.toNat d = none → exec (.pairLowRead a w) s =
      .next (after s ({ d with rdata := 0 }))) ∧
    (∀ (f : Fin 16) (r : Nat), r = ferryRecv f (ferryOf f d).hdr.toNat d → batchWaits r f d = true →
      d.batchDue.contains r = true → isUp (recvIsl r) d = true → exec (.registerBatch f) s =
      .next (after s (batchTake s.fuses f d)))

/-- Events, dispatch, pre-emption, fences and self-test at the scheduler. -/
def Obligations.SchedulerRuns : Prop :=
  ∀ (s : State) (d : Dev), d = start s →
    (∀ (n : CoreNo), runs APPi d = true → runs SCHi d = true → s.pending.any (fencing d n) = false →
      (coreOf n d).fatal = false → (coreOf n d).open_ = true → exec (.preemption n) s = .next (after s (preempt n d))) ∧
    (∀ (n : CoreNo), s.pending.any (fencing d n) = true → exec (.preemption n) s = .next (after s d)) ∧
    (∀ (e : Ecc), runs SCHi d = true → ahead 1 s.pending = false → full d = false → exec (.eventToken e) s =
      .next (after s (whenRuns SCHi (tiesDone s.pending) (takeEvent e d)))) ∧
    (∀ (e : Ecc), runs SCHi d = true → ahead 1 s.pending = true → exec (.eventToken e) s =
      .next (after s (whenRuns SCHi (tiesDone s.pending) { d with sch := { d.sch with evLate := d.sch.evLate ++ [e] } }))) ∧
    (∀ (ev : Byte) (v : W32) (w : Who), isUp SCHi d → atS w = true → exec (.evcfgEn ev v w) s =
      .next (after s (evCfg ev.toNat v.toNat d))) ∧
    (runs APPi d = true → runs SCHi d = true → choiceWaits s.pending d = false → on SCH.DFCTL.EN d = true → d.sch.run = true →
      exec .dispatchChoice s = .next (after s (choose d))) ∧
    (runs APPi d = true → runs SCHi d = true → choiceWaits s.pending d = true → exec .dispatchChoice s =
      .next (after s ({ d with sch := { d.sch with chooseLate := d.sch.chooseLate + 1 } }))) ∧
    (∀ (n : CoreNo), runs APPi d = true → runs SCHi d = true → (coreOf n d).run = .idle →
      bit (Sys2Proof.Machine.rd SCH.NAPHOLD d) n = false → (coreOf n d).from_ + Sys2Proof.Machine.rd SCH.NAPDLY d * 26 ≤ d.raw
      → exec (.napEntry n) s = .next (after s (coreSet n { coreOf n d with run := .nap } d))) ∧
    (∀ (n : CoreNo) (r x t : Nat), runs APPi d = true → runs SCHi d = true → (coreOf n d).stall = some (.ready r x t) →
      t + 52 ≤ d.raw → full d = true → exec (.dfBusyTimeout n) s =
      .next (after s (inc SCH.BUSYCNT (coreSet n
      { ((coreOf n d).put r (BitVec.ofNat 64 dfBusy)).next with stall := none, iret := (coreOf n d).iret + 1 } d)))) ∧
    (∀ (n : CoreNo) (r x q t : Nat) (v : W64), runs APPi d = true → runs SCHi d = true →
      (coreOf n d).stall = some (.post r x q v t) → t + 52 ≤ d.raw → full d = true → exec (.dfBusyTimeout n) s =
      .next (after s (inc SCH.BUSYCNT (coreSet n
      { ((coreOf n d).put r (BitVec.ofNat 64 dfBusy)).next with stall := none, iret := (coreOf n d).iret + 1 } d)))) ∧
    (∀ (v : Byte) (w : Who), isUp SCHi d → atM w = true → exec (.cfenceWrite v w) s =
      .next (after s (whenRuns SCHi (tiesDone s.pending) (fenceSet (wr SCH.CFENCE v.toNat d))))) ∧
    (∀ (v : Bool) (w : Who), isUp SCHi d → atM w = true → exec (.dfctlEn v w) s =
      .next (after s (wrB SCH.DFCTL.EN v { d with sch := { d.sch with run := v } }))) ∧
    (runs APPi d = true → runs SCHi d = true → on APP.STCTL.EN d = true → d.app.stCur = none → d.app.stTry = none →
      (d.app.stAt.map (· + turnEach)).getD 0 ≤ d.raw → exec .selfTestTurn s =
      .next (after s (whenRuns SCHi (tiesDone s.pending) (turnTake d.raw (turnBegin d))))) ∧
    (∀ (t : Nat), runs APPi d = true → runs SCHi d = true → on APP.STCTL.EN d = true → d.app.stCur = none →
      d.app.stTry = some t → exec .selfTestTurn s = .next (after s (whenRuns SCHi (tiesDone s.pending) (turnTake t d)))) ∧
    (∀ (pass : Bool) (n : Nat), runs APPi d = true → d.app.stCur = some n → exec (.selfTestDone pass) s =
      .next (after s (testDone pass d))) ∧
    (∀ (n : CoreNo), canIssue n d = true → (coreOf n d).nplim < (coreOf n d).npcnt d.raw → exec (.nptime n) s =
      .next (after s (cancelHere n (takeTrap n ⟨xNpTime, (coreOf n d).npcnt d.raw, false⟩ (coreOf n d).x.pc d))))

/-- Arithmetic, skips, the end and data moves of cycle programs. A program's next word is the instruction. -/
def Obligations.CycleInstructions : Prop :=
  ∀ (s : State) (d v : Dev) (r : Running), d = start s → isUp CTLi d = true → v = fetched r d →
    (∀ (x a b : Fin 64), AtOp d r (.fr 0x2 x a b) → exec (.ctlMov x a b) s = .next (after s (fSet x (fGet a v) v))) ∧
    (∀ (x a b : Fin 64), AtOp d r (.fr 0x8 x a b) → exec (.ctlAdd x a b) s =
      .next (after s (fPut x (cAdd (fGet a v) (fGet b v)) v))) ∧
    (∀ (x a b : Fin 64), AtOp d r (.fr 0x9 x a b) → exec (.ctlSub x a b) s =
      .next (after s (fPut x (cSub (fGet a v) (fGet b v)) v))) ∧
    (∀ (x a b : Fin 64), AtOp d r (.fr 0xA x a b) → exec (.ctlMul x a b) s =
      .next (after s (fPut x (cMul (fGet a v) (fGet b v)) v))) ∧
    (∀ (x a b : Fin 64), AtOp d r (.fr 0xB x a b) → exec (.ctlMad x a b) s =
      .next (after s (fPut x (cMad (fGet x v) (fGet a v) (fGet b v)) v))) ∧
    (∀ (x a b : Fin 64), AtOp d r (.fr 0xC x a b) → exec (.ctlDiv x a b) s =
      .next (after s (fPut x (cDiv (fGet a v) (fGet b v)) v))) ∧
    (∀ (x a b : Fin 64), AtOp d r (.fr 0xD x a b) → exec (.ctlSqrt x a b) s = .next (after s (fPut x (cSqrt (fGet a v)) v))) ∧
    (∀ (x a b : Fin 64), AtOp d r (.fr 0xE x a b) → exec (.ctlMin x a b) s =
      .next (after s (fSet x (cMin (fGet a v) (fGet b v)) v))) ∧
    (∀ (x a b : Fin 64), AtOp d r (.fr 0xF x a b) → exec (.ctlMax x a b) s =
      .next (after s (fSet x (cMax (fGet a v) (fGet b v)) v))) ∧
    (∀ (x a b : Fin 64), AtOp d r (.fr 0x10 x a b) → exec (.ctlAbs x a b) s =
      .next (after s (fSet x (fGet a v % 2 ^ 31) v))) ∧
    (∀ (x a b : Fin 64), AtOp d r (.fr 0x11 x a b) → exec (.ctlNeg x a b) s = .next (after s (fSet x (cNeg (fGet a v)) v))) ∧
    (∀ (x a b : Fin 64), AtOp d r (.fr 0x12 x a b) → exec (.ctlClt x a b) s =
      .next (after s (fSet x (cBool (cLt (fGet a v) (fGet b v))) v))) ∧
    (∀ (x a b : Fin 64), AtOp d r (.fr 0x13 x a b) → exec (.ctlCle x a b) s =
      .next (after s (fSet x (cBool (cLe (fGet a v) (fGet b v))) v))) ∧
    (∀ (x a b : Fin 64), AtOp d r (.fr 0x14 x a b) → exec (.ctlCeq x a b) s =
      .next (after s (fSet x (cBool (fCmp f32 0 (fGet a v) (fGet b v)).1) v))) ∧
    (∀ (x a b : Fin 64), AtOp d r (.fr 0x15 x a b) → exec (.ctlSel x a b) s =
      .next (after s (fSet x (if cZero (fGet x v) then fGet b v else fGet a v) v))) ∧
    (∀ (x a b : Fin 64), AtOp d r (.fb 0x22 x a b 0 0) → exec (.ctlLimit x a b) s =
      .next (after s (fSet x (cMin (cMax (fGet x v) (fGet a v)) (fGet b v)) v))) ∧
    (∀ (x : Fin 64) (imm : BitVec 20), AtOp d r (.fk x imm.toNat) → exec (.ctlLdk x imm) s =
      .next (after s (fSet x (imm.toNat * 2 ^ 12) v))) ∧
    (∀ (x a b : Fin 64) (q : Running), AtOp d r (.fr 1 x a b) → v.ctl.run = some q → exec (.ctlEnd x a b) s =
      .next (after s (progEnd q { v with ctl := { v.ctl with ovr := 0 } }))) ∧
    (∀ (a n : Fin 64), AtOp d r (.fs 0x18 a 0 n) → exec (.ctlSkz a n) s =
      .next (after s (if cZero (fGet a v) then skipN n v else v))) ∧
    (∀ (a n : Fin 64), AtOp d r (.fs 0x19 a 0 n) → exec (.ctlSknz a n) s = .next (after s (if cZero (fGet a v) then v else
      skipN n v))) ∧
    (∀ (k ph n : Fin 64), AtOp d r (.fs 0x1A k ph n) → exec (.ctlEvery k ph n) s =
      .next (after s (if v.ctl.cyc % (k.val + 1) = ph.val then v else skipN n v))) ∧
    (∀ (x : Fin 64) (cell : BitVec 12), AtOp d r (.fm 5 x cell.toNat) → exec (.ctlSt x cell) s =
      .next (after s (wr (CTL.DMEM cell.toNat) (fGet x v) v))) ∧
    (∀ (x : Fin 64) (cell : BitVec 12), AtOp d r (.fm 4 x cell.toNat) →
      cBad (Sys2Proof.Machine.rd (CTL.DMEM cell.toNat) v) = false → exec (.ctlLd x cell .clean) s =
      .next (after s (fSet x (Sys2Proof.Machine.rd (CTL.DMEM cell.toNat) v) v))) ∧
    (∀ (x : Fin 64) (cell : BitVec 12), AtOp d r (.fm 4 x cell.toNat) → exec (.ctlLd x cell .double) s =
      .next (after s (ctlFault 2 v))) ∧
    (∀ (x m off : Fin 64) (ty : Fin 8) (bt : Fin 32), AtOp d r (.fp 6 x m off ty bt) → exec (.ctlIn x m off ty bt) s =
      .next (after s (opIn x m off ty bt v))) ∧
    (∀ (x m off : Fin 64) (ty : Fin 8) (bt : Fin 32), AtOp d r (.fp 7 x m off ty bt) →
      bit (Sys2Proof.Machine.rd CTL.OUTOWN v) m = true → (List.range 48).any (fun a => axisOn m a v) = false →
      exec (.ctlOut x m off ty bt) s = .next (after s (opOut x m off ty bt v)))

/-- Loop blocks, filters and axis instructions of cycle programs. A program's next word is the instruction. -/
def Obligations.CycleBlocksRun : Prop :=
  ∀ (s : State) (d v : Dev) (r : Running), d = start s → isUp CTLi d = true → v = fetched r d →
    (∀ (x a b u : Fin 64) (h : Bool), AtOp d r (.fb 0x20 x a b u (b2n h)) → lbOk u (or h (autoHand u v).isSome) v = true →
      (lat (CTL.LBCFG.OFEN u) v = 1 → filtOk (lat (CTL.LBCFG.OFILT u) v) v = true) → exec (.ctlPidstep x a b u h .clean) s =
      .next (after s (opPid x a b u h v))) ∧
    (∀ (x a b u : Fin 64), AtOp d r (.fb 0x21 x a b u 0) → filtOk u v = true → exec (.ctlFilt2 x a b u .clean) s =
      .next (after s (fPut x (filt2 u (fGet a v) v).1 (filt2 u (fGet a v) v).2))) ∧
    (∀ (x a b u : Fin 64), AtOp d r (.fb 0x21 x a b u 0) → filtOk u (inc CTL.ECCCNT v) = true →
      exec (.ctlFilt2 x a b u .single) s = .next (after s ((fun y => fPut x (filt2 u (fGet a y) y).1 (filt2 u (fGet a y) y).2)
      (inc CTL.ECCCNT v)))) ∧
    (∀ (x a b u : Fin 64) (e : Ecc), AtOp d r (.fb 0x23 x a b u 0) → ffOk u v = true → e ≠ .double →
      exec (.ctlFfapply x a b u e) s = .next (after s (opFf x a u (if e = .single then inc CTL.ECCCNT v else v)))) ∧
    (∀ (x a b : Fin 64) (u : Fin 48), AtOp d r (.fb 0x24 x a b u 0) → axState u v = 0 → exec (.ctlProfile x a b u) s =
      .next (after s (fSet (x + 2) 0 (fSet (x + 1) 0 (fSet x 0 v))))) ∧
    (∀ (x a b : Fin 64) (u : Fin 48) (y : Dev), AtOp d r (.fb 0x24 x a b u 0) → axState u v ≠ 0 →
      y = profile u (axRules u v) → axClass u y = 0 → exec (.ctlProfile x a b u) s =
      .next (after s (fSet (x + 2) (cFixed ((axOf u y).p - (axOf u y).ofs - (axInp u y).actPos) 16) (fSet (x + 1) (cFixed
      (axOf u y).a 16) (fSet x (cFixed (axOf u y).v 16) y))))) ∧
    (∀ (x a b : Fin 64) (u : Fin 48), AtOp d r (.fb 0x25 x a b u 0) → axState u v ≠ 0 → exec (.ctlLoadang x a b u) s =
      .next (after s (opLoadang x u v))) ∧
    (∀ (x a b : Fin 64) (u : Fin 48), AtOp d r (.fb 0x25 x a b u 0) → axState u v = 0 → exec (.ctlLoadang x a b u) s =
      .next (after s (fSet (x + 1) 0 (fSet x 0 v)))) ∧
    (∀ (x a b : Fin 64) (u : Fin 48), AtOp d r (.fb 0x26 x a b u 0) → axState u v ≠ 0 → exec (.ctlModesw x a b u) s =
      .next (after s (fSet x (cBool (on (CTL.AXSTAT.CMODE u) (modeSwitch u v))) (modeSwitch u v)))) ∧
    (∀ (x a b : Fin 64) (u : Fin 48), AtOp d r (.fb 0x26 x a b u 0) → axState u v = 0 → exec (.ctlModesw x a b u) s =
      .next (after s (fSet x 0 v)))

/-- The servo cycle and CTL's register commands. -/
def Obligations.CycleEventsRun : Prop :=
  ∀ (s : State) (d : Dev), d = start s →
    (isUp CTLi d → exec .inputHandoff s = .next (after s (Sys2Proof.Machine.inputHandoff d))) ∧
    (∀ (p : Nat), isUp CTLi d → d.ctl.trig = some p → ctlRuns d = true → d.ctl.handed = some (cycIdx d) → d.ctl.run = none →
      d.ctl.ran = false → pastDl d = false → on (CTL.PROGTAB.VALID p) d = true → exec (.programStart .clean) s =
      .next (after s (progStart p d))) ∧
    (isUp CTLi d → exec .cycleDeadline s = .next (after s (Sys2Proof.Machine.cycleDeadline d))) ∧
    (∀ (p : Fin 16) (x : W32) (e : Ecc) (w : Who), isUp CTLi d → atS w = true → exec (.progtabWrite p x e w) s =
      .next (after s (Sys2Proof.Machine.progtabWrite p x.toNat e d))) ∧
    (∀ (x : Fin 4096) (v : W32) (w : Who), isUp CTLi d → atS w = true →
      (List.range 16).any (fun p => on (CTL.PROGTAB.VALID p) d && decide (Sys2Proof.Machine.rd (CTL.PROGTAB.START p) d ≤ x ∧
      x < Sys2Proof.Machine.rd (CTL.PROGTAB.START p) d + Sys2Proof.Machine.rd (CTL.PROGTAB.LEN p) d)) = false →
      exec (.pmemWrite x v w) s = .next (after s (wr (CTL.PMEM x) v.toNat d))) ∧
    (∀ (w : Who), isUp CTLi d → atS w = true → on CTL.CTLCTL.EN d = false → exec (.ctlctlEn true w) s =
      .next (after s (forAll blocks64 lbReset
      { wr CTL.CTLSTAT.FCODE 0 (wrB CTL.CTLSTAT.FAULT false (wrB CTL.CTLSTAT.RUN true (wrB CTL.CTLCTL.EN true d))) with ctl := { d.ctl with holdClr := true, ovr := 0 } })))
      ∧
    (∀ (w : Who), isUp CTLi d → atS w = true → on CTL.CTLCTL.EN d = true → axes.any (fun a => axState a d != 0) = false →
      exec (.ctlctlEn false w) s = .next (after s (wrB CTL.CTLSTAT.BUSY false (wrB CTL.CTLSTAT.RUN false (wrB CTL.CTLCTL.EN
      false { d with ctl := { d.ctl with run := none, trig := none, shadow := [] } }))))) ∧
    (∀ (b : Fin 64) (w : Who), isUp CTLi d → atS w = true → exec (.lbcfgReset b w) s =
      .next (after s (lbSet b { lbOf b d with rst := true } d))) ∧
    (∀ (a : Fin 48) (m : Fin 4) (w : Who), isUp CTLi d → atS w = true → m.val ≠ 3 → exec (.modereq a m w) s =
      .next (after s (Sys2Proof.Machine.modereq a m d))) ∧
    (isUp CTLi d → d.ctl.dlDue = false → pastDl d = true → d.ctl.dl ≠ some (cycIdx d) → ctlRuns d = true → d.ctl.run = none →
      d.ctl.ran = false → d.ctl.trig = none → exec .cycleDeadline s =
      .next (after s (nextCycle (commit (implicitPass (takeAll (inc CTL.NOPROG
      { d with ctl := { d.ctl with dl := some (cycIdx d), ovr := 0 } })))))))

/-- Axis commands wait in AXCMD for the servo cycle. -/
def Obligations.AxisCommandsWait : Prop :=
  ∀ (s : State) (d : Dev), d = start s →
    (∀ (a : Fin 48) (w : Who), isUp CTLi d → atS w = true → on CTL.CTLCTL.EN d = true → (axOf a d).cmd ≠ some 5 →
      exec (.enable a w) s = .next (after s (axSet a { axOf a d with cmd := some 1 } d))) ∧
    (∀ (a : Fin 48) (w : Who), isUp CTLi d → atS w = true → (axOf a d).cmd ≠ some 5 → exec (.disable a w) s =
      .next (after s (axSet a { axOf a d with cmd := some 2 } d))) ∧
    (∀ (a : Fin 48) (w : Who), isUp CTLi d → atS w = true → (axOf a d).cmd ≠ some 5 → exec (.move a w) s =
      .next (after s (axSet a { axOf a d with cmd := some 3 } d))) ∧
    (∀ (a : Fin 48) (w : Who), isUp CTLi d → atS w = true → (axOf a d).cmd ≠ some 5 → exec (.jog a w) s =
      .next (after s (axSet a { axOf a d with cmd := some 4 } d))) ∧
    (∀ (a : Fin 48) (w : Who), isUp CTLi d → atS w = true → (axOf a d).cmd ≠ some 5 → exec (.stop a w) s =
      .next (after s (axSet a { axOf a d with cmd := some 5 } d))) ∧
    (∀ (a : Fin 48) (w : Who), isUp CTLi d → atS w = true → (axOf a d).cmd ≠ some 5 → exec (.home a w) s =
      .next (after s (axSet a { axOf a d with cmd := some 6 } d))) ∧
    (∀ (a : Fin 48) (w : Who), isUp CTLi d → atS w = true → (axOf a d).cmd ≠ some 5 → exec (.frst a w) s =
      .next (after s (axSet a { axOf a d with cmd := some 7 } d))) ∧
    (∀ (a : Fin 48), isUp CTLi d → on (CTL.IDLECFG.PDEN a) d = true → on (CTL.AXSTAT.STANDSTILL a) d = true →
      axState a d ≠ 0 → (axOf a d).mv = .still → Sys2Proof.Machine.rd (CTL.IDLECFG.IDLEDLY a) d * 1000000 ≤ ((axOf a d).still
      - 1) * cycNs d → exec (.idlePowerdown a) s = .next (after s (wrB (CTL.AXSTAT.DRVOFF a) true d)))

/-- The search engine and the channels of the GNSS baseband. -/
def Obligations.BasebandRuns : Prop :=
  ∀ (s : State) (d : Dev), d = start s →
    (∀ (v : W32) (w : Who), isUp POSi d → atS w = true → bit v.toNat 0 = true → bit v.toNat 1 = false →
      on POS.BBCTL.EN d = false → exec (.basebandEnable v w) s = .next (after s (bbStart (wrB POS.BBCTL.EN true d)))) ∧
    (∀ (v : W32) (w : Who), isUp POSi d → atS w = true → bit v.toNat 0 = false → bit v.toNat 1 = false →
      on POS.BBCTL.EN d = true → exec (.basebandEnable v w) s = .next (after s (bbStop (wrB POS.BBCTL.EN false d)))) ∧
    (∀ (peak noise : W32) (lane : Fin 64), runs POSi d = true → on POS.BBSTAT.RUN d = true → d.pos.dwellEnd ≤ d.raw →
      exec (.acqDwell peak noise lane) s = .next (after s (Sys2Proof.Machine.acqDwell peak.toNat noise.toNat lane d))) ∧
    (∀ (c : Fin 24) (prn : BitVec 6) (w : Who), isUp POSi d → atS w = true → exec (.channelPin c prn w) s =
      .next (after s (chPin c prn.toNat d))) ∧
    (∀ (c : Fin 24) (rel : Bool) (w : Who), isUp POSi d → atS w = true → exec (.channelRelease c rel w) s =
      .next (after s (chRelease c rel d))) ∧
    (∀ (c : Fin 24), runs POSi d = true → chState c d = cPullin → exec (.pllHandover c) s =
      .next (after s ((fun x => chGSet c { chG c x with lock := x.raw, loss := 0 } x) (wrB (POS.CHSTAT.CARRIER c) true (wrB
      (POS.CHSTAT.TRACK c) true (wr (POS.CHSTAT.STATE c) cTrack d)))))) ∧
    (∀ (c : Fin 24), runs POSi d = true → chState c d = cTrack → on (POS.CHSTAT.CARRIER c) d = false →
      exec (.pllHandover c) s = .next (after s ((fun x => chGSet c { chG c x with lock := x.raw, loss := 0 } x) (wrB
      (POS.CHSTAT.CARRIER c) true (wrB (POS.CHSTAT.TRACK c) true (wr (POS.CHSTAT.STATE c) cTrack d)))))) ∧
    (∀ (c : Fin 24), runs POSi d = true → chState c d = cPullin →
      (chG c d).pull + (chG c d).set.limit * 10 * rawPerMs ≤ d.raw → exec (.pullinTimeout c) s =
      .next (after s (toReacq c d))) ∧
    (∀ (c : Fin 24), runs POSi d = true → chState c d = cTrack → on (POS.CHSTAT.BSYNC c) d = false → exec (.bitSync c) s =
      .next (after s (chInt c (wrB (POS.CHSTAT.BSYNC c) true (chGSet c { chG c d with intAt := d.raw } d))))) ∧
    (∀ (c : Fin 24) (n : Nat), runs POSi d = true → chState c d = cTrack → on (POS.CHSTAT.BSYNC c) d = true →
      on (POS.CHSTAT.FSYNC c) d = false → towSync (chG c d).hist = some n → exec (.frameSync c) s =
      .next (after s (Sys2Proof.Machine.frameSync c d))) ∧
    (∀ (c : Fin 24), runs POSi d = true → chState c d = cTrack → on (POS.CHSTAT.CARRIER c) d = true →
      exec (.carrierLoss c) s = .next (after s ((fun x => inc (POS.SLIPCNT c) (chGSet c { chG c x with slip := true } x)) (wrB
      (POS.CHSTAT.HALF c) false (wrB (POS.CHSTAT.CARRIER c) false d))))) ∧
    (∀ (c : Fin 24), runs POSi d = true → chState c d = cTrack → exec (.codeLoss c) s = .next (after s (toReacq c d))) ∧
    (∀ (c : Fin 24), runs POSi d = true → chState c d = cReacq →
      (chG c d).loss + Sys2Proof.Machine.rd POS.REACQWIN d * rawPerS ≤ d.raw → exec (.reacqTimeout c) s =
      .next (after s (chRest c d))) ∧
    (∀ (c : Fin 24) (word : BitVec 30), runs POSi d = true → chState c d = cTrack → on (POS.CHSTAT.BSYNC c) d = true →
      exec (.navWord c word) s = .next (after s (Sys2Proof.Machine.navWord c word.toNat d)))

/-- Measurement epochs, corrections, the base position and the fix report. -/
def Obligations.BaseEpochsRun : Prop :=
  ∀ (s : State) (d : Dev), d = start s →
    (∀ (v : Bool) (w : Who), isUp POSi d → atS w = true → exec (.ionoValid v w) s =
      .next (after s (wrB POS.IONOCTL.VALID v d))) ∧
    (∀ (w : Who), isUp POSi d → atS w = true → exec (.basePositionValid true w) s =
      .next (after s (wrB POS.BASECTL.VALID true d))) ∧
    (∀ (w : Who), isUp POSi d → atS w = true → on POS.BASECTL.VALID d = true → exec (.basePositionValid false w) s =
      .next (after s (forAll chans (fun c x => wr (POS.ELAZ.AZIM c) 0xFF (wr (POS.ELAZ.ELEV c) 0x80 x)) (withPos (fun p =>
      { p with resets := List.range 128 }) (wrB POS.BASECTL.VALID false d))))) ∧
    (∀ (m : List Meas), runs POSi d = true → d.pos.epochDue ≠ 0 → on POS.BBCTL.EN d = true → d.pos.lastAt = none →
      exec (.measLatch m) s = .next (after s (Sys2Proof.Machine.measLatch m d))) ∧
    (∀ (m : List Meas) (t : Nat), runs POSi d = true → d.pos.epochDue ≠ 0 → on POS.BBCTL.EN d = true → d.pos.lastAt = some t →
      t + 5 * rawPerMs ≤ d.raw → exec (.measLatch m) s = .next (after s (Sys2Proof.Machine.measLatch m d))) ∧
    (∀ (l : Latch), runs POSi d = true → d.pos.latch = some l → l.full = false → exec .epochRecordComplete s =
      .next (after s (epochComplete d))) ∧
    (∀ (l : Latch), runs POSi d = true → d.pos.latch = some l → l.tc = false → on POS.BASECTL.VALID d = true →
      Sys2Proof.Machine.rd AON.WCTL.SRC d = 1 → exec .timeCorrection s =
      .next (after s (accAfter (Sys2Proof.Machine.timeCorrection (ties s.pending d))))) ∧
    (∀ (p : Packet), isUp SECi d → hwPeek 20 d = some p → p.ecc = .clean → exec (.fixqReport .clean) s =
      .next (after s ((fun x => { x with sec := { x.sec with fixq := bit (p.items.getD 0 0).toNat 0 } }) (hwTaken 20 d)))) ∧
    (∀ (p : Packet), isUp SECi d → hwPeek 20 d = some p → exec (.fixqReport .double) s =
      .next (after s (sqEcc 20 (hwTaken 20 d)))) ∧
    (runs POSi d = true → on POS.BBSTAT.RUN d = true → exec .keepUpdate s = .next (after s (keepAll (ephSeen d))))

/-- The rover solver: records in, dispatched, waited for and solved, and its controls. -/
def Obligations.RoverSolverRuns : Prop :=
  ∀ (s : State) (d : Dev), d = start s →
    (∀ (p : Packet), runs POSi d = true → on POS.SOLCTL.EN d = true → d.pos.store.length < 64 → hwPeek 23 d = some p →
      exec .recordIn s = .next (after s (Sys2Proof.Machine.recordIn d))) ∧
    (runs POSi d = true → exec .recordDispatch s = .next (after s (recDispatch d))) ∧
    (∀ (i : Nat), runs POSi d = true → findIx (fun o => !o.ready && or (recOld o.r (oEpoch o.bytes) d) (waitOver o d))
      d.pos.store = some i → exec .recordWaitEnd s = .next (after s (waitEnd d))) ∧
    (∀ (p : Fin 4) (x : Pipe), runs POSi d = true → pipeOf p d = some x → exec (.solveDone p) s =
      .next (after s (Sys2Proof.Machine.solveDone p d))) ∧
    (∀ (g : Fin 4) (v : W32) (w : Who), isUp POSi d → atS w = true → exec (.roverEnable g v w) s =
      .next (after s (rovEnable g v.toNat d))) ∧
    (∀ (r : Fin 128) (w : Who), isUp POSi d → atS w = true → exec (.rovrst r w) s =
      .next (after s (withPos (fun p => { p with resets := p.resets.filter (fun q => !([r.val].contains q)) ++ [r.val] }) d)))
      ∧
    (∀ (w : Who), isUp POSi d → atS w = true → on POS.SOLCTL.EN d = false → rotOk d = true → exec (.siteValid true w) s =
      .next (after s (wrB POS.SITECTL.VALID true d))) ∧
    (∀ (w : Who), isUp POSi d → atS w = true → on POS.SOLCTL.EN d = false → rotOk d = false → exec (.siteValid true w) s =
      .next (after s (wrB POS.SITECTL.REFUSED true d))) ∧
    (∀ (w : Who), isUp POSi d → atS w = true → on POS.SOLCTL.EN d = false → exec (.siteValid false w) s =
      .next (after s (wrB POS.SITECTL.VALID false d))) ∧
    (∀ (w : Who), isUp POSi d → atS w = true → on POS.SOLCTL.EN d = false → on POS.SITECTL.VALID d = true →
      exec (.solverEnable true w) s = .next (after s (resetRovers ((List.range 128).filter (fun r => roven r d)) (wrB
      POS.SOLCTL.EN true d)))) ∧
    (∀ (w : Who), isUp POSi d → atS w = true → on POS.SOLCTL.EN d = true → exec (.solverEnable false w) s =
      .next (after s (addTo POS.RECNOEN d.pos.store.length (wrB POS.SOLCTL.EN false (withPos (fun p => { p with store := [] })
      d)))))

/-- Commands of the reservation engine that succeed. The command waits at the head of SQ25. -/
def Obligations.TrackCommandsRun : Prop :=
  ∀ (s : State) (d y : Dev) (x : W64) (r : List W64) (own : Nat), d = start s → runs SCHi d = true →
      own = baseId s.fuses → y = hwTaken 25 d →
    (∀ (vs : List Resv) (k : Nat) (z : Dev), AsksTrack d 0x01 x r → z = permitSeen y → vs = permitLegs x r z →
      mslot (hMem x) z = some k → permitCheck own x r (membOf k z) vs z = none →
      vs.all (fun v => segOwner v.seg z == own) = true → exec .permit s =
      .next (after s (grant k (hPid x) (vs.getD 0 (legResv (hMem x) (sfNow z) 0)) (resvNews (vs.drop 1) z).1 (resvNews
      (vs.drop 1) z).2))) ∧
    (∀ (vs : List Resv) (k : Nat) (z : Dev), AsksTrack d 0x01 x r → z = permitSeen y → vs = permitLegs x r z →
      mslot (hMem x) z = some k → permitCheck own x r (membOf k z) vs z = none →
      vs.all (fun v => segOwner v.seg z == own) = false → vs.any (fun v => bit (Sys2Proof.Machine.rd SCH.TRKSTAT.PEERLOST z)
      (segOwner v.seg z)) = false → z.sch.cross.length < 16 → exec .permit s =
      .next (after s (holdOut own k (hMem x) (hPid x) vs r z))) ∧
    (∀ (k : Nat) (m : Memb), AsksTrack d 0x02 x r → r = [] → mslot (hMem x) y = some k → membOf k y = some m →
      m.lost = false → m.pid = hPid x → m.passed = 0 → exec .cancel s =
      .next (after s (Sys2Proof.Machine.cancel own x r y))) ∧
    (∀ (k : Nat) (m : Memb), AsksTrack d 0x03 x r → r = [] → mslot (hMem x) y = some k → membOf k y = some m →
      m.pid = hPid x → hLeg x < m.legs.length → exec .pass s =
      .next (after s (status x 0 (releases own k 32 (membSet k (some { m with passed := max m.passed (hLeg x + 1) }) y))))) ∧
    (∀ (k : Nat) (m : Memb), AsksTrack d 0x04 x r → r = [] → mslot (hMem x) y = some k → membOf k y = some m →
      m.cutDl.isSome = true → m.cutPid = hPid x → exec .cutack s =
      .next (after s (status x 0 (membSet k (some { m with cutDl := none }) y)))) ∧
    (∀ (k seg : Nat) (a : Resv) (z : Dev), AsksTrack d 0x05 x r → r.length = 1 → mslot (hMem x) y = none →
      freeIx 128 (fun k => (membOf k y).isSome) y = some k → z = drawn y → seg = bits (r.getD 0 0).toNat 48 14 →
      a = { enter := sfNow y, exit := 0, seg := seg, opn := true, mem := hMem x } → resvRoom 1 z = true →
      segValid seg z = true → firstConflict a z = none → exec .register s =
      .next (after s (status x 0 (membSet k (some
      { id := hMem x, foot := bits (r.getD 0 0).toNat 32 16, cap := (r.getD 0 0).toNat % 2 ^ 32, legs := [some (resvNew a z).1], testSf := sfNow (drawn y) })
      (resvNew a z).2)))) ∧
    (∀ (k : Nat) (m : Memb), AsksTrack d 0x06 x r → r = [] → mslot (hMem x) y = some k → membOf k y = some m →
      m.lost = false → moving m = false → m.cross = false → exec .deregister s =
      .next (after s (status x 0 (membSet k none (forAll (entries m) (entryGone own m.pid) y))))) ∧
    (∀ (k : Nat) (m : Memb), AsksTrack d 0x07 x r → r.length = 2 → mslot (hMem x) y = some k → membOf k y = some m →
      exec .query s = .next (after s (Sys2Proof.Machine.query x r y))) ∧
    (AsksTrack d 0x08 x r → r.length = 4 → exec .solin s = .next (after s (status x 0 (solutionItem own r y)))) ∧
    (∀ (k i : Nat) (m : Memb), AsksTrack d 0x09 x r → r.length = 1 → mslot (hMem x) y = some k → membOf k y = some m →
      m.lost = true → rejoined m.id y = true → frozenOn m (bits (r.getD 0 0).toNat 0 14) y = some i →
      segIndoor (bits (r.getD 0 0).toNat 0 14) y = true → exec .unfreeze s =
      .next (after s (status x 0 (Sys2Proof.Machine.unfreeze own k (bits (r.getD 0 0).toNat 0 14) y)))) ∧
    (∀ (k i : Nat) (m : Memb), AsksTrack d 0x09 x r → r.length = 1 → mslot (hMem x) y = some k → membOf k y = some m →
      m.lost = true → rejoined m.id y = true → frozenOn m (bits (r.getD 0 0).toNat 0 14) y = some i →
      segIndoor (bits (r.getD 0 0).toNat 0 14) y = false → exec .unfreeze s =
      .next (after s (membSet k (some { m with unfrz := some (bits (r.getD 0 0).toNat 0 14) }) y)))

/-- Peer packets of cross-cell permits. The packet stands at the head of SQ28. -/
def Obligations.PeerPacketsRun : Prop :=
  ∀ (s : State) (d y : Dev) (x : W64) (r : List W64) (own : Nat), d = start s → runs SCHi d = true →
      own = baseId s.fuses → y = hwTaken 28 d →
    (PeerSays d own 0x01 x r → holdCheck own (pSrc x) (pMem x) r y = none → exec .hold s =
      .next (after s (Sys2Proof.Machine.hold own x r y))) ∧
    (∀ (q : Refn), PeerSays d own 0x01 x r → holdCheck own (pSrc x) (pMem x) r y = some q → exec .hold s =
      .next (after s (peerOut own (pSrc x) 0x03 (pMem x) 0 (pPid x) [BitVec.ofNat 64 q.item] (drawn y)))) ∧
    (∀ (c : Cross), PeerSays d own 0x02 x r → crossOf x y = some c → c.commit = false → exec .holdOk s =
      .next (after s (Sys2Proof.Machine.holdOk own x r y))) ∧
    (∀ (c : Cross), PeerSays d own 0x03 x r → crossOf x y = some c → exec .holdRef s =
      .next (after s (abortCross own c
      { reason := 0x10, leg := bits (r.getD 0 0).toNat 8 6, hold := bits (r.getD 0 0).toNat 14 10, fgn := bit (r.getD 0 0).toNat 24, pid := (r.getD 0 0).toNat / 2 ^ 32 }
      y))) ∧
    (∀ (f : Fgn), PeerSays d own 0x04 x r → fgnFor x y = some f → f.done = true ∨ sfDiff (sfNow y) f.till < 0 →
      exec .commit s = .next (after s (commit_ own x r y))) ∧
    (∀ (f : Fgn), PeerSays d own 0x04 x r → fgnFor x y = some f → f.done = false → 0 ≤ sfDiff (sfNow y) f.till →
      exec .commit s = .next (after s (peerOut own (pSrc x) 0x06 (pMem x) 0 (pPid x) [] (inc SCH.HOLDEXP (fgnDrop f.ents
      y))))) ∧
    (∀ (c : Cross), PeerSays d own 0x05 x r → crossOf x y = some c → c.commit = true → exec .commitOk s =
      .next (after s (Sys2Proof.Machine.commitOk own x r y))) ∧
    (∀ (c : Cross), PeerSays d own 0x06 x r → crossOf x y = some c → exec .commitLate s =
      .next (after s (abortCross own c { reason := 0x10 } y))) ∧
    (∀ (f : Fgn), PeerSays d own 0x07 x r → fgnFor x y = some f → exec .abort s =
      .next (after s (fgnDrop (f.ents.filter (fun i => !isFrozen i y)) y))) ∧
    (PeerSays d own 0x08 x r → exec .release s = .next (after s (peerRelease x r y))) ∧
    (∀ (k : Nat) (m : Memb), PeerSays d own 0x09 x r → mslot (pMem x) y = some k → membOf k y = some m → exec .peerCut s =
      .next (after s (Sys2Proof.Machine.peerCut own x r y))) ∧
    (∀ (k : Nat), PeerSays d own 0x0A x r → mslot (pMem x) y = some k → exec .single s =
      .next (after s (peerSingle own x r y))) ∧
    (PeerSays d own 0x0B x r → exec .peerHb s = .next (after s (wrBit SCH.TRKSTAT.PEERLOST (pSrc x) false (withSch (fun s =>
      { s with peerSf := tset s.peerSf (pSrc x) (sfNow y + 1) 0, peerVer := tset s.peerVer (pSrc x) (pPid x) 0 }) y))))

/-- What the reservation engine does by itself, its controls and the auction engine. -/
def Obligations.TrackEventsRun : Prop :=
  ∀ (s : State) (d : Dev), d = start s →
    (∀ (p : Packet) (x : W64) (r : List W64), runs SCHi d = true → cmdsOpen d = true → hwPeek 25 d = some p → p.ecc = .clean →
      p.items = x :: r → hCode x = 0 ∨ 0x09 < hCode x → exec .trackCommandBad s =
      .next (after s (status x 0x01 (inc SCH.CMDBAD (hwTaken 25 d))))) ∧
    (∀ (e : Ecc), runs SCHi d = true → on SCH.TRKCTL.EN d = true → on SCH.TRKSTAT.INCONS d = false →
      d.sch.evalSf ≠ some (sfNow d) → e ≠ .double → exec (.trackEval e) s =
      .next (after s (Sys2Proof.Machine.trackEval (baseId s.fuses) e d))) ∧
    (runs SCHi d = true → on SCH.TRKCTL.EN d = true → on SCH.TRKSTAT.INCONS d = false → d.sch.evalSf ≠ some (sfNow d) →
      exec (.trackEval .double) s = .next (after s (wrB SCH.TRKSTAT.INCONS true d))) ∧
    (∀ (k : Fin 128) (m : Memb) (t : Nat), runs SCHi d = true → membOf k d = some m → m.cutDl = some t → m.cutTold = false →
      0 ≤ sfDiff (sfNow d) t → exec (.cutackTimeout k) s = .next (after s (Sys2Proof.Machine.single k 4 (membSet k (some
      { m with cutTold := true }) d)))) ∧
    (∀ (p : Packet), runs SCHi d = true → hwPeek 24 d = some p → p.ecc = .clean → exec .solutionItem s =
      .next (after s (Sys2Proof.Machine.solutionItem (baseId s.fuses) p.items (hwTaken 24 d)))) ∧
    (∀ (k : Fin 128) (m : Memb), runs SCHi d = true → membOf k d = some m → on SCH.TRKCTL.NOFIXEN d = true → moving m = true →
      (currentSegs m d).any (fun s => !segIndoor s d) = true → (d.sch.times.nofix : Int) ≤ sfDiff (sfNow d) m.testSf →
      exec (.nofixTimeout k) s = .next (after s (Sys2Proof.Machine.single k 2 d))) ∧
    (∀ (p : Packet) (k : Nat), runs SCHi d = true → hwPeek 18 d = some p →
      mslot ((p.items.getD 0 0).toNat % 1024) (hwTaken 18 d) = some k → exec .memberLost s =
      .next (after s (trackLost (baseId s.fuses) d))) ∧
    (∀ (p : Packet), runs SCHi d = true → hwPeek 19 d = some p → exec (.operatorRelease true) s =
      .next (after s (Sys2Proof.Machine.operatorRelease (baseId s.fuses) d))) ∧
    (∀ (r : Req), runs SECi d = true → nextReq d = some r → r.secure = false → r.code = 0x4C →
      (reqRelease r s.fuses d).st = sOk → exec (.operatorRelease false) s =
      .next (both s (served r (reqRelease r s.fuses d)))) ∧
    (runs SCHi d = true → d.sch.hbSf = 0 ∨ (Sys2Proof.Machine.rd SCH.PHBPER d : Int) ≤ sfDiff (sfNow d) (d.sch.hbSf - 1) →
      exec .peerHbSend s = .next (after s (Sys2Proof.Machine.peerHbSend (baseId s.fuses) d))) ∧
    (∀ (f : Fgn), runs SCHi d = true → d.sch.fgn.find? (fun f => !f.done && decide (0 ≤ sfDiff (sfNow d) f.till)) = some f →
      exec .holdExpiry s = .next (after s (inc SCH.HOLDEXP (fgnDrop f.ents d)))) ∧
    (∀ (c : Cross), runs SCHi d = true → d.sch.fgn.find? (fun f => !f.done && decide (0 ≤ sfDiff (sfNow d) f.till)) = none →
      d.sch.cross.find? (fun c => decide ((d.sch.times.holdTo : Int) ≤ sfDiff (sfNow d) c.asked)) = some c →
      exec .holdExpiry s = .next (after s (abortCross (baseId s.fuses) c { reason := 0x11 } d))) ∧
    (∀ (b : Fin 8), runs SCHi d = true → b.val ≠ baseId s.fuses → bit (Sys2Proof.Machine.rd SCH.PEERMASK d) b = true →
      bit (Sys2Proof.Machine.rd SCH.TRKSTAT.PEERLOST d) b = false →
      tget d.sch.peerSf b 0 = 0 ∨ (Sys2Proof.Machine.rd SCH.PHBTO d : Int) ≤ sfDiff (sfNow d) (tget d.sch.peerSf b 0 - 1) →
      exec (.peerLost b) s = .next (after s (Sys2Proof.Machine.peerLost (baseId s.fuses) b d))) ∧
    (∀ (p : Packet), runs SCHi d = true → hwPeek 28 d = some p → p.ecc = .clean → pDst (p.items.getD 0 0) ≠ baseId s.fuses →
      exec .peerPacketBad s = .next (after s (hwTaken 28 d))) ∧
    (∀ (p : Packet), runs SCHi d = true → hwPeek 28 d = some p → p.ecc = .clean → pDst (p.items.getD 0 0) = baseId s.fuses →
      pTyp (p.items.getD 0 0) = 0 ∨ 0x0B < pTyp (p.items.getD 0 0) → exec .peerPacketBad s =
      .next (after s (inc SCH.CMDBAD (hwTaken 28 d)))) ∧
    (runs SCHi d = true → exec .reportQueueRoom s = .next (after s (reportRoom d))) ∧
    (∀ (v : Bool) (w : Who), isUp SCHi d → atS w = true → exec (.trkctlEn v w) s = .next (after s (wrB SCH.TRKCTL.EN v d))) ∧
    (∀ (off : BitVec 20) (v : W32) (w : Who), isUp SCHi d → atS w = true → off.toNat < 0xA0000 → off.toNat % 4 = 0 →
      on SCH.TRKCTL.EN d = false → exec (.graphWrite off v w) s =
      .next (after s (withSch (fun q =>
      { q with sram := ((leBytes 4 v.toNat).zipIdx).foldl (fun t e => tset t (off.toNat + e.2) (BitVec.ofNat 8 e.1) 0) q.sram })
      d))) ∧
    (∀ (w : Who), isUp SCHi d → atS w = true → on SCH.AUCTSTAT.BUSY d = false → exec (.auctionStart w) s =
      .next (after s (auctStart d))) ∧
    (∀ (w : Who), isUp SCHi d → atS w = true → on SCH.AUCTSTAT.BUSY d = true → exec (.auctionAbort w) s =
      .next (after s (auctEnd 3 d))) ∧
    (∀ (asg : List (BitVec 16)) (prices : List W64) (l : List Nat) (p : List Int) (e : Dev), runs SCHi d = true →
      on SCH.AUCTSTAT.BUSY d = true → auctLate d = false → auctReach true d = (true, e) → auctOk e = true →
      l = asg.map BitVec.toNat → p = prices.map BitVec.toInt → assigned l e = true →
      withinBound l p (epsAt e (phases e - 1)) e = true → exec (.auctionDone asg prices) s =
      .next (after s (auctEnd 1 (auctWrite l p (epsAt e (phases e - 1)) (phases e) e)))) ∧
    (∀ (ph : BitVec 8) (asg : List (BitVec 16)) (prices : List W64) (l : List Nat) (p : List Int) (e : Dev),
      runs SCHi d = true → on SCH.AUCTSTAT.BUSY d = true → auctLate d = true → ph.toNat ≠ 0 → auctReach true d = (true, e) →
      auctOk e = true → l = asg.map BitVec.toNat → p = prices.map BitVec.toInt → ph.toNat < phases e → assigned l e = true →
      withinBound l p (epsAt e (ph.toNat - 1)) e = true → exec (.auctionTimeout ph asg prices) s =
      .next (after s (auctEnd 2 (auctWrite l p (epsAt e (ph.toNat - 1)) ph.toNat e)))) ∧
    (∀ (ph : BitVec 8) (asg : List (BitVec 16)) (prices : List W64) (e : Dev), runs SCHi d = true →
      on SCH.AUCTSTAT.BUSY d = true → auctLate d = true → ph.toNat = 0 → auctReach false d = (true, e) → auctOk e = true →
      exec (.auctionTimeout ph asg prices) s = .next (after s (auctEnd 2 e))) ∧
    (∀ (asg : List (BitVec 16)) (prices : List W64) (e : Dev), runs SCHi d = true → on SCH.AUCTSTAT.BUSY d = true →
      auctLate d = false → auctReach true d = (false, e) → exec (.auctionDone asg prices) s = .next (after s (auctEnd 4 e)))

/-- Commands below the level their register is reserved to change nothing; a read of theirs shows 0. -/
def Obligations.LevelRefused : Prop :=
  ∀ (s : State) (d : Dev), d = start s →
    (∀ (v : W32) (w : Who), atS w = false → exec (.appHeartbeat v w) s = .next (after s d)) ∧
    (∀ (v : W64) (w : Who), atS w = false → exec (.zgrantWrite v w) s = .next (after s d)) ∧
    (∀ (m : BitVec 10) (w : Who), atS w = false → exec (.unsingle m w) s = .next (after s d)) ∧
    (∀ (cause : Byte) (w : Who), atS w = false → exec (.pmctlGstop cause w) s = .next (after s d)) ∧
    (∀ (w : Who), atS w = false → exec (.full w) s = .next (after s d)) ∧
    (∀ (w : Who), atM w = false → exec (.gracereq w) s = .next (after s d)) ∧
    (∀ (v : W32) (w : Who), atS w = false → exec (.basebandEnable v w) s = .next (after s d)) ∧
    (∀ (c0 : Fin 24) (prn : BitVec 6) (w : Who), atS w = false → exec (.channelPin c0 prn w) s = .next (after s d)) ∧
    (∀ (c0 : Fin 24) (rel : Bool) (w : Who), atS w = false → exec (.channelRelease c0 rel w) s = .next (after s d)) ∧
    (∀ (v : Bool) (w : Who), atS w = false → exec (.ionoValid v w) s = .next (after s d)) ∧
    (∀ (v : Bool) (w : Who), atS w = false → exec (.basePositionValid v w) s = .next (after s d)) ∧
    (∀ (g : Fin 4) (v : W32) (w : Who), atS w = false → exec (.roverEnable g v w) s = .next (after s d)) ∧
    (∀ (r : Fin 128) (w : Who), atS w = false → exec (.rovrst r w) s = .next (after s d)) ∧
    (∀ (v : Bool) (w : Who), atS w = false → exec (.siteValid v w) s = .next (after s d)) ∧
    (∀ (v : Bool) (w : Who), atS w = false → exec (.solverEnable v w) s = .next (after s d)) ∧
    (∀ (v : Bool) (w : Who), atS w = false → exec (.trkctlEn v w) s = .next (after s d)) ∧
    (∀ (off : BitVec 20) (v : W32) (w : Who), atS w = false → exec (.graphWrite off v w) s = .next (after s d)) ∧
    (∀ (w : Who), atS w = false → exec (.auctionStart w) s = .next (after s d)) ∧
    (∀ (w : Who), atS w = false → exec (.auctionAbort w) s = .next (after s d)) ∧
    (∀ (v : Bool) (w : Who), atS w = false → exec (.cycenWrite v w) s = .next (after s d)) ∧
    (∀ (v : Bool) (w : Who), atS w = false → exec (.ringenWrite v w) s = .next (after s d)) ∧
    (∀ (p : Fin 16) (v : W32) (e : Ecc) (w : Who), atS w = false → exec (.progtabWrite p v e w) s = .next (after s d)) ∧
    (∀ (x : Fin 4096) (v : W32) (w : Who), atS w = false → exec (.pmemWrite x v w) s = .next (after s d)) ∧
    (∀ (v : Bool) (w : Who), atS w = false → exec (.ctlctlEn v w) s = .next (after s d)) ∧
    (∀ (b : Fin 64) (w : Who), atS w = false → exec (.lbcfgReset b w) s = .next (after s d)) ∧
    (∀ (a : Fin 48) (m : Fin 4) (w : Who), atS w = false → exec (.modereq a m w) s = .next (after s d)) ∧
    (∀ (a : Fin 48) (w : Who), atS w = false → exec (.enable a w) s = .next (after s d)) ∧
    (∀ (a : Fin 48) (w : Who), atS w = false → exec (.disable a w) s = .next (after s d)) ∧
    (∀ (a : Fin 48) (w : Who), atS w = false → exec (.move a w) s = .next (after s d)) ∧
    (∀ (a : Fin 48) (w : Who), atS w = false → exec (.jog a w) s = .next (after s d)) ∧
    (∀ (a : Fin 48) (w : Who), atS w = false → exec (.stop a w) s = .next (after s d)) ∧
    (∀ (a : Fin 48) (w : Who), atS w = false → exec (.home a w) s = .next (after s d)) ∧
    (∀ (a : Fin 48) (w : Who), atS w = false → exec (.frst a w) s = .next (after s d)) ∧
    (∀ (ev : Byte) (v : W32) (w : Who), atS w = false → exec (.evcfgEn ev v w) s = .next (after s d)) ∧
    (∀ (v : Byte) (w : Who), atM w = false → tiesDone s.pending d = d → exec (.cfenceWrite v w) s = .next (after s d)) ∧
    (∀ (v : Bool) (w : Who), atM w = false → exec (.dfctlEn v w) s = .next (after s d)) ∧
    (∀ (hi : W32) (w : Who), atS w = false → exec (.tlbinv hi w) s = .next (after s d)) ∧
    (∀ (v : Bool) (w : Who), atM w = false → exec (.poolen v w) s = .next (after s d)) ∧
    (∀ (w : Who), atS w = false → exec (.pooltake w) s = .next (after s d)) ∧
    (∀ (f : BitVec 28) (w : Who), atS w = false → exec (.poolgive f w) s = .next (after s d)) ∧
    (∀ (f : BitVec 28) (w : Who), atS w = false → exec (.memRetire f w) s = .next (after s d)) ∧
    (∀ (w : Who), atM w = false → exec (.retcntClear w) s = .next (after s d)) ∧
    (∀ (c0 : Fin 32) (level : Fin 4) (w : Who), atS w = false → exec (.dmaStart c0 level w) s = .next (after s d)) ∧
    (∀ (c0 : Fin 32) (w : Who), atS w = false → exec (.dmaResume c0 w) s = .next (after s d)) ∧
    (∀ (c0 : Fin 32) (w : Who), atS w = false → exec (.dmaSkip c0 w) s = .next (after s d)) ∧
    (∀ (c0 : Fin 32) (w : Who), atS w = false → exec (.dmaAbort c0 w) s = .next (after s d)) ∧
    (∀ (enter : Bool) (w : Who), atM w = false → exec (.leave enter w) s = .next (after s d)) ∧
    (∀ (w : Who), atM w = false → exec (.enter w) s = .next (after s d)) ∧
    (∀ (key : Byte) (w : Who), atM w = false → exec (.wrm key w) s = .next (after s d)) ∧
    (∀ (isl : Fin 16) (key : Byte) (w : Who), atM w = false → exec (.islgo isl key w) s = .next (after s d)) ∧
    (∀ (w : Who), atM w = false → exec (.appIslandReset w) s = .next (after s d)) ∧
    (∀ (v : W32) (w : Who), atS w = false → exec (.wdkick v w) s = .next (after s d)) ∧
    (∀ (v : W32) (w : Who), atM w = false → exec (.wdctlWrite v w) s = .next (after s d)) ∧
    (∀ (w : Who), atM w = false → exec (.standby w) s = .next (after s d)) ∧
    (∀ (w : Who), atM w = false → exec (.hibernate w) s = .next (after s d)) ∧
    (∀ (w : Who), atM w = false → exec (.capture w) s = .next (after s d)) ∧
    (∀ (w : Who), atS w = false → exec (.dumpClear w) s = .next (after s d)) ∧
    (∀ (b : Fin 32) (w : Who), atM w = false → exec (.critstatClear b w) s = .next (after s d)) ∧
    (∀ (q : Fin 48) (hi : W32) (w : Who), lvlOk (qAtM q) w = false → exec (.queuePush q hi w) s = .next (after s d)) ∧
    (∀ (q : Fin 48) (e : Ecc) (w : Who), lvlOk (qAtM q) w = false → exec (.queuePop q e w) s =
      .next (after s ({ d with rdata := 0 }))) ∧
    (∀ (n : Fin 128) (r : Fin 16) (w : Who), lvlOk false w = false → exec (.lockWrite n r w) s = .next (after s d)) ∧
    (∀ (n : Fin 128) (w : Who), lvlOk true w = false → exec (.lockfree n w) s = .next (after s d)) ∧
    (∀ (f : Fin 16) (w : Who), lvlOk (decide (f.val < 8)) w = false → exec (.take f w) s =
      .next (after s ({ d with rdata := 0 })))

/-- While an island is down, or a core does not issue, what is commanded of it changes nothing; a read shows 0. -/
def Obligations.DownUnchanged : Prop :=
  ∀ (s : State) (d : Dev), d = start s →
    (isUp AONi d = false →
      (∀ (a : Fin 5) (b : Fin 5), exec (.portPowerLoss a b) s = .next (after s d)) ∧
      (∀ (w : Who), exec (.restore w) s = .next (after s d)) ∧
      (∀ (rail : Bool), exec (.brownOut rail) s = .next (after s d)) ∧
      (exec .tsnap s = .next (after s d)) ∧
      (∀ (onWall : Bool), exec (.rarm onWall) s = .next (after s d)) ∧
      (∀ (onWall : Bool), exec (.rateChange onWall) s = .next (after s d)) ∧
      (∀ (src : Fin 4) (fw : Bool) (amt : W64), exec (.wallCorrection src fw amt) s = .next (after s d)) ∧
      (exec .slewEnd s = .next (after s d)) ∧
      (exec .stepacc s = .next (after s d)) ∧
      (exec .wallHoldover s = .next (after s d)) ∧
      (∀ (src : Fin 4), exec (.srcChange src) s = .next (after s d)) ∧
      (exec .cycleFollow s = .next (after s d)) ∧
      (∀ (v : Bool), exec (.stepenWrite v) s = .next (after s d)) ∧
      (∀ (v : W64), exec (.coffWrite v) s = .next (after s d)) ∧
      (∀ (n : Fin 16) (v : W32), exec (.trigctlWrite n v) s = .next (after s d)) ∧
      (∀ (n : Fin 16), exec (.triggerFire n) s = .next (after s d)) ∧
      (exec .tpulseRise s = .next (after s d)) ∧
      (exec .tpulseFall s = .next (after s d)) ∧
      (∀ (port : Fin 2) (link : Fin 3), exec (.portLinkChange port link) s = .next (after s d)) ∧
      (exec .aonStartDone s = .next (after s d)) ∧
      (∀ (key : Byte) (w : Who), exec (.wrm key w) s = .next (after s d)) ∧
      (∀ (isl : Fin 16) (key : Byte) (w : Who), exec (.islgo isl key w) s = .next (after s d)) ∧
      (∀ (isl : Fin 9), exec (.islandRelease isl) s = .next (after s d)) ∧
      (∀ (w : Who), exec (.appIslandReset w) s = .next (after s d)) ∧
      (exec .tmp s = .next (after s d)) ∧
      (∀ (v : W32) (w : Who), exec (.wdkick v w) s = .next (after s d)) ∧
      (∀ (v : W32) (w : Who), exec (.wdctlWrite v w) s = .next (after s d)) ∧
      (exec .watchdogExpiry s = .next (after s d)) ∧
      (exec .secWatchdog s = .next (after s d)) ∧
      (∀ (w : Who), exec (.standby w) s = .next (after s d)) ∧
      (∀ (w : Who), exec (.hibernate w) s = .next (after s d)) ∧
      (∀ (src : Fin 18) (f : Option PortFrame) (puf : BitVec 3570), exec (.standbyWake src f puf) s = .next (after s d)) ∧
      (∀ (src : Fin 18), exec (.hibernateWake src) s = .next (after s d)) ∧
      (exec .captureDone s = .next (after s d)) ∧
      (∀ (w : Who), exec (.dumpClear w) s = .next (after s d)) ∧
      (∀ (src : Fin 5) (keyop : Option Byte), exec (.tamper src keyop) s = .next (after s d)) ∧
      (exec .lichenRecord s = .next (after s d)) ∧
      (exec .lichenWriteDone s = .next (after s d)) ∧
      (exec .lichenScan s = .next (after s d)) ∧
      (∀ (b : Option (Fin 256)), exec (.bucketRefill b) s = .next (after s d))) ∧
    (isUp AONi d = false →
      (∀ (idx : BitVec 21) (w : Who), exec (.lichenRead idx w) s = .next (after s d)) ∧
      (exec .digestReady s = .next (after s d)) ∧
      (exec .blockEraseDone s = .next (after s d)) ∧
      (∀ (isl : Fin 9) (bad : Bool), exec (.clockFault isl bad) s = .next (after s d)) ∧
      (∀ (isl : Fin 9) (bad : Bool), exec (.railFault isl bad) s = .next (after s d)) ∧
      (∀ (ok_ : Bool), exec (.tcxoCheck ok_) s = .next (after s d)) ∧
      (exec .rateLearned s = .next (after s d))) ∧
    (isUp SECi d = false →
      (∀ (chB : Bool) (closed : Bool), exec (.j6FilterChange chB closed) s = .next (after s d)) ∧
      (∀ (chB : Bool) (own : Bool) (other : Bool) (before : Bool) (after0 : Bool),
        exec (.testWindowCheck chB own other before after0) s = .next (after s d)) ∧
      (exec .stopDiscrepancy s = .next (after s d)) ∧
      (exec .permitStuck s = .next (after s d)) ∧
      (exec .permitOvld s = .next (after s d)) ∧
      (exec .tpulseOvld s = .next (after s d)) ∧
      (∀ (w : Who), exec (.povclr w) s = .next (after s d)) ∧
      (∀ (w : Who), exec (.tpovclr w) s = .next (after s d)) ∧
      (∀ (v : Bool) (w : Who), exec (.tpen v w) s = .next (after s d)) ∧
      (∀ (flt : Option HalfFault), exec (.decisionInstant flt) s = .next (after s d)) ∧
      (∀ (flt : Option HalfFault), exec (.grantEval flt) s = .next (after s d)) ∧
      (∀ (v : W32) (w : Who), exec (.appHeartbeat v w) s = .next (after s d)) ∧
      (∀ (e : Ecc), exec (.schHeartbeat e) s = .next (after s d)) ∧
      (∀ (v : W64) (w : Who), exec (.zgrantWrite v w) s = .next (after s d)) ∧
      (∀ (m : BitVec 10) (w : Who), exec (.unsingle m w) s = .next (after s d)) ∧
      (∀ (cause : Byte) (w : Who), exec (.pmctlGstop cause w) s = .next (after s d)) ∧
      (∀ (w : Who), exec (.full w) s = .next (after s d)) ∧
      (∀ (w : Who), exec (.gracereq w) s = .next (after s d)) ∧
      (exec .graceLapse s = .next (after s d)) ∧
      (exec .graceTimeout s = .next (after s d)) ∧
      (∀ (c0 : Fin 144) (nxt : Bool), exec (.bkey c0 nxt) s = .next (after s d)) ∧
      (∀ (e : Ecc), exec (.fixqReport e) s = .next (after s d)) ∧
      (∀ (puf : BitVec 3570), exec (.sporeReady puf) s = .next (after s d)) ∧
      (∀ (puf : BitVec 3570), exec (.sporeRetry puf) s = .next (after s d)) ∧
      (∀ (enter : Bool) (w : Who), exec (.leave enter w) s = .next (after s d)) ∧
      (∀ (w : Who), exec (.enter w) s = .next (after s d)) ∧
      (exec .beaconKeySwitch s = .next (after s d)) ∧
      (exec .nonceExpiry s = .next (after s d)) ∧
      (exec .answerDrop s = .next (after s d)) ∧
      (exec .keyMaskRedraw s = .next (after s d)) ∧
      (exec .drbgFail s = .next (after s d)) ∧
      (exec .debugClosed s = .next (after s d)) ∧
      (∀ (e : Ecc), exec (.beaconReport e) s = .next (after s d)) ∧
      (exec .beaconReportMissing s = .next (after s d)) ∧
      (∀ (b : Fin 32) (w : Who), exec (.critstatClear b w) s = .next (after s d))) ∧
    (isUp POSi d = false →
      (∀ (cur : Byte), exec (.antFault cur) s = .next (after s d)) ∧
      (∀ (cur : Byte), exec (.biasRetry cur) s = .next (after s d)) ∧
      (∀ (v : W32) (w : Who), exec (.basebandEnable v w) s = .next (after s d)) ∧
      (∀ (c0 : Fin 24) (prn : BitVec 6) (w : Who), exec (.channelPin c0 prn w) s = .next (after s d)) ∧
      (∀ (c0 : Fin 24) (rel : Bool) (w : Who), exec (.channelRelease c0 rel w) s = .next (after s d)) ∧
      (∀ (v : Bool) (w : Who), exec (.ionoValid v w) s = .next (after s d)) ∧
      (∀ (v : Bool) (w : Who), exec (.basePositionValid v w) s = .next (after s d)) ∧
      (∀ (g : Fin 4) (v : W32) (w : Who), exec (.roverEnable g v w) s = .next (after s d)) ∧
      (∀ (r : Fin 128) (w : Who), exec (.rovrst r w) s = .next (after s d)) ∧
      (∀ (v : Bool) (w : Who), exec (.siteValid v w) s = .next (after s d)) ∧
      (∀ (v : Bool) (w : Who), exec (.solverEnable v w) s = .next (after s d))) ∧
    (isUp RADi d = false →
      (∀ (skew : Bool), exec (.superframeStart skew) s = .next (after s d)) ∧
      (∀ (c0 : Fin 144), exec (.connectionEvent c0) s = .next (after s d)) ∧
      (∀ (c0 : Fin 144) (frame : List Byte) (acc : Fin 33) (pair : Bool) (rssi : Byte) (off : W32),
        exec (.frameReceive c0 frame acc pair rssi off) s = .next (after s d)) ∧
      (exec .txPacket s = .next (after s d)) ∧
      (∀ (l : Fin 4) (bcn : Bool) (v : W32), exec (.txpwrWrite l bcn v) s = .next (after s d)) ∧
      (∀ (r : DwellReg) (v : W32), exec (.dwellLimitWrite r v) s = .next (after s d)) ∧
      (∀ (v : W32), exec (.rejoinchWrite v) s = .next (after s d)) ∧
      (exec .mapctlArm s = .next (after s d)) ∧
      (∀ (c0 : Fin 144) (term : Bool), exec (.arm c0 term) s = .next (after s d)) ∧
      (∀ (c0 : Fin 144), exec (.updarm c0) s = .next (after s d)) ∧
      (∀ (c0 : Fin 144), exec (.term c0) s = .next (after s d)) ∧
      (∀ (c0 : Fin 144), exec (.updateInstant c0) s = .next (after s d)) ∧
      (∀ (c0 : Fin 144), exec (.linkLost c0) s = .next (after s d)) ∧
      (∀ (c0 : Fin 144), exec (.joiningTimeout c0) s = .next (after s d)) ∧
      (∀ (l : Fin 4), exec (.joinEvent l) s = .next (after s d)) ∧
      (∀ (l : Fin 4) (frame : List Byte) (ctr : W32) (pair : Bool) (rssi : Byte), exec (.joinReq l frame ctr pair rssi) s =
        .next (after s d)) ∧
      (∀ (l : Fin 4) (v : Bool), exec (.fence l v) s = .next (after s d)) ∧
      (∀ (r0 : Option Byte) (r1 : Option Byte) (r2 : Option Byte) (r3 : Option Byte), exec (.loopbackCheck r0 r1 r2 r3) s =
        .next (after s d)) ∧
      (∀ (e : Ecc), exec (.tokenDelivery e) s = .next (after s d)) ∧
      (∀ (cause : Byte) (via : StopVia), exec (.globalStopRequest cause via) s = .next (after s d)) ∧
      (∀ (z : Fin 64) (via : StopVia), exec (.zoneStop z via) s = .next (after s d)) ∧
      (∀ (m : BitVec 10) (z : Fin 64) (via : StopVia), exec (.singleMember m z via) s = .next (after s d))) ∧
    (isUp CTLi d = false →
      (∀ (e : Ecc), exec (.decisionSnapshot e) s = .next (after s d)) ∧
      (exec .inputHandoff s = .next (after s d)) ∧
      (∀ (e : Ecc), exec (.programStart e) s = .next (after s d)) ∧
      (exec .cycleDeadline s = .next (after s d)) ∧
      (∀ (p : Fin 16) (v : W32) (e : Ecc) (w : Who), exec (.progtabWrite p v e w) s = .next (after s d)) ∧
      (∀ (x : Fin 4096) (v : W32) (w : Who), exec (.pmemWrite x v w) s = .next (after s d)) ∧
      (∀ (v : Bool) (w : Who), exec (.ctlctlEn v w) s = .next (after s d)) ∧
      (∀ (b : Fin 64) (w : Who), exec (.lbcfgReset b w) s = .next (after s d)) ∧
      (∀ (a : Fin 48) (m : Fin 4) (w : Who), exec (.modereq a m w) s = .next (after s d)) ∧
      (∀ (d0 : Fin 64) (a : Fin 64) (b : Fin 64), exec (.ctlEnd d0 a b) s = .next (after s d)) ∧
      (∀ (d0 : Fin 64) (a : Fin 64) (b : Fin 64), exec (.ctlMov d0 a b) s = .next (after s d)) ∧
      (∀ (d0 : Fin 64) (imm : BitVec 20), exec (.ctlLdk d0 imm) s = .next (after s d)) ∧
      (∀ (d0 : Fin 64) (cell : BitVec 12) (e : Ecc), exec (.ctlLd d0 cell e) s = .next (after s d)) ∧
      (∀ (d0 : Fin 64) (cell : BitVec 12), exec (.ctlSt d0 cell) s = .next (after s d)) ∧
      (∀ (d0 : Fin 64) (m : Fin 64) (off : Fin 64) (ty : Fin 8) (bt : Fin 32), exec (.ctlIn d0 m off ty bt) s =
        .next (after s d)) ∧
      (∀ (d0 : Fin 64) (m : Fin 64) (off : Fin 64) (ty : Fin 8) (bt : Fin 32), exec (.ctlOut d0 m off ty bt) s =
        .next (after s d)) ∧
      (∀ (d0 : Fin 64) (a : Fin 64) (b : Fin 64), exec (.ctlAdd d0 a b) s = .next (after s d)) ∧
      (∀ (d0 : Fin 64) (a : Fin 64) (b : Fin 64), exec (.ctlSub d0 a b) s = .next (after s d)) ∧
      (∀ (d0 : Fin 64) (a : Fin 64) (b : Fin 64), exec (.ctlMul d0 a b) s = .next (after s d)) ∧
      (∀ (d0 : Fin 64) (a : Fin 64) (b : Fin 64), exec (.ctlMad d0 a b) s = .next (after s d)) ∧
      (∀ (d0 : Fin 64) (a : Fin 64) (b : Fin 64), exec (.ctlDiv d0 a b) s = .next (after s d)) ∧
      (∀ (d0 : Fin 64) (a : Fin 64) (b : Fin 64), exec (.ctlSqrt d0 a b) s = .next (after s d)) ∧
      (∀ (d0 : Fin 64) (a : Fin 64) (b : Fin 64), exec (.ctlMin d0 a b) s = .next (after s d)) ∧
      (∀ (d0 : Fin 64) (a : Fin 64) (b : Fin 64), exec (.ctlMax d0 a b) s = .next (after s d)) ∧
      (∀ (d0 : Fin 64) (a : Fin 64) (b : Fin 64), exec (.ctlAbs d0 a b) s = .next (after s d)) ∧
      (∀ (d0 : Fin 64) (a : Fin 64) (b : Fin 64), exec (.ctlNeg d0 a b) s = .next (after s d)) ∧
      (∀ (d0 : Fin 64) (a : Fin 64) (b : Fin 64), exec (.ctlClt d0 a b) s = .next (after s d)) ∧
      (∀ (d0 : Fin 64) (a : Fin 64) (b : Fin 64), exec (.ctlCle d0 a b) s = .next (after s d)) ∧
      (∀ (d0 : Fin 64) (a : Fin 64) (b : Fin 64), exec (.ctlCeq d0 a b) s = .next (after s d)) ∧
      (∀ (d0 : Fin 64) (a : Fin 64) (b : Fin 64), exec (.ctlSel d0 a b) s = .next (after s d)) ∧
      (∀ (a : Fin 64) (n : Fin 64), exec (.ctlSkz a n) s = .next (after s d)) ∧
      (∀ (a : Fin 64) (n : Fin 64), exec (.ctlSknz a n) s = .next (after s d)) ∧
      (∀ (k : Fin 64) (ph : Fin 64) (n : Fin 64), exec (.ctlEvery k ph n) s = .next (after s d)) ∧
      (∀ (d0 : Fin 64) (a : Fin 64) (b : Fin 64) (u : Fin 64) (h : Bool) (e : Ecc), exec (.ctlPidstep d0 a b u h e) s =
        .next (after s d)) ∧
      (∀ (d0 : Fin 64) (a : Fin 64) (b : Fin 64) (u : Fin 64) (e : Ecc), exec (.ctlFilt2 d0 a b u e) s = .next (after s d)) ∧
      (∀ (d0 : Fin 64) (a : Fin 64) (b : Fin 64), exec (.ctlLimit d0 a b) s = .next (after s d)) ∧
      (∀ (d0 : Fin 64) (a : Fin 64) (b : Fin 64) (u : Fin 64) (e : Ecc), exec (.ctlFfapply d0 a b u e) s =
        .next (after s d)) ∧
      (∀ (d0 : Fin 64) (a : Fin 64) (b : Fin 64) (u : Fin 48), exec (.ctlProfile d0 a b u) s = .next (after s d)) ∧
      (∀ (d0 : Fin 64) (a : Fin 64) (b : Fin 64) (u : Fin 48), exec (.ctlLoadang d0 a b u) s = .next (after s d)) ∧
      (∀ (d0 : Fin 64) (a : Fin 64) (b : Fin 64) (u : Fin 48), exec (.ctlModesw d0 a b u) s = .next (after s d))) ∧
    (isUp CTLi d = false →
      (∀ (a : Fin 48) (w : Who), exec (.enable a w) s = .next (after s d)) ∧
      (∀ (a : Fin 48) (w : Who), exec (.disable a w) s = .next (after s d)) ∧
      (∀ (a : Fin 48) (w : Who), exec (.move a w) s = .next (after s d)) ∧
      (∀ (a : Fin 48) (w : Who), exec (.jog a w) s = .next (after s d)) ∧
      (∀ (a : Fin 48) (w : Who), exec (.stop a w) s = .next (after s d)) ∧
      (∀ (a : Fin 48) (w : Who), exec (.home a w) s = .next (after s d)) ∧
      (∀ (a : Fin 48) (w : Who), exec (.frst a w) s = .next (after s d)) ∧
      (∀ (a : Fin 48), exec (.idlePowerdown a) s = .next (after s d))) ∧
    (runs POSi d = false →
      (∀ (peak : W32) (noise : W32) (lane : Fin 64), exec (.acqDwell peak noise lane) s = .next (after s d)) ∧
      (∀ (c0 : Fin 24), exec (.pllHandover c0) s = .next (after s d)) ∧
      (∀ (c0 : Fin 24), exec (.pullinTimeout c0) s = .next (after s d)) ∧
      (∀ (c0 : Fin 24), exec (.bitSync c0) s = .next (after s d)) ∧
      (∀ (c0 : Fin 24), exec (.frameSync c0) s = .next (after s d)) ∧
      (∀ (c0 : Fin 24), exec (.carrierLoss c0) s = .next (after s d)) ∧
      (∀ (c0 : Fin 24), exec (.codeLoss c0) s = .next (after s d)) ∧
      (∀ (c0 : Fin 24), exec (.reacqTimeout c0) s = .next (after s d)) ∧
      (∀ (c0 : Fin 24) (word : BitVec 30), exec (.navWord c0 word) s = .next (after s d)) ∧
      (∀ (m : List Meas), exec (.measLatch m) s = .next (after s d)) ∧
      (exec .epochRecordComplete s = .next (after s d)) ∧
      (exec .timeCorrection s = .next (after s d)) ∧
      (exec .keepUpdate s = .next (after s d)) ∧
      (exec .recordIn s = .next (after s d)) ∧
      (exec .recordDispatch s = .next (after s d)) ∧
      (exec .recordWaitEnd s = .next (after s d)) ∧
      (∀ (p : Fin 4), exec (.solveDone p) s = .next (after s d))) ∧
    (runs SCHi d = false →
      (exec .permit s = .next (after s d)) ∧
      (exec .cancel s = .next (after s d)) ∧
      (exec .pass s = .next (after s d)) ∧
      (exec .cutack s = .next (after s d)) ∧
      (exec .register s = .next (after s d)) ∧
      (exec .deregister s = .next (after s d)) ∧
      (exec .query s = .next (after s d)) ∧
      (exec .solin s = .next (after s d)) ∧
      (exec .unfreeze s = .next (after s d)) ∧
      (exec .trackCommandBad s = .next (after s d)) ∧
      (∀ (e : Ecc), exec (.trackEval e) s = .next (after s d)) ∧
      (∀ (k : Fin 128), exec (.cutackTimeout k) s = .next (after s d)) ∧
      (exec .solutionItem s = .next (after s d)) ∧
      (∀ (k : Fin 128), exec (.nofixTimeout k) s = .next (after s d)) ∧
      (exec .memberLost s = .next (after s d)) ∧
      (exec .hold s = .next (after s d)) ∧
      (exec .holdOk s = .next (after s d)) ∧
      (exec .holdRef s = .next (after s d)) ∧
      (exec .commit s = .next (after s d)) ∧
      (exec .commitOk s = .next (after s d)) ∧
      (exec .commitLate s = .next (after s d)) ∧
      (exec .abort s = .next (after s d)) ∧
      (exec .release s = .next (after s d)) ∧
      (exec .peerCut s = .next (after s d)) ∧
      (exec .single s = .next (after s d)) ∧
      (exec .peerHb s = .next (after s d)) ∧
      (exec .peerHbSend s = .next (after s d)) ∧
      (exec .holdExpiry s = .next (after s d)) ∧
      (∀ (b : Fin 8), exec (.peerLost b) s = .next (after s d)) ∧
      (exec .peerPacketBad s = .next (after s d)) ∧
      (exec .reportQueueRoom s = .next (after s d)) ∧
      (∀ (asg : List (BitVec 16)) (prices : List W64), exec (.auctionDone asg prices) s = .next (after s d)) ∧
      (∀ (phases : BitVec 8) (asg : List (BitVec 16)) (prices : List W64), exec (.auctionTimeout phases asg prices) s =
        .next (after s d)) ∧
      (∀ (e : Ecc), exec (.eventToken e) s = .next (after s d))) ∧
    (isUp SCHi d = false →
      (∀ (v : Bool) (w : Who), exec (.trkctlEn v w) s = .next (after s d)) ∧
      (∀ (off : BitVec 20) (v : W32) (w : Who), exec (.graphWrite off v w) s = .next (after s d)) ∧
      (∀ (w : Who), exec (.auctionStart w) s = .next (after s d)) ∧
      (∀ (w : Who), exec (.auctionAbort w) s = .next (after s d)) ∧
      (∀ (n : Fin 128) (w : Who), exec (.lockRead n [w]) s = .next (after s
        ({ d with rdata := 0, lockSeen := [(w.rq.val, 0)] }))) ∧
      (∀ (ev : Byte) (v : W32) (w : Who), exec (.evcfgEn ev v w) s = .next (after s d)) ∧
      (∀ (v : Byte) (w : Who), exec (.cfenceWrite v w) s = .next (after s d)) ∧
      (∀ (v : Bool) (w : Who), exec (.dfctlEn v w) s = .next (after s d))) ∧
    (isUp NETi d = false →
      (∀ (rtt : Option W32), exec (.ringCycleStart rtt) s = .next (after s d)) ∧
      (∀ (aPass : Bool) (bPass : Bool), exec (.testDeadline aPass bPass) s = .next (after s d)) ∧
      (∀ (f : PortFrame) (fcs : Bool), exec (.inputFrame f fcs) s = .next (after s d)) ∧
      (exec .inputDeadline s = .next (after s d)) ∧
      (∀ (v : Bool) (w : Who), exec (.cycenWrite v w) s = .next (after s d)) ∧
      (∀ (v : Bool) (w : Who), exec (.ringenWrite v w) s = .next (after s d)) ∧
      (exec .holdFrame s = .next (after s d)) ∧
      (∀ (f : OrdFrame), exec (.ordinaryFrame f) s = .next (after s d)) ∧
      (exec .address s = .next (after s d)) ∧
      (∀ (f : PortFrame), exec (.announce f) s = .next (after s d))) ∧
    (∀ n : CoreNo, canIssue n d = false →
      (∀ (rd : RegNo) (rs : RegNo) (rt : RegNo), exec (.add n rd rs rt) s = .next (after s d)) ∧
      (∀ (rd : RegNo) (rs : RegNo) (rt : RegNo), exec (.sub n rd rs rt) s = .next (after s d)) ∧
      (∀ (rd : RegNo) (rs : RegNo) (rt : RegNo), exec (.and n rd rs rt) s = .next (after s d)) ∧
      (∀ (rd : RegNo) (rs : RegNo) (rt : RegNo), exec (.or n rd rs rt) s = .next (after s d)) ∧
      (∀ (rd : RegNo) (rs : RegNo) (rt : RegNo), exec (.xor n rd rs rt) s = .next (after s d)) ∧
      (∀ (rd : RegNo) (rs : RegNo) (rt : RegNo), exec (.nor n rd rs rt) s = .next (after s d)) ∧
      (∀ (rd : RegNo) (rs : RegNo) (rt : RegNo), exec (.sll n rd rs rt) s = .next (after s d)) ∧
      (∀ (rd : RegNo) (rs : RegNo) (rt : RegNo), exec (.srl n rd rs rt) s = .next (after s d)) ∧
      (∀ (rd : RegNo) (rs : RegNo) (rt : RegNo), exec (.sra n rd rs rt) s = .next (after s d)) ∧
      (∀ (rd : RegNo) (rs : RegNo) (rt : RegNo), exec (.mul n rd rs rt) s = .next (after s d)) ∧
      (∀ (rd : RegNo) (rs : RegNo) (rt : RegNo), exec (.mulhs n rd rs rt) s = .next (after s d)) ∧
      (∀ (rd : RegNo) (rs : RegNo) (rt : RegNo), exec (.mulhu n rd rs rt) s = .next (after s d)) ∧
      (∀ (rd : RegNo) (rs : RegNo) (rt : RegNo), exec (.div n rd rs rt) s = .next (after s d)) ∧
      (∀ (rd : RegNo) (rs : RegNo) (rt : RegNo), exec (.divu n rd rs rt) s = .next (after s d)) ∧
      (∀ (rd : RegNo) (rs : RegNo) (rt : RegNo), exec (.rem n rd rs rt) s = .next (after s d)) ∧
      (∀ (rd : RegNo) (rs : RegNo) (rt : RegNo), exec (.remu n rd rs rt) s = .next (after s d)) ∧
      (∀ (rd : RegNo) (rs : RegNo) (rt : RegNo), exec (.min n rd rs rt) s = .next (after s d)) ∧
      (∀ (rd : RegNo) (rs : RegNo) (rt : RegNo), exec (.max n rd rs rt) s = .next (after s d)) ∧
      (∀ (rd : RegNo) (rs : RegNo) (rt : RegNo), exec (.minu n rd rs rt) s = .next (after s d)) ∧
      (∀ (rd : RegNo) (rs : RegNo) (rt : RegNo), exec (.maxu n rd rs rt) s = .next (after s d)) ∧
      (∀ (rd : RegNo) (rs : RegNo) (imm : BitVec 16), exec (.addi n rd rs imm) s = .next (after s d)) ∧
      (∀ (rd : RegNo) (rs : RegNo) (imm : BitVec 16), exec (.andi n rd rs imm) s = .next (after s d)) ∧
      (∀ (rd : RegNo) (rs : RegNo) (imm : BitVec 16), exec (.ori n rd rs imm) s = .next (after s d)) ∧
      (∀ (rd : RegNo) (rs : RegNo) (imm : BitVec 16), exec (.xori n rd rs imm) s = .next (after s d)) ∧
      (∀ (rd : RegNo) (imm : BitVec 16), exec (.lui n rd imm) s = .next (after s d)) ∧
      (∀ (rd : RegNo) (rs : RegNo) (amt : Fin 64), exec (.slli n rd rs amt) s = .next (after s d)) ∧
      (∀ (rd : RegNo) (rs : RegNo) (amt : Fin 64), exec (.srli n rd rs amt) s = .next (after s d)) ∧
      (∀ (rd : RegNo) (rs : RegNo) (amt : Fin 64), exec (.srai n rd rs amt) s = .next (after s d)) ∧
      (∀ (pd : Fin 8) (rs : RegNo) (rt : RegNo), exec (.cmpeq n pd rs rt) s = .next (after s d)) ∧
      (∀ (pd : Fin 8) (rs : RegNo) (rt : RegNo), exec (.cmpne n pd rs rt) s = .next (after s d)) ∧
      (∀ (pd : Fin 8) (rs : RegNo) (rt : RegNo), exec (.cmplt n pd rs rt) s = .next (after s d)) ∧
      (∀ (pd : Fin 8) (rs : RegNo) (rt : RegNo), exec (.cmpge n pd rs rt) s = .next (after s d)) ∧
      (∀ (pd : Fin 8) (rs : RegNo) (rt : RegNo), exec (.cmpltu n pd rs rt) s = .next (after s d)) ∧
      (∀ (pd : Fin 8) (rs : RegNo) (rt : RegNo), exec (.cmpgeu n pd rs rt) s = .next (after s d)) ∧
      (∀ (pd : Fin 8) (rs : RegNo) (cond : Fin 8) (imm : BitVec 13), exec (.cmpi n pd rs cond imm) s = .next (after s d)) ∧
      (∀ (pd : Fin 8) (ps : Fin 8) (pt : Fin 8), exec (.pand n pd ps pt) s = .next (after s d)) ∧
      (∀ (pd : Fin 8) (ps : Fin 8) (pt : Fin 8), exec (.por n pd ps pt) s = .next (after s d)) ∧
      (∀ (pd : Fin 8) (ps : Fin 8) (pt : Fin 8), exec (.pxor n pd ps pt) s = .next (after s d)) ∧
      (∀ (pd : Fin 8) (ps : Fin 8), exec (.pnot n pd ps) s = .next (after s d)) ∧
      (∀ (pd : Fin 8) (ps : Fin 8), exec (.pmov n pd ps) s = .next (after s d))) ∧
    (∀ n : CoreNo, canIssue n d = false →
      (∀ (rd : RegNo) (rs : RegNo) (rt : RegNo) (p : Fin 8), exec (.sel n rd rs rt p) s = .next (after s d)) ∧
      (∀ (rd : RegNo) (base : RegNo) (off : BitVec 12) (e : Ecc), exec (.lb n rd base off e) s = .next (after s d)) ∧
      (∀ (rd : RegNo) (base : RegNo) (off : BitVec 12) (e : Ecc), exec (.lbu n rd base off e) s = .next (after s d)) ∧
      (∀ (rd : RegNo) (base : RegNo) (off : BitVec 12) (e : Ecc), exec (.lh n rd base off e) s = .next (after s d)) ∧
      (∀ (rd : RegNo) (base : RegNo) (off : BitVec 12) (e : Ecc), exec (.lhu n rd base off e) s = .next (after s d)) ∧
      (∀ (rd : RegNo) (base : RegNo) (off : BitVec 12) (e : Ecc), exec (.lw n rd base off e) s = .next (after s d)) ∧
      (∀ (rd : RegNo) (base : RegNo) (off : BitVec 12) (e : Ecc), exec (.lwu n rd base off e) s = .next (after s d)) ∧
      (∀ (rd : RegNo) (base : RegNo) (off : BitVec 12) (e : Ecc), exec (.ld n rd base off e) s = .next (after s d)) ∧
      (∀ (rd : RegNo) (base : RegNo) (off : BitVec 12) (e : Ecc), ties s.pending d = d → exec (.sb n rd base off e) s =
        .next (after s d)) ∧
      (∀ (rd : RegNo) (base : RegNo) (off : BitVec 12) (e : Ecc), ties s.pending d = d → exec (.sh n rd base off e) s =
        .next (after s d)) ∧
      (∀ (rd : RegNo) (base : RegNo) (off : BitVec 12) (e : Ecc), ties s.pending d = d → exec (.sw n rd base off e) s =
        .next (after s d)) ∧
      (∀ (rd : RegNo) (base : RegNo) (off : BitVec 12) (e : Ecc), ties s.pending d = d → exec (.sd n rd base off e) s =
        .next (after s d)) ∧
      (∀ (rd : RegNo) (rs : RegNo) (rt : RegNo) (dbl : Bool) (acq : Bool) (rel : Bool) (e : Ecc),
        exec (.aadd n rd rs rt dbl acq rel e) s = .next (after s d)) ∧
      (∀ (rd : RegNo) (rs : RegNo) (rt : RegNo) (dbl : Bool) (acq : Bool) (rel : Bool) (e : Ecc),
        exec (.aswp n rd rs rt dbl acq rel e) s = .next (after s d)) ∧
      (∀ (rd : RegNo) (rs : RegNo) (rt : RegNo) (dbl : Bool) (acq : Bool) (rel : Bool) (e : Ecc),
        exec (.acas n rd rs rt dbl acq rel e) s = .next (after s d)) ∧
      (∀ (base : RegNo) (off : BitVec 12), exec (.pref n base off) s = .next (after s d)) ∧
      (∀ (base : RegNo) (off : BitVec 12), exec (.clean n base off) s = .next (after s d)) ∧
      (∀ (base : RegNo) (off : BitVec 12), exec (.cinval n base off) s = .next (after s d)) ∧
      (∀ (vd : RegNo) (base : RegNo) (off : BitVec 12) (e : Ecc), exec (.vld n vd base off e) s = .next (after s d)) ∧
      (∀ (vd : RegNo) (base : RegNo) (off : BitVec 12) (e : Ecc), ties s.pending d = d → exec (.vst n vd base off e) s =
        .next (after s d)) ∧
      (exec (.fenceM n) s = .next (after s d)) ∧
      (exec (.fenceIo n) s = .next (after s d)) ∧
      (exec (.fenceI n) s = .next (after s d)) ∧
      (∀ (off : BitVec 21), exec (.br n off) s = .next (after s d)) ∧
      (∀ (off : BitVec 21), exec (.call n off) s = .next (after s d)) ∧
      (∀ (p : Fin 8) (sense : Bool) (off : BitVec 21), exec (.bp n p sense off) s = .next (after s d)) ∧
      (∀ (rs : RegNo) (off : BitVec 21), exec (.cbz n rs off) s = .next (after s d)) ∧
      (∀ (rs : RegNo) (off : BitVec 21), exec (.cbnz n rs off) s = .next (after s d)) ∧
      (∀ (rs : RegNo), exec (.jr n rs) s = .next (after s d)) ∧
      (∀ (rd : RegNo) (rs : RegNo), exec (.jalr n rd rs) s = .next (after s d)) ∧
      (∀ (vd : RegNo) (va : RegNo) (vb : RegNo) (pm : Fin 8) (ty : VTy), exec (.vadd n vd va vb pm ty) s =
        .next (after s d)) ∧
      (∀ (vd : RegNo) (va : RegNo) (vb : RegNo) (pm : Fin 8) (ty : VTy), exec (.vsub n vd va vb pm ty) s =
        .next (after s d)) ∧
      (∀ (vd : RegNo) (va : RegNo) (vb : RegNo) (pm : Fin 8) (ty : VTy), exec (.vmul n vd va vb pm ty) s =
        .next (after s d)) ∧
      (∀ (vd : RegNo) (va : RegNo) (vb : RegNo) (pm : Fin 8) (ty : VTy), exec (.vfma n vd va vb pm ty) s =
        .next (after s d)) ∧
      (∀ (vd : RegNo) (va : RegNo) (vb : RegNo) (pm : Fin 8) (ty : VTy), exec (.vdiv n vd va vb pm ty) s =
        .next (after s d)) ∧
      (∀ (vd : RegNo) (va : RegNo) (pm : Fin 8) (ty : VTy), exec (.vsqrt n vd va pm ty) s = .next (after s d)) ∧
      (∀ (vd : RegNo) (va : RegNo) (vb : RegNo) (pm : Fin 8) (ty : VTy), exec (.vmin n vd va vb pm ty) s =
        .next (after s d)) ∧
      (∀ (vd : RegNo) (va : RegNo) (vb : RegNo) (pm : Fin 8) (ty : VTy), exec (.vmax n vd va vb pm ty) s =
        .next (after s d)) ∧
      (∀ (vd : RegNo) (va : RegNo) (vb : RegNo) (pm : Fin 8) (ty : VTy), exec (.viadd n vd va vb pm ty) s =
        .next (after s d)) ∧
      (∀ (vd : RegNo) (va : RegNo) (vb : RegNo) (pm : Fin 8) (ty : VTy), exec (.visub n vd va vb pm ty) s =
        .next (after s d))) ∧
    (∀ n : CoreNo, canIssue n d = false →
      (∀ (vd : RegNo) (va : RegNo) (vb : RegNo) (pm : Fin 8) (ty : VTy), exec (.vimul n vd va vb pm ty) s =
        .next (after s d)) ∧
      (∀ (vd : RegNo) (va : RegNo) (vb : RegNo) (pm : Fin 8) (ty : VTy), exec (.vand n vd va vb pm ty) s =
        .next (after s d)) ∧
      (∀ (vd : RegNo) (va : RegNo) (vb : RegNo) (pm : Fin 8) (ty : VTy), exec (.vor n vd va vb pm ty) s = .next (after s d)) ∧
      (∀ (vd : RegNo) (va : RegNo) (vb : RegNo) (pm : Fin 8) (ty : VTy), exec (.vxor n vd va vb pm ty) s =
        .next (after s d)) ∧
      (∀ (vd : RegNo) (va : RegNo) (vb : RegNo) (pm : Fin 8) (ty : VTy), exec (.vshl n vd va vb pm ty) s =
        .next (after s d)) ∧
      (∀ (vd : RegNo) (va : RegNo) (vb : RegNo) (pm : Fin 8) (ty : VTy), exec (.vshr n vd va vb pm ty) s =
        .next (after s d)) ∧
      (∀ (pd : Fin 8) (va : RegNo) (vb : RegNo) (pm : Fin 8) (ty : VTy), exec (.vcmpeq n pd va vb pm ty) s =
        .next (after s d)) ∧
      (∀ (pd : Fin 8) (va : RegNo) (vb : RegNo) (pm : Fin 8) (ty : VTy), exec (.vcmplt n pd va vb pm ty) s =
        .next (after s d)) ∧
      (∀ (pd : Fin 8) (va : RegNo) (vb : RegNo) (pm : Fin 8) (ty : VTy), exec (.vcmple n pd va vb pm ty) s =
        .next (after s d)) ∧
      (∀ (vd : RegNo) (ra : RegNo) (pm : Fin 8) (ty : VTy), exec (.vbcast n vd ra pm ty) s = .next (after s d)) ∧
      (∀ (vd : RegNo) (va : RegNo) (vb : RegNo) (pm : Fin 8) (ty : VTy), exec (.vperm n vd va vb pm ty) s =
        .next (after s d)) ∧
      (∀ (rd : RegNo) (va : RegNo) (rb : RegNo) (ty : VTy), exec (.vext n rd va rb ty) s = .next (after s d)) ∧
      (∀ (vd : RegNo) (ra : RegNo) (rb : RegNo) (pm : Fin 8) (ty : VTy), exec (.vins n vd ra rb pm ty) s =
        .next (after s d)) ∧
      (∀ (rd : RegNo) (va : RegNo) (pm : Fin 8) (ty : VTy), exec (.vred n rd va pm ty) s = .next (after s d)) ∧
      (∀ (vd : RegNo) (va : RegNo) (pm : Fin 8) (ty : VTy) (toI : Bool), exec (.vcvt n vd va pm ty toI) s =
        .next (after s d)) ∧
      (∀ (vd : RegNo) (va : RegNo) (vb : RegNo) (ty : VTy) (count : Nat) (e : Ecc), ties s.pending d = d →
        exec (.vscpy n vd va vb ty count e) s = .next (after s d)) ∧
      (∀ (vd : RegNo) (vb : RegNo) (ty : VTy) (count : Nat) (e : Ecc), ties s.pending d = d →
        exec (.vsfill n vd vb ty count e) s = .next (after s d)) ∧
      (∀ (vd : RegNo) (va : RegNo) (vb : RegNo) (ty : VTy) (count : Nat) (e : Ecc), ties s.pending d = d →
        exec (.vsaxpy n vd va vb ty count e) s = .next (after s d)) ∧
      (∀ (vd : RegNo) (vb : RegNo) (ty : VTy) (count : Nat) (e : Ecc), ties s.pending d = d →
        exec (.vsscal n vd vb ty count e) s = .next (after s d)) ∧
      (∀ (vd : RegNo) (va : RegNo) (vb : RegNo) (ty : VTy) (count : Nat) (e : Ecc), exec (.vsdot n vd va vb ty count e) s =
        .next (after s d)) ∧
      (∀ (rd : RegNo) (rs : RegNo) (rt : RegNo) (dbl : Bool), exec (.fadd n rd rs rt dbl) s = .next (after s d)) ∧
      (∀ (rd : RegNo) (rs : RegNo) (rt : RegNo) (dbl : Bool), exec (.fsub n rd rs rt dbl) s = .next (after s d)) ∧
      (∀ (rd : RegNo) (rs : RegNo) (rt : RegNo) (dbl : Bool), exec (.fmul n rd rs rt dbl) s = .next (after s d)) ∧
      (∀ (rd : RegNo) (rs : RegNo) (rt : RegNo) (dbl : Bool), exec (.fdiv n rd rs rt dbl) s = .next (after s d)) ∧
      (∀ (rd : RegNo) (rs : RegNo) (dbl : Bool), exec (.fsqrt n rd rs dbl) s = .next (after s d)) ∧
      (∀ (rd : RegNo) (rs : RegNo) (rt : RegNo) (dbl : Bool), exec (.fma n rd rs rt dbl) s = .next (after s d)) ∧
      (∀ (rd : RegNo) (rs : RegNo) (rt : RegNo) (dbl : Bool), exec (.fmin n rd rs rt dbl) s = .next (after s d)) ∧
      (∀ (rd : RegNo) (rs : RegNo) (rt : RegNo) (dbl : Bool), exec (.fmax n rd rs rt dbl) s = .next (after s d)) ∧
      (∀ (rd : RegNo) (rs : RegNo) (k : FCvt), exec (.fcvt n rd rs k) s = .next (after s d)) ∧
      (∀ (pd : Fin 8) (rs : RegNo) (rt : RegNo) (dbl : Bool), exec (.fcmpeq n pd rs rt dbl) s = .next (after s d)) ∧
      (∀ (pd : Fin 8) (rs : RegNo) (rt : RegNo) (dbl : Bool), exec (.fcmplt n pd rs rt dbl) s = .next (after s d)) ∧
      (∀ (pd : Fin 8) (rs : RegNo) (rt : RegNo) (dbl : Bool), exec (.fcmple n pd rs rt dbl) s = .next (after s d)) ∧
      (∀ (rd : RegNo) (sel : Fin 4), exec (.timerd n rd sel) s = .next (after s d)) ∧
      (∀ (rd : RegNo), exec (.rawrd n rd) s = .next (after s d)) ∧
      (∀ (rd : RegNo) (rs : RegNo) (imm : BitVec 12), exec (.lktry n rd rs imm) s = .next (after s d)) ∧
      (∀ (rd : RegNo) (rs : RegNo) (imm : BitVec 12), exec (.lkrel n rd rs imm) s = .next (after s d)) ∧
      (∀ (rd : RegNo) (rs : RegNo) (rt : RegNo) (count : Nat), exec (.pgrel n rd rs rt count) s = .next (after s d)) ∧
      (∀ (rd : RegNo) (rs : RegNo) (rt : RegNo) (count : Nat), exec (.pgpin n rd rs rt count) s = .next (after s d)) ∧
      (∀ (rd : RegNo) (rs : RegNo) (rt : RegNo) (count : Nat), exec (.pgunpin n rd rs rt count) s = .next (after s d)) ∧
      (∀ (rd : RegNo) (rs : RegNo), tiesDone s.pending d = d → exec (.dfready n rd rs) s = .next (after s d))) ∧
    (∀ n : CoreNo, canIssue n d = false →
      (∀ (rd : RegNo) (rs : RegNo) (slot : Fin 16), tiesDone s.pending d = d → exec (.dfpost n rd rs slot) s =
        .next (after s d)) ∧
      (∀ (rd : RegNo) (rs : RegNo), tiesDone s.pending d = d → exec (.dfcancel n rd rs) s = .next (after s d)) ∧
      (∀ (rs : RegNo), tiesDone s.pending d = d → exec (.dfdone n rs) s = .next (after s d)) ∧
      (exec (.dfyield n) s = .next (after s d)) ∧
      (exec (.npb n) s = .next (after s d)) ∧
      (exec (.npe n) s = .next (after s d)) ∧
      (∀ (rd : RegNo) (rs : RegNo) (imm : BitVec 12), exec (.mfs n rd rs imm) s = .next (after s d)) ∧
      (∀ (rs : RegNo) (imm : BitVec 12), exec (.mts n rs imm) s = .next (after s d)) ∧
      (∀ (imm : BitVec 12), exec (.svc n imm) s = .next (after s d)) ∧
      (∀ (imm : BitVec 12), exec (.mcall n imm) s = .next (after s d)) ∧
      (∀ (imm : BitVec 12), exec (.brk n imm) s = .next (after s d)) ∧
      (exec (.eret n) s = .next (after s d)) ∧
      (exec (.illegal n) s = .next (after s d))) ∧
    (runs APPi d = false →
      (∀ (n : CoreNo), exec (.preemption n) s = .next (after s d)) ∧
      (exec .dispatchChoice s = .next (after s d)) ∧
      (∀ (n : CoreNo), exec (.napEntry n) s = .next (after s d)) ∧
      (∀ (n : CoreNo), exec (.dfBusyTimeout n) s = .next (after s d)) ∧
      (tiesDone s.pending d = d → exec .selfTestTurn s = .next (after s d)) ∧
      (∀ (pass : Bool), exec (.selfTestDone pass) s = .next (after s d))) ∧
    (isUp MEMi d = false →
      (∀ (hi : W32) (w : Who), exec (.tlbinv hi w) s = .next (after s d)) ∧
      (∀ (v : Bool) (w : Who), exec (.poolen v w) s = .next (after s d)) ∧
      (exec .sweepDone s = .next (after s d)) ∧
      (∀ (w : Who), exec (.pooltake w) s = .next (after s d)) ∧
      (∀ (f : BitVec 28) (w : Who), exec (.poolgive f w) s = .next (after s d)) ∧
      (∀ (f : BitVec 28) (w : Who), exec (.memRetire f w) s = .next (after s d)) ∧
      (∀ (w : Who), exec (.retcntClear w) s = .next (after s d)) ∧
      (∀ (e : Ecc), exec (.scrub e) s = .next (after s d)) ∧
      (∀ (c0 : Fin 32) (level : Fin 4) (w : Who), exec (.dmaStart c0 level w) s = .next (after s d)) ∧
      (∀ (c0 : Fin 32), exec (.dmaDescriptorDone c0) s = .next (after s d)) ∧
      (∀ (c0 : Fin 32) (at_ : W32) (emmc : Bool) (wr_ : Bool) (desc : Bool), exec (.dmaPark c0 at_ emmc wr_ desc) s =
        .next (after s d)) ∧
      (∀ (c0 : Fin 32) (w : Who), exec (.dmaResume c0 w) s = .next (after s d)) ∧
      (∀ (c0 : Fin 32) (w : Who), exec (.dmaSkip c0 w) s = .next (after s d)) ∧
      (∀ (c0 : Fin 32) (w : Who), exec (.dmaAbort c0 w) s = .next (after s d)) ∧
      (∀ (w : Who), exec (.capture w) s = .next (after s d))) ∧
    (isUp APPi d = false →
      (exec .bootSlotCheck s = .next (after s d)) ∧
      (exec .firmwareEntry s = .next (after s d)) ∧
      (exec .bootFail s = .next (after s d)) ∧
      (∀ (f : PortFrame), exec (.recovery f) s = .next (after s d)) ∧
      (exec .tamperInfo s = .next (after s d)))

end
end

