-- ==== Sys2Proof/Laws/Regs.lean ====
section
/-! SUPPORT. Laws/Regs.lean: sparse tables and register fields: read after write, writes elsewhere, and the canonical form. -/

namespace Sys2Proof.Laws

open Sys2Proof.Machine

/-! ## Tables -/

theorem tget_tdel_same {α : Type} (t : Tbl α) (k : Nat) (d : α) : tget (tdel t k) k d = d := by
  induction t with
  | nil => rfl
  | cons e r ih =>
    by_cases h : e.1 = k
    · simpa [tdel, List.filter_cons, h] using ih
    · simpa [tdel, List.filter_cons, h, tget] using ih

theorem tget_tdel_ne {α : Type} (t : Tbl α) {k j : Nat} (d : α) (h : j ≠ k) : tget (tdel t k) j d = tget t j d := by
  induction t with
  | nil => rfl
  | cons e r ih =>
    by_cases hk : e.1 = k
    · have : ¬ k = j := fun e => h e.symm
      simpa [tdel, List.filter_cons, hk, tget, this] using ih
    · by_cases hj : e.1 = j
      · have hjk : ¬ j = k := h
        subst hj
        simp [tdel, hjk, tget]
      · simpa [tdel, List.filter_cons, hk, tget, hj] using ih

theorem tget_tput_same {α : Type} (t : Tbl α) (k : Nat) (v d : α) : tget (tput t k v) k d = v := by
  induction t with
  | nil => simp [tput, tget]
  | cons e r ih =>
    unfold tput
    split
    · simp [tget]
    · split
      · simp [tget]
      · rename_i h1 h2
        have : ¬ e.1 = k := fun x => h2 x.symm
        simp [tget, this, ih]

theorem tget_tput_ne {α : Type} (t : Tbl α) {k j : Nat} (v d : α) (h : j ≠ k) : tget (tput t k v) j d = tget t j d := by
  have hk : ¬ k = j := fun e => h e.symm
  induction t with
  | nil => simp [tput, tget, hk]
  | cons e r ih =>
    unfold tput
    split
    · simp [tget, hk]
    · split
      · rename_i h1 h2
        have : ¬ e.1 = j := fun x => h (x.symm.trans h2.symm)
        simp [tget, hk, this]
      · simp [tget, ih]

/-- A read of the key just written gives what was written. -/
theorem tget_tset_same {α : Type} [DecidableEq α] (t : Tbl α) (k : Nat) (v d : α) : tget (tset t k v d) k d = v := by
  unfold tset
  split
  · rename_i h; rw [tget_tdel_same, h]
  · exact tget_tput_same t k v d

/-- A write leaves every other key as it was. -/
theorem tget_tset_ne {α : Type} [DecidableEq α] (t : Tbl α) {k j : Nat} (v d d' : α) (h : j ≠ k) :
    tget (tset t k v d) j d' = tget t j d' := by
  unfold tset
  split
  · exact tget_tdel_ne t d' h
  · exact tget_tput_ne t v d' h

theorem tput_mem {α : Type} {t : Tbl α} {k : Nat} {v : α} {e : Nat × α} (h : e ∈ tput t k v) : e = (k, v) ∨ e ∈ t := by
  induction t with
  | nil => simpa [tput] using h
  | cons a r ih =>
    unfold tput at h
    split at h
    · simpa using h
    · split at h
      · rcases List.mem_cons.mp h with h | h
        · exact .inl h
        · exact .inr (List.mem_cons_of_mem _ h)
      · rcases List.mem_cons.mp h with h | h
        · exact .inr (by simp [h])
        · rcases ih h with h | h
          · exact .inl h
          · exact .inr (List.mem_cons_of_mem _ h)

theorem tput_sorted {α : Type} {t : Tbl α} {k : Nat} {v : α} (h : t.Pairwise (fun a b => a.1 < b.1)) :
    (tput t k v).Pairwise (fun a b => a.1 < b.1) := by
  induction t with
  | nil => simp [tput]
  | cons a r ih =>
    obtain ⟨h1, h2⟩ := List.pairwise_cons.mp h
    unfold tput
    split
    · rename_i hk
      refine List.pairwise_cons.mpr ⟨?_, h⟩
      intro b hb
      rcases List.mem_cons.mp hb with hb | hb
      · subst hb; exact hk
      · exact Nat.lt_trans hk (h1 b hb)
    · split
      · rename_i h3 h4
        refine List.pairwise_cons.mpr ⟨?_, h2⟩
        intro b hb
        simpa [h4] using h1 b hb
      · rename_i h3 h4
        refine List.pairwise_cons.mpr ⟨?_, ih h2⟩
        intro b hb
        rcases tput_mem hb with hb | hb
        · subst hb
          show a.1 < k
          have hn : ¬ k < a.1 := h3
          have he : ¬ k = a.1 := h4
          omega
        · exact h1 b hb

/-- A write keeps the canonical form. -/
theorem twf_tset {α : Type} [DecidableEq α] {t : Tbl α} {d : α} (h : twf t d = true) (k : Nat) (v : α) :
    twf (tset t k v d) d = true := by
  simp only [twf, Bool.and_eq_true, decide_eq_true_eq, List.all_eq_true] at h ⊢
  obtain ⟨h1, h2⟩ := h
  unfold tset
  split
  · refine ⟨h1.filter _, ?_⟩
    intro e he
    exact h2 e (List.mem_of_mem_filter he)
  · rename_i hv
    refine ⟨tput_sorted h1, ?_⟩
    intro e he
    rcases tput_mem he with he | he
    · subst he; exact hv
    · exact h2 e he

/-- Keys of a range removed: the canonical form stays. -/
theorem twf_tclear {α : Type} [DecidableEq α] {t : Tbl α} {d : α} (h : twf t d = true) (lo hi : Nat) :
    twf (tclear t lo hi) d = true := by
  simp only [twf, Bool.and_eq_true, decide_eq_true_eq, List.all_eq_true] at h ⊢
  exact ⟨h.1.filter _, fun e he => h.2 e (List.mem_of_mem_filter he)⟩

/-! ## Register fields -/

/-- A field reads what was written to it, truncated to its width. -/
theorem rd_wr_same (f : Fld) (v : Nat) (d : Dev) (h : f.width ≤ 64) : rd f (wr f v d) = v % 2 ^ f.width := by
  simp only [rd, wr, tget_tset_same, BitVec.toNat_ofNat]
  exact Nat.mod_eq_of_lt (Nat.lt_of_lt_of_le (Nat.mod_lt _ (Nat.two_pow_pos _)) (Nat.pow_le_pow_right (by decide) h))

/-- A write to a field leaves every field at another place as it was. -/
theorem rd_wr_ne {f g : Fld} (v : Nat) (d : Dev) (h : f.key ≠ g.key) : rd f (wr g v d) = rd f d := by
  simp only [rd, wr]
  rw [tget_tset_ne _ _ _ _ h]

theorem on_wr_ne {f g : Fld} (v : Nat) (d : Dev) (h : f.key ≠ g.key) : on f (wr g v d) = on f d := by
  simp only [on, rd_wr_ne v d h]

theorem on_wrB_ne {f g : Fld} (b : Bool) (d : Dev) (h : f.key ≠ g.key) : on f (wrB g b d) = on f d := on_wr_ne _ d h

/-- A one-bit field reads the Bool written to it. -/
theorem on_wrB_same (f : Fld) (b : Bool) (d : Dev) (h : f.width = 1) : on f (wrB f b d) = b := by
  simp only [on, wrB]
  rw [rd_wr_same f _ d (by omega), h]
  cases b <;> rfl

end Sys2Proof.Laws
end

