-- ==== Sys2Proof/Laws/State.lean ====
section
/-! SUPPORT. Laws/State.lean: what each update of the state leaves in each field, and that writes to memory keep its canonical
form. -/

namespace Sys2Proof.Laws

open Sys2Proof.Machine

/-! ## One lemma per field per update of the block -/

@[simp] theorem wr_raw (f : Fld) (v : Nat) (d : Dev) : (wr f v d).raw = d.raw := rfl
@[simp] theorem wr_latch (f : Fld) (v : Nat) (d : Dev) : (wr f v d).latch = d.latch := rfl
@[simp] theorem wr_held (f : Fld) (v : Nat) (d : Dev) : (wr f v d).held = d.held := rfl
@[simp] theorem wr_rdata (f : Fld) (v : Nat) (d : Dev) : (wr f v d).rdata = d.rdata := rfl
@[simp] theorem wr_free (f : Fld) (v : Nat) (d : Dev) : (wr f v d).free = d.free := rfl
@[simp] theorem wr_sent (f : Fld) (v : Nat) (d : Dev) : (wr f v d).sent = d.sent := rfl
@[simp] theorem wr_isl (f : Fld) (v : Nat) (d : Dev) : (wr f v d).isl = d.isl := rfl
@[simp] theorem wr_sq (f : Fld) (v : Nat) (d : Dev) : (wr f v d).sq = d.sq := rfl
@[simp] theorem wr_lock (f : Fld) (v : Nat) (d : Dev) : (wr f v d).lock = d.lock := rfl
@[simp] theorem wr_ferry (f : Fld) (v : Nat) (d : Dev) : (wr f v d).ferry = d.ferry := rfl
@[simp] theorem wr_ferrySeq (f : Fld) (v : Nat) (d : Dev) : (wr f v d).ferrySeq = d.ferrySeq := rfl
@[simp] theorem wr_bellDue (f : Fld) (v : Nat) (d : Dev) : (wr f v d).bellDue = d.bellDue := rfl
@[simp] theorem wr_batchDue (f : Fld) (v : Nat) (d : Dev) : (wr f v d).batchDue = d.batchDue := rfl
@[simp] theorem wr_keep (f : Fld) (v : Nat) (d : Dev) : (wr f v d).keep = d.keep := rfl
@[simp] theorem wr_aon (f : Fld) (v : Nat) (d : Dev) : (wr f v d).aon = d.aon := rfl
@[simp] theorem wr_sec (f : Fld) (v : Nat) (d : Dev) : (wr f v d).sec = d.sec := rfl
@[simp] theorem wr_app (f : Fld) (v : Nat) (d : Dev) : (wr f v d).app = d.app := rfl
@[simp] theorem wr_sch (f : Fld) (v : Nat) (d : Dev) : (wr f v d).sch = d.sch := rfl
@[simp] theorem wr_mem (f : Fld) (v : Nat) (d : Dev) : (wr f v d).mem = d.mem := rfl
@[simp] theorem wr_ctl (f : Fld) (v : Nat) (d : Dev) : (wr f v d).ctl = d.ctl := rfl
@[simp] theorem wr_net (f : Fld) (v : Nat) (d : Dev) : (wr f v d).net = d.net := rfl
@[simp] theorem wr_rad (f : Fld) (v : Nat) (d : Dev) : (wr f v d).rad = d.rad := rfl
@[simp] theorem wr_pos (f : Fld) (v : Nat) (d : Dev) : (wr f v d).pos = d.pos := rfl

@[simp] theorem drawn_raw (d : Dev) : (drawn d).raw = d.raw := rfl
@[simp] theorem drawn_regs (d : Dev) : (drawn d).regs = d.regs := rfl
@[simp] theorem drawn_latch (d : Dev) : (drawn d).latch = d.latch := rfl
@[simp] theorem drawn_held (d : Dev) : (drawn d).held = d.held := rfl
@[simp] theorem drawn_rdata (d : Dev) : (drawn d).rdata = d.rdata := rfl
@[simp] theorem drawn_sent (d : Dev) : (drawn d).sent = d.sent := rfl
@[simp] theorem drawn_isl (d : Dev) : (drawn d).isl = d.isl := rfl
@[simp] theorem drawn_sq (d : Dev) : (drawn d).sq = d.sq := rfl
@[simp] theorem drawn_lock (d : Dev) : (drawn d).lock = d.lock := rfl
@[simp] theorem drawn_ferry (d : Dev) : (drawn d).ferry = d.ferry := rfl
@[simp] theorem drawn_ferrySeq (d : Dev) : (drawn d).ferrySeq = d.ferrySeq := rfl
@[simp] theorem drawn_bellDue (d : Dev) : (drawn d).bellDue = d.bellDue := rfl
@[simp] theorem drawn_batchDue (d : Dev) : (drawn d).batchDue = d.batchDue := rfl
@[simp] theorem drawn_keep (d : Dev) : (drawn d).keep = d.keep := rfl
@[simp] theorem drawn_aon (d : Dev) : (drawn d).aon = d.aon := rfl
@[simp] theorem drawn_sec (d : Dev) : (drawn d).sec = d.sec := rfl
@[simp] theorem drawn_app (d : Dev) : (drawn d).app = d.app := rfl
@[simp] theorem drawn_sch (d : Dev) : (drawn d).sch = d.sch := rfl
@[simp] theorem drawn_mem (d : Dev) : (drawn d).mem = d.mem := rfl
@[simp] theorem drawn_ctl (d : Dev) : (drawn d).ctl = d.ctl := rfl
@[simp] theorem drawn_net (d : Dev) : (drawn d).net = d.net := rfl
@[simp] theorem drawn_rad (d : Dev) : (drawn d).rad = d.rad := rfl
@[simp] theorem drawn_pos (d : Dev) : (drawn d).pos = d.pos := rfl

@[simp] theorem coreSet_raw (n : Nat) (c : Core) (d : Dev) : (coreSet n c d).raw = d.raw := rfl
@[simp] theorem coreSet_regs (n : Nat) (c : Core) (d : Dev) : (coreSet n c d).regs = d.regs := rfl
@[simp] theorem coreSet_latch (n : Nat) (c : Core) (d : Dev) : (coreSet n c d).latch = d.latch := rfl
@[simp] theorem coreSet_held (n : Nat) (c : Core) (d : Dev) : (coreSet n c d).held = d.held := rfl
@[simp] theorem coreSet_rdata (n : Nat) (c : Core) (d : Dev) : (coreSet n c d).rdata = d.rdata := rfl
@[simp] theorem coreSet_free (n : Nat) (c : Core) (d : Dev) : (coreSet n c d).free = d.free := rfl
@[simp] theorem coreSet_sent (n : Nat) (c : Core) (d : Dev) : (coreSet n c d).sent = d.sent := rfl
@[simp] theorem coreSet_isl (n : Nat) (c : Core) (d : Dev) : (coreSet n c d).isl = d.isl := rfl
@[simp] theorem coreSet_sq (n : Nat) (c : Core) (d : Dev) : (coreSet n c d).sq = d.sq := rfl
@[simp] theorem coreSet_lock (n : Nat) (c : Core) (d : Dev) : (coreSet n c d).lock = d.lock := rfl
@[simp] theorem coreSet_ferry (n : Nat) (c : Core) (d : Dev) : (coreSet n c d).ferry = d.ferry := rfl
@[simp] theorem coreSet_ferrySeq (n : Nat) (c : Core) (d : Dev) : (coreSet n c d).ferrySeq = d.ferrySeq := rfl
@[simp] theorem coreSet_bellDue (n : Nat) (c : Core) (d : Dev) : (coreSet n c d).bellDue = d.bellDue := rfl
@[simp] theorem coreSet_batchDue (n : Nat) (c : Core) (d : Dev) : (coreSet n c d).batchDue = d.batchDue := rfl
@[simp] theorem coreSet_keep (n : Nat) (c : Core) (d : Dev) : (coreSet n c d).keep = d.keep := rfl
@[simp] theorem coreSet_aon (n : Nat) (c : Core) (d : Dev) : (coreSet n c d).aon = d.aon := rfl
@[simp] theorem coreSet_sec (n : Nat) (c : Core) (d : Dev) : (coreSet n c d).sec = d.sec := rfl
@[simp] theorem coreSet_sch (n : Nat) (c : Core) (d : Dev) : (coreSet n c d).sch = d.sch := rfl
@[simp] theorem coreSet_mem (n : Nat) (c : Core) (d : Dev) : (coreSet n c d).mem = d.mem := rfl
@[simp] theorem coreSet_ctl (n : Nat) (c : Core) (d : Dev) : (coreSet n c d).ctl = d.ctl := rfl
@[simp] theorem coreSet_net (n : Nat) (c : Core) (d : Dev) : (coreSet n c d).net = d.net := rfl
@[simp] theorem coreSet_rad (n : Nat) (c : Core) (d : Dev) : (coreSet n c d).rad = d.rad := rfl
@[simp] theorem coreSet_pos (n : Nat) (c : Core) (d : Dev) : (coreSet n c d).pos = d.pos := rfl

@[simp] theorem setIsl_raw (i : Nat) (m : IslMode) (d : Dev) : (setIsl i m d).raw = d.raw := rfl
@[simp] theorem setIsl_regs (i : Nat) (m : IslMode) (d : Dev) : (setIsl i m d).regs = d.regs := rfl
@[simp] theorem setIsl_latch (i : Nat) (m : IslMode) (d : Dev) : (setIsl i m d).latch = d.latch := rfl
@[simp] theorem setIsl_held (i : Nat) (m : IslMode) (d : Dev) : (setIsl i m d).held = d.held := rfl
@[simp] theorem setIsl_rdata (i : Nat) (m : IslMode) (d : Dev) : (setIsl i m d).rdata = d.rdata := rfl
@[simp] theorem setIsl_free (i : Nat) (m : IslMode) (d : Dev) : (setIsl i m d).free = d.free := rfl
@[simp] theorem setIsl_sent (i : Nat) (m : IslMode) (d : Dev) : (setIsl i m d).sent = d.sent := rfl
@[simp] theorem setIsl_sq (i : Nat) (m : IslMode) (d : Dev) : (setIsl i m d).sq = d.sq := rfl
@[simp] theorem setIsl_lock (i : Nat) (m : IslMode) (d : Dev) : (setIsl i m d).lock = d.lock := rfl
@[simp] theorem setIsl_ferry (i : Nat) (m : IslMode) (d : Dev) : (setIsl i m d).ferry = d.ferry := rfl
@[simp] theorem setIsl_ferrySeq (i : Nat) (m : IslMode) (d : Dev) : (setIsl i m d).ferrySeq = d.ferrySeq := rfl
@[simp] theorem setIsl_bellDue (i : Nat) (m : IslMode) (d : Dev) : (setIsl i m d).bellDue = d.bellDue := rfl
@[simp] theorem setIsl_batchDue (i : Nat) (m : IslMode) (d : Dev) : (setIsl i m d).batchDue = d.batchDue := rfl
@[simp] theorem setIsl_keep (i : Nat) (m : IslMode) (d : Dev) : (setIsl i m d).keep = d.keep := rfl
@[simp] theorem setIsl_aon (i : Nat) (m : IslMode) (d : Dev) : (setIsl i m d).aon = d.aon := rfl
@[simp] theorem setIsl_sec (i : Nat) (m : IslMode) (d : Dev) : (setIsl i m d).sec = d.sec := rfl
@[simp] theorem setIsl_app (i : Nat) (m : IslMode) (d : Dev) : (setIsl i m d).app = d.app := rfl
@[simp] theorem setIsl_sch (i : Nat) (m : IslMode) (d : Dev) : (setIsl i m d).sch = d.sch := rfl
@[simp] theorem setIsl_mem (i : Nat) (m : IslMode) (d : Dev) : (setIsl i m d).mem = d.mem := rfl
@[simp] theorem setIsl_ctl (i : Nat) (m : IslMode) (d : Dev) : (setIsl i m d).ctl = d.ctl := rfl
@[simp] theorem setIsl_net (i : Nat) (m : IslMode) (d : Dev) : (setIsl i m d).net = d.net := rfl
@[simp] theorem setIsl_rad (i : Nat) (m : IslMode) (d : Dev) : (setIsl i m d).rad = d.rad := rfl
@[simp] theorem setIsl_pos (i : Nat) (m : IslMode) (d : Dev) : (setIsl i m d).pos = d.pos := rfl

@[simp] theorem qSet_raw (q : Nat) (v : Queue) (d : Dev) : (qSet q v d).raw = d.raw := rfl
@[simp] theorem qSet_regs (q : Nat) (v : Queue) (d : Dev) : (qSet q v d).regs = d.regs := rfl
@[simp] theorem qSet_latch (q : Nat) (v : Queue) (d : Dev) : (qSet q v d).latch = d.latch := rfl
@[simp] theorem qSet_held (q : Nat) (v : Queue) (d : Dev) : (qSet q v d).held = d.held := rfl
@[simp] theorem qSet_rdata (q : Nat) (v : Queue) (d : Dev) : (qSet q v d).rdata = d.rdata := rfl
@[simp] theorem qSet_free (q : Nat) (v : Queue) (d : Dev) : (qSet q v d).free = d.free := rfl
@[simp] theorem qSet_sent (q : Nat) (v : Queue) (d : Dev) : (qSet q v d).sent = d.sent := rfl
@[simp] theorem qSet_isl (q : Nat) (v : Queue) (d : Dev) : (qSet q v d).isl = d.isl := rfl
@[simp] theorem qSet_lock (q : Nat) (v : Queue) (d : Dev) : (qSet q v d).lock = d.lock := rfl
@[simp] theorem qSet_ferry (q : Nat) (v : Queue) (d : Dev) : (qSet q v d).ferry = d.ferry := rfl
@[simp] theorem qSet_ferrySeq (q : Nat) (v : Queue) (d : Dev) : (qSet q v d).ferrySeq = d.ferrySeq := rfl
@[simp] theorem qSet_bellDue (q : Nat) (v : Queue) (d : Dev) : (qSet q v d).bellDue = d.bellDue := rfl
@[simp] theorem qSet_batchDue (q : Nat) (v : Queue) (d : Dev) : (qSet q v d).batchDue = d.batchDue := rfl
@[simp] theorem qSet_keep (q : Nat) (v : Queue) (d : Dev) : (qSet q v d).keep = d.keep := rfl
@[simp] theorem qSet_aon (q : Nat) (v : Queue) (d : Dev) : (qSet q v d).aon = d.aon := rfl
@[simp] theorem qSet_sec (q : Nat) (v : Queue) (d : Dev) : (qSet q v d).sec = d.sec := rfl
@[simp] theorem qSet_app (q : Nat) (v : Queue) (d : Dev) : (qSet q v d).app = d.app := rfl
@[simp] theorem qSet_sch (q : Nat) (v : Queue) (d : Dev) : (qSet q v d).sch = d.sch := rfl
@[simp] theorem qSet_mem (q : Nat) (v : Queue) (d : Dev) : (qSet q v d).mem = d.mem := rfl
@[simp] theorem qSet_ctl (q : Nat) (v : Queue) (d : Dev) : (qSet q v d).ctl = d.ctl := rfl
@[simp] theorem qSet_net (q : Nat) (v : Queue) (d : Dev) : (qSet q v d).net = d.net := rfl
@[simp] theorem qSet_rad (q : Nat) (v : Queue) (d : Dev) : (qSet q v d).rad = d.rad := rfl
@[simp] theorem qSet_pos (q : Nat) (v : Queue) (d : Dev) : (qSet q v d).pos = d.pos := rfl

@[simp] theorem ferrySet_raw (f : Nat) (v : Ferry) (d : Dev) : (ferrySet f v d).raw = d.raw := rfl
@[simp] theorem ferrySet_regs (f : Nat) (v : Ferry) (d : Dev) : (ferrySet f v d).regs = d.regs := rfl
@[simp] theorem ferrySet_latch (f : Nat) (v : Ferry) (d : Dev) : (ferrySet f v d).latch = d.latch := rfl
@[simp] theorem ferrySet_held (f : Nat) (v : Ferry) (d : Dev) : (ferrySet f v d).held = d.held := rfl
@[simp] theorem ferrySet_rdata (f : Nat) (v : Ferry) (d : Dev) : (ferrySet f v d).rdata = d.rdata := rfl
@[simp] theorem ferrySet_free (f : Nat) (v : Ferry) (d : Dev) : (ferrySet f v d).free = d.free := rfl
@[simp] theorem ferrySet_sent (f : Nat) (v : Ferry) (d : Dev) : (ferrySet f v d).sent = d.sent := rfl
@[simp] theorem ferrySet_isl (f : Nat) (v : Ferry) (d : Dev) : (ferrySet f v d).isl = d.isl := rfl
@[simp] theorem ferrySet_sq (f : Nat) (v : Ferry) (d : Dev) : (ferrySet f v d).sq = d.sq := rfl
@[simp] theorem ferrySet_lock (f : Nat) (v : Ferry) (d : Dev) : (ferrySet f v d).lock = d.lock := rfl
@[simp] theorem ferrySet_ferrySeq (f : Nat) (v : Ferry) (d : Dev) : (ferrySet f v d).ferrySeq = d.ferrySeq := rfl
@[simp] theorem ferrySet_bellDue (f : Nat) (v : Ferry) (d : Dev) : (ferrySet f v d).bellDue = d.bellDue := rfl
@[simp] theorem ferrySet_batchDue (f : Nat) (v : Ferry) (d : Dev) : (ferrySet f v d).batchDue = d.batchDue := rfl
@[simp] theorem ferrySet_keep (f : Nat) (v : Ferry) (d : Dev) : (ferrySet f v d).keep = d.keep := rfl
@[simp] theorem ferrySet_aon (f : Nat) (v : Ferry) (d : Dev) : (ferrySet f v d).aon = d.aon := rfl
@[simp] theorem ferrySet_sec (f : Nat) (v : Ferry) (d : Dev) : (ferrySet f v d).sec = d.sec := rfl
@[simp] theorem ferrySet_app (f : Nat) (v : Ferry) (d : Dev) : (ferrySet f v d).app = d.app := rfl
@[simp] theorem ferrySet_sch (f : Nat) (v : Ferry) (d : Dev) : (ferrySet f v d).sch = d.sch := rfl
@[simp] theorem ferrySet_mem (f : Nat) (v : Ferry) (d : Dev) : (ferrySet f v d).mem = d.mem := rfl
@[simp] theorem ferrySet_ctl (f : Nat) (v : Ferry) (d : Dev) : (ferrySet f v d).ctl = d.ctl := rfl
@[simp] theorem ferrySet_net (f : Nat) (v : Ferry) (d : Dev) : (ferrySet f v d).net = d.net := rfl
@[simp] theorem ferrySet_rad (f : Nat) (v : Ferry) (d : Dev) : (ferrySet f v d).rad = d.rad := rfl
@[simp] theorem ferrySet_pos (f : Nat) (v : Ferry) (d : Dev) : (ferrySet f v d).pos = d.pos := rfl

@[simp] theorem lockSet_raw (n v : Nat) (d : Dev) : (lockSet n v d).raw = d.raw := rfl
@[simp] theorem lockSet_regs (n v : Nat) (d : Dev) : (lockSet n v d).regs = d.regs := rfl
@[simp] theorem lockSet_latch (n v : Nat) (d : Dev) : (lockSet n v d).latch = d.latch := rfl
@[simp] theorem lockSet_held (n v : Nat) (d : Dev) : (lockSet n v d).held = d.held := rfl
@[simp] theorem lockSet_rdata (n v : Nat) (d : Dev) : (lockSet n v d).rdata = d.rdata := rfl
@[simp] theorem lockSet_free (n v : Nat) (d : Dev) : (lockSet n v d).free = d.free := rfl
@[simp] theorem lockSet_sent (n v : Nat) (d : Dev) : (lockSet n v d).sent = d.sent := rfl
@[simp] theorem lockSet_isl (n v : Nat) (d : Dev) : (lockSet n v d).isl = d.isl := rfl
@[simp] theorem lockSet_sq (n v : Nat) (d : Dev) : (lockSet n v d).sq = d.sq := rfl
@[simp] theorem lockSet_ferry (n v : Nat) (d : Dev) : (lockSet n v d).ferry = d.ferry := rfl
@[simp] theorem lockSet_ferrySeq (n v : Nat) (d : Dev) : (lockSet n v d).ferrySeq = d.ferrySeq := rfl
@[simp] theorem lockSet_bellDue (n v : Nat) (d : Dev) : (lockSet n v d).bellDue = d.bellDue := rfl
@[simp] theorem lockSet_batchDue (n v : Nat) (d : Dev) : (lockSet n v d).batchDue = d.batchDue := rfl
@[simp] theorem lockSet_keep (n v : Nat) (d : Dev) : (lockSet n v d).keep = d.keep := rfl
@[simp] theorem lockSet_aon (n v : Nat) (d : Dev) : (lockSet n v d).aon = d.aon := rfl
@[simp] theorem lockSet_sec (n v : Nat) (d : Dev) : (lockSet n v d).sec = d.sec := rfl
@[simp] theorem lockSet_app (n v : Nat) (d : Dev) : (lockSet n v d).app = d.app := rfl
@[simp] theorem lockSet_sch (n v : Nat) (d : Dev) : (lockSet n v d).sch = d.sch := rfl
@[simp] theorem lockSet_mem (n v : Nat) (d : Dev) : (lockSet n v d).mem = d.mem := rfl
@[simp] theorem lockSet_ctl (n v : Nat) (d : Dev) : (lockSet n v d).ctl = d.ctl := rfl
@[simp] theorem lockSet_net (n v : Nat) (d : Dev) : (lockSet n v d).net = d.net := rfl
@[simp] theorem lockSet_rad (n v : Nat) (d : Dev) : (lockSet n v d).rad = d.rad := rfl
@[simp] theorem lockSet_pos (n v : Nat) (d : Dev) : (lockSet n v d).pos = d.pos := rfl

@[simp] theorem chanSet_raw (c : Nat) (v : Chan) (d : Dev) : (chanSet c v d).raw = d.raw := rfl
@[simp] theorem chanSet_regs (c : Nat) (v : Chan) (d : Dev) : (chanSet c v d).regs = d.regs := rfl
@[simp] theorem chanSet_latch (c : Nat) (v : Chan) (d : Dev) : (chanSet c v d).latch = d.latch := rfl
@[simp] theorem chanSet_held (c : Nat) (v : Chan) (d : Dev) : (chanSet c v d).held = d.held := rfl
@[simp] theorem chanSet_rdata (c : Nat) (v : Chan) (d : Dev) : (chanSet c v d).rdata = d.rdata := rfl
@[simp] theorem chanSet_free (c : Nat) (v : Chan) (d : Dev) : (chanSet c v d).free = d.free := rfl
@[simp] theorem chanSet_sent (c : Nat) (v : Chan) (d : Dev) : (chanSet c v d).sent = d.sent := rfl
@[simp] theorem chanSet_isl (c : Nat) (v : Chan) (d : Dev) : (chanSet c v d).isl = d.isl := rfl
@[simp] theorem chanSet_sq (c : Nat) (v : Chan) (d : Dev) : (chanSet c v d).sq = d.sq := rfl
@[simp] theorem chanSet_lock (c : Nat) (v : Chan) (d : Dev) : (chanSet c v d).lock = d.lock := rfl
@[simp] theorem chanSet_ferry (c : Nat) (v : Chan) (d : Dev) : (chanSet c v d).ferry = d.ferry := rfl
@[simp] theorem chanSet_ferrySeq (c : Nat) (v : Chan) (d : Dev) : (chanSet c v d).ferrySeq = d.ferrySeq := rfl
@[simp] theorem chanSet_bellDue (c : Nat) (v : Chan) (d : Dev) : (chanSet c v d).bellDue = d.bellDue := rfl
@[simp] theorem chanSet_batchDue (c : Nat) (v : Chan) (d : Dev) : (chanSet c v d).batchDue = d.batchDue := rfl
@[simp] theorem chanSet_keep (c : Nat) (v : Chan) (d : Dev) : (chanSet c v d).keep = d.keep := rfl
@[simp] theorem chanSet_aon (c : Nat) (v : Chan) (d : Dev) : (chanSet c v d).aon = d.aon := rfl
@[simp] theorem chanSet_sec (c : Nat) (v : Chan) (d : Dev) : (chanSet c v d).sec = d.sec := rfl
@[simp] theorem chanSet_app (c : Nat) (v : Chan) (d : Dev) : (chanSet c v d).app = d.app := rfl
@[simp] theorem chanSet_sch (c : Nat) (v : Chan) (d : Dev) : (chanSet c v d).sch = d.sch := rfl
@[simp] theorem chanSet_ctl (c : Nat) (v : Chan) (d : Dev) : (chanSet c v d).ctl = d.ctl := rfl
@[simp] theorem chanSet_net (c : Nat) (v : Chan) (d : Dev) : (chanSet c v d).net = d.net := rfl
@[simp] theorem chanSet_rad (c : Nat) (v : Chan) (d : Dev) : (chanSet c v d).rad = d.rad := rfl
@[simp] theorem chanSet_pos (c : Nat) (v : Chan) (d : Dev) : (chanSet c v d).pos = d.pos := rfl

@[simp] theorem infSet_raw (k : Nat) (v : Option Inf) (d : Dev) : (infSet k v d).raw = d.raw := rfl
@[simp] theorem infSet_regs (k : Nat) (v : Option Inf) (d : Dev) : (infSet k v d).regs = d.regs := rfl
@[simp] theorem infSet_latch (k : Nat) (v : Option Inf) (d : Dev) : (infSet k v d).latch = d.latch := rfl
@[simp] theorem infSet_held (k : Nat) (v : Option Inf) (d : Dev) : (infSet k v d).held = d.held := rfl
@[simp] theorem infSet_rdata (k : Nat) (v : Option Inf) (d : Dev) : (infSet k v d).rdata = d.rdata := rfl
@[simp] theorem infSet_free (k : Nat) (v : Option Inf) (d : Dev) : (infSet k v d).free = d.free := rfl
@[simp] theorem infSet_sent (k : Nat) (v : Option Inf) (d : Dev) : (infSet k v d).sent = d.sent := rfl
@[simp] theorem infSet_isl (k : Nat) (v : Option Inf) (d : Dev) : (infSet k v d).isl = d.isl := rfl
@[simp] theorem infSet_sq (k : Nat) (v : Option Inf) (d : Dev) : (infSet k v d).sq = d.sq := rfl
@[simp] theorem infSet_lock (k : Nat) (v : Option Inf) (d : Dev) : (infSet k v d).lock = d.lock := rfl
@[simp] theorem infSet_ferry (k : Nat) (v : Option Inf) (d : Dev) : (infSet k v d).ferry = d.ferry := rfl
@[simp] theorem infSet_ferrySeq (k : Nat) (v : Option Inf) (d : Dev) : (infSet k v d).ferrySeq = d.ferrySeq := rfl
@[simp] theorem infSet_bellDue (k : Nat) (v : Option Inf) (d : Dev) : (infSet k v d).bellDue = d.bellDue := rfl
@[simp] theorem infSet_batchDue (k : Nat) (v : Option Inf) (d : Dev) : (infSet k v d).batchDue = d.batchDue := rfl
@[simp] theorem infSet_keep (k : Nat) (v : Option Inf) (d : Dev) : (infSet k v d).keep = d.keep := rfl
@[simp] theorem infSet_aon (k : Nat) (v : Option Inf) (d : Dev) : (infSet k v d).aon = d.aon := rfl
@[simp] theorem infSet_sec (k : Nat) (v : Option Inf) (d : Dev) : (infSet k v d).sec = d.sec := rfl
@[simp] theorem infSet_app (k : Nat) (v : Option Inf) (d : Dev) : (infSet k v d).app = d.app := rfl
@[simp] theorem infSet_mem (k : Nat) (v : Option Inf) (d : Dev) : (infSet k v d).mem = d.mem := rfl
@[simp] theorem infSet_ctl (k : Nat) (v : Option Inf) (d : Dev) : (infSet k v d).ctl = d.ctl := rfl
@[simp] theorem infSet_net (k : Nat) (v : Option Inf) (d : Dev) : (infSet k v d).net = d.net := rfl
@[simp] theorem infSet_rad (k : Nat) (v : Option Inf) (d : Dev) : (infSet k v d).rad = d.rad := rfl
@[simp] theorem infSet_pos (k : Nat) (v : Option Inf) (d : Dev) : (infSet k v d).pos = d.pos := rfl

@[simp] theorem ctxSet_raw (c : Nat) (v : CtxS) (d : Dev) : (ctxSet c v d).raw = d.raw := rfl
@[simp] theorem ctxSet_regs (c : Nat) (v : CtxS) (d : Dev) : (ctxSet c v d).regs = d.regs := rfl
@[simp] theorem ctxSet_latch (c : Nat) (v : CtxS) (d : Dev) : (ctxSet c v d).latch = d.latch := rfl
@[simp] theorem ctxSet_held (c : Nat) (v : CtxS) (d : Dev) : (ctxSet c v d).held = d.held := rfl
@[simp] theorem ctxSet_rdata (c : Nat) (v : CtxS) (d : Dev) : (ctxSet c v d).rdata = d.rdata := rfl
@[simp] theorem ctxSet_free (c : Nat) (v : CtxS) (d : Dev) : (ctxSet c v d).free = d.free := rfl
@[simp] theorem ctxSet_sent (c : Nat) (v : CtxS) (d : Dev) : (ctxSet c v d).sent = d.sent := rfl
@[simp] theorem ctxSet_isl (c : Nat) (v : CtxS) (d : Dev) : (ctxSet c v d).isl = d.isl := rfl
@[simp] theorem ctxSet_sq (c : Nat) (v : CtxS) (d : Dev) : (ctxSet c v d).sq = d.sq := rfl
@[simp] theorem ctxSet_lock (c : Nat) (v : CtxS) (d : Dev) : (ctxSet c v d).lock = d.lock := rfl
@[simp] theorem ctxSet_ferry (c : Nat) (v : CtxS) (d : Dev) : (ctxSet c v d).ferry = d.ferry := rfl
@[simp] theorem ctxSet_ferrySeq (c : Nat) (v : CtxS) (d : Dev) : (ctxSet c v d).ferrySeq = d.ferrySeq := rfl
@[simp] theorem ctxSet_bellDue (c : Nat) (v : CtxS) (d : Dev) : (ctxSet c v d).bellDue = d.bellDue := rfl
@[simp] theorem ctxSet_batchDue (c : Nat) (v : CtxS) (d : Dev) : (ctxSet c v d).batchDue = d.batchDue := rfl
@[simp] theorem ctxSet_keep (c : Nat) (v : CtxS) (d : Dev) : (ctxSet c v d).keep = d.keep := rfl
@[simp] theorem ctxSet_aon (c : Nat) (v : CtxS) (d : Dev) : (ctxSet c v d).aon = d.aon := rfl
@[simp] theorem ctxSet_sec (c : Nat) (v : CtxS) (d : Dev) : (ctxSet c v d).sec = d.sec := rfl
@[simp] theorem ctxSet_app (c : Nat) (v : CtxS) (d : Dev) : (ctxSet c v d).app = d.app := rfl
@[simp] theorem ctxSet_sch (c : Nat) (v : CtxS) (d : Dev) : (ctxSet c v d).sch = d.sch := rfl
@[simp] theorem ctxSet_mem (c : Nat) (v : CtxS) (d : Dev) : (ctxSet c v d).mem = d.mem := rfl
@[simp] theorem ctxSet_ctl (c : Nat) (v : CtxS) (d : Dev) : (ctxSet c v d).ctl = d.ctl := rfl
@[simp] theorem ctxSet_net (c : Nat) (v : CtxS) (d : Dev) : (ctxSet c v d).net = d.net := rfl
@[simp] theorem ctxSet_pos (c : Nat) (v : CtxS) (d : Dev) : (ctxSet c v d).pos = d.pos := rfl

@[simp] theorem axSet_raw (a : Nat) (x : AxS) (d : Dev) : (axSet a x d).raw = d.raw := rfl
@[simp] theorem axSet_regs (a : Nat) (x : AxS) (d : Dev) : (axSet a x d).regs = d.regs := rfl
@[simp] theorem axSet_latch (a : Nat) (x : AxS) (d : Dev) : (axSet a x d).latch = d.latch := rfl
@[simp] theorem axSet_held (a : Nat) (x : AxS) (d : Dev) : (axSet a x d).held = d.held := rfl
@[simp] theorem axSet_rdata (a : Nat) (x : AxS) (d : Dev) : (axSet a x d).rdata = d.rdata := rfl
@[simp] theorem axSet_free (a : Nat) (x : AxS) (d : Dev) : (axSet a x d).free = d.free := rfl
@[simp] theorem axSet_sent (a : Nat) (x : AxS) (d : Dev) : (axSet a x d).sent = d.sent := rfl
@[simp] theorem axSet_isl (a : Nat) (x : AxS) (d : Dev) : (axSet a x d).isl = d.isl := rfl
@[simp] theorem axSet_sq (a : Nat) (x : AxS) (d : Dev) : (axSet a x d).sq = d.sq := rfl
@[simp] theorem axSet_lock (a : Nat) (x : AxS) (d : Dev) : (axSet a x d).lock = d.lock := rfl
@[simp] theorem axSet_ferry (a : Nat) (x : AxS) (d : Dev) : (axSet a x d).ferry = d.ferry := rfl
@[simp] theorem axSet_ferrySeq (a : Nat) (x : AxS) (d : Dev) : (axSet a x d).ferrySeq = d.ferrySeq := rfl
@[simp] theorem axSet_bellDue (a : Nat) (x : AxS) (d : Dev) : (axSet a x d).bellDue = d.bellDue := rfl
@[simp] theorem axSet_batchDue (a : Nat) (x : AxS) (d : Dev) : (axSet a x d).batchDue = d.batchDue := rfl
@[simp] theorem axSet_keep (a : Nat) (x : AxS) (d : Dev) : (axSet a x d).keep = d.keep := rfl
@[simp] theorem axSet_aon (a : Nat) (x : AxS) (d : Dev) : (axSet a x d).aon = d.aon := rfl
@[simp] theorem axSet_sec (a : Nat) (x : AxS) (d : Dev) : (axSet a x d).sec = d.sec := rfl
@[simp] theorem axSet_app (a : Nat) (x : AxS) (d : Dev) : (axSet a x d).app = d.app := rfl
@[simp] theorem axSet_sch (a : Nat) (x : AxS) (d : Dev) : (axSet a x d).sch = d.sch := rfl
@[simp] theorem axSet_mem (a : Nat) (x : AxS) (d : Dev) : (axSet a x d).mem = d.mem := rfl
@[simp] theorem axSet_net (a : Nat) (x : AxS) (d : Dev) : (axSet a x d).net = d.net := rfl
@[simp] theorem axSet_rad (a : Nat) (x : AxS) (d : Dev) : (axSet a x d).rad = d.rad := rfl
@[simp] theorem axSet_pos (a : Nat) (x : AxS) (d : Dev) : (axSet a x d).pos = d.pos := rfl

/-! ## A core -/

@[simp] theorem next_run (c : Core) : (c.next).run = c.run := rfl
@[simp] theorem next_fatal (c : Core) : (c.next).fatal = c.fatal := rfl
@[simp] theorem next_from_ (c : Core) : (c.next).from_ = c.from_ := rfl
@[simp] theorem next_np (c : Core) : (c.next).np = c.np := rfl
@[simp] theorem next_npAt (c : Core) : (c.next).npAt = c.npAt := rfl
@[simp] theorem next_nplim (c : Core) : (c.next).nplim = c.nplim := rfl
@[simp] theorem next_npmax (c : Core) : (c.next).npmax = c.npmax := rfl
@[simp] theorem next_ptroot (c : Core) : (c.next).ptroot = c.ptroot := rfl
@[simp] theorem next_asid (c : Core) : (c.next).asid = c.asid := rfl
@[simp] theorem next_iret (c : Core) : (c.next).iret = c.iret := rfl
@[simp] theorem next_es (c : Core) : (c.next).es = c.es := rfl
@[simp] theorem next_em (c : Core) : (c.next).em = c.em := rfl
@[simp] theorem next_edeleg (c : Core) : (c.next).edeleg = c.edeleg := rfl
@[simp] theorem next_fatalc (c : Core) : (c.next).fatalc = c.fatalc := rfl
@[simp] theorem next_fatalpc (c : Core) : (c.next).fatalpc = c.fatalpc := rfl
@[simp] theorem next_stall (c : Core) : (c.next).stall = c.stall := rfl
@[simp] theorem next_x_g (c : Core) : (c.next).x.g = c.x.g := rfl
@[simp] theorem next_x_v (c : Core) : (c.next).x.v = c.x.v := rfl
@[simp] theorem next_x_p (c : Core) : (c.next).x.p = c.x.p := rfl
@[simp] theorem next_x_fpcsr (c : Core) : (c.next).x.fpcsr = c.x.fpcsr := rfl
@[simp] theorem next_x_residx (c : Core) : (c.next).x.residx = c.x.residx := rfl
@[simp] theorem next_x_lkcnt (c : Core) : (c.next).x.lkcnt = c.x.lkcnt := rfl
@[simp] theorem next_x_lvl (c : Core) : (c.next).x.lvl = c.x.lvl := rfl

@[simp] theorem goto_run (a : W64) (c : Core) : (c.goto_ a).run = c.run := rfl
@[simp] theorem goto_fatal (a : W64) (c : Core) : (c.goto_ a).fatal = c.fatal := rfl
@[simp] theorem goto_from_ (a : W64) (c : Core) : (c.goto_ a).from_ = c.from_ := rfl
@[simp] theorem goto_np (a : W64) (c : Core) : (c.goto_ a).np = c.np := rfl
@[simp] theorem goto_npAt (a : W64) (c : Core) : (c.goto_ a).npAt = c.npAt := rfl
@[simp] theorem goto_nplim (a : W64) (c : Core) : (c.goto_ a).nplim = c.nplim := rfl
@[simp] theorem goto_npmax (a : W64) (c : Core) : (c.goto_ a).npmax = c.npmax := rfl
@[simp] theorem goto_ptroot (a : W64) (c : Core) : (c.goto_ a).ptroot = c.ptroot := rfl
@[simp] theorem goto_asid (a : W64) (c : Core) : (c.goto_ a).asid = c.asid := rfl
@[simp] theorem goto_iret (a : W64) (c : Core) : (c.goto_ a).iret = c.iret := rfl
@[simp] theorem goto_es (a : W64) (c : Core) : (c.goto_ a).es = c.es := rfl
@[simp] theorem goto_em (a : W64) (c : Core) : (c.goto_ a).em = c.em := rfl
@[simp] theorem goto_edeleg (a : W64) (c : Core) : (c.goto_ a).edeleg = c.edeleg := rfl
@[simp] theorem goto_fatalc (a : W64) (c : Core) : (c.goto_ a).fatalc = c.fatalc := rfl
@[simp] theorem goto_fatalpc (a : W64) (c : Core) : (c.goto_ a).fatalpc = c.fatalpc := rfl
@[simp] theorem goto_stall (a : W64) (c : Core) : (c.goto_ a).stall = c.stall := rfl
@[simp] theorem goto_x_g (a : W64) (c : Core) : (c.goto_ a).x.g = c.x.g := rfl
@[simp] theorem goto_x_v (a : W64) (c : Core) : (c.goto_ a).x.v = c.x.v := rfl
@[simp] theorem goto_x_p (a : W64) (c : Core) : (c.goto_ a).x.p = c.x.p := rfl
@[simp] theorem goto_x_fpcsr (a : W64) (c : Core) : (c.goto_ a).x.fpcsr = c.x.fpcsr := rfl
@[simp] theorem goto_x_residx (a : W64) (c : Core) : (c.goto_ a).x.residx = c.x.residx := rfl
@[simp] theorem goto_x_lkcnt (a : W64) (c : Core) : (c.goto_ a).x.lkcnt = c.x.lkcnt := rfl
@[simp] theorem goto_x_lvl (a : W64) (c : Core) : (c.goto_ a).x.lvl = c.x.lvl := rfl

@[simp] theorem res_run (i : Nat) (c : Core) : (c.res i).run = c.run := rfl
@[simp] theorem res_fatal (i : Nat) (c : Core) : (c.res i).fatal = c.fatal := rfl
@[simp] theorem res_from_ (i : Nat) (c : Core) : (c.res i).from_ = c.from_ := rfl
@[simp] theorem res_np (i : Nat) (c : Core) : (c.res i).np = c.np := rfl
@[simp] theorem res_npAt (i : Nat) (c : Core) : (c.res i).npAt = c.npAt := rfl
@[simp] theorem res_nplim (i : Nat) (c : Core) : (c.res i).nplim = c.nplim := rfl
@[simp] theorem res_npmax (i : Nat) (c : Core) : (c.res i).npmax = c.npmax := rfl
@[simp] theorem res_ptroot (i : Nat) (c : Core) : (c.res i).ptroot = c.ptroot := rfl
@[simp] theorem res_asid (i : Nat) (c : Core) : (c.res i).asid = c.asid := rfl
@[simp] theorem res_iret (i : Nat) (c : Core) : (c.res i).iret = c.iret := rfl
@[simp] theorem res_es (i : Nat) (c : Core) : (c.res i).es = c.es := rfl
@[simp] theorem res_em (i : Nat) (c : Core) : (c.res i).em = c.em := rfl
@[simp] theorem res_edeleg (i : Nat) (c : Core) : (c.res i).edeleg = c.edeleg := rfl
@[simp] theorem res_fatalc (i : Nat) (c : Core) : (c.res i).fatalc = c.fatalc := rfl
@[simp] theorem res_fatalpc (i : Nat) (c : Core) : (c.res i).fatalpc = c.fatalpc := rfl
@[simp] theorem res_stall (i : Nat) (c : Core) : (c.res i).stall = c.stall := rfl
@[simp] theorem res_x_g (i : Nat) (c : Core) : (c.res i).x.g = c.x.g := rfl
@[simp] theorem res_x_v (i : Nat) (c : Core) : (c.res i).x.v = c.x.v := rfl
@[simp] theorem res_x_p (i : Nat) (c : Core) : (c.res i).x.p = c.x.p := rfl
@[simp] theorem res_x_pc (i : Nat) (c : Core) : (c.res i).x.pc = c.x.pc := rfl
@[simp] theorem res_x_fpcsr (i : Nat) (c : Core) : (c.res i).x.fpcsr = c.x.fpcsr := rfl
@[simp] theorem res_x_lkcnt (i : Nat) (c : Core) : (c.res i).x.lkcnt = c.x.lkcnt := rfl
@[simp] theorem res_x_lvl (i : Nat) (c : Core) : (c.res i).x.lvl = c.x.lvl := rfl

@[simp] theorem sticky_run (fl : Nat) (c : Core) : (c.sticky fl).run = c.run := rfl
@[simp] theorem sticky_fatal (fl : Nat) (c : Core) : (c.sticky fl).fatal = c.fatal := rfl
@[simp] theorem sticky_from_ (fl : Nat) (c : Core) : (c.sticky fl).from_ = c.from_ := rfl
@[simp] theorem sticky_np (fl : Nat) (c : Core) : (c.sticky fl).np = c.np := rfl
@[simp] theorem sticky_npAt (fl : Nat) (c : Core) : (c.sticky fl).npAt = c.npAt := rfl
@[simp] theorem sticky_nplim (fl : Nat) (c : Core) : (c.sticky fl).nplim = c.nplim := rfl
@[simp] theorem sticky_npmax (fl : Nat) (c : Core) : (c.sticky fl).npmax = c.npmax := rfl
@[simp] theorem sticky_ptroot (fl : Nat) (c : Core) : (c.sticky fl).ptroot = c.ptroot := rfl
@[simp] theorem sticky_asid (fl : Nat) (c : Core) : (c.sticky fl).asid = c.asid := rfl
@[simp] theorem sticky_iret (fl : Nat) (c : Core) : (c.sticky fl).iret = c.iret := rfl
@[simp] theorem sticky_es (fl : Nat) (c : Core) : (c.sticky fl).es = c.es := rfl
@[simp] theorem sticky_em (fl : Nat) (c : Core) : (c.sticky fl).em = c.em := rfl
@[simp] theorem sticky_edeleg (fl : Nat) (c : Core) : (c.sticky fl).edeleg = c.edeleg := rfl
@[simp] theorem sticky_fatalc (fl : Nat) (c : Core) : (c.sticky fl).fatalc = c.fatalc := rfl
@[simp] theorem sticky_fatalpc (fl : Nat) (c : Core) : (c.sticky fl).fatalpc = c.fatalpc := rfl
@[simp] theorem sticky_stall (fl : Nat) (c : Core) : (c.sticky fl).stall = c.stall := rfl
@[simp] theorem sticky_x_g (fl : Nat) (c : Core) : (c.sticky fl).x.g = c.x.g := rfl
@[simp] theorem sticky_x_v (fl : Nat) (c : Core) : (c.sticky fl).x.v = c.x.v := rfl
@[simp] theorem sticky_x_p (fl : Nat) (c : Core) : (c.sticky fl).x.p = c.x.p := rfl
@[simp] theorem sticky_x_pc (fl : Nat) (c : Core) : (c.sticky fl).x.pc = c.x.pc := rfl
@[simp] theorem sticky_x_residx (fl : Nat) (c : Core) : (c.sticky fl).x.residx = c.x.residx := rfl
@[simp] theorem sticky_x_lkcnt (fl : Nat) (c : Core) : (c.sticky fl).x.lkcnt = c.x.lkcnt := rfl
@[simp] theorem sticky_x_lvl (fl : Nat) (c : Core) : (c.sticky fl).x.lvl = c.x.lvl := rfl

@[simp] theorem putVec_run (k : Nat) (y : BitVec 256) (c : Core) : (c.putVec k y).run = c.run := rfl
@[simp] theorem putVec_fatal (k : Nat) (y : BitVec 256) (c : Core) : (c.putVec k y).fatal = c.fatal := rfl
@[simp] theorem putVec_from_ (k : Nat) (y : BitVec 256) (c : Core) : (c.putVec k y).from_ = c.from_ := rfl
@[simp] theorem putVec_np (k : Nat) (y : BitVec 256) (c : Core) : (c.putVec k y).np = c.np := rfl
@[simp] theorem putVec_npAt (k : Nat) (y : BitVec 256) (c : Core) : (c.putVec k y).npAt = c.npAt := rfl
@[simp] theorem putVec_nplim (k : Nat) (y : BitVec 256) (c : Core) : (c.putVec k y).nplim = c.nplim := rfl
@[simp] theorem putVec_npmax (k : Nat) (y : BitVec 256) (c : Core) : (c.putVec k y).npmax = c.npmax := rfl
@[simp] theorem putVec_ptroot (k : Nat) (y : BitVec 256) (c : Core) : (c.putVec k y).ptroot = c.ptroot := rfl
@[simp] theorem putVec_asid (k : Nat) (y : BitVec 256) (c : Core) : (c.putVec k y).asid = c.asid := rfl
@[simp] theorem putVec_iret (k : Nat) (y : BitVec 256) (c : Core) : (c.putVec k y).iret = c.iret := rfl
@[simp] theorem putVec_es (k : Nat) (y : BitVec 256) (c : Core) : (c.putVec k y).es = c.es := rfl
@[simp] theorem putVec_em (k : Nat) (y : BitVec 256) (c : Core) : (c.putVec k y).em = c.em := rfl
@[simp] theorem putVec_edeleg (k : Nat) (y : BitVec 256) (c : Core) : (c.putVec k y).edeleg = c.edeleg := rfl
@[simp] theorem putVec_fatalc (k : Nat) (y : BitVec 256) (c : Core) : (c.putVec k y).fatalc = c.fatalc := rfl
@[simp] theorem putVec_fatalpc (k : Nat) (y : BitVec 256) (c : Core) : (c.putVec k y).fatalpc = c.fatalpc := rfl
@[simp] theorem putVec_stall (k : Nat) (y : BitVec 256) (c : Core) : (c.putVec k y).stall = c.stall := rfl
@[simp] theorem putVec_x_g (k : Nat) (y : BitVec 256) (c : Core) : (c.putVec k y).x.g = c.x.g := rfl
@[simp] theorem putVec_x_p (k : Nat) (y : BitVec 256) (c : Core) : (c.putVec k y).x.p = c.x.p := rfl
@[simp] theorem putVec_x_pc (k : Nat) (y : BitVec 256) (c : Core) : (c.putVec k y).x.pc = c.x.pc := rfl
@[simp] theorem putVec_x_fpcsr (k : Nat) (y : BitVec 256) (c : Core) : (c.putVec k y).x.fpcsr = c.x.fpcsr := rfl
@[simp] theorem putVec_x_residx (k : Nat) (y : BitVec 256) (c : Core) : (c.putVec k y).x.residx = c.x.residx := rfl
@[simp] theorem putVec_x_lkcnt (k : Nat) (y : BitVec 256) (c : Core) : (c.putVec k y).x.lkcnt = c.x.lkcnt := rfl
@[simp] theorem putVec_x_lvl (k : Nat) (y : BitVec 256) (c : Core) : (c.putVec k y).x.lvl = c.x.lvl := rfl

@[simp] theorem next_pc (c : Core) : c.next.x.pc = c.x.pc + 4 := rfl
@[simp] theorem goto_pc (a : W64) (c : Core) : (c.goto_ a).x.pc = a := rfl
@[simp] theorem put_run (r : Nat) (v : W64) (c : Core) : (c.put r v).run = c.run := by unfold Core.put; split <;> rfl
@[simp] theorem put_fatal (r : Nat) (v : W64) (c : Core) : (c.put r v).fatal = c.fatal := by unfold Core.put; split <;> rfl
@[simp] theorem put_from_ (r : Nat) (v : W64) (c : Core) : (c.put r v).from_ = c.from_ := by unfold Core.put; split <;> rfl
@[simp] theorem put_np (r : Nat) (v : W64) (c : Core) : (c.put r v).np = c.np := by unfold Core.put; split <;> rfl
@[simp] theorem put_npAt (r : Nat) (v : W64) (c : Core) : (c.put r v).npAt = c.npAt := by unfold Core.put; split <;> rfl
@[simp] theorem put_nplim (r : Nat) (v : W64) (c : Core) : (c.put r v).nplim = c.nplim := by unfold Core.put; split <;> rfl
@[simp] theorem put_npmax (r : Nat) (v : W64) (c : Core) : (c.put r v).npmax = c.npmax := by unfold Core.put; split <;> rfl
@[simp] theorem put_ptroot (r : Nat) (v : W64) (c : Core) : (c.put r v).ptroot = c.ptroot := by unfold Core.put; split <;> rfl
@[simp] theorem put_asid (r : Nat) (v : W64) (c : Core) : (c.put r v).asid = c.asid := by unfold Core.put; split <;> rfl
@[simp] theorem put_iret (r : Nat) (v : W64) (c : Core) : (c.put r v).iret = c.iret := by unfold Core.put; split <;> rfl
@[simp] theorem put_es (r : Nat) (v : W64) (c : Core) : (c.put r v).es = c.es := by unfold Core.put; split <;> rfl
@[simp] theorem put_em (r : Nat) (v : W64) (c : Core) : (c.put r v).em = c.em := by unfold Core.put; split <;> rfl
@[simp] theorem put_edeleg (r : Nat) (v : W64) (c : Core) : (c.put r v).edeleg = c.edeleg := by unfold Core.put; split <;> rfl
@[simp] theorem put_fatalc (r : Nat) (v : W64) (c : Core) : (c.put r v).fatalc = c.fatalc := by unfold Core.put; split <;> rfl
@[simp] theorem put_fatalpc (r : Nat) (v : W64) (c : Core) : (c.put r v).fatalpc = c.fatalpc := by unfold Core.put; split <;> rfl
@[simp] theorem put_stall (r : Nat) (v : W64) (c : Core) : (c.put r v).stall = c.stall := by unfold Core.put; split <;> rfl
@[simp] theorem put_x_v (r : Nat) (v : W64) (c : Core) : (c.put r v).x.v = c.x.v := by unfold Core.put; split <;> rfl
@[simp] theorem put_x_p (r : Nat) (v : W64) (c : Core) : (c.put r v).x.p = c.x.p := by unfold Core.put; split <;> rfl
@[simp] theorem put_x_pc (r : Nat) (v : W64) (c : Core) : (c.put r v).x.pc = c.x.pc := by unfold Core.put; split <;> rfl
@[simp] theorem put_x_fpcsr (r : Nat) (v : W64) (c : Core) : (c.put r v).x.fpcsr = c.x.fpcsr := by unfold Core.put; split <;> rfl
@[simp] theorem put_x_residx (r : Nat) (v : W64) (c : Core) : (c.put r v).x.residx = c.x.residx := by unfold Core.put; split <;> rfl
@[simp] theorem put_x_lkcnt (r : Nat) (v : W64) (c : Core) : (c.put r v).x.lkcnt = c.x.lkcnt := by unfold Core.put; split <;> rfl
@[simp] theorem put_x_lvl (r : Nat) (v : W64) (c : Core) : (c.put r v).x.lvl = c.x.lvl := by unfold Core.put; split <;> rfl

@[simp] theorem putPred_run (k : Nat) (v : W32) (c : Core) : (c.putPred k v).run = c.run := by unfold Core.putPred; split <;> rfl
@[simp] theorem putPred_fatal (k : Nat) (v : W32) (c : Core) : (c.putPred k v).fatal = c.fatal := by unfold Core.putPred; split <;> rfl
@[simp] theorem putPred_from_ (k : Nat) (v : W32) (c : Core) : (c.putPred k v).from_ = c.from_ := by unfold Core.putPred; split <;> rfl
@[simp] theorem putPred_np (k : Nat) (v : W32) (c : Core) : (c.putPred k v).np = c.np := by unfold Core.putPred; split <;> rfl
@[simp] theorem putPred_npAt (k : Nat) (v : W32) (c : Core) : (c.putPred k v).npAt = c.npAt := by unfold Core.putPred; split <;> rfl
@[simp] theorem putPred_nplim (k : Nat) (v : W32) (c : Core) : (c.putPred k v).nplim = c.nplim := by unfold Core.putPred; split <;> rfl
@[simp] theorem putPred_npmax (k : Nat) (v : W32) (c : Core) : (c.putPred k v).npmax = c.npmax := by unfold Core.putPred; split <;> rfl
@[simp] theorem putPred_ptroot (k : Nat) (v : W32) (c : Core) : (c.putPred k v).ptroot = c.ptroot := by unfold Core.putPred; split <;> rfl
@[simp] theorem putPred_asid (k : Nat) (v : W32) (c : Core) : (c.putPred k v).asid = c.asid := by unfold Core.putPred; split <;> rfl
@[simp] theorem putPred_iret (k : Nat) (v : W32) (c : Core) : (c.putPred k v).iret = c.iret := by unfold Core.putPred; split <;> rfl
@[simp] theorem putPred_es (k : Nat) (v : W32) (c : Core) : (c.putPred k v).es = c.es := by unfold Core.putPred; split <;> rfl
@[simp] theorem putPred_em (k : Nat) (v : W32) (c : Core) : (c.putPred k v).em = c.em := by unfold Core.putPred; split <;> rfl
@[simp] theorem putPred_edeleg (k : Nat) (v : W32) (c : Core) : (c.putPred k v).edeleg = c.edeleg := by unfold Core.putPred; split <;> rfl
@[simp] theorem putPred_fatalc (k : Nat) (v : W32) (c : Core) : (c.putPred k v).fatalc = c.fatalc := by unfold Core.putPred; split <;> rfl
@[simp] theorem putPred_fatalpc (k : Nat) (v : W32) (c : Core) : (c.putPred k v).fatalpc = c.fatalpc := by unfold Core.putPred; split <;> rfl
@[simp] theorem putPred_stall (k : Nat) (v : W32) (c : Core) : (c.putPred k v).stall = c.stall := by unfold Core.putPred; split <;> rfl
@[simp] theorem putPred_x_g (k : Nat) (v : W32) (c : Core) : (c.putPred k v).x.g = c.x.g := by unfold Core.putPred; split <;> rfl
@[simp] theorem putPred_x_v (k : Nat) (v : W32) (c : Core) : (c.putPred k v).x.v = c.x.v := by unfold Core.putPred; split <;> rfl
@[simp] theorem putPred_x_pc (k : Nat) (v : W32) (c : Core) : (c.putPred k v).x.pc = c.x.pc := by unfold Core.putPred; split <;> rfl
@[simp] theorem putPred_x_fpcsr (k : Nat) (v : W32) (c : Core) : (c.putPred k v).x.fpcsr = c.x.fpcsr := by unfold Core.putPred; split <;> rfl
@[simp] theorem putPred_x_residx (k : Nat) (v : W32) (c : Core) : (c.putPred k v).x.residx = c.x.residx := by unfold Core.putPred; split <;> rfl
@[simp] theorem putPred_x_lkcnt (k : Nat) (v : W32) (c : Core) : (c.putPred k v).x.lkcnt = c.x.lkcnt := by unfold Core.putPred; split <;> rfl
@[simp] theorem putPred_x_lvl (k : Nat) (v : W32) (c : Core) : (c.putPred k v).x.lvl = c.x.lvl := by unfold Core.putPred; split <;> rfl

/-- g0 reads 0 (R386). -/
@[simp] theorem get_zero (c : Core) : c.get 0 = 0 := rfl

/-- A register reads what was written to it, but g0; the others keep their values (R386). -/
theorem get_put (c : Core) (r k : Nat) (v : W64) : (c.put r v).get k = if k = r ∧ r ≠ 0 then v else c.get k := by
  unfold Core.put Core.get
  by_cases hr : r = 0
  · simp [hr]
  · by_cases hk : k = r
    · subst hk
      simp [hr, tget_tset_same]
    · simp only [hr, if_false, hk, false_and]
      split
      · rfl
      · exact tget_tset_ne _ _ _ _ hk

/-- A core set is the one read back; the others stay. -/
@[simp] theorem coreOf_coreSet (n : Nat) (c : Core) (d : Dev) : coreOf n (coreSet n c d) = c := tget_tset_same _ _ _ _
theorem coreOf_coreSet_ne {n k : Nat} (c : Core) (d : Dev) (h : k ≠ n) : coreOf k (coreSet n c d) = coreOf k d :=
  tget_tset_ne _ _ _ _ h

/-! ## Other tables read back -/

@[simp] theorem qGet_qSet (q : Nat) (v : Queue) (d : Dev) : qGet q (qSet q v d) = v := tget_tset_same _ _ _ _
theorem qGet_qSet_ne {q k : Nat} (v : Queue) (d : Dev) (h : k ≠ q) : qGet k (qSet q v d) = qGet k d := tget_tset_ne _ _ _ _ h
@[simp] theorem ferryOf_ferrySet (f : Nat) (v : Ferry) (d : Dev) : ferryOf f (ferrySet f v d) = v := tget_tset_same _ _ _ _
theorem ferryOf_ferrySet_ne {f k : Nat} (v : Ferry) (d : Dev) (h : k ≠ f) : ferryOf k (ferrySet f v d) = ferryOf k d :=
  tget_tset_ne _ _ _ _ h
@[simp] theorem lockOf_lockSet (n v : Nat) (d : Dev) : lockOf n (lockSet n v d) = v := tget_tset_same _ _ _ _
theorem lockOf_lockSet_ne {n k : Nat} (v : Nat) (d : Dev) (h : k ≠ n) : lockOf k (lockSet n v d) = lockOf k d :=
  tget_tset_ne _ _ _ _ h

/-! ## Memory keeps its canonical form -/

/-- A byte written to DRAM. -/
theorem dramPut_wf {d : Dev} (a v : Nat) (h : twf d.mem.dram 0 = true) : twf (dramPut a v d).mem.dram 0 = true := by
  unfold dramPut
  split
  · exact twf_tset h _ _
  · exact h

theorem foldl_keeps {α β : Type} {P : α → Prop} {f : α → β → α} (hf : ∀ a b, P a → P (f a b)) (l : List β) (a : α) (h : P a) :
    P (l.foldl f a) := by
  induction l generalizing a with
  | nil => exact h
  | cons b r ih => exact ih _ (hf a b h)

/-- Bytes written to DRAM. -/
theorem dramWrite_wf {d : Dev} (a : Nat) (l : List Nat) (h : twf d.mem.dram 0 = true) : twf (dramWrite a l d).mem.dram 0 = true :=
  foldl_keeps (P := fun d : Dev => twf d.mem.dram 0 = true) (fun _ _ h => dramPut_wf _ _ h) _ (unmarked _ _ d) h

/-- Bytes written to the eMMC. -/
theorem emmcWrite_wf {d : Dev} (a : Nat) (l : List Nat) (h : twf d.keep.emmc 0 = true) : twf (emmcWrite a l d).keep.emmc 0 = true :=
  foldl_keeps (P := fun t : Tbl Byte => twf t 0 = true) (fun _ _ h => twf_tset h _ _) _ d.keep.emmc h

/-- A byte written to the retention memory. -/
theorem retPut_wf {d : Dev} (o v : Nat) (h : twf d.aon.ret 0 = true) : twf (retPut o v d).aon.ret 0 = true := twf_tset h _ _

/-- A word stored to the track graph. -/
theorem graphWrite_wf {d : Dev} (o v : Nat) (h : twf d.sch.sram 0 = true) : twf (graphWrite o v d).sch.sram 0 = true := by
  unfold graphWrite
  split
  · exact h
  · dsimp only
    repeat' split
    all_goals first
      | exact h
      | exact foldl_keeps (P := fun t : Tbl Byte => twf t 0 = true) (fun _ _ h => twf_tset h _ _) _ d.sch.sram h

/-- A field written. -/
theorem wr_wf {d : Dev} (f : Fld) (v : Nat) (h : d.regs.Pairwise (fun a b => a.1 < b.1)) :
    (wr f v d).regs.Pairwise (fun a b => a.1 < b.1) := by
  simp only [wr, tset]
  split
  · exact h.filter _
  · exact tput_sorted h

end Sys2Proof.Laws
end

