-- ==== Sys2Proof/Laws/Steps.lean ====
section
/-! SUPPORT. Laws/Steps.lean: what the lifts of effects answer, and how a core's instruction ends. -/

namespace Sys2Proof.Laws

open Sys2Proof.Machine Sys2Proof.Safety

theorem onDev_eq (s : State) (f : Fuses → Dev → Dev) : onDev s f = .next (after s (f s.fuses (start s))) := rfl

theorem onAon_eq (s : State) (f : Fuses → Dev → Dev) :
    onAon s f = .next (after s (whenUp AONi (f s.fuses) (start s))) := rfl

theorem onFuses_eq (s : State) (f : Fuses → Dev → Fuses × Dev) : onFuses s f = .next (both s (f s.fuses (start s))) := rfl

/-- A command of the scheduler ends with what waited for it (R427, R441). -/
theorem withTies_eq (s : State) (d : Dev) :
    withTies (.next (after s d)) = .next (after s (whenRuns SCHi (tiesDone s.pending) d)) := rfl

theorem whenUp_up {i : Nat} {f : Dev → Dev} {d : Dev} (h : isUp i d = true) : whenUp i f d = f d := by simp [whenUp, h]

theorem whenUp_down {i : Nat} {f : Dev → Dev} {d : Dev} (h : isUp i d = false) : whenUp i f d = d := by simp [whenUp, h]

theorem whenRuns_runs {i : Nat} {f : Dev → Dev} {d : Dev} (h : runs i d = true) : whenRuns i f d = f d := by simp [whenRuns, h]

theorem whenRuns_not {i : Nat} {f : Dev → Dev} {d : Dev} (h : runs i d = false) : whenRuns i f d = d := by simp [whenRuns, h]

/-- An island that runs is up. -/
theorem runs_up {i : Nat} {d : Dev} (h : runs i d = true) : isUp i d = true := by
  simp only [runs, Bool.and_eq_true] at h
  exact h.1

theorem runs_down {i : Nat} {d : Dev} (h : isUp i d = false) : runs i d = false := by simp [runs, h]

/-- What a hardware consumer does with a packet that has no error (R370). -/
theorem hwTry_clean {q : Nat} {lost : Dev → Dev} {f : Packet → Dev → Dev} {d : Dev} {p : Packet} (h : hwPeek q d = some p)
    (he : p.ecc = .clean) : hwTry q lost f d = f p d := by
  simp [hwTry, eccTry, h, he, worseEcc]

/-- What a hardware consumer does with a packet that is not lost (R370). -/
theorem eccTry_heeds {q : Nat} {e : Ecc} {lost : Dev → Dev} {f : Packet → Dev → Dev} {d : Dev} {p : Packet}
    (h : hwPeek q d = some p) (he : worseEcc e p.ecc ≠ .double) :
    eccTry q e lost f d = f p (heeded q (worseEcc e p.ecc) d) := by
  unfold eccTry heeded
  cases hw : worseEcc e p.ecc <;> simp_all

/-- What it does with one that is lost (R370). -/
theorem eccTry_loses {q : Nat} {e : Ecc} {lost : Dev → Dev} {f : Packet → Dev → Dev} {d : Dev} {p : Packet}
    (h : hwPeek q d = some p) (he : worseEcc e p.ecc = .double) : eccTry q e lost f d = lost (sqEcc q (hwTaken q d)) := by
  simp [eccTry, h, he]

@[simp] theorem worseEcc_clean (e : Ecc) : worseEcc .clean e = e := by cases e <;> rfl

/-- The same of a consumer whose command says nothing of ECC. -/
theorem hwTry_heeds {q : Nat} {lost : Dev → Dev} {f : Packet → Dev → Dev} {d : Dev} {p : Packet} (h : hwPeek q d = some p)
    (he : p.ecc ≠ .double) : hwTry q lost f d = f p (heeded q p.ecc d) := by
  rw [hwTry, eccTry_heeds h (by simpa using he), worseEcc_clean]

theorem hwTry_loses {q : Nat} {lost : Dev → Dev} {f : Packet → Dev → Dev} {d : Dev} {p : Packet} (h : hwPeek q d = some p)
    (he : p.ecc = .double) : hwTry q lost f d = lost (sqEcc q (hwTaken q d)) := by
  rw [hwTry, eccTry_loses h (by simpa using he)]

theorem fireLater_all (l : List Nat) (n : Nat) (d : Dev) :
    (forAll l fireLater d).raw = d.raw ∧
    tget (forAll l fireLater d).aon.trigRaw n 0 = if n ∈ l then d.raw + 1 else tget d.aon.trigRaw n 0 := by
  induction l generalizing d with
  | nil => simp [forAll]
  | cons k r ih =>
    have h := ih (fireLater k d)
    refine ⟨h.1, h.2.trans ?_⟩
    by_cases hk : n = k
    · subst hk; simp [fireLater, tget_tset_same]
    · simp [fireLater, hk, tget_tset_ne _ _ _ _ hk]

/-- A trigger unit whose EN a waiting command clears does not fire in this raw count (R68). -/
theorem ties_fires {p : List Instr} {n : Nat} {d : Dev} (hn : n < 16) (h : p.any (clearsEn n d) = true) :
    fires n (ties p d) = false := by
  have hm : n ∈ (List.range 16).filter (fun n => p.any (clearsEn n d)) := by simp only [List.mem_filter, List.mem_range]; exact ⟨hn, h⟩
  have ⟨h1, h2⟩ := fireLater_all ((List.range 16).filter (fun n => p.any (clearsEn n d))) n d
  rw [if_pos hm] at h2
  have : ¬ tget (ties p d).aon.trigRaw n 0 ≤ (ties p d).raw := by
    change ¬ tget (forAll _ fireLater d).aon.trigRaw n 0 ≤ (forAll _ fireLater d).raw
    rw [h1, h2]; omega
  simp only [fires, decide_eq_false this, Bool.and_false]

/-- A running channel that comes to the byte at which it meets an error (R446, R469). -/
theorem chFail_at {fu : Fuses} {c at_ : Nat} {emmc w y : Bool} {x : Desc} {d d1 d2 : Dev}
    (h1 : rd (MEM.CHSTAT.STATE c) d = chRun) (h2 : chDesc fu c d = (some x, d1)) (h3 : at_ < x.len)
    (h4 : rd (MEM.CHDONE c) d1 ≤ at_) (he : emmc = false ∨ 2 ≤ x.op) (h5 : (chanOf_ c d1).skip = false)
    (h6 : d2 = dmaUntil fu (fun k => if k = c then some at_ else none)
      (fun y => !(rd (MEM.CHSTAT.STATE c) y == chRun && !decide (at_ ≤ rd (MEM.CHDONE c) y))) (roundsFor d1) d1)
    (h7 : rd (MEM.CHSTAT.STATE c) d2 = chRun) (h8 : rd (MEM.CHDONE c) d2 = at_) (h9 : hostWaits c x d2 = false)
    (h10 : y = if x.op = 1 ∨ x.op = 2 then true else if x.op = 3 then false else w) :
    chFail fu c at_ emmc w false d =
      if emmc then chStop c ⟨6, y, (if y then x.dst else x.src) + at_⟩ (inc MEM.EMMCERR d2)
      else dmaTurn fu (fun _ => none) c (chStrike c (if y then .store else .load) ((if y then x.dst else x.src) + at_) d2) := by
  have hs : (fun y => rd (MEM.CHSTAT.STATE c) y != chRun || decide (at_ ≤ rd (MEM.CHDONE c) y)) =
      (fun y => !(rd (MEM.CHSTAT.STATE c) y == chRun && !decide (at_ ≤ rd (MEM.CHDONE c) y))) := by
    funext y; simp [bne]
  have h : ¬ (x.len ≤ at_ ∨ at_ < rd (MEM.CHDONE c) d1 ∨ (emmc = true ∧ x.op < 2) ∨ (chanOf_ c d1).skip = true) := by
    rintro (h | h | ⟨a, b⟩ | h)
    · omega
    · omega
    · rcases he with he | he
      · simp [he] at a
      · omega
    · simp [h5] at h
  have hd : ¬ (rd (MEM.CHSTAT.STATE c) d2 ≠ chRun ∨ rd (MEM.CHDONE c) d2 ≠ at_ ∨ hostWaits c x d2 = true) := by simp [h7, h8, h9]
  simp only [chFail, h1, ne_eq, not_true_eq_false, if_false, Bool.false_eq_true, h2, if_neg h, hs, ← h6, ← h10]
  simp only [ne_eq] at hd
  rw [if_neg hd]

/-- An instruction a core carries out: one its word spells (R387, R388, R417). -/
theorem issue_eq {k : Code} {n : CoreNo} {w : Nat} {d d' : Dev} {f : Nat → Core → Dev → IRes} (h : Issues n d w d')
    (hk : reads k w = true) : issueDev k n f d = cancelHere n (settle n (f w (coreOf n d) d') d') := by
  obtain ⟨h1, h2, h3⟩ := h
  simp only [reads, Bool.and_eq_true, Bool.not_eq_true'] at hk
  simp [issueDev, h1, h2, h3, hk]

/-- A word that is no instruction's raises ILLEGAL whatever instruction a command names (R388, R408). -/
theorem issue_illegal {k : Code} {n : CoreNo} {w : Nat} {d d' : Dev} {f : Nat → Core → Dev → IRes} (h : Issues n d w d')
    (hw : illegalWord w = true) :
    issueDev k n f d = cancelHere n (takeTrap n ⟨xIllegal, w, false⟩ (coreOf n d).x.pc d') := by
  obtain ⟨h1, h2, h3⟩ := h
  simp [issueDev, h1, h2, h3, hw]

/-- A core that does not issue leaves the block as it is. -/
theorem issue_idle {k : Code} {n : CoreNo} {d : Dev} {f : Nat → Core → Dev → IRes} (h : canIssue n d = false) :
    issueDev k n f d = d := by
  simp [issueDev, h]

/-- An instruction of a cycle program that is the next word's (R340). -/
theorem ctlOp_eq {d : Dev} {r : Running} {c : COp} {f : Dev → Dev} (h : AtOp d r c) : ctlOp c f d = f (fetched r d) := by
  obtain ⟨h1, ⟨w, h2, h3⟩, h4⟩ := h
  simp only [ctlOp, h1, h2, h3, fetched, Option.isSome_iff_ne_none, ne_eq, Option.isNone_iff_eq_none] at h4 ⊢
  simp [h4]

/-- A command at the head of SQ25 (R233). -/
theorem command_eq {d : Dev} {c : Nat} {x : W64} {r : List W64} {f : W64 → List W64 → Dev → Dev} (h : AsksTrack d c x r) :
    command (· == c) f d = f x r (hwTaken 25 d) := by
  obtain ⟨h1, ⟨p, h2, he, h3⟩, h4⟩ := h
  simp [command, h1, hwTry_clean h2 he, h3, h4]

/-- A peer packet at the head of SQ28 (R255). -/
theorem peerIn_eq {d : Dev} {own typ : Nat} {x : W64} {r : List W64} {f : W64 → List W64 → Dev → Dev}
    (h : PeerSays d own typ x r) : peerIn own typ f d = f x r (hwTaken 28 d) := by
  obtain ⟨⟨p, h1, he, h2⟩, h3, h4⟩ := h
  simp [peerIn, hwTry_clean h1 he, h2, h3, h4]

/-- Lanes whose results raise no flag raise none together. -/
theorem lanes_flags (t : VTy) (p : W32) (old : BitVec 256) (f : Nat → Nat) :
    (lanes t p old (fun i => { v := f i })).2 = 0 := by
  have key : ∀ l : List Nat, (∀ x ∈ l, x = 0) → l.foldl (· ||| ·) 0 = 0 := by
    intro l
    induction l with
    | nil => intro _; rfl
    | cons a r ih =>
      intro h
      have ha : a = 0 := h a (by simp)
      subst ha
      exact ih (fun x hx => h x (by simp [hx]))
  apply key
  intro x hx
  simp only [List.map_map, List.mem_map] at hx
  obtain ⟨i, -, rfl⟩ := hx
  simp only [Function.comp]
  split <;> rfl

/-- No flag raised leaves FPCSR as it is. -/
theorem sticky_zero (c : Core) : c.sticky 0 = c := by simp [Core.sticky]

end Sys2Proof.Laws
end

