-- ==== Sys2Proof/WellFormed.lean ====
section
/-! DEFINITION. WellFormed.lean: the checks an operand must pass beyond its type: requesters Table 11-8 names, word-aligned
register addresses, PRNs of GPS, and lengths no frame or list exceeds. -/

namespace Sys2Proof

/-- A requester of Table 11-8: numbers 0 to 11. -/
def Who.wf (w : Who) : Bool := decide (w.rq.val < 12)

/-- A register address names a 32-bit word (R358). -/
def wordAligned (a : Nat) : Bool := a % 4 == 0

/-- A frame an Ethernet port can receive: the bytes after the EtherType. -/
def PortFrame.wf (f : PortFrame) : Bool := decide (f.body.length ≤ 1500)

/-- An ordinary frame: its addresses and EtherType, and at most 1,518 bytes, the longest tagged Ethernet frame without its FCS. -/
def OrdFrame.wf (f : OrdFrame) : Bool := decide (14 ≤ f.bytes.length ∧ f.bytes.length ≤ 1518)

/-- A PRN of Table 05-13's range. -/
def prnOk (p : BitVec 6) : Bool := decide (1 ≤ p.toNat ∧ p.toNat ≤ 32)

/-- The checks of each command. -/
def Instr.wf : Instr → Bool
  | .registerWrite a _ w => wordAligned a.toNat && w.wf
  | .rcRead a w => wordAligned a.toNat && w.wf
  | .pairLowRead a w => wordAligned a.toNat && w.wf
  | .pairLowWrite a _ w => wordAligned a.toNat && w.wf
  | .pairHighWrite a _ w => wordAligned a.toNat && w.wf
  | .powerGood _ _ => true
  | .powerGrantLow _ _ => true
  | .portPowerLoss _ _ => true
  | .restore w => w.wf
  | .brownOut _ => true
  | .j6FilterChange _ _ => true
  | .testWindowCheck _ _ _ _ _ => true
  | .stopDiscrepancy => true
  | .permitStuck => true
  | .permitOvld => true
  | .tpulseOvld => true
  | .povclr w => w.wf
  | .tpovclr w => w.wf
  | .tpen _ w => w.wf
  | .antFault _ => true
  | .biasRetry _ => true
  | .tsnap => true
  | .rarm _ => true
  | .rateChange _ => true
  | .wallCorrection _ _ _ => true
  | .slewEnd => true
  | .stepacc => true
  | .wallHoldover => true
  | .srcChange _ => true
  | .cycleFollow => true
  | .stepenWrite _ => true
  | .coffWrite _ => true
  | .trigctlWrite _ _ => true
  | .triggerFire _ => true
  | .tpulseRise => true
  | .tpulseFall => true
  | .superframeStart _ => true
  | .connectionEvent _ => true
  | .frameReceive _ frame _ _ _ _ => decide (frame.length ≤ 264)
  | .txPacket => true
  | .txpwrWrite _ _ _ => true
  | .dwellLimitWrite _ _ => true
  | .rejoinchWrite _ => true
  | .mapctlArm => true
  | .arm _ _ => true
  | .updarm _ => true
  | .term _ => true
  | .updateInstant _ => true
  | .linkLost _ => true
  | .joiningTimeout _ => true
  | .joinEvent _ => true
  | .joinReq _ frame _ _ _ => decide (frame.length ≤ 264)
  | .fence _ _ => true
  | .loopbackCheck _ _ _ _ => true
  | .decisionInstant _ => true
  | .grantEval _ => true
  | .tokenDelivery _ => true
  | .withdrawal _ _ => true
  | .decisionSnapshot _ => true
  | .globalStopRequest _ _ => true
  | .zoneStop _ _ => true
  | .singleMember _ _ _ => true
  | .forwardedStop _ _ => true
  | .appHeartbeat _ w => w.wf
  | .schHeartbeat _ => true
  | .zgrantWrite _ w => w.wf
  | .unsingle _ w => w.wf
  | .pmctlGstop _ w => w.wf
  | .resume => true
  | .networkResume => true
  | .full w => w.wf
  | .gracereq w => w.wf
  | .graceLapse => true
  | .graceTimeout => true
  | .bkey _ _ => true
  | .basebandEnable _ w => w.wf
  | .acqDwell _ _ _ => true
  | .channelPin _ prn w => prnOk prn && w.wf
  | .channelRelease _ _ w => w.wf
  | .pllHandover _ => true
  | .pullinTimeout _ => true
  | .bitSync _ => true
  | .frameSync _ => true
  | .carrierLoss _ => true
  | .codeLoss _ => true
  | .reacqTimeout _ => true
  | .navWord _ _ => true
  | .ionoValid _ w => w.wf
  | .basePositionValid _ w => w.wf
  | .measLatch m => decide (m.length ≤ 24)
  | .epochRecordComplete => true
  | .timeCorrection => true
  | .fixqReport _ => true
  | .keepUpdate => true
  | .recordIn => true
  | .recordDispatch => true
  | .recordWaitEnd => true
  | .solveDone _ => true
  | .roverEnable _ _ w => w.wf
  | .rovrst _ w => w.wf
  | .siteValid _ w => w.wf
  | .solverEnable _ w => w.wf
  | .permit => true
  | .cancel => true
  | .pass => true
  | .cutack => true
  | .register => true
  | .deregister => true
  | .query => true
  | .solin => true
  | .unfreeze => true
  | .trackCommandBad => true
  | .trackEval _ => true
  | .cutackTimeout _ => true
  | .solutionItem => true
  | .nofixTimeout _ => true
  | .memberLost => true
  | .operatorRelease _ => true
  | .hold => true
  | .holdOk => true
  | .holdRef => true
  | .commit => true
  | .commitOk => true
  | .commitLate => true
  | .abort => true
  | .release => true
  | .peerCut => true
  | .single => true
  | .peerHb => true
  | .peerHbSend => true
  | .holdExpiry => true
  | .peerLost _ => true
  | .peerPacketBad => true
  | .reportQueueRoom => true
  | .trkctlEn _ w => w.wf
  | .graphWrite off _ w => wordAligned off.toNat && w.wf
  | .auctionStart w => w.wf
  | .auctionAbort w => w.wf
  | .auctionDone _ _ => true
  | .auctionTimeout _ _ _ => true
  | .ringCycleStart _ => true
  | .testDeadline _ _ => true
  | .portLinkChange _ _ => true
  | .inputFrame f _ => f.wf
  | .inputDeadline => true
  | .cycenWrite _ w => w.wf
  | .ringenWrite _ w => w.wf
  | .holdFrame => true
  | .ordinaryFrame f => f.all OrdFrame.wf
  | .address => true
  | .announce f => f.wf
  | .inputHandoff => true
  | .programStart _ => true
  | .cycleDeadline => true
  | .progtabWrite _ _ _ w => w.wf
  | .pmemWrite _ _ w => w.wf
  | .ctlctlEn _ w => w.wf
  | .lbcfgReset _ w => w.wf
  | .modereq _ _ w => w.wf
  | .ctlEnd _ _ _ => true
  | .ctlMov _ _ _ => true
  | .ctlLdk _ _ => true
  | .ctlLd _ _ _ => true
  | .ctlSt _ _ => true
  | .ctlIn _ _ _ _ _ => true
  | .ctlOut _ _ _ _ _ => true
  | .ctlAdd _ _ _ => true
  | .ctlSub _ _ _ => true
  | .ctlMul _ _ _ => true
  | .ctlMad _ _ _ => true
  | .ctlDiv _ _ _ => true
  | .ctlSqrt _ _ _ => true
  | .ctlMin _ _ _ => true
  | .ctlMax _ _ _ => true
  | .ctlAbs _ _ _ => true
  | .ctlNeg _ _ _ => true
  | .ctlClt _ _ _ => true
  | .ctlCle _ _ _ => true
  | .ctlCeq _ _ _ => true
  | .ctlSel _ _ _ => true
  | .ctlSkz _ _ => true
  | .ctlSknz _ _ => true
  | .ctlEvery _ _ _ => true
  | .ctlPidstep _ _ _ _ _ _ => true
  | .ctlFilt2 _ _ _ _ _ => true
  | .ctlLimit _ _ _ => true
  | .ctlFfapply _ _ _ _ _ => true
  | .ctlProfile _ _ _ _ => true
  | .ctlLoadang _ _ _ _ => true
  | .ctlModesw _ _ _ _ => true
  | .enable _ w => w.wf
  | .disable _ w => w.wf
  | .move _ w => w.wf
  | .jog _ w => w.wf
  | .stop _ w => w.wf
  | .home _ w => w.wf
  | .frst _ w => w.wf
  | .idlePowerdown _ => true
  | .queuePush _ _ w => w.wf
  | .packetPresentable _ _ => true
  | .queuePop _ _ w => w.wf
  | .mark _ w => w.wf
  | .rewind _ w => w.wf
  | .queueRelease _ w => w.wf
  | .lockRead _ _ => true
  | .lockWrite _ _ w => w.wf
  | .lockfree _ w => w.wf
  | .ferryWrite _ _ _ w => w.wf
  | .send _ _ w => w.wf
  | .take _ w => w.wf
  | .dbmaskWrite _ _ w => w.wf
  | .doorbell _ => true
  | .registerBatch _ => true
  | .add _ _ _ _ => true
  | .sub _ _ _ _ => true
  | .and _ _ _ _ => true
  | .or _ _ _ _ => true
  | .xor _ _ _ _ => true
  | .nor _ _ _ _ => true
  | .sll _ _ _ _ => true
  | .srl _ _ _ _ => true
  | .sra _ _ _ _ => true
  | .mul _ _ _ _ => true
  | .mulhs _ _ _ _ => true
  | .mulhu _ _ _ _ => true
  | .div _ _ _ _ => true
  | .divu _ _ _ _ => true
  | .rem _ _ _ _ => true
  | .remu _ _ _ _ => true
  | .min _ _ _ _ => true
  | .max _ _ _ _ => true
  | .minu _ _ _ _ => true
  | .maxu _ _ _ _ => true
  | .addi _ _ _ _ => true
  | .andi _ _ _ _ => true
  | .ori _ _ _ _ => true
  | .xori _ _ _ _ => true
  | .lui _ _ _ => true
  | .slli _ _ _ _ => true
  | .srli _ _ _ _ => true
  | .srai _ _ _ _ => true
  | .cmpeq _ _ _ _ => true
  | .cmpne _ _ _ _ => true
  | .cmplt _ _ _ _ => true
  | .cmpge _ _ _ _ => true
  | .cmpltu _ _ _ _ => true
  | .cmpgeu _ _ _ _ => true
  | .cmpi _ _ _ _ _ => true
  | .pand _ _ _ _ => true
  | .por _ _ _ _ => true
  | .pxor _ _ _ _ => true
  | .pnot _ _ _ => true
  | .pmov _ _ _ => true
  | .sel _ _ _ _ _ => true
  | .lb _ _ _ _ _ => true
  | .lbu _ _ _ _ _ => true
  | .lh _ _ _ _ _ => true
  | .lhu _ _ _ _ _ => true
  | .lw _ _ _ _ _ => true
  | .lwu _ _ _ _ _ => true
  | .ld _ _ _ _ _ => true
  | .sb _ _ _ _ _ => true
  | .sh _ _ _ _ _ => true
  | .sw _ _ _ _ _ => true
  | .sd _ _ _ _ _ => true
  | .aadd _ _ _ _ _ _ _ _ => true
  | .aswp _ _ _ _ _ _ _ _ => true
  | .acas _ _ _ _ _ _ _ _ => true
  | .pref _ _ _ => true
  | .clean _ _ _ => true
  | .cinval _ _ _ => true
  | .vld _ _ _ _ _ => true
  | .vst _ _ _ _ _ => true
  | .fenceM _ => true
  | .fenceIo _ => true
  | .fenceI _ => true
  | .br _ _ => true
  | .call _ _ => true
  | .bp _ _ _ _ => true
  | .cbz _ _ _ => true
  | .cbnz _ _ _ => true
  | .jr _ _ => true
  | .jalr _ _ _ => true
  | .vadd _ _ _ _ _ _ => true
  | .vsub _ _ _ _ _ _ => true
  | .vmul _ _ _ _ _ _ => true
  | .vfma _ _ _ _ _ _ => true
  | .vdiv _ _ _ _ _ _ => true
  | .vsqrt _ _ _ _ _ => true
  | .vmin _ _ _ _ _ _ => true
  | .vmax _ _ _ _ _ _ => true
  | .viadd _ _ _ _ _ _ => true
  | .visub _ _ _ _ _ _ => true
  | .vimul _ _ _ _ _ _ => true
  | .vand _ _ _ _ _ _ => true
  | .vor _ _ _ _ _ _ => true
  | .vxor _ _ _ _ _ _ => true
  | .vshl _ _ _ _ _ _ => true
  | .vshr _ _ _ _ _ _ => true
  | .vcmpeq _ _ _ _ _ _ => true
  | .vcmplt _ _ _ _ _ _ => true
  | .vcmple _ _ _ _ _ _ => true
  | .vbcast _ _ _ _ _ => true
  | .vperm _ _ _ _ _ _ => true
  | .vext _ _ _ _ _ => true
  | .vins _ _ _ _ _ _ => true
  | .vred _ _ _ _ _ => true
  | .vcvt _ _ _ _ _ _ => true
  | .vscpy _ _ _ _ _ _ _ => true
  | .vsfill _ _ _ _ _ _ => true
  | .vsaxpy _ _ _ _ _ _ _ => true
  | .vsscal _ _ _ _ _ _ => true
  | .vsdot _ _ _ _ _ _ _ => true
  | .fadd _ _ _ _ _ => true
  | .fsub _ _ _ _ _ => true
  | .fmul _ _ _ _ _ => true
  | .fdiv _ _ _ _ _ => true
  | .fsqrt _ _ _ _ => true
  | .fma _ _ _ _ _ => true
  | .fmin _ _ _ _ _ => true
  | .fmax _ _ _ _ _ => true
  | .fcvt _ _ _ _ => true
  | .fcmpeq _ _ _ _ _ => true
  | .fcmplt _ _ _ _ _ => true
  | .fcmple _ _ _ _ _ => true
  | .timerd _ _ _ => true
  | .rawrd _ _ => true
  | .lktry _ _ _ _ => true
  | .lkrel _ _ _ _ => true
  | .pgrel _ _ _ _ _ => true
  | .pgpin _ _ _ _ _ => true
  | .pgunpin _ _ _ _ _ => true
  | .dfready _ _ _ => true
  | .dfpost _ _ _ _ => true
  | .dfcancel _ _ _ => true
  | .dfdone _ _ => true
  | .dfyield _ => true
  | .npb _ => true
  | .npe _ => true
  | .nptime _ => true
  | .mfs _ _ _ _ => true
  | .mts _ _ _ => true
  | .svc _ _ => true
  | .mcall _ _ => true
  | .brk _ _ => true
  | .eret _ => true
  | .preemption _ => true
  | .eventToken _ => true
  | .evcfgEn _ _ w => w.wf
  | .dispatchChoice => true
  | .napEntry _ => true
  | .dfBusyTimeout _ => true
  | .cfenceWrite _ w => w.wf
  | .dfctlEn _ w => w.wf
  | .tlbinv _ w => w.wf
  | .poolen _ w => w.wf
  | .sweepDone => true
  | .pooltake w => w.wf
  | .poolgive _ w => w.wf
  | .memRetire _ w => w.wf
  | .retcntClear w => w.wf
  | .scrub _ => true
  | .dmaStart _ _ w => w.wf
  | .dmaDescriptorDone _ => true
  | .dmaPark _ _ _ _ _ => true
  | .dmaResume _ w => w.wf
  | .dmaSkip _ w => w.wf
  | .dmaAbort _ w => w.wf
  | .aonStartDone => true
  | .bootSlotCheck => true
  | .firmwareEntry => true
  | .bootFail => true
  | .recovery f => f.wf
  | .sporeReady _ => true
  | .sporeRetry _ => true
  | .leave _ w => w.wf
  | .enter w => w.wf
  | .wrm _ w => w.wf
  | .islgo _ _ w => w.wf
  | .islandRelease _ => true
  | .appIslandReset w => w.wf
  | .tmp => true
  | .wdkick _ w => w.wf
  | .wdctlWrite _ w => w.wf
  | .watchdogExpiry => true
  | .secWatchdog => true
  | .standby w => w.wf
  | .hibernate w => w.wf
  | .standbyWake _ f _ => f.all PortFrame.wf
  | .hibernateWake _ => true
  | .capture w => w.wf
  | .captureDone => true
  | .dumpClear w => w.wf
  | .derive => true
  | .discard => true
  | .aes => true
  | .hmac => true
  | .sha256 => true
  | .verify => true
  | .random => true
  | .beaconGen => true
  | .beaconKeySwitch => true
  | .signed => true
  | .serviceEnter => true
  | .serviceExit => true
  | .retire => true
  | .imagekey => true
  | .secver => true
  | .tamperClear f => f.all PortFrame.wf
  | .debugUnlock => true
  | .lichenClear => true
  | .challenge => true
  | .nonceExpiry => true
  | .session => true
  | .ringkey => true
  | .setowner => true
  | .setimagekey => true
  | .deploy => true
  | .retireLocal => true
  | .secRequestBad => true
  | .answerDrop => true
  | .keyMaskRedraw => true
  | .drbgFail => true
  | .tamper _ _ => true
  | .tamperInfo => true
  | .debugClosed => true
  | .lichenRecord => true
  | .lichenWriteDone => true
  | .lichenScan => true
  | .bucketRefill _ => true
  | .lichenRead _ w => w.wf
  | .digestReady => true
  | .blockEraseDone => true
  | .beaconReport _ => true
  | .beaconReportMissing => true
  | .critstatClear _ w => w.wf
  | .selfTestTurn => true
  | .selfTestDone _ => true
  | .clockFault _ _ => true
  | .railFault _ _ => true
  | .tcxoCheck _ => true
  | .rateLearned => true
  | .illegal _ => true
  | .ioSupplyRegulation _ => true
  | .enrolment _ _ => true

end Sys2Proof
end

