-- ==== Sys2Proof/Tests/Slice0.lean ====
section
/-! SUPPORT. Tests/Slice0.lean: states and operands that meet every hypothesis of every statement, clause by clause;
ill-formed commands; published vectors and the spec's worked examples; a few single commands. -/

namespace Sys2Proof.Tests

open Sys2Proof.Machine Sys2Proof.Safety Sys2Proof.Laws

/-- A block with every island running. -/
def up : Dev := { isl := [(0, .up), (1, .up), (2, .up), (3, .up), (4, .up), (5, .up), (6, .up), (7, .up), (8, .up)] }

/-- A state with a block, and with fuses too. -/
def st (d : Dev) : State := { State.reset with dev := d }
def stf (fu : Fuses) (d : Dev) : State := { State.reset with fuses := fu, dev := d }

/-- A queue that presents one packet. -/
def pk (items : List W64) : Packet := { items := items, shown := true }
def q1 (q : Nat) (items : List W64) (d : Dev) : Dev := qSet q { pkts := [pk items] } d

set_option maxRecDepth 20000
set_option Elab.async false

/-- What an option, or a pair's first part, answers names the rest. -/
theorem someGet {α : Type} {o : Option α} (h : o.isSome = true) : o = some (o.get h) := by simp
theorem someGet2 {α β : Type} {o : Option (α × β)} (h : o.isSome = true) : o = some ((o.get h).1, (o.get h).2) := by simp
theorem someGet3 {α β γ : Type} {o : Option (α × β × γ)} (h : o.isSome = true) :
    o = some ((o.get h).1, (o.get h).2.1, (o.get h).2.2) := by simp
theorem pairEq {α β : Type} {p : α × β} {a : α} (h : p.1 = a) : p = (a, p.2) := by rw [← h]
theorem pairSome {α β : Type} {p : Option α × β} (h : p.1.isSome = true) : p = (some (p.1.get h), p.2) := by
  cases p; simp
def okOf {ε α : Type} (x : Except ε α) (h : x.isOk = true) : α :=
  match x, h with
  | .ok a, _ => a
theorem pairOk {ε α β : Type} {p : Except ε α × β} (h : p.1.isOk = true) : p = (.ok (okOf p.1 h), p.2) := by
  obtain ⟨x, y⟩ := p
  cases x with
  | ok a => rfl
  | error e => cases h
theorem pairOk2 {ε α γ β : Type} {p : Except ε (α × γ) × β} (h : p.1.isOk = true) :
    p = (.ok ((okOf p.1 h).1, (okOf p.1 h).2), p.2) := pairOk h

/-- A core at pc 0 at level M, a block in which it runs, and its issue. -/
def pc0 : Core := { x := { pc := 0 } }
def pd (c : Core) : Dev := coreSet 0 c up

/-- A word that spells an instruction, at address 0. -/
def pw (k : Code) (d : Dev) : Dev := dramWrite 0 (leBytes 4 (wordFor k)) d

def okIs {ε : Type} (x : Except ε Nat) (w : Nat) : Bool := match x with | .ok v => v == w | .error _ => false
theorem issues_pd {n : CoreNo} {d : Dev}
    (h : (canIssue n d && !decide ((coreOf n d).nplim < (coreOf n d).npcnt d.raw) && (fetch (coreOf n d) d).1.isOk) = true) :
    Issues n d (okOf (fetch (coreOf n d) d).1 (by simp at h; exact h.2)) (fetch (coreOf n d) d).2 := by
  simp at h
  exact ⟨h.1.1, by omega, pairOk _⟩

/-- The same at level U: a leaf of one GiB maps the core's page table's first addresses. -/
def pcU : Core := { x := { pc := 0, lvl := .u }, ptroot := 0x1000 }
def pdU (c : Core) : Dev :=
  dramWrite 0x1000 (leBytes 8 0x2001) (dramWrite 0x2000 (leBytes 8 (2 ^ 63 + 2 ^ 62 + 0x3B)) (coreSet 0 c up))

/-- A program of one cycle instruction at its start, and a block that runs it. -/
def cr (c : COp) : Running := { prog := [BitVec.ofNat 32 c.enc], next := 0, start := 0 }
def cd (c : COp) : Dev := { up with ctl := { up.ctl with run := some (cr c) } }

/-- A block whose reservation engine takes commands. -/
def tk : Dev := wrB SCH.TRKCTL.EN true up


/-- The block a page or an element leaves. -/
def devP (p : PStep) : Dev := match p with | .next _ d => d | .trap _ d => d | .wait d => d
def coreP (p : PStep) : Core := match p with | .next c _ => c | _ => {}
theorem pageNext {p : PStep} (h : (match p with | .next _ _ => true | _ => false) = true) : p = .next (coreP p) (devP p) := by
  cases p <;> first | rfl | cases h
def devS (p : SStep) : Dev := match p with | .next _ d => d | .trap _ d => d | .wait d => d | .gone d => d
def isCore (c : Core) (p : SStep) : Bool := match p with | .next a _ => a == c | _ => false
theorem elemNext {c : Core} {p : SStep} (h : isCore c p = true) : p = .next c (devS p) := by
  cases p with
  | next a d => simp [isCore] at h; subst h; rfl
  | trap => cases h
  | wait => cases h
  | gone => cases h

/-- Operands that are signalling NaNs or inexact, with every trap enabled. -/
def pcT : Core :=
  { x := { pc := 0, fpcsr := 0x1F0000, g := [(1, 0x7FF0000000000001), (2, 0x7F800001), (3, 0x4000000000000001)],
           v := [(1, 0x7F8000017F8000017F8000017F8000017F8000017F8000017F8000017F800001)] } }

/-- Registers that name an array at 0x100, another at 0x200 and their one element left. -/
def pcE : Core := { x := { pc := 0, g := [(2, 0x100), (3, 0x200), (4, 1), (5, 0x200)] } }

/-- A core above U whose page table maps what it names. -/
def pcP : Core := { x := { pc := 0, lvl := .s, g := [(3, 1)] }, ptroot := 0x1000 }

/-- A graph of one operation with two inputs, as the operation's state and filled slots stand. -/
def gd (state filled : Nat) (c : Core) : Dev :=
  wr SCH.GTCNT 1 (wr SCH.GTBASE 0x4000 (dramWrite 0x4000 (leBytes 8 0x5000 ++ leBytes 4 (2 ^ 31 + 1))
    (dramWrite 0x5000 ([0, 0, 0, 0, 0, 0, 0, 0, 0, 2, 1, 8]) (dramWrite 0x5020 [filled, 0, state] (pd c)))))

/-- A request for SEC in a ferry: its code and its words. -/
def rq (f code : Nat) (w : List Nat) (d : Dev) : Dev :=
  let d := ferrySet f { full := true, hdr := BitVec.ofNat 32 (code * 2 ^ 24 + w.length * 2 ^ 5) } { d with ferrySeq := [(0, f)], raw := d.raw + 1 }
  wr (BELL.DBMASK 8) 0 <| wr (FERRY.FCFG.RECEIVER f) 8 (forAll (List.range w.length) (fun i => wr (FERRY.W f i) (w.getD i 0)) d)

/-- A key in a slot. -/
def slot (n usage : Nat) (key : List Nat) (d : Dev) : Dev :=
  { d with sec := { d.sec with slots := tset d.sec.slots n (some ⟨key.map (fun _ => 0), key, usage, 2⟩) none } }

/-- A block with a placement and timers staged for context 0. -/
def nxtUp : Dev :=
  wr (RAD.TIMERSNXT.SUPV 0) 100 (wr (RAD.TIMERSNXT.STOPTO 0) 4 (wr (RAD.TIMERSNXT.PPM 0) 20
    (wr (RAD.PLACENXT.ANCHOR 0) 4 (wr (RAD.PLACENXT.LEN 0) 4 (wr RAD.TXBUDGET 100000 up)))))

/-- A running DMA channel that has fetched its descriptor. -/
def dm (op : Nat) : Dev :=
  chanSet 0 { desc := some ⟨0x100, 0x200, if op < 2 then 8 else 512, op, true, false, 0, 0⟩ }
    (wr (MEM.CHSTAT.STATE 0) 1 (wr (MEM.CHROOT 0) 0x1000 (pdU pc0)))

/-- A read-out that is its own helper data decodes to zeros. -/
theorem gfMul_zero (b : Nat) : gfMul 0 b = 0 := by
  have h : ∀ l : List Nat, l.foldl (fun z i => gfTwice z ^^^ (if b.testBit (7 - i) then 0 else 0)) 0 = 0 := by
    intro l
    induction l with
    | nil => rfl
    | cons a l ih => simpa [gfTwice] using ih
  exact h _
theorem polyAt_zeros (n x : Nat) : polyAt (List.replicate n 0) x = 0 := by
  induction n with
  | zero => rfl
  | succ n ih => simp only [polyAt] at ih; simp [polyAt, List.replicate_succ, ih, gfMul_zero]
theorem bchDecode_zeros : bchDecode (List.replicate 255 false) = some (List.replicate 255 false) := by
  have h1 : (List.range 36).map (fun j => polyAt (List.replicate 255 0) (gfPow (j + 1))) = List.replicate 36 0 := by
    simp only [polyAt_zeros]; decide +kernel
  have h2 : (List.range 36).foldl (locate (List.replicate 36 0)) {} = { m := 37 } := by decide +kernel
  have h3 : (List.range 255).filter (fun i => polyAt [1] (gfPow (255 - i)) == 0) = [] := by simp [polyAt, gfMul_zero]
  have h : bchErrors (List.replicate 255 false) = some [] := by
    simp only [bchErrors, List.map_replicate, Bool.false_eq_true, if_false, h1, h2, h3]
    decide
  rw [bchDecode, h]
  decide +kernel
theorem majority_zeros (n : Nat) : majority n (List.replicate (7 * n) false) = List.replicate n false := by
  induction n with
  | zero => rfl
  | succ n ih =>
    rw [majority, List.drop_replicate, show 7 * (n + 1) - 7 = 7 * n by omega, ih, List.take_replicate,
      show min 7 (7 * (n + 1)) = 7 by omega]
    rfl
theorem bitList_zero (n : Nat) : bitList n 0 = List.replicate n false :=
  List.eq_replicate_iff.mpr ⟨by simp [bitList], by simp [bitList]⟩
theorem pufDecode_same (p : BitVec 3570) : pufDecode p p = some (0, 0) := by
  have h0 : (p ^^^ p).toNat = 0 := by simp only [BitVec.xor_self, BitVec.toNat_ofNat, Nat.zero_mod]
  have h1 : majority 510 (bitList 3570 0) = List.replicate 510 false :=
    (congrArg (majority 510) (bitList_zero 3570)).trans (majority_zeros 510)
  have h2 : bchDecode ((List.replicate 510 false).take 255) = some (List.replicate 255 false) := bchDecode_zeros
  have h3 : bchDecode ((List.replicate 510 false).drop 255) = some (List.replicate 255 false) := bchDecode_zeros
  unfold pufDecode
  simp only [h0, h1, h2, h3]
  decide +kernel
/-- Where its spore's check stands, it gives that spore. -/
theorem spore_same {p : BitVec 3570} {d : Dev} (h : d.keep.nor.helper = some p)
    (hc : d.keep.nor.check = checkOf (sha256 (natBe 32 0))) : sporeOf p d = some (sha256 (natBe 32 0), 0) := by
  simp [sporeOf, h, pufDecode_same, hc]

theorem spore_none {p : BitVec 3570} {d : Dev} (h : d.keep.nor.helper = some p) (hc : d.keep.nor.check = []) :
    sporeOf p d = none := by simp [sporeOf, h, pufDecode_same, hc, checkOf, natBe]

/-- Member 0 registered in slot 0, as `m` has it; and a graph whose segment 0 has flags `fl`. -/
def mb (m : Memb) (d : Dev) : Dev := { d with sch := { d.sch with memb := [(0, some m)] } }
def m0 : Memb := { id := 0, legs := [some 0] }
def rs (l : List (Nat × Option Resv)) (d : Dev) : Dev := { d with sch := { d.sch with resv := l } }
def sg (fl : Nat) (d : Dev) : Dev := { d with sch := { d.sch with sram := [(0x2001D, BitVec.ofNat 8 fl)] } }

/-- A cross-cell permit in hand, and a peer's. -/
def xc (c : Bool) (d : Dev) : Dev := { d with sch := { d.sch with cross := [⟨0, 0, [], [], [], c, 0, false⟩] } }
def xf (c : Bool) (d : Dev) : Dev := { d with sch := { d.sch with fgn := [⟨0, 0, 0, [], c, 0⟩] } }

/-- An auction of one member and one task, the null worth 100, in a space that maps its first GiB onto DRAM's. -/
def au : Dev := wr SCH.AUCTEPSF 1 (dramWrite 0x11000 (leBytes 8 (0x5B + 2 ^ 62 + 2 ^ 63)) (dramWrite 0x10000 (leBytes 8 0x11001)
  (dramWrite 0x490 [100] (dramWrite 0 [1, 0, 1, 0] { up with raw := 2 ^ 60, schRoot := 0x10000 }))))

/-- A check that takes no longer than the longest seen leaves CHKMAX as it is. -/
theorem permitSeen_long {d : Dev} (h : 25000 ≤ rd SCH.CHKMAX (drawn (inc SCH.PERMREQ d))) :
    drawn (inc SCH.PERMREQ d) = permitSeen d := by
  have := Nat.mod_lt (freeOf d).toNat (show 0 < 25001 by decide)
  unfold permitSeen maxTo
  rw [if_neg (by omega)]

/-- A core that runs no operation has none to cancel. -/
theorem uncancelled_idle {n : Nat} {d : Dev} (h : (coreOf n d).entry = none) : Uncancelled n d := by
  intro k i g hk
  rw [h] at hk
  cases hk

/-- A free frame where the search begins is the one taken. -/
theorem pickBlock_first {d : Dev} (h : allFree ((0 + (freeOf d).toNat % frames) * 1) 1 d = true) :
    pickBlock 1 d = some ((0 + (freeOf d).toNat % frames) * 1) := by
  have hp : 0 < frames := by decide
  obtain ⟨k, hk⟩ : ∃ k, frames = k + 1 := ⟨frames - 1, by omega⟩
  have hm : (freeOf d).toNat % frames % frames = (freeOf d).toNat % frames := Nat.mod_mod _ _
  simp only [Nat.zero_add] at h ⊢
  simp only [pickBlock, Nat.div_one]
  rw [hk, List.range_succ_eq_map, ← hk, List.find?_cons_of_pos]
  · simp
  · simpa [hm] using h

/-- A block at the boundary of the superframe it last saw. -/
def sf0 (d : Dev) : Dev := { d with rad := { d.rad with sfLast := some 0 } }

/-- A deployed module; a base with a join to answer; a core whose operation may yield to another. -/
def fuD : Fuses := { provisioned := true, deployed := true, settings := some ⟨1, 0, 0, 0⟩ }
def joinUp : Dev :=
  { up with aon := { up.aon with power := .run }, rad := { up.rad with joinQ := [⟨5, false, some 5, [], [], []⟩] } }
def yd : Dev :=
  { gd 2 0 { pc0 with run := .op 0 } with
    sch := { up.sch with inf := [(0, some ⟨0, 0, none, 0⟩)], ready := [{ h := 0, pri := 0, aff := 1 }] } }

/-! ## What meets the hypotheses of the statements: one theorem per part of a statement, one line per clause -/

/-- The clauses of TimeBasesRun. -/
theorem test_meets_TimeRates_1 :
    (∃ (s : State) (d : Dev), d = start s ∧ isUp AONi d) ∧
    (∃ (s : State) (d : Dev) (onWall : Bool), d = start s ∧ isUp AONi d ∧ (if onWall then d.aon.wPend else
      d.aon.cPend) = none) ∧
    (∃ (s : State) (d : Dev) (onWall : Bool) (p : RateNext) (x : Dev), d = start s ∧ isUp AONi d ∧
      (if onWall then d.aon.wPend else d.aon.cPend) = some p ∧ ¬ d.raw < p.at_ ∧
      x = (if onWall then { d with aon := { d.aon with wPend := none } } else
      { d with aon := { d.aon with cPend := none } })) ∧
    (∃ (s : State) (d : Dev) (src : Fin 4) (fw : Bool) (y : Dev), d = start s ∧ isUp AONi d ∧
      y = whenB fw (unheld (winBase AONi + 0x10B0)) (ties s.pending d) ∧ rd AON.WCTL.SRC y = src.val ∧ src.val ≠ 0 ∧
      (fw = true → src.val ≠ 1)) :=
  ⟨⟨st up, _, rfl, by decide +kernel⟩,
   ⟨st up, _, false, rfl, by decide +kernel, by decide +kernel⟩,
   ⟨st { up with raw := 5, aon := { up.aon with cPend := some ⟨0, 3, false⟩ } }, _, false, ⟨0, 3, false⟩, _, rfl,
     by decide +kernel, by decide +kernel, by decide +kernel, rfl⟩,
   ⟨st (wr AON.WCTL.SRC 2 up), _, 2, false, _, rfl, by decide +kernel, rfl, by decide +kernel, by decide +kernel,
     by decide +kernel⟩⟩

/-- The clauses of TimeBasesRun. -/
theorem test_meets_TimeRates_2 :
    (∃ (s : State) (d : Dev) (w : Slew), d = start s ∧ isUp AONi d ∧ d.aon.slew = some w ∧
      slewDone ((d.raw : Int) - rd AON.WBASE d) w = true) ∧
    (∃ (s : State) (d : Dev) (y : Dev), d = start s ∧ isUp AONi d ∧ y = ties s.pending d ∧
      s.pending.any (bringsCorrection d) = false ∧ on AON.WSTAT.STEPPEND y = true) ∧
    (∃ (s : State) (d : Dev) (y : Dev), d = start s ∧ isUp AONi d ∧ y = ties s.pending d ∧
      s.pending.any (bringsCorrection d) = true) ∧
    (∃ (s : State) (d : Dev) (y : Dev), d = start s ∧ isUp AONi d ∧ y = ties s.pending d ∧
      s.pending.any (bringsCorrection d) = false ∧ on AON.WSTAT.STEPPEND y = false) :=
  ⟨⟨st { up with raw := 52000000, aon := { up.aon with slew := some ⟨0, 1⟩ } }, _, ⟨0, 1⟩, rfl, by decide +kernel,
     by decide +kernel, by decide +kernel⟩,
   ⟨st (wrB AON.WSTAT.STEPPEND true up), _, _, rfl, by decide +kernel, rfl, by decide +kernel, by decide +kernel⟩,
   ⟨{ st up with pending := [.wallCorrection 0 false 0] }, _, _, rfl, by decide +kernel, rfl, by decide +kernel⟩,
   ⟨st up, _, _, rfl, by decide +kernel, rfl, by decide +kernel, by decide +kernel⟩⟩

/-- The clauses of TimeBasesRun. -/
theorem test_meets_TimeRates_3 :
    (∃ (s : State) (d : Dev), d = start s ∧ isUp AONi d ∧ rd AON.WCTL.HOLDTO d * rawPerS ≤ d.raw - d.aon.lastCorr ∧
      on AON.WSTAT.VALID d = true ∧ on AON.WSTAT.HOLDOVER d = false) ∧
    (∃ (s : State) (d : Dev) (src : Fin 4), d = start s ∧ isUp AONi d ∧ rd AON.WCTL.SRC d ≠ src.val) :=
  ⟨⟨st (wrB AON.WSTAT.HOLDOVER false (wrB AON.WSTAT.VALID true { up with raw := 26000000 * 100000, aon :=
     { up.aon with lastCorr := 0 } })), _, rfl, by decide +kernel, by decide +kernel, by decide +kernel, by decide +kernel⟩,
   ⟨st (wr AON.WCTL.SRC 1 up), _, 2, rfl, by decide +kernel, by decide +kernel⟩⟩

/-- The clauses of TimeBasesRun. -/
theorem test_meets_TimeSteps_1 :
    (∃ (s : State) (d : Dev) (x : Dev), d = start s ∧ isUp AONi d ∧ x = checkDiverged d ∧ on AON.CCTL.FOLLOW x = true ∧
      on AON.WSTAT.LOCKED x = true ∧ on AON.CCTL.DIVERGED x = false ∧ (x.aon.follRaw + rawPerS ≤ x.raw ∨ x.aon.follRaw = 0)) ∧
    (∃ (s : State) (d : Dev) (v : Bool), d = start s ∧ isUp AONi d ∧ (v = true → on RAD.RADCTL.MOSS d = true)) ∧
    (∃ (s : State) (d : Dev) (v : W64) (x y z r : Dev), d = start s ∧ isUp AONi d ∧ x = unheld (winBase AONi + 0x1048) d ∧
      on AON.CCTL.STEPEN x = true ∧ y = wr AON.COFF v.toNat x ∧ z = realignAll false (cycle x) (cycle y) y ∧
      r = ctlStep (cycle x) (cycle y) (cycNs z) z) ∧
    (∃ (s : State) (d : Dev), d = start s ∧ isUp AONi d) :=
  ⟨⟨st (wrB AON.CCTL.FOLLOW true (wrB AON.WSTAT.LOCKED true { up with raw := 26000000 })), _, _, rfl, by decide +kernel, rfl,
     by decide +kernel, by decide +kernel, by decide +kernel, by decide +kernel⟩,
   ⟨st up, _, false, rfl, by decide +kernel, by decide +kernel⟩,
   ⟨st (wrB AON.CCTL.STEPEN true up), _, 0, _, _, _, _, rfl, by decide +kernel, rfl, by decide +kernel, rfl, rfl, rfl⟩,
   ⟨st up, _, rfl, by decide +kernel⟩⟩

/-- The clauses of TimeBasesRun. -/
theorem test_meets_TimeSteps_2 :
    (∃ (s : State) (d : Dev) (n : Fin 16) (y z : Dev), d = start s ∧ isUp AONi d ∧ y = ties s.pending d ∧
      (List.range n.val).filter (fun m => rd (AON.TRIGCTL.DEST m) y == rd (AON.TRIGCTL.DEST n) y) = [] ∧ fires n y = true ∧
      z = fireLater n (inc (AON.FIRECNT n) (raise (AON.TRIGCTL.FIRED n) y)) ∧ on (AON.TRIGCTL.PER n) z = false) ∧
    (∃ (s : State) (d : Dev) (n : Fin 16) (y : Dev), d = start s ∧ isUp AONi d ∧ y = ties s.pending d ∧
      (List.range n.val).filter (fun m => rd (AON.TRIGCTL.DEST m) y == rd (AON.TRIGCTL.DEST n) y) = [] ∧
      s.pending.any (clearsEn n d) = true) ∧
    (∃ (s : State) (d : Dev), d = start s ∧ isUp AONi d ∧ (wall d).fdiv 1000000000 ≠ d.aon.ppsSec ∧ d.aon.ppsRaw = none) ∧
    (∃ (s : State) (d : Dev) (r : Nat), d = start s ∧ isUp AONi d ∧ d.aon.ppsRaw = some r ∧ d.aon.ppsHigh = true ∧
      r + rawPerS / 10 ≤ d.raw) :=
  ⟨⟨st (wrB (AON.TRIGCTL.EN 0) true up), _, 0, _, _, rfl, by decide +kernel, rfl, by decide +kernel, by decide +kernel, rfl,
     by decide +kernel⟩,
   ⟨{ st up with pending := [.trigctlWrite 0 0] }, _, 0, _, rfl, by decide +kernel, rfl, by decide +kernel,
     by decide +kernel⟩,
   ⟨st { up with aon := { up.aon with ppsSec := 5 } }, _, rfl, by decide +kernel, by decide +kernel, by decide +kernel⟩,
   ⟨st { up with raw := 2600000, aon := { up.aon with ppsRaw := some 0, ppsHigh := true } }, _, 0, rfl, by decide +kernel,
     by decide +kernel, by decide +kernel, by decide +kernel⟩⟩

/-- The clauses of TimeBasesRun. -/
theorem test_meets_TimeSteps_3 :
    ∃ (s : State) (d : Dev) (r : Nat), d = start s ∧ isUp AONi d ∧ d.aon.lockFrom = some r ∧ on AON.WSTAT.LOCKED d = true ∧
      r + 7200 * rawPerS ≤ d.raw :=
  ⟨st (wrB AON.WSTAT.LOCKED true { up with raw := 26000000 * 7200, aon := { up.aon with lockFrom := some 0 } }), _, 0, rfl,
     by decide +kernel, by decide +kernel, by decide +kernel, by decide +kernel⟩

/-- The clauses of LichenKeeps. -/
theorem test_meets_LichenEvents_1 :
    (∃ (s : State) (d : Dev) (p : Packet) (x : Dev), d = start s ∧ isUp AONi d ∧ on AON.LSTAT.SCAN d = false ∧
      hwPeek 34 d = some p ∧ p.ecc ≠ .double ∧ x = hwTaken 34 (heeded 34 p.ecc d)) ∧
    (∃ (s : State) (d : Dev) (r : LRec) (l : List LRec), d = start s ∧ isUp AONi d ∧ lWritable d = true ∧
      d.aon.lich.buf = r :: l) ∧
    (∃ (s : State) (d : Dev), d = start s ∧ isUp AONi d ∧ on AON.LSTAT.SCAN d = true) ∧
    (∃ (s : State) (d : Dev) (b : Option (Fin 256)), d = start s ∧ isUp AONi d ∧ rd (lCntF (b.map (·.val))) d ≠ 0 ∧
      lTok ≤ lLevel (b.map (·.val)) d) :=
  ⟨⟨st (wrB AON.LSTAT.SCAN false (q1 34 [0x105] up)), _, (pk [0x105]), _, rfl, by decide +kernel, by decide +kernel,
     by decide +kernel, by decide +kernel, rfl⟩,
   ⟨st { up with aon := { up.aon with lich := { buf := [⟨1, 0, 0, 0, []⟩] } } }, _, ⟨1, 0, 0, 0, []⟩, [], rfl,
     by decide +kernel, by decide +kernel, by decide +kernel⟩,
   ⟨st (wrB AON.LSTAT.SCAN true up), _, rfl, by decide +kernel, by decide +kernel⟩,
   ⟨st (wr (lCntF none) 1 up), _, none, rfl, by decide +kernel, by decide +kernel, by decide +kernel⟩⟩

/-- The clauses of LichenKeeps. -/
theorem test_meets_LichenEvents_2 :
    (∃ (s : State) (d : Dev) (w : Who), d = start s ∧ isUp AONi d ∧ w.lvl ≠ .u) ∧
    (∃ (s : State) (d : Dev), d = start s ∧ isUp AONi d ∧ on AON.LSTAT.SCAN d = false ∧ on AON.LSTAT.DIGOK d = false) ∧
    (∃ (s : State) (d : Dev), d = start s ∧ isUp AONi d ∧ on AON.LSTAT.ERASING d = true ∧ rd AON.LERASE d ≠ 0) :=
  ⟨⟨st up, _, ⟨0, .m⟩, rfl, by decide +kernel, by decide +kernel⟩,
   ⟨st (wrB AON.LSTAT.DIGOK false (wrB AON.LSTAT.SCAN false up)), _, rfl, by decide +kernel, by decide +kernel,
     by decide +kernel⟩,
   ⟨st (wrB AON.LSTAT.ERASING true (wr AON.LERASE 5 up)), _, rfl, by decide +kernel, by decide +kernel, by decide +kernel⟩⟩

/-- The clauses of RadioSends. -/
theorem test_meets_RadioFrames_1 :
    (∃ (s : State) (d : Dev), d = start s ∧ isUp RADi d ∧ d.rad.sfLast ≠ some (sfNow d) ∧
      ¬ d.raw < d.rad.relRaw + 20 * rawPerMs ∧ atSlot 0 d = true) ∧
    (∃ (s : State) (d : Dev) (c : Fin 144), d = start s ∧ isUp RADi d ∧ eventDue c d = true ∧
      displaced c (atInstant c d) = false ∧ (ctxOf c (atInstant c d)).term = false ∧ joinTakes c (atInstant c d) = false) ∧
    (∃ (s : State) (d : Dev) (c : Fin 144), d = start s ∧ isUp RADi d ∧ eventDue c d = true ∧
      displaced c (atInstant c d) = false ∧ (ctxOf c (atInstant c d)).term = true ∧ joinTakes c (atInstant c d) = false ∧
      termHeld s.fuses c (atInstant c d) = false) ∧
    (∃ (s : State) (d : Dev) (c : Fin 144), d = start s ∧ isUp RADi d ∧ eventDue c d = true ∧
      displaced c (atInstant c d) = false ∧ joinTakes c (atInstant c d) = true) :=
  ⟨⟨st { up with raw := 26000000 }, _, rfl, by decide +kernel, by decide +kernel, by decide +kernel, by decide +kernel⟩,
   ⟨st (sf0 (setLink 0 2 (wr (RAD.PLACE.ANCHOR 0) 0 up))), _, 0, rfl, by decide +kernel, by decide +kernel, by decide +kernel,
     by decide +kernel, by decide +kernel⟩,
   ⟨st (ctxSet 0 { term := true } (sf0 (setLink 0 2 (wr (RAD.PLACE.ANCHOR 0) 0 up)))), _, 0, rfl, by decide +kernel,
     by decide +kernel, by decide +kernel, by decide +kernel, by decide +kernel, by decide +kernel⟩,
   ⟨st (wr (RAD.PLACE.LEN 0) 9 (wrB RAD.JOINCFG.EN true (sf0 (setLink 0 2 (wr (RAD.PLACE.ANCHOR 0) 70
     { up with raw := 227501 }))))), _, 0, rfl, by decide +kernel, by decide +kernel, by decide +kernel, by decide +kernel⟩⟩

/-- The clauses of RadioSends. -/
theorem test_meets_RadioFrames_2 :
    (∃ (s : State) (d : Dev) (c : Fin 144) (acc : Fin 33) (pair : Bool) (off : W32), d = start s ∧ isUp RADi d ∧
      hears d = true ∧ joinCuts c d = false ∧ (ctxOf c d).isOpen = true ∧ ¬ 2 < acc.val ∧ rxWindow c off.toInt d = true ∧
      divHears (laneOf c d) pair d = true) ∧
    (∃ (s : State) (d : Dev) (p : Packet), d = start s ∧ isUp RADi d ∧ hwPeek 8 d = some p ∧ p.ecc ≠ .double) ∧
    (∃ (s : State) (d : Dev), d = start s ∧ isUp RADi d) ∧
    (∃ (s : State) (d : Dev), d = start s ∧ isUp RADi d ∧ d.rad.lbDue = true ∧ lbSlot s.fuses d = true) :=
  ⟨⟨st (ctxSet 0 { isOpen := true } { up with aon := { up.aon with power := .run } }), _, 0, 0, false, 0, rfl,
     by decide +kernel, by decide +kernel, by decide +kernel, by decide +kernel, by decide +kernel, by decide +kernel,
     by decide +kernel⟩,
   ⟨st (q1 8 [1, 2] up), _, (pk [1, 2]), rfl, by decide +kernel, by decide +kernel, by decide +kernel⟩,
   ⟨st up, _, rfl, by decide +kernel⟩,
   ⟨st (wr AON.COFF 9500000 (wrB RAD.JOINCFG.EN false { up with rad := { up.rad with lbDue := true } })), _, rfl,
     by decide +kernel, by decide +kernel, by decide +kernel⟩⟩

/-- The clauses of RadioContextsRun. -/
theorem test_meets_RadioPlan_1 :
    (∃ (s : State) (d : Dev), d = start s ∧ isUp RADi d) ∧
    (∃ (s : State) (d : Dev) (v : W32), d = start s ∧ isUp RADi d ∧ v.toNat ≠ 0) ∧
    (∃ (s : State) (d : Dev) (v : W32), d = start s ∧ isUp RADi d ∧ on RAD.RADCTL.MOSS d = true ∧ anyArmed d = false ∧
      v.toNat ≤ 36) ∧
    (∃ (s : State) (d : Dev), d = start s ∧ isUp RADi d ∧ mapBad d = false) :=
  ⟨⟨st up, _, rfl, by decide +kernel⟩,
   ⟨st up, _, 5, rfl, by decide +kernel, by decide +kernel⟩,
   ⟨st (wrB RAD.RADCTL.MOSS true up), _, 7, rfl, by decide +kernel, by decide +kernel, by decide +kernel, by decide +kernel⟩,
   ⟨st (wr RAD.REJOINCH 0 (wr RAD.MAPNXT (2 ^ 37 - 1) up)), _, rfl, by decide +kernel, by decide +kernel⟩⟩

/-- The clauses of RadioContextsRun. -/
theorem test_meets_RadioPlan_2 :
    (∃ (s : State) (d : Dev) (l : Fin 4) (x : Dev) (q : JoinReq) (rest : List JoinReq), d = start s ∧ isUp RADi d ∧
      joinDue s.fuses l d = true ∧ x = joinHeld l (forAll (List.range 144) (fun c d => if joinCuts c d then endEvent c false d
      else d) d) ∧ x.rad.joinQ = q :: rest ∧ dwellOk (chanOf s.fuses l (sfNow x) x) 184 x = true) ∧
    (∃ (s : State) (d : Dev) (l : Fin 4) (pair : Bool), d = start s ∧ isUp RADi d ∧ hears d = true ∧
      joinOpen s.fuses l d = true ∧ fromSlot 78 d = true ∧ (List.range 4).any (fun l => sending l d) = false ∧
      divHears l pair d = true) :=
  ⟨⟨stf fuD (wrB (RAD.LCTL.EN 0) true (wr RAD.REJOINCH 0 (wrB RAD.JOINCFG.EN true { joinUp with raw := 247001 }))), _, 0, _,
     ⟨5, false, some 5, [], [], []⟩, [], rfl, by decide +kernel, by decide +kernel, rfl, by decide +kernel,
     by decide +kernel⟩,
   ⟨st (wr RAD.REJOINCH 0 (wrB RAD.JOINCFG.EN true { up with raw := 253501, aon := { up.aon with power := .run } })), _, 0,
     false, rfl, by decide +kernel, by decide +kernel, by decide +kernel, by decide +kernel, by decide +kernel,
     by decide +kernel⟩⟩

/-- The clauses of RadioContextsRun. -/
theorem test_meets_RadioContexts_1 :
    (∃ (s : State) (d : Dev) (c : Fin 144), d = start s ∧ isUp RADi d ∧ armed c d = false ∧
      placeErr c (placeWord c d) (timersWord c d) (rd (RAD.FIRSTSF c) d) d = 0) ∧
    (∃ (s : State) (d : Dev) (c : Fin 144), d = start s ∧ isUp RADi d ∧ armed c d = true) ∧
    (∃ (s : State) (d : Dev) (c : Fin 144), d = start s ∧ isUp RADi d ∧ armed c d = true ∧ displaced c d = false ∧
      (ctxOf c d).upd = none ∧ ¬ toS 16 (ofS 16 ((rd (RAD.EVC.INSTANT c) d : Int) - rd (RAD.EVC.EVENT c) d)) < 6 ∧
      placeErr c (placeNxt c d) (timersNxt c d) (instSf c (rd (RAD.EVC.INSTANT c) d) d) d = 0) ∧
    (∃ (s : State) (d : Dev) (c : Fin 144), d = start s ∧ isUp RADi d ∧ armed c d = true ∧ displaced c d = true ∧
      placeErr c (placeNxt c d) (timersNxt c d) (rd (RAD.FIRSTSF c) d) d = 0) :=
  ⟨⟨st (wr (RAD.FIRSTSF 0) 1 (setTimers 0 (100 + 4 * 2 ^ 10 + 20 * 2 ^ 14) (setPlace 0 (4 * 2 ^ 2 + 4 * 2 ^ 9) (wr RAD.TXBUDGET 100000 up)))), _, 0, rfl, by decide +kernel, by decide +kernel, by decide +kernel⟩,
   ⟨st (setLink 0 2 up), _, 0, rfl, by decide +kernel, by decide +kernel⟩,
   ⟨st (wr (RAD.EVC.INSTANT 0) 100 (setLink 0 2 nxtUp)), _, 0, rfl, by decide +kernel, by decide +kernel, by decide +kernel,
     by decide +kernel, by decide +kernel, by decide +kernel⟩,
   ⟨st (wr (RAD.FIRSTSF 0) 1 (setLink 0 4 nxtUp)), _, 0, rfl, by decide +kernel, by decide +kernel, by decide +kernel,
     by decide +kernel⟩⟩

/-- The clauses of RadioContextsRun. -/
theorem test_meets_RadioContexts_2 :
    (∃ (s : State) (d : Dev) (c : Fin 144) (u : Upd), d = start s ∧ isUp RADi d ∧ armed c d = true ∧
      (ctxOf c d).isOpen = false ∧ (ctxOf c d).mapAt = none ∧ (ctxOf c d).upd = some u ∧ u.inst = rd (RAD.EVC.EVENT c) d) ∧
    (∃ (s : State) (d : Dev) (c : Fin 144) (i : Nat) (x : Dev), d = start s ∧ isUp RADi d ∧ supDue c d = true ∧
      (link c d = lActive ∨ link c d = lMigrating) ∧ (ctxOf c d).told = false ∧ i = rd (RAD.CTXCTL.ID c) d ∧
      x = setLink c lLost (ctxSet c { ctxOf c d with told := true, adrift := link c d == lMigrating } d)) ∧
    (∃ (s : State) (d : Dev) (c : Fin 144), d = start s ∧ isUp RADi d ∧ supDue c d = true ∧ link c d = lJoining) :=
  ⟨⟨st (ctxSet 0 { upd := some ⟨0, 0, 0⟩ } (setLink 0 2 up)), _, 0, ⟨0, 0, 0⟩, rfl, by decide +kernel, by decide +kernel,
     by decide +kernel, by decide +kernel, by decide +kernel, by decide +kernel⟩,
   ⟨st (setLink 0 2 { up with raw := 26000000 * 100, aon := { up.aon with power := .run } }), _, 0, _, _, rfl,
     by decide +kernel, by decide +kernel, by decide +kernel, by decide +kernel, rfl, rfl⟩,
   ⟨st (setLink 0 1 { up with raw := 26000000 * 100, aon := { up.aon with power := .run } }), _, 0, rfl, by decide +kernel,
     by decide +kernel, by decide +kernel⟩⟩

/-- The clauses of StopChainRuns. -/
theorem test_meets_StopRequests_1 :
    (∃ (s : State) (d : Dev), d = start s ∧ isUp RADi d) ∧
    (∃ (s : State) (d : Dev) (via : StopVia) (p : Packet), d = start s ∧ isUp RADi d ∧ via ≠ .reg ∧
      hwPeek (if via = .sch then 16 else 17) d = some p ∧ p.ecc ≠ .double ∧ bits (p.items.getD 0 0).toNat 0 2 = 1) ∧
    (∃ (s : State) (d : Dev) (via : StopVia) (p : Packet), d = start s ∧ isUp RADi d ∧ via ≠ .reg ∧
      hwPeek (if via = .sch then 16 else 17) d = some p ∧ p.ecc ≠ .double ∧ bits (p.items.getD 0 0).toNat 0 2 = 2) ∧
    (∃ (s : State) (d : Dev) (via : StopVia) (p : Packet), d = start s ∧ isUp RADi d ∧ via ≠ .reg ∧
      hwPeek (if via = .sch then 16 else 17) d = some p ∧ p.ecc ≠ .double ∧ bits (p.items.getD 0 0).toNat 0 2 = 3) :=
  ⟨⟨st up, _, rfl, by decide +kernel⟩,
   ⟨st (q1 16 [1] up), _, .sch, (pk [1]), rfl, by decide +kernel, by decide +kernel, by decide +kernel, by decide +kernel,
     by decide +kernel⟩,
   ⟨st (q1 16 [2] up), _, .sch, (pk [2]), rfl, by decide +kernel, by decide +kernel, by decide +kernel, by decide +kernel,
     by decide +kernel⟩,
   ⟨st (q1 17 [3] up), _, .ctl, (pk [3]), rfl, by decide +kernel, by decide +kernel, by decide +kernel, by decide +kernel,
     by decide +kernel⟩⟩

/-- The clauses of StopChainRuns. -/
theorem test_meets_StopRequests_2 :
    (∃ (s : State) (d : Dev) (e : Ecc) (p : Packet), d = start s ∧ isUp RADi d ∧ hwPeek 10 d = some p ∧
      worseEcc e p.ecc ≠ .double) ∧
    (∃ (s : State) (d : Dev) (e : Ecc) (p : Packet), d = start s ∧ isUp RADi d ∧ hwPeek 10 d = some p ∧
      worseEcc e p.ecc = .double) ∧
    (∃ (s : State) (d : Dev) (e : Ecc) (p : Packet), d = start s ∧ isUp RADi d ∧ hwPeek 11 d = some p ∧
      worseEcc e p.ecc ≠ .double ∧ p.items.getD 0 0 = 0) ∧
    (∃ (s : State) (d : Dev) (e : Ecc) (p : Packet), d = start s ∧ isUp CTLi d ∧ hwPeek 12 d = some p ∧
      worseEcc e p.ecc ≠ .double ∧ p.items.getD 0 0 = 0) :=
  ⟨⟨st (q1 10 [0, 0, 0, 0] up), _, .clean, (pk [0, 0, 0, 0]), rfl, by decide +kernel, by decide +kernel, by decide +kernel⟩,
   ⟨st (q1 10 [0, 0, 0, 0] up), _, .double, _, rfl, by decide +kernel, someGet (by decide +kernel), by decide +kernel⟩,
   ⟨st (q1 11 [0] up), _, .clean, (pk [0]), rfl, by decide +kernel, by decide +kernel, by decide +kernel, by decide +kernel⟩,
   ⟨st (q1 12 [0, 0] up), _, .clean, (pk [0, 0]), rfl, by decide +kernel, by decide +kernel, by decide +kernel,
     by decide +kernel⟩⟩

/-- The clauses of StopChainRuns. -/
theorem test_meets_StopRequests_3 :
    (∃ (s : State) (d : Dev) (e : Ecc) (p : Packet), d = start s ∧ isUp CTLi d ∧ hwPeek 12 d = some p ∧
      worseEcc e p.ecc ≠ .double ∧ p.items.getD 0 0 = 1) ∧
    (∃ (s : State) (d : Dev) (e : Ecc) (p : Packet), d = start s ∧ isUp SECi d ∧ hwPeek 13 d = some p ∧
      worseEcc e p.ecc ≠ .double ∧ p.items.length = 4) ∧
    (∃ (s : State) (d : Dev) (e : Ecc) (p : Packet), d = start s ∧ isUp CTLi d ∧ hwPeek 14 d = some p ∧
      worseEcc e p.ecc ≠ .double) ∧
    (∃ (s : State) (d : Dev) (e : Ecc) (p : Packet), d = start s ∧ isUp SECi d ∧ hwPeek 13 d = some p ∧
      worseEcc e p.ecc ≠ .double ∧ p.items.length = 2) :=
  ⟨⟨st (q1 12 [1, 0] up), _, .clean, (pk [1, 0]), rfl, by decide +kernel, by decide +kernel, by decide +kernel,
     by decide +kernel⟩,
   ⟨st (q1 13 [0, 0, 0, 0] up), _, .clean, (pk [0, 0, 0, 0]), rfl, by decide +kernel, by decide +kernel, by decide +kernel,
     by decide +kernel⟩,
   ⟨st (q1 14 [0, 0, 0, 0] up), _, .clean, (pk [0, 0, 0, 0]), rfl, by decide +kernel, by decide +kernel, by decide +kernel⟩,
   ⟨st (q1 13 [0, 0] up), _, .clean, (pk [0, 0]), rfl, by decide +kernel, by decide +kernel, by decide +kernel,
     by decide +kernel⟩⟩

/-- The clauses of StopChainRuns. -/
theorem test_meets_StopRequests_4 :
    ∃ (s : State) (d : Dev), d = start s ∧ isUp SECi d ∧ bcnLate d = true :=
  ⟨st (wr AON.COFF 2500000 up), _, rfl, by decide +kernel, by decide +kernel⟩

/-- The clauses of PermissionRuns. -/
theorem test_meets_PermissionEvents_1 :
    (∃ (s : State) (d : Dev), d = start s ∧ isUp SECi d) ∧
    (∃ (s : State) (d : Dev) (w : Who), d = start s ∧ isUp SECi d ∧ atS w = true ∧ d.sec.hbLast = none) ∧
    (∃ (s : State) (d : Dev) (v p : W32) (w : Who), d = start s ∧ isUp SECi d ∧ atS w = true ∧ d.sec.hbLast = some p ∧
      (d.sec.hbAny = true ∨ v = p + 1)) ∧
    (∃ (s : State) (d : Dev) (e : Ecc) (p : Packet) (x : Dev), d = start s ∧ isUp SECi d ∧ hwPeek 15 d = some p ∧
      worseEcc e p.ecc ≠ .double ∧ x = hwTaken 15 (heeded 15 (worseEcc e p.ecc) d)) :=
  ⟨⟨st up, _, rfl, by decide +kernel⟩,
   ⟨st up, _, ⟨0, .m⟩, rfl, by decide +kernel, by decide +kernel, by decide +kernel⟩,
   ⟨st { up with sec := { up.sec with hbLast := some 6 } }, _, 7, 6, ⟨0, .m⟩, rfl, by decide +kernel, by decide +kernel,
     by decide +kernel, by decide +kernel⟩,
   ⟨st (q1 15 [0] up), _, .clean, (pk [0]), _, rfl, by decide +kernel, by decide +kernel, by decide +kernel, rfl⟩⟩

/-- The clauses of PermissionRuns. -/
theorem test_meets_PermissionEvents_2 :
    (∃ (s : State) (d : Dev) (w : Who), d = start s ∧ isUp SECi d ∧ atS w = true ∧ on SEC.PMSTAT.GRACE d = false) ∧
    (∃ (s : State) (d : Dev) (m : BitVec 10) (w : Who), d = start s ∧ isUp SECi d ∧ atS w = true ∧
      on SEC.PMSTAT.GRACE d = false ∧ (d.sec.cutRaw ≠ some d.raw ∨ m.toNat ∉ d.sec.cutMembs)) ∧
    (∃ (s : State) (d : Dev) (w : Who), d = start s ∧ isUp SECi d ∧ atS w = true) ∧
    (∃ (s : State) (d : Dev) (w : Who), d = start s ∧ isUp SECi d ∧ atS w = true ∧ d.sec.fixq = true ∧
      on SEC.PMSTAT.GRACE d = false) :=
  ⟨⟨st (wrB SEC.PMSTAT.GRACE false up), _, ⟨0, .m⟩, rfl, by decide +kernel, by decide +kernel, by decide +kernel⟩,
   ⟨st (wrB SEC.PMSTAT.GRACE false up), _, 0, ⟨0, .m⟩, rfl, by decide +kernel, by decide +kernel, by decide +kernel,
     by decide +kernel⟩,
   ⟨st up, _, ⟨0, .m⟩, rfl, by decide +kernel, by decide +kernel⟩,
   ⟨st (wrB SEC.PMSTAT.GRACE false { up with sec := { up.sec with fixq := true } }), _, ⟨0, .m⟩, rfl, by decide +kernel,
     by decide +kernel, by decide +kernel, by decide +kernel⟩⟩

/-- The clauses of PermissionRuns. -/
theorem test_meets_PermissionEvents_3 :
    (∃ (s : State) (d : Dev) (w : Who), d = start s ∧ isUp SECi d ∧ atM w = true ∧ appHbOk d = true ∧
      d.sec.hbSteady + rawPerS ≤ d.raw ∧ (∀ r, d.sec.graceEnd = some r → r + 10 * rawPerS ≤ d.raw)) ∧
    (∃ (s : State) (d : Dev) (r : Nat), d = start s ∧ isUp SECi d ∧ d.sec.graceArm = some r ∧ r + 100 * rawPerMs < d.raw) ∧
    (∃ (s : State) (d : Dev) (r : Nat), d = start s ∧ isUp SECi d ∧ d.sec.graceAt = some r ∧ r + 500 * rawPerMs ≤ d.raw) ∧
    (∃ (s : State) (d : Dev) (c : Fin 144) (k : List Nat), d = start s ∧ isUp SECi d ∧ isUp RADi d ∧ slotKey 2 d = some k ∧
      armed c d = true ∧ rd (RAD.CTXCTL.KIND c) d = 0) :=
  ⟨⟨st { up with raw := 26000000 * 2, sec := { up.sec with hbRaw := some 52000000, hbLast := some 1, hbSteady := 0 } }, _, ⟨0,
     .m⟩, rfl, by decide +kernel, by decide +kernel, by decide +kernel, by decide +kernel, (by intro r h; cases h)⟩,
   ⟨st { up with raw := 26000000 , sec := { up.sec with graceArm := some 0 } }, _, 0, rfl, by decide +kernel,
     by decide +kernel, by decide +kernel⟩,
   ⟨st { up with raw := 26000000 , sec := { up.sec with graceAt := some 0 } }, _, 0, rfl, by decide +kernel,
     by decide +kernel, by decide +kernel⟩,
   ⟨st (slot 2 0 [1, 2] (setLink 0 2 up)), _, 0, _, rfl, by decide +kernel, by decide +kernel, someGet (by decide +kernel),
     by decide +kernel, by decide +kernel⟩⟩

/-- The clauses of PermissionRuns. -/
theorem test_meets_PermissionEvents_4 :
    ∃ (s : State) (d : Dev) (c : Fin 144) (k : List Nat), d = start s ∧ isUp SECi d ∧ isUp RADi d ∧ slotKey 3 d = some k ∧
      armed c d = true ∧ rd (RAD.CTXCTL.KIND c) d = 0 ∧ on SEC.BKGEN.NEXTPEND d = true :=
  ⟨st (wrB SEC.BKGEN.NEXTPEND true (slot 3 0 [1, 2] (setLink 0 2 up))), _, 0, _, rfl, by decide +kernel, by decide +kernel,
     someGet (by decide +kernel), by decide +kernel, by decide +kernel, by decide +kernel⟩

/-- The clauses of StartUpRuns. -/
theorem test_meets_StartUp_1 :
    (∃ (s : State) (d : Dev), d = start s ∧ isUp AONi d ∧ d.aon.power = .starting) ∧
    (∃ (s : State) (d : Dev), d = start s ∧ isUp APPi d ∧ d.app.boot = .rom ∧ d.keep.tampHold = false ∧ isUp SECi d = true ∧
      isUp MEMi d = true) ∧
    (∃ (s : State) (d : Dev) (im : Image), d = start s ∧ isUp APPi d ∧ d.app.boot = .passed ∧ d.app.img = some im) ∧
    (∃ (s : State) (d : Dev), d = start s ∧ isUp APPi d ∧ d.app.boot = .failed) :=
  ⟨⟨st { up with aon := { up.aon with power := .starting } }, _, rfl, by decide +kernel, by decide +kernel⟩,
   ⟨st { up with app := { up.app with boot := .rom } }, _, rfl, by decide +kernel, by decide +kernel, by decide +kernel,
     by decide +kernel, by decide +kernel⟩,
   ⟨st { up with app := { up.app with boot := .passed, img := some ⟨0, 0, 0, 0, [], 0, []⟩ } }, _, ⟨0, 0, 0, 0, [], 0, []⟩,
     rfl, by decide +kernel, by decide +kernel, by decide +kernel⟩,
   ⟨st { up with app := { up.app with boot := .failed } }, _, rfl, by decide +kernel, by decide +kernel⟩⟩

/-- The clauses of StartUpRuns. -/
theorem test_meets_StartUp_2 :
    (∃ (s : State) (d : Dev) (f : PortFrame) (n : Nat), d = start s ∧ isUp APPi d ∧ toPort f = true ∧
      d.app.boot = .recovery n ∧ ofBe ((nats f.body).take 2) = 0x0010 ∧ ofBe (sub (nats f.body) 2 4) = n ∧ n % 1024 = 0 ∧
      ofBe (sub (nats f.body) 6 2) ≠ 0 ∧ ofBe (sub (nats f.body) 6 2) ≤ 1024) ∧
    (∃ (s : State) (d : Dev) (f : PortFrame) (n : Nat), d = start s ∧ isUp APPi d ∧ toPort f = true ∧
      d.app.boot = .recovery n ∧ ofBe ((nats f.body).take 2) = 0x0010 ∧ ofBe (sub (nats f.body) 2 4) ≠ n) ∧
    (∃ (s : State) (d : Dev) (puf : BitVec 3570) (sp : List Nat × Nat), d = start s ∧ isUp SECi d ∧ sporeDue d = true ∧
      sporeOf puf d = some sp) ∧
    (∃ (s : State) (d : Dev) (puf : BitVec 3570), d = start s ∧ isUp SECi d ∧ sporeDue d = true ∧
      d.keep.nor.helper.isSome = true ∧ sporeOf puf d = none) :=
  ⟨⟨st { up with app := { up.app with boot := .recovery 0 } }, _, ⟨0, Config.portMac 0, 0, 0x88B5, [0, 0x10, 0, 0, 0, 0, 4,
     0]⟩, 0, rfl, by decide +kernel, by simp [toPort], by decide +kernel, by decide +kernel, by decide +kernel,
     by decide +kernel, by decide +kernel, by decide +kernel⟩,
   ⟨st { up with app := { up.app with boot := .recovery 0 } }, _, ⟨0, Config.portMac 0, 0, 0x88B5, [0, 0x10, 0, 0, 4, 0, 4,
     0]⟩, 0, rfl, by decide +kernel, by simp [toPort], by decide +kernel, by decide +kernel, by decide +kernel⟩,
   ⟨st { up with raw := 26000000, keep := { up.keep with nor :=
     { helper := some 0, check := checkOf (sha256 (natBe 32 0)) } } }, _, 0, (sha256 (natBe 32 0), 0), rfl, by decide +kernel,
     by decide +kernel, spore_same rfl rfl⟩,
   ⟨st { up with raw := 26000000, keep := { up.keep with nor := { helper := some 0 } } }, _, 0, rfl, by decide +kernel,
     by decide +kernel, by decide +kernel, spore_none rfl (by decide +kernel)⟩⟩

/-- The clauses of StartUpRuns. -/
theorem test_meets_StartUp_3 :
    (∃ (s : State) (d : Dev) (w : Who), d = start s ∧ isUp SECi d ∧ atM w = true ∧ s.pending.any enters = false ∧
      on SEC.PMSTAT.MOSS d = true ∧ d.sec.enterRaw ≠ some d.raw ∧ leaveWhy s.fuses d = 0) ∧
    (∃ (s : State) (d : Dev), d = start s ∧ s.pending.any enters = true) ∧
    (∃ (s : State) (d : Dev) (w : Who), d = start s ∧ isUp SECi d ∧ atM w = true) ∧
    (∃ (s : State) (d : Dev) (puf : BitVec 3570) (sp : List Nat) (nor : NorS), d = start s ∧ isUp SECi d ∧ romRuns d = true ∧
      lcState s.fuses = 0 ∧ sp = sha256 (freeBytes 32 d) ∧ nor =
      { d.keep.nor with helper := some (pufHelper puf (beNat (freeBytes 32 d))), check := checkOf sp }) :=
  ⟨⟨stf fuD (wrB SEC.PMSTAT.MOSS true (slot 2 0 [1,
     2] (wrB SEC.J6STAT.ACLOSED true (wrB SEC.J6STAT.BCLOSED true { up with sec :=
     { up.sec with hbRaw := some 0, schRaw := some 0 } })))), _, ⟨0, .m⟩, rfl, by decide +kernel, by decide +kernel,
     by decide +kernel, by decide +kernel, by decide +kernel, by decide +kernel⟩,
   ⟨{ st up with pending := [.enter ⟨0, .m⟩] }, _, rfl, by decide +kernel⟩,
   ⟨st up, _, ⟨0, .m⟩, rfl, by decide +kernel, by decide +kernel⟩,
   ⟨st { up with app := { up.app with boot := .rom } }, _, 0, _, _, rfl, by decide +kernel, by decide +kernel,
     by decide +kernel, rfl, rfl⟩⟩

/-- The clauses of ResetsAndLowPower. -/
theorem test_meets_ModuleResets_1 :
    (∃ (s : State) (d : Dev) (w : Who), d = start s ∧ isUp AONi d ∧ atM w = true ∧ d.aon.power = .run ∧
      on AON.DUMPCTL.BUSY (rstNote 2 d) = false ∧ deeper s.pending 2 d = false) ∧
    (∃ (s : State) (d : Dev), d = start s ∧ deeper s.pending 2 d = true) ∧
    (∃ (s : State) (d : Dev) (isl : Fin 16) (w : Who), d = start s ∧ isUp AONi d ∧ atM w = true ∧ d.aon.power = .run ∧
      on AON.DUMPCTL.BUSY (rstNote 1 d) = false ∧ 1 ≤ isl.val ∧ isl.val ≤ 8 ∧ isl.val ≠ APPi ∧ deeper s.pending 1 d = false) ∧
    (∃ (s : State) (d : Dev) (w : Who), d = start s ∧ isUp AONi d ∧ atM w = true ∧ d.aon.power = .run ∧
      on AON.DUMPCTL.BUSY (rstNote 1 d) = false ∧ deeper s.pending 1 d = false) :=
  ⟨⟨st { up with aon := { up.aon with power := .run } }, _, ⟨0, .m⟩, rfl, by decide +kernel, by decide +kernel,
     by decide +kernel, by decide +kernel, by decide +kernel⟩,
   ⟨st { up with aon := { up.aon with rstAt := some (up.raw, 5) } }, _, rfl, by decide +kernel⟩,
   ⟨st { up with aon := { up.aon with power := .run } }, _, 3, ⟨0, .m⟩, rfl, by decide +kernel, by decide +kernel,
     by decide +kernel, by decide +kernel, by decide +kernel, by decide +kernel, by decide +kernel, by decide +kernel⟩,
   ⟨st { up with aon := { up.aon with power := .run } }, _, ⟨0, .m⟩, rfl, by decide +kernel, by decide +kernel,
     by decide +kernel, by decide +kernel, by decide +kernel⟩⟩

/-- The clauses of ResetsAndLowPower. -/
theorem test_meets_ModuleResets_2 :
    (∃ (s : State) (d : Dev), d = start s ∧ deeper s.pending 1 d = true) ∧
    (∃ (s : State) (d : Dev) (isl : Fin 9) (u : Nat), d = start s ∧ isUp AONi d ∧ tget d.isl isl .off = .held u ∧ u ≤ d.raw ∧
      tget d.aon.holds isl 0 = 0) ∧
    (∃ (s : State) (d : Dev) (w : Who), d = start s ∧ isUp AONi d ∧ atM w = true ∧ d.aon.power = .run ∧ isUp APPi d ∧
      on AON.DUMPCTL.BUSY (rstNote 1 d) = false ∧ deeper s.pending 1 d = false) ∧
    (∃ (s : State) (d : Dev), d = start s ∧ isUp AONi d ∧ d.aon.tmpDue = true ∧ deeper s.pending 4 d = false) :=
  ⟨⟨st { up with aon := { up.aon with rstAt := some (up.raw, 5) } }, _, rfl, by decide +kernel⟩,
   ⟨st (setIsl 3 (.held 0) up), _, 3, 0, rfl, by decide +kernel, by decide +kernel, by decide +kernel, by decide +kernel⟩,
   ⟨st { up with aon := { up.aon with power := .run } }, _, ⟨0, .m⟩, rfl, by decide +kernel, by decide +kernel,
     by decide +kernel, by decide +kernel, by decide +kernel, by decide +kernel⟩,
   ⟨st { up with aon := { up.aon with tmpDue := true } }, _, rfl, by decide +kernel, by decide +kernel, by decide +kernel⟩⟩

/-- The clauses of ResetsAndLowPower. -/
theorem test_meets_ModuleResets_3 :
    (∃ (s : State) (d : Dev) (w : Who), d = start s ∧ isUp AONi d ∧ atS w = true ∧ on AON.WDCTL.EN d = true ∧
      d.aon.wdLast = none) ∧
    (∃ (s : State) (d : Dev) (v p : W32) (w : Who), d = start s ∧ isUp AONi d ∧ atS w = true ∧ on AON.WDCTL.EN d = true ∧
      d.aon.wdLast = some p ∧ v = p + 1) ∧
    (∃ (s : State) (d : Dev) (v : W32) (w : Who), d = start s ∧ isUp AONi d ∧ atM w = true ∧ on AON.WDCTL.LOCK d = false ∧
      10 ≤ bits v.toNat 0 16 ∧ bits v.toNat 0 16 ≤ 10000) ∧
    (∃ (s : State) (d : Dev), d = start s ∧ isUp AONi d ∧ wdExpired d = true ∧ on AON.WDCTL.CAPEN d = true ∧
      captureOk d = true ∧ captureLate d = false) :=
  ⟨⟨st (wrB AON.WDCTL.EN true up), _, ⟨0, .m⟩, rfl, by decide +kernel, by decide +kernel, by decide +kernel,
     by decide +kernel⟩,
   ⟨st (wrB AON.WDCTL.EN true { up with aon := { up.aon with wdLast := some 3 } }), _, 4, 3, ⟨0, .m⟩, rfl, by decide +kernel,
     by decide +kernel, by decide +kernel, by decide +kernel, by decide +kernel⟩,
   ⟨st (wrB AON.WDCTL.LOCK false up), _, 100, ⟨0, .m⟩, rfl, by decide +kernel, by decide +kernel, by decide +kernel,
     by decide +kernel, by decide +kernel⟩,
   ⟨st (wrB AON.WDCTL.CAPEN true (wr AON.DUMPBASE 1 (wrB AON.WDCTL.EN true { up with raw := 26000000, aon :=
     { up.aon with power := .run, wdPer := 10 } }))), _, rfl, by decide +kernel, by decide +kernel, by decide +kernel,
     by decide +kernel, by decide +kernel⟩⟩

/-- The clauses of ResetsAndLowPower. -/
theorem test_meets_ModuleResets_4 :
    (∃ (s : State) (d : Dev), d = start s ∧ isUp AONi d ∧ wdrNow d = true ∧ deeper s.pending 3 d = false) ∧
    (∃ (s : State) (d : Dev), d = start s ∧ isUp AONi d ∧ captureLate d = true ∧ deeper s.pending 3 d = false) ∧
    (∃ (s : State) (d : Dev), d = start s ∧ isUp AONi d ∧ isUp SECi d ∧ deeper s.pending 1 d = false) :=
  ⟨⟨st (wrB AON.WDCTL.EN true { up with raw := 26000000, aon := { up.aon with power := .run, wdPer := 10 } }), _, rfl,
     by decide +kernel, by decide +kernel, by decide +kernel⟩,
   ⟨st (wr AON.DUMPCTL.CAUSE 2 { up with raw := 26000000, aon := { up.aon with capFrom := some 0 } }), _, rfl,
     by decide +kernel, by decide +kernel, by decide +kernel⟩,
   ⟨st up, _, rfl, by decide +kernel, by decide +kernel, by decide +kernel⟩⟩

/-- The clauses of ResetsAndLowPower. -/
theorem test_meets_LowPower_1 :
    (∃ (s : State) (d : Dev) (w : Who), d = start s ∧ isUp AONi d ∧ atM w = true ∧ d.aon.power = .run ∧ lpWhy false d = 0) ∧
    (∃ (s : State) (d : Dev) (w : Who), d = start s ∧ isUp AONi d ∧ atM w = true ∧ d.aon.power = .run ∧ lpWhy true d = 0) ∧
    (∃ (s : State) (d : Dev) (src : Fin 18) (f : Option PortFrame), d = start s ∧ isUp AONi d ∧ d.aon.power = .standby ∧
      wakes src d = true ∧ wakeHeard src f d = true) ∧
    (∃ (s : State) (d : Dev) (src : Fin 18), d = start s ∧ isUp AONi d ∧ d.aon.power = .hibernate ∧ wakes src d = true ∧
      src.val ≠ 16 ∧ wakeHeard src none d = true) :=
  ⟨⟨st (wr AON.SKBASE 1 { up with aon := { up.aon with power := .run } }), _, ⟨0, .m⟩, rfl, by decide +kernel,
     by decide +kernel, by decide +kernel, by decide +kernel⟩,
   ⟨st (wr AON.SKBASE 1 { up with aon := { up.aon with power := .run } }), _, ⟨0, .m⟩, rfl, by decide +kernel,
     by decide +kernel, by decide +kernel, by decide +kernel⟩,
   ⟨st (wr AON.WAKEMASK 0x20000 { up with aon := { up.aon with power := .standby, linkAt := some 0 } }), _, 17, none, rfl,
     by decide +kernel, by decide +kernel, by decide +kernel, by decide +kernel⟩,
   ⟨st (wr AON.WAKEMASK 0x20000 { up with aon := { up.aon with power := .hibernate, linkAt := some 0 } }), _, 17, rfl,
     by decide +kernel, by decide +kernel, by decide +kernel, by decide +kernel, by decide +kernel⟩⟩

/-- The clauses of ResetsAndLowPower. -/
theorem test_meets_LowPower_2 :
    (∃ (s : State) (d : Dev) (w : Who), d = start s ∧ isUp MEMi d ∧ atM w = true ∧ captureOk d = true) ∧
    (∃ (s : State) (d : Dev) (r : Nat), d = start s ∧ isUp AONi d ∧ d.aon.capFrom = some r ∧ 9 ≤ d.aon.capIsl ∧
      rd AON.DUMPCTL.CAUSE d ≠ 2) ∧
    (∃ (s : State) (d : Dev) (r : Nat), d = start s ∧ isUp AONi d ∧ d.aon.capFrom = some r ∧ 9 ≤ d.aon.capIsl ∧
      rd AON.DUMPCTL.CAUSE d = 2) ∧
    (∃ (s : State) (d : Dev) (w : Who), d = start s ∧ isUp AONi d ∧ atS w = true) :=
  ⟨⟨st (wr AON.DUMPBASE 1 up), _, ⟨0, .m⟩, rfl, by decide +kernel, by decide +kernel, by decide +kernel⟩,
   ⟨st (wr AON.DUMPCTL.CAUSE 1 { up with aon := { up.aon with capFrom := some 0, capIsl := 9 } }), _, 0, rfl,
     by decide +kernel, by decide +kernel, by decide +kernel, by decide +kernel⟩,
   ⟨st (wr AON.DUMPCTL.CAUSE 2 { up with aon := { up.aon with capFrom := some 0, capIsl := 9 } }), _, 0, rfl,
     by decide +kernel, by decide +kernel, by decide +kernel, by decide +kernel⟩,
   ⟨st up, _, ⟨0, .m⟩, rfl, by decide +kernel, by decide +kernel⟩⟩

/-- The clauses of PowerAndJ6Run. -/
theorem test_meets_PowerEvents_1 :
    (∃ (s : State) (d : Dev) (a b : Fin 5), d = start s ∧ 2 ≤ max a.val b.val ∧ d.aon.power = .off) ∧
    (∃ (s : State) (d : Dev) (a b : Fin 5), d = start s ∧ 2 ≤ max a.val b.val ∧ d.aon.power = .grantHold) ∧
    (∃ (s : State) (d : Dev) (a b : Fin 5), d = start s ∧ max a.val b.val = 1 ∧ d.aon.power = .off) ∧
    (∃ (s : State) (d : Dev), d = start s ∧ isUp AONi d) :=
  ⟨⟨st up, _, 3, 0, rfl, by decide +kernel, by decide +kernel⟩,
   ⟨st { up with aon := { up.aon with power := .grantHold } }, _, 3, 0, rfl, by decide +kernel, by decide +kernel⟩,
   ⟨st up, _, 1, 0, rfl, by decide +kernel, by decide +kernel⟩,
   ⟨st up, _, rfl, by decide +kernel⟩⟩

/-- The clauses of PowerAndJ6Run. -/
theorem test_meets_PowerEvents_2 :
    (∃ (s : State) (d : Dev) (w : Who), d = start s ∧ isUp AONi d ∧ w.lvl ≠ .u ∧ on AON.PWRSTAT.FULLAVL d = true ∧
      d.app.boot ≠ .firmware) ∧
    (∃ (s : State) (d : Dev) (w : Who) (im : Image), d = start s ∧ isUp AONi d ∧ w.lvl ≠ .u ∧
      on AON.PWRSTAT.FULLAVL d = true ∧ d.app.boot = .firmware ∧ d.app.img = some im) ∧
    (∃ (s : State) (d : Dev) (rail : Bool), d = start s ∧ isUp AONi d ∧ (rail = true ∨ holdUpOver d = true)) ∧
    (∃ (s : State) (d : Dev) (cur : Byte), d = start s ∧ isUp POSi d ∧
      on POS.ANTSTAT.BIASEN (wr POS.ANTSTAT.CURRENT cur.toNat d) = true ∧
      on POS.ANTSTAT.SHORT (wr POS.ANTSTAT.CURRENT cur.toNat d) = false) :=
  ⟨⟨st (wrB AON.PWRSTAT.FULLAVL true up), _, ⟨0, .m⟩, rfl, by decide +kernel, by decide +kernel, by decide +kernel,
     by decide +kernel⟩,
   ⟨st (wrB AON.PWRSTAT.FULLAVL true { up with app := { up.app with boot := .firmware, img := some ⟨0, 0, 0, 0, [], 0,
     []⟩ } }), _, ⟨0, .m⟩, ⟨0, 0, 0, 0, [], 0, []⟩, rfl, by decide +kernel, by decide +kernel, by decide +kernel,
     by decide +kernel, by decide +kernel⟩,
   ⟨st up, _, true, rfl, by decide +kernel, by decide +kernel⟩,
   ⟨st (wrB POS.ANTSTAT.BIASEN true up), _, 0, rfl, by decide +kernel, by decide +kernel, by decide +kernel⟩⟩

/-- The clauses of PowerAndJ6Run. -/
theorem test_meets_PowerEvents_3 :
    ∃ (s : State) (d : Dev) (cur : Byte) (r : Nat), d = start s ∧ isUp POSi d ∧ d.pos.biasCut = some r ∧
      on POS.ANTSTAT.BIASEN d = true ∧ ¬ d.raw < r + 5 * rawPerS ∧ cur.toNat ≤ 120 :=
  ⟨st (wrB POS.ANTSTAT.BIASEN true { up with raw := 26000000 * 5, pos := { up.pos with biasCut := some 0 } }), _, 0, 0, rfl,
     by decide +kernel, by decide +kernel, by decide +kernel, by decide +kernel, by decide +kernel⟩

/-- The clauses of PowerAndJ6Run. -/
theorem test_meets_J6Events_1 :
    (∃ (s : State) (d : Dev) (chB closed : Bool), d = start s ∧ isUp SECi d ∧ (if chB then on SEC.J6STAT.BCLOSED d else
      on SEC.J6STAT.ACLOSED d) ≠ closed ∧ filterDue chB d = true) ∧
    (∃ (s : State) (d : Dev) (chB : Bool), d = start s ∧ isUp SECi d ∧ (if chB then d.sec.setB else d.sec.setA) = false ∧
      filterDue chB d = true) ∧
    (∃ (s : State) (d : Dev) (chB : Bool) (w : Nat), d = start s ∧ isUp SECi d ∧ windowPart chB d = some w ∧
      (if chB then d.sec.winB else d.sec.winA).any (w ≤ ·) = false) ∧
    (∃ (s : State) (d : Dev) (r : Nat), d = start s ∧ isUp SECi d ∧ d.sec.discFrom = some r ∧ r + 50 * rawPerMs < d.raw ∧
      on SEC.J6STAT.DISCREP d = false) :=
  ⟨⟨st { up with raw := 130000 }, _, false, true, rfl, by decide +kernel, by decide +kernel, by decide +kernel⟩,
   ⟨st { up with raw := 130000 }, _, false, rfl, by decide +kernel, by decide +kernel, by decide +kernel⟩,
   ⟨st { up with raw := 10400 }, _, false, _, rfl, by decide +kernel, someGet (by decide +kernel), by decide +kernel⟩,
   ⟨st (wrB SEC.J6STAT.DISCREP false { up with raw := 26000000, sec := { up.sec with discFrom := some 0 } }), _, 0, rfl,
     by decide +kernel, by decide +kernel, by decide +kernel, by decide +kernel⟩⟩

/-- The clauses of PowerAndJ6Run. -/
theorem test_meets_J6Events_2 :
    (∃ (s : State) (d : Dev), d = start s ∧ isUp SECi d ∧ d.sec.permit = false ∧ ¬ d.raw ≤ d.sec.permLow + rawPerMs) ∧
    (∃ (s : State) (d : Dev), d = start s ∧ isUp SECi d ∧ d.sec.permit = true) ∧
    (∃ (s : State) (d : Dev), d = start s ∧ isUp SECi d) ∧
    (∃ (s : State) (d : Dev) (w : Who), d = start s ∧ isUp SECi d ∧ w.lvl ≠ .u) :=
  ⟨⟨st { up with raw := 2 ^ 40 }, _, rfl, by decide +kernel, by decide +kernel, by decide +kernel⟩,
   ⟨st { up with sec := { up.sec with permit := true } }, _, rfl, by decide +kernel, by decide +kernel⟩,
   ⟨st up, _, rfl, by decide +kernel⟩,
   ⟨st up, _, ⟨0, .m⟩, rfl, by decide +kernel, by decide +kernel⟩⟩

/-- The clauses of KeyRequestsRun. -/
theorem test_meets_KeyRequests_1 :
    (∃ (s : State) (d : Dev) (r : Req), d = start s ∧ runs SECi d = true ∧ nextReq d = some r ∧ isCode 0x01 r = true ∧
      (reqDerive r s.fuses d).st = sOk) ∧
    (∃ (s : State) (d : Dev) (r : Req), d = start s ∧ runs SECi d = true ∧ nextReq d = some r ∧ isCode 0x02 r = true ∧
      (reqDiscard r s.fuses d).st = sOk) ∧
    (∃ (s : State) (d : Dev) (r : Req), d = start s ∧ runs SECi d = true ∧ nextReq d = some r ∧ isCode 0x03 r = true ∧
      (reqAes r s.fuses d).st = sOk) ∧
    (∃ (s : State) (d : Dev) (r : Req), d = start s ∧ runs SECi d = true ∧ nextReq d = some r ∧ isCode 0x04 r = true ∧
      (reqHmac r s.fuses d).st = sOk) :=
  ⟨⟨st (slot 8 1 [1, 2] (rq 0 1 [0xFF08, 0x46, 0, 0, 0] up)), _, _, rfl, by decide +kernel, someGet (by decide +kernel),
     by decide +kernel, by decide +kernel⟩,
   ⟨st (slot 8 1 [1, 2] (rq 0 2 [8] up)), _, _, rfl, by decide +kernel, someGet (by decide +kernel), by decide +kernel,
     by decide +kernel⟩,
   ⟨st (slot 8 2 [1, 2] (rq 0 3 [8, 0, 0, 0, 0, 0, 0, 0] up)), _, _, rfl, by decide +kernel, someGet (by decide +kernel),
     by decide +kernel, by decide +kernel⟩,
   ⟨st (slot 8 16 [1, 2] (rq 0 4 [8, 0, 0] up)), _, _, rfl, by decide +kernel, someGet (by decide +kernel), by decide +kernel,
     by decide +kernel⟩⟩

/-- The clauses of KeyRequestsRun. -/
theorem test_meets_KeyRequests_2 :
    (∃ (s : State) (d : Dev) (r : Req), d = start s ∧ runs SECi d = true ∧ nextReq d = some r ∧ isCode 0x05 r = true ∧
      r.w.length = 3 ∧ ¬ dramSize < r.word 1 + r.word 2) ∧
    (∃ (s : State) (d : Dev) (r : Req), d = start s ∧ runs SECi d = true ∧ nextReq d = some r ∧ isCode 0x06 r = true ∧
      r.w.length = 14 ∧ ¬ dramSize < r.word 1 + 64 ∧ ecdsaOk (dramView (r.word 1) 64 d) (((r.w.drop 2).take 4).flatMap
      (leBytes 8)) (((r.w.drop 6).take 8).flatMap (leBytes 8)) = true) ∧
    (∃ (s : State) (d : Dev) (r : Req), d = start s ∧ runs SECi d = true ∧ nextReq d = some r ∧ isCode 0x07 r = true ∧
      r.w.length = 1 ∧ bits (r.word 0) 4 60 = 0 ∧ bits (r.word 0) 0 4 ≠ 0 ∧ drbgOk d = true) ∧
    (∃ (s : State) (d : Dev) (r : Req), d = start s ∧ runs SECi d = true ∧ nextReq d = some r ∧ r.code = 0x0B ∧ r.w = [] ∧
      drbgOk d = true) :=
  ⟨⟨st (rq 0 5 [0, 0, 0] up), _, _, rfl, by decide +kernel, someGet (by decide +kernel), by decide +kernel, by decide +kernel,
     by decide +kernel⟩,
   ⟨st (dramWrite 0x100 [243, 50, 250, 81, 32, 222, 98, 115, 95, 66, 152, 99, 122, 153, 4, 250, 41, 58, 151, 232, 182, 15, 36,
     56, 36, 48, 74, 234, 224, 194, 64, 141, 210, 139, 16, 66, 102, 153, 14, 178, 142, 218, 124, 51, 68, 119, 163, 83, 72,
     250, 140, 232, 90, 146, 234, 105, 213, 9, 18, 255, 183, 40, 1, 107] (rq 0 6 [0, 256, 0, 0, 0, 360287970189639680, 0, 0,
     0, 360287970189639680, 0, 0, 0, 360287970189639680] up)), _, _, rfl, by decide +kernel, someGet (by decide +kernel),
     by decide +kernel, by decide +kernel, by decide +kernel, by decide +kernel⟩,
   ⟨st (rq 0 7 [1] up), _, _, rfl, by decide +kernel, someGet (by decide +kernel), by decide +kernel, by decide +kernel,
     by decide +kernel, by decide +kernel, by decide +kernel⟩,
   ⟨st (rq 8 0x0B [] up), _, _, rfl, by decide +kernel, someGet (by decide +kernel), by decide +kernel, by decide +kernel,
     by decide +kernel⟩⟩

/-- The clauses of KeyRequestsRun. -/
theorem test_meets_KeyRequests_3 :
    (∃ (s : State) (d : Dev) (r : Req), d = start s ∧ runs SECi d = true ∧ nextReq d = some r ∧ isCode 0x0C r = true ∧
      (reqSession r s.fuses d).st = sOk) ∧
    (∃ (s : State) (d : Dev) (r : Req), d = start s ∧ runs SECi d = true ∧ nextReq d = some r ∧ isCode 0x0D r = true ∧
      (reqRingKey r s.fuses d).st = sOk) ∧
    (∃ (s : State) (d : Dev) (r : Req), d = start s ∧ runs SECi d = true ∧ nextReq d = some r ∧ isCode 0x08 r = true ∧
      (reqBeaconGen r s.fuses d).st = sOk) ∧
    (∃ (s : State) (d : Dev) (r : Req) (x : Dev), d = start s ∧ openFirst s.pending d = x ∧ runs SECi x = true ∧
      nextReq x = some r ∧ isCode 0x09 r = true ∧ r.w.length = 1 ∧ ¬ 2 ^ 32 ≤ r.word 0 ∧ lcState s.fuses = 2 ∧
      resumeOk (r.word 0) x = true) :=
  ⟨⟨stf fuD (slot 1 1 [1, 2] (rq 0 0x0C [0, 0, 0] up)), _, _, rfl, by decide +kernel, someGet (by decide +kernel),
     by decide +kernel, by decide +kernel⟩,
   ⟨stf fuD (slot 1 1 [1, 2] (rq 0 0x0D [1, 0] up)), _, _, rfl, by decide +kernel, someGet (by decide +kernel),
     by decide +kernel, by decide +kernel⟩,
   ⟨stf fuD (slot 1 1 [1, 2] (rq 0 8 [0] up)), _, _, rfl, by decide +kernel, someGet (by decide +kernel), by decide +kernel,
     by decide +kernel⟩,
   ⟨stf fuD (wrB SEC.PMSTAT.LATCH true { rq 0 9 [0] up with raw := 26000000, sec := { up.sec with closedAt := some 0 } }), _,
     _, _, rfl, rfl, by decide +kernel, someGet (by decide +kernel), by decide +kernel, by decide +kernel, by decide +kernel,
     by decide +kernel, by decide +kernel⟩⟩

/-- The clauses of KeyRequestsRun. -/
theorem test_meets_KeyRequests_4 :
    (∃ (s : State) (d : Dev) (r : Req) (x : Dev), d = start s ∧ openFirst s.pending d = x ∧ runs SECi x = true ∧
      nextReq x = some r ∧ r.secure = false ∧ r.code = 0x52 ∧ (reqNetResume r s.fuses x).st = sOk) ∧
    (∃ (s : State) (d : Dev) (r : Req), d = start s ∧ runs SECi d = true ∧ nextReq d = some r ∧ codeKnown r = false) ∧
    (∃ (s : State) (d : Dev) (k : List Nat), d = start s ∧ isUp SECi d ∧ on SEC.BKGEN.NEXTPEND d = true ∧
      0 ≤ toS 32 (ofS 32 ((sfNow d : Int) - Sys2Proof.Machine.rd SEC.BKFIRST d)) ∧ slotKey 3 d = some k) :=
  ⟨⟨stf fuD (slot 4 0 [1, 2] (wrB SEC.PMSTAT.LATCH true { rq 8 0x52 [82, 1808269643534565376, 11380287360904706126,
     3788061493] up with raw := 26000000, sec := { up.sec with closedAt := some 0 } })), _, _, _, rfl, rfl, by decide +kernel,
     someGet (by decide +kernel), by decide +kernel, by decide +kernel, by decide +kernel⟩,
   ⟨st (rq 0 0x0E [] up), _, _, rfl, by decide +kernel, someGet (by decide +kernel), by decide +kernel⟩,
   ⟨st (wrB SEC.BKGEN.NEXTPEND true (slot 3 0 [1, 2] up)), _, _, rfl, by decide +kernel, by decide +kernel, by decide +kernel,
     someGet (by decide +kernel)⟩⟩

/-- The clauses of SignedCommandsRun. -/
theorem test_meets_SignedCommands_1 :
    (∃ (s : State) (d : Dev) (r : Req), d = start s ∧ runs SECi d = true ∧ nextReq d = some r ∧ r.code = 0x0A ∧
      r.w.length = 15 ∧ signedCheck r.secure false (r.bytes 120) s.fuses d = sOk ∧
      (signedAct (r.bytes 120) s.fuses (signedUsed (r.bytes 120) d)).st = sOk) ∧
    (∃ (s : State) (d : Dev) (r : Req), d = start s ∧ runs SECi d = true ∧ nextReq d = some r ∧ isSigned 1 r = true ∧
      r.w.length = 15 ∧ signedCheck r.secure false (r.bytes 120) s.fuses d = sOk ∧ (r.bytes 120).getD 0 0 = 1 ∧
      s.fuses.svc < 254) ∧
    (∃ (s : State) (d : Dev) (r : Req), d = start s ∧ runs SECi d = true ∧ nextReq d = some r ∧ isSigned 2 r = true ∧
      r.w.length = 15 ∧ signedCheck r.secure false (r.bytes 120) s.fuses d = sOk ∧ (r.bytes 120).getD 0 0 = 2 ∧
      s.fuses.svc < 254) ∧
    (∃ (s : State) (d : Dev) (r : Req), d = start s ∧ runs SECi d = true ∧ nextReq d = some r ∧ isSigned 3 r = true ∧
      r.w.length = 15 ∧ signedCheck r.secure false (r.bytes 120) s.fuses d = sOk ∧ (r.bytes 120).getD 0 0 = 3) :=
  ⟨⟨stf { provisioned := true, owner := some [120, 118, 248, 29, 253, 161, 172, 141, 225, 176, 173, 42, 22, 90, 70, 169, 27,
     8, 253, 102, 60, 101, 94, 164, 157, 35, 42, 76, 52, 219, 183, 90, 182, 188, 54, 39, 51, 225, 163, 140, 202, 103, 128,
     184, 56, 145, 102, 66, 116, 167, 254, 8, 240, 48, 186, 17, 162, 64, 68, 164, 80, 172, 16,
     232], deployed := true, settings := some ⟨1, 0, 0, 0⟩ } (rq 0 0x0A [1, 216172782113783808, 0, 0, 0, 0, 0,
     2296414044099956468, 10673585358964388183, 17967962058203794229, 14234938865733645075, 2296414044099956468,
     10673585358964388183, 17967962058203794229, 14234938865733645075] up), _, _, rfl, by decide +kernel,
     someGet (by decide +kernel), by decide +kernel, by decide +kernel, by decide +kernel, by decide +kernel⟩,
   ⟨stf { provisioned := true, owner := some [120, 118, 248, 29, 253, 161, 172, 141, 225, 176, 173, 42, 22, 90, 70, 169, 27,
     8, 253, 102, 60, 101, 94, 164, 157, 35, 42, 76, 52, 219, 183, 90, 182, 188, 54, 39, 51, 225, 163, 140, 202, 103, 128,
     184, 56, 145, 102, 66, 116, 167, 254, 8, 240, 48, 186, 17, 162, 64, 68, 164, 80, 172, 16,
     232], deployed := true, settings := some ⟨1, 0, 0, 0⟩ } (rq 0 0x0A [1, 216172782113783808, 0, 0, 0, 0, 0,
     2296414044099956468, 10673585358964388183, 17967962058203794229, 14234938865733645075, 2296414044099956468,
     10673585358964388183, 17967962058203794229, 14234938865733645075] up), _, _, rfl, by decide +kernel,
     someGet (by decide +kernel), by decide +kernel, by decide +kernel, by decide +kernel, by decide +kernel,
     by decide +kernel⟩,
   ⟨stf { provisioned := true, owner := some [161, 43, 35, 73, 214, 232, 170, 157, 126, 84, 105, 167, 29, 101, 58, 34, 78,
     252, 241, 26, 137, 173, 110, 243, 18, 192, 232, 51, 196, 150, 131, 140, 247, 35, 246, 81, 158, 167, 144, 105, 153, 112,
     117, 198, 20, 218, 105, 131, 184, 82, 44, 141, 162, 231, 201, 219, 11, 172, 247, 221, 2, 232, 231,
     90], deployed := true, settings := some ⟨1, 0, 0, 0⟩, svc := 1 } (rq 0 0x0A [2, 360287970189639680, 0, 0, 0, 0, 0,
     4158277701158802966, 6941140817716097715, 13687229058864783759, 7352632731883587710, 4158277701158802966,
     6941140817716097715, 13687229058864783759, 7352632731883587710] up), _, _, rfl, by decide +kernel,
     someGet (by decide +kernel), by decide +kernel, by decide +kernel, by decide +kernel, by decide +kernel,
     by decide +kernel⟩,
   ⟨stf { provisioned := true, owner := some [54, 78, 190, 71, 0, 201, 126, 65, 58, 226, 31, 214, 178, 231, 73, 72, 116, 57,
     76, 237, 109, 195, 74, 181, 208, 3, 178, 133, 163, 180, 76, 178, 29, 251, 7, 157, 65, 240, 97, 202, 157, 143, 159, 186,
     3, 128, 190, 216, 94, 52, 20, 127, 108, 182, 51, 44, 103, 72, 114, 5, 127, 17, 79,
     187], deployed := true, settings := some ⟨1, 0, 0, 0⟩ } (rq 0 0x0A [3, 72057594037927936, 0, 0, 0, 0, 0,
     266265036719273702, 14817712682342464255, 2962593115436423586, 9922300172803482950, 266265036719273702,
     14817712682342464255, 2962593115436423586, 9922300172803482950] up), _, _, rfl, by decide +kernel,
     someGet (by decide +kernel), by decide +kernel, by decide +kernel, by decide +kernel, by decide +kernel⟩⟩

/-- The clauses of SignedCommandsRun. -/
theorem test_meets_SignedCommands_2 :
    (∃ (s : State) (d : Dev) (r : Req), d = start s ∧ runs SECi d = true ∧ nextReq d = some r ∧ isSigned 4 r = true ∧
      r.w.length = 15 ∧ signedCheck r.secure false (r.bytes 120) s.fuses d = sOk ∧ (r.bytes 120).getD 0 0 = 4 ∧
      s.fuses.imgKeys.length < 4) ∧
    (∃ (s : State) (d : Dev) (r : Req) (v : Nat), d = start s ∧ runs SECi d = true ∧ nextReq d = some r ∧
      isSigned 5 r = true ∧ r.w.length = 15 ∧ signedCheck r.secure false (r.bytes 120) s.fuses d = sOk ∧
      (r.bytes 120).getD 0 0 = 5 ∧ v = (sub (r.bytes 120) 24 32).getD 0 0 ∧ s.fuses.secver < v ∧ v ≤ 64) ∧
    (∃ (s : State) (d : Dev) (r : Req), d = start s ∧ runs SECi d = true ∧ nextReq d = some r ∧ isSigned 6 r = true ∧
      r.w.length = 15 ∧ signedCheck r.secure false (r.bytes 120) s.fuses d = sOk ∧ (r.bytes 120).getD 0 0 = 6) ∧
    (∃ (s : State) (d : Dev) (f : PortFrame), d = start s ∧ isUp SECi d ∧ isUp APPi d ∧ f.etype = 0x88B5 ∧
      ofBe ((nats f.body).take 2) = 0x13 ∧ d.keep.tampHold = true ∧
      signedCheck true true ((nats f.body).drop 2) s.fuses (ethOut f.port f.src.toNat [0x00, 0x14, sOk] d) = sOk ∧
      signedCheck true true ((nats f.body).drop 2) s.fuses d = sOk) :=
  ⟨⟨stf { provisioned := true, owner := some [50, 107, 217, 109, 223, 90, 8, 190, 246, 95, 138, 167, 79, 80, 200, 229, 214,
     172, 40, 79, 169, 145, 36, 238, 97, 218, 160, 4, 80, 155, 71, 227, 24, 148, 192, 233, 196, 92, 11, 211, 104, 122, 191,
     23, 103, 201, 148, 182, 235, 23, 100, 28, 207, 91, 41, 137, 41, 52, 213, 90, 57, 186, 119,
     180], deployed := true, settings := some ⟨1, 0, 0, 0⟩ } (rq 0 0x0A [4, 144115188075855872, 0, 7, 0, 0, 0,
     13026634408501664048, 14009860645577270708, 10052502582199693388, 1976623746050022857, 13026634408501664048,
     14009860645577270708, 10052502582199693388, 1976623746050022857] up), _, _, rfl, by decide +kernel,
     someGet (by decide +kernel), by decide +kernel, by decide +kernel, by decide +kernel, by decide +kernel,
     by decide +kernel⟩,
   ⟨stf { provisioned := true, owner := some [194, 101, 183, 241, 250, 105, 115, 25, 149, 115, 144, 252, 188, 100, 98, 217,
     17, 177, 109, 119, 103, 198, 97, 251, 128, 223, 46, 3, 98, 179, 104, 8, 211, 202, 235, 18, 54, 17, 50, 224, 2, 233, 153,
     150, 254, 44, 179, 230, 127, 255, 106, 78, 235, 235, 237, 126, 121, 94, 37, 56, 142, 10, 196,
     212], deployed := true, settings := some ⟨1, 0, 0, 0⟩ } (rq 0 0x0A [5, 72057594037927936, 0, 1, 0, 0, 0,
     9724184572126837058, 12777856047704096147, 4598960199134148489, 12912037114423412779, 9724184572126837058,
     12777856047704096147, 4598960199134148489, 12912037114423412779] up), _, _, _, rfl, by decide +kernel,
     someGet (by decide +kernel), by decide +kernel, by decide +kernel, by decide +kernel, by decide +kernel, rfl,
     by decide +kernel, by decide +kernel⟩,
   ⟨stf { provisioned := true, owner := some [155, 95, 205, 27, 83, 62, 34, 181, 27, 149, 52, 126, 179, 3, 205, 250, 72, 9,
     72, 194, 71, 15, 114, 229, 207, 102, 169, 161, 130, 46, 251, 244, 20, 243, 244, 91, 231, 119, 165, 30, 121, 146, 115,
     176, 166, 255, 228, 121, 49, 205, 197, 48, 120, 78, 21, 113, 147, 248, 110, 34, 75, 101, 27,
     168], deployed := true, settings := some ⟨1, 0, 0, 0⟩ } { rq 0 0x0A [6, 0, 216172782113783808, 0, 0, 0, 0,
     12775812018309519455, 3286618704681365279, 3911464380609972201, 7164986211369409035, 12775812018309519455,
     3286618704681365279, 3911464380609972201, 7164986211369409035] up with sec := { up.sec with nonce := some ([0, 0, 0, 0,
     0, 0, 0, 3], 0) } }, _, _, rfl, by decide +kernel, someGet (by decide +kernel), by decide +kernel, by decide +kernel,
     by decide +kernel, by decide +kernel⟩,
   ⟨stf { provisioned := true, owner := some [155, 95, 205, 27, 83, 62, 34, 181, 27, 149, 52, 126, 179, 3, 205, 250, 72, 9,
     72, 194, 71, 15, 114, 229, 207, 102, 169, 161, 130, 46, 251, 244, 20, 243, 244, 91, 231, 119, 165, 30, 121, 146, 115,
     176, 166, 255, 228, 121, 49, 205, 197, 48, 120, 78, 21, 113, 147, 248, 110, 34, 75, 101, 27,
     168], deployed := true, settings := some ⟨1, 0, 0,
     0⟩ } { up with keep := { up.keep with tampHold := true }, sec := { up.sec with nonce := some ([0, 0, 0, 0, 0, 0, 0, 3],
     0) } }, _, ⟨0, 0, 0, 0x88B5, ([0, 0x13] ++ [6] ++ List.replicate 22 0 ++ [3] ++ List.replicate 32 0 ++ [95, 88, 129, 108,
     87, 205, 76, 177, 31, 239, 175, 116, 76, 106, 156, 45, 233, 199, 217, 93, 33, 80, 72, 54, 11, 218, 62, 93, 255, 36, 111,
     99, 95, 88, 129, 108, 87, 205, 76, 177, 31, 239, 175, 116, 76, 106, 156, 45, 233, 199, 217, 93, 33, 80, 72, 54, 11, 218,
     62, 93, 255, 36, 111, 99]).map (BitVec.ofNat 8)⟩, rfl, by decide +kernel, by decide +kernel, by decide +kernel,
     by decide +kernel, by decide +kernel, by decide +kernel, by decide +kernel⟩⟩

/-- The clauses of SignedCommandsRun. -/
theorem test_meets_SignedCommands_3 :
    (∃ (s : State) (d : Dev) (r : Req), d = start s ∧ runs SECi d = true ∧ nextReq d = some r ∧ isSigned 7 r = true ∧
      r.w.length = 15 ∧ signedCheck r.secure false (r.bytes 120) s.fuses d = sOk ∧ (r.bytes 120).getD 0 0 = 7 ∧
      (actDebugUnlock (sub (r.bytes 120) 24 32) s.fuses (signedUsed (r.bytes 120) d)).st = sOk) ∧
    (∃ (s : State) (d : Dev) (r : Req), d = start s ∧ runs SECi d = true ∧ nextReq d = some r ∧ isSigned 8 r = true ∧
      r.w.length = 15 ∧ signedCheck r.secure false (r.bytes 120) s.fuses d = sOk ∧ (r.bytes 120).getD 0 0 = 8 ∧
      on AON.LSTAT.ERASING (signedUsed (r.bytes 120) d) = false) :=
  ⟨⟨stf { provisioned := true, owner := some [173, 60, 238, 39, 102, 192, 247, 71, 241, 125, 15, 116, 157, 1, 38, 128, 123,
     102, 206, 67, 25, 30, 45, 199, 96, 181, 90, 86, 102, 210, 185, 250, 202, 64, 116, 87, 154, 124, 249, 118, 11, 221, 131,
     113, 70, 220, 95, 187, 154, 178, 25, 196, 45, 30, 190, 214, 65, 192, 188, 92, 67, 142, 75,
     107], deployed := true, settings := some ⟨1, 0, 0, 0⟩ } { rq 0 0x0A [7, 0, 144115188075855872, 65537, 0, 0, 0,
     2508110145988143842, 3746874281041968215, 124152658874508341, 10781461638633435530, 2508110145988143842,
     3746874281041968215, 124152658874508341, 10781461638633435530] up with sec := { up.sec with nonce := some ([0, 0, 0, 0,
     0, 0, 0, 2], 0) } }, _, _, rfl, by decide +kernel, someGet (by decide +kernel), by decide +kernel, by decide +kernel,
     by decide +kernel, by decide +kernel, by decide +kernel⟩,
   ⟨stf { provisioned := true, owner := some [111, 27, 237, 180, 156, 219, 57, 79, 146, 83, 70, 182, 250, 237, 207, 19, 201,
     190, 217, 93, 36, 86, 240, 143, 69, 241, 58, 146, 200, 134, 81, 50, 42, 238, 247, 176, 165, 170, 132, 92, 219, 193, 125,
     9, 132, 214, 77, 70, 49, 229, 235, 89, 88, 3, 197, 82, 234, 14, 113, 107, 201, 52, 50,
     58], deployed := true, settings := some ⟨1, 0, 0, 0⟩ } (rq 8 0x0A [8, 72057594037927936, 0, 0, 0, 0, 0,
     15454320016479458548, 7312502994660272035, 2711373599298073490, 10914241813507597472, 15454320016479458548,
     7312502994660272035, 2711373599298073490, 10914241813507597472] up), _, _, rfl, by decide +kernel,
     someGet (by decide +kernel), by decide +kernel, by decide +kernel, by decide +kernel, by decide +kernel,
     by decide +kernel⟩⟩

/-- The clauses of ProvisioningRuns. -/
theorem test_meets_Provisioning :
    (∃ (s : State) (d : Dev) (r : Req), d = start s ∧ runs SECi d = true ∧ nextReq d = some r ∧ isCode 0x10 r = true ∧
      r.w.length = 8 ∧ lcState s.fuses = 1 ∧ s.fuses.owner = none) ∧
    (∃ (s : State) (d : Dev) (r : Req), d = start s ∧ runs SECi d = true ∧ nextReq d = some r ∧ isCode 0x11 r = true ∧
      r.w.length = 4 ∧ lcState s.fuses = 1 ∧ s.fuses.imgKeys = []) ∧
    (∃ (s : State) (d : Dev) (r : Req), d = start s ∧ runs SECi d = true ∧ nextReq d = some r ∧ isCode 0x12 r = true ∧
      (reqDeploy r s.fuses d).st = sOk) ∧
    (∃ (s : State) (d : Dev) (r : Req), d = start s ∧ runs SECi d = true ∧ nextReq d = some r ∧ isCode 0x13 r = true ∧
      r.w.length = 1 ∧ lcState s.fuses = 1 ∧ s.fuses.owner = none ∧ r.word 0 = s.fuses.devid) :=
  ⟨⟨stf { provisioned := true } (rq 0 0x10 [0, 0, 0, 0, 0, 0, 0, 0] up), _, _, rfl, by decide +kernel,
     someGet (by decide +kernel), by decide +kernel, by decide +kernel, by decide +kernel, by decide +kernel⟩,
   ⟨stf { provisioned := true } (rq 0 0x11 [0, 0, 0, 0] up), _, _, rfl, by decide +kernel, someGet (by decide +kernel),
     by decide +kernel, by decide +kernel, by decide +kernel, by decide +kernel⟩,
   ⟨stf { provisioned := true, owner := some [], imgKeys := [[]] } { rq 0 0x12 [1, 0, 0, 0,
     0] up with sec := { up.sec with spore := some [1] } }, _, _, rfl, by decide +kernel, someGet (by decide +kernel),
     by decide +kernel, by decide +kernel⟩,
   ⟨stf { provisioned := true } (rq 0 0x13 [0] up), _, _, rfl, by decide +kernel, someGet (by decide +kernel),
     by decide +kernel, by decide +kernel, by decide +kernel, by decide +kernel, by decide +kernel⟩⟩

/-- The clauses of ProvisioningRuns. -/
theorem test_meets_KeyEvents_1 :
    (∃ (s : State) (d : Dev) (n : List Nat) (t : Nat), d = start s ∧ isUp SECi d ∧ d.sec.nonce = some (n, t) ∧
      t + 60 * rawPerS ≤ d.raw) ∧
    (∃ (s : State) (d : Dev) (a : Answer), d = start s ∧ isUp SECi d ∧ d.sec.ans = some a ∧ (ferryOf a.ferry d).full = false ∧
      d.raw ≤ a.from_ + 10 * rawPerMs) ∧
    (∃ (s : State) (d : Dev) (a : Answer), d = start s ∧ isUp SECi d ∧ d.sec.ans = some a ∧ (ferryOf a.ferry d).full = true ∧
      a.from_ + 10 * rawPerMs ≤ d.raw) ∧
    (∃ (s : State) (d : Dev), d = start s ∧ isUp SECi d ∧ d.sec.maskAt + rawPerMs ≤ d.raw) :=
  ⟨⟨st { up with raw := 26000000 * 60, sec := { up.sec with nonce := some ([], 0) } }, _, _, _, rfl, by decide +kernel,
     someGet2 (by decide +kernel), by decide +kernel⟩,
   ⟨st { up with sec := { up.sec with ans := some ⟨4, 0, [], 0⟩ } }, _, _, rfl, by decide +kernel,
     someGet (by decide +kernel), by decide +kernel, by decide +kernel⟩,
   ⟨st (ferrySet 4 { full := true } { up with raw := 26000000, sec := { up.sec with ans := some ⟨4, 0, [], 0⟩ } }), _, _, rfl,
     by decide +kernel, someGet (by decide +kernel), by decide +kernel, by decide +kernel⟩,
   ⟨st { up with raw := 26000 }, _, rfl, by decide +kernel, by decide +kernel⟩⟩

/-- The clauses of ProvisioningRuns. -/
theorem test_meets_KeyEvents_2 :
    (∃ (s : State) (d : Dev), d = start s ∧ isUp SECi d ∧ on SEC.DRBGSTAT.FAIL d = false) ∧
    (∃ (s : State) (d : Dev), d = start s ∧ isUp AONi d ∧ lcState s.fuses ≠ 0) ∧
    (∃ (s : State) (d : Dev), d = start s ∧ isUp APPi d ∧ d.keep.tampHold = true) ∧
    (∃ (s : State) (d : Dev) (e sc : Nat), d = start s ∧ isUp SECi d ∧ d.sec.dbgEnd = some (e, sc) ∧ e ≤ d.raw) :=
  ⟨⟨st (wrB SEC.DRBGSTAT.FAIL false up), _, rfl, by decide +kernel, by decide +kernel⟩,
   ⟨stf { provisioned := true } up, _, rfl, by decide +kernel, by decide +kernel⟩,
   ⟨st { up with keep := { up.keep with tampHold := true } }, _, rfl, by decide +kernel, by decide +kernel⟩,
   ⟨st { up with sec := { up.sec with dbgEnd := some (0, 1) } }, _, _, _, rfl, by decide +kernel,
     someGet2 (by decide +kernel), by decide +kernel⟩⟩

/-- The clauses of StraitsRun. -/
theorem test_meets_StraitQueues_1 :
    (∃ (s : State) (d : Dev) (q : Fin 48) (w : Who), d = start s ∧ lvlOk (qAtM q) w = true ∧ qWinUp q d = true ∧
      qProd q = .fw ∧ qLive q d = true ∧ ¬ qDepth q ≤ (qGet q d).fill ∧ ¬ 64 ≤ (qGet q d).opn.length ∧
      on (SQ.QCTL.END q) d = true) ∧
    (∃ (s : State) (d : Dev) (q : Fin 48) (w : Who), d = start s ∧ lvlOk (qAtM q) w = true ∧ qWinUp q d = true ∧
      qProd q = .fw ∧ qLive q d = true ∧ ¬ qDepth q ≤ (qGet q d).fill ∧ ¬ 64 ≤ (qGet q d).opn.length ∧
      on (SQ.QCTL.END q) d = false) ∧
    (∃ (s : State) (d : Dev) (q : Fin 48) (i : Nat) (p : Packet), d = start s ∧ qLive q d = true ∧
      findIx (fun p => !p.shown) (qGet q d).pkts = some i ∧ (qGet q d).pkts[i]? = some p) ∧
    (∃ (s : State) (d : Dev) (q : Fin 48) (e : Ecc) (w : Who) (it : W64) (fin : Bool) (v : Queue), d = start s ∧
      lvlOk (qAtM q) w = true ∧ qWinUp q d = true ∧ qCons q = .fw ∧ (qGet q d).take = some (it, fin, v) ∧
      worseEcc e (headEcc q d) ≠ .double) :=
  ⟨⟨st (wrB (SQ.QCTL.END (8 : Fin 48)) true up), _, 8, ⟨0, .m⟩, rfl, by decide +kernel, by decide +kernel, by decide +kernel,
     by decide +kernel, by decide +kernel, by decide +kernel, by decide +kernel⟩,
   ⟨st (wrB (SQ.QCTL.END (8 : Fin 48)) false up), _, 8, ⟨0, .m⟩, rfl, by decide +kernel, by decide +kernel, by decide +kernel,
     by decide +kernel, by decide +kernel, by decide +kernel, by decide +kernel⟩,
   ⟨st (qSet 8 { pkts := [{ items := [1] }] } up), _, 8, _, _, rfl, by decide +kernel, someGet (by decide +kernel),
     someGet (by decide +kernel)⟩,
   ⟨st (q1 9 [1] up), _, 9, .clean, ⟨0, .m⟩, _, _, _, rfl, by decide +kernel, by decide +kernel, by decide +kernel,
     someGet3 (by decide +kernel), by decide +kernel⟩⟩

/-- The clauses of StraitsRun. -/
theorem test_meets_StraitQueues_2 :
    (∃ (s : State) (d : Dev) (q : Fin 48) (e : Ecc) (w : Who) (it : W64) (fin : Bool) (v : Queue), d = start s ∧
      lvlOk (qAtM q) w = true ∧ qWinUp q d = true ∧ qCons q = .fw ∧ (qGet q d).take = some (it, fin, v) ∧
      worseEcc e (headEcc q d) = .double) ∧
    (∃ (s : State) (d : Dev) (q : Fin 48) (w : Who), d = start s ∧ lvlOk (qAtM q) w = true ∧ qWinUp q d = true ∧
      fwReads q = true ∧ (qGet q d).inPkt = false) ∧
    (∃ (s : State) (d : Dev) (q : Fin 48) (w : Who), d = start s ∧ lvlOk (qAtM q) w = true ∧ qWinUp q d = true ∧
      fwReads q = true ∧ (qGet q d).marked = true) ∧
    (∃ (s : State) (d : Dev) (q : Fin 48) (w : Who), d = start s ∧ lvlOk (qAtM q) w = true ∧ qWinUp q d = true ∧
      fwReads q = true) :=
  ⟨⟨st (q1 9 [1] up), _, 9, .double, ⟨0, .m⟩, _, _, _, rfl, by decide +kernel, by decide +kernel, by decide +kernel,
     someGet3 (by decide +kernel), by decide +kernel⟩,
   ⟨st up, _, 9, ⟨0, .m⟩, rfl, by decide +kernel, by decide +kernel, by decide +kernel, by decide +kernel⟩,
   ⟨st (qSet 9 { marked := true } up), _, 9, ⟨0, .m⟩, rfl, by decide +kernel, by decide +kernel, by decide +kernel,
     by decide +kernel⟩,
   ⟨st up, _, 9, ⟨0, .m⟩, rfl, by decide +kernel, by decide +kernel, by decide +kernel⟩⟩

/-- The clauses of StraitsRun. -/
theorem test_meets_LocksAndFerries_1 :
    (∃ (s : State) (d : Dev) (w : Who), d = start s ∧ isUp SCHi d ∧ lvlOk false w = true) ∧
    (∃ (s : State) (d : Dev) (n : Fin 128) (r : Fin 16) (w : Who), d = start s ∧ isUp SCHi d ∧ lvlOk false w = true ∧
      w.rq = r ∧ lockOf n d = r.val + 1) ∧
    (∃ (s : State) (d : Dev) (w : Who), d = start s ∧ isUp SCHi d ∧ lvlOk true w = true) ∧
    (∃ (s : State) (d : Dev) (f : Fin 16) (w : Who), d = start s ∧ isUp (ferryIsl f) d ∧ (ferryOf f d).full = false ∧
      ferrySender f w.rq w.lvl d = true) :=
  ⟨⟨st up, _, ⟨0, .m⟩, rfl, by decide +kernel, by decide +kernel⟩,
   ⟨st (lockSet 0 1 up), _, 0, 0, ⟨0, .m⟩, rfl, by decide +kernel, by decide +kernel, by decide +kernel, by decide +kernel⟩,
   ⟨st up, _, ⟨0, .m⟩, rfl, by decide +kernel, by decide +kernel⟩,
   ⟨st up, _, 0, ⟨0, .m⟩, rfl, by decide +kernel, by decide +kernel, by decide +kernel⟩⟩

/-- The clauses of StraitsRun. -/
theorem test_meets_LocksAndFerries_2 :
    (∃ (s : State) (d : Dev) (f : Fin 16) (hdr : W32) (w : Who), d = start s ∧ isUp (ferryIsl f) d ∧
      sendBad f w.rq w.lvl hdr.toNat d = false) ∧
    (∃ (s : State) (d : Dev) (f : Fin 16) (w : Who), d = start s ∧ isUp (ferryIsl f) d ∧ lvlOk (decide (f.val < 8)) w = true ∧
      ferryRecv f (ferryOf f d).hdr.toNat d = w.rq ∧ (ferryOf f d).full = true) ∧
    (∃ (s : State) (d : Dev) (r : Fin 12) (w : Who), d = start s ∧ isUp (bellIsl r) d ∧ lvlOk (decide (r.val = 8)) w = true ∧
      (w.lvl = .m ∨ w.rq.val = r.val)) ∧
    (∃ (s : State) (d : Dev) (r : Fin 12), d = start s ∧ isUp (recvIsl r) d ∧ tget d.bellDue r 0 ≠ 0) :=
  ⟨⟨st up, _, 0, 0, ⟨0, .m⟩, rfl, by decide +kernel, by decide +kernel⟩,
   ⟨st (wr (FERRY.FCFG.RECEIVER 8) 0 (ferrySet 8 { full := true } up)), _, 8, ⟨0, .m⟩, rfl, by decide +kernel,
     by decide +kernel, by decide +kernel, by decide +kernel⟩,
   ⟨st up, _, 0, ⟨0, .m⟩, rfl, by decide +kernel, by decide +kernel, by decide +kernel⟩,
   ⟨st { up with bellDue := [(0, 1)] }, _, 0, rfl, by decide +kernel, by decide +kernel⟩⟩

/-- The clauses of IntegerResults. -/
theorem test_meets_IntegerResults_1 :
    (∃ (s : State) (d : Dev) (n : CoreNo) (w : Nat) (d' : Dev) (c : Core) (rd rs rt : RegNo), d = start s ∧ Issues n d w d' ∧
      c = coreOf n d ∧ reads (.a 0x01 rd rs rt) w = true) ∧
    (∃ (s : State) (d : Dev) (n : CoreNo) (w : Nat) (d' : Dev) (c : Core) (rd rs : RegNo) (imm : BitVec 16), d = start s ∧
      Issues n d w d' ∧ c = coreOf n d ∧ reads ⟨0x02, [(21, 5, rd), (16, 5, rs), (0, 16, imm.toNat)]⟩ w = true) ∧
    (∃ (s : State) (d : Dev) (n : CoreNo) (w : Nat) (d' : Dev) (c : Core) (rd rs : RegNo) (imm : BitVec 16), d = start s ∧
      Issues n d w d' ∧ c = coreOf n d ∧ reads ⟨0x03, [(21, 5, rd), (16, 5, rs), (0, 16, imm.toNat)]⟩ w = true) ∧
    (∃ (s : State) (d : Dev) (n : CoreNo) (w : Nat) (d' : Dev) (c : Core) (rd rs : RegNo) (imm : BitVec 16), d = start s ∧
      Issues n d w d' ∧ c = coreOf n d ∧ reads ⟨0x04, [(21, 5, rd), (16, 5, rs), (0, 16, imm.toNat)]⟩ w = true) :=
  ⟨⟨st (pw (.a 0x01 (0 : RegNo) (0 : RegNo) (0 : RegNo)) (pd pc0)), _, 0, _, _, _, 0, 0, 0, rfl,
     issues_pd (by decide +kernel), rfl, by decide +kernel⟩,
   ⟨st (pw ⟨0x02, [(21, 5, (0 : RegNo)), (16, 5, (0 : RegNo)), (0, 16, (0 : BitVec 16).toNat)]⟩ (pd pc0)), _, 0, _, _, _, 0,
     0, 0, rfl, issues_pd (by decide +kernel), rfl, by decide +kernel⟩,
   ⟨st (pw ⟨0x03, [(21, 5, (0 : RegNo)), (16, 5, (0 : RegNo)), (0, 16, (0 : BitVec 16).toNat)]⟩ (pd pc0)), _, 0, _, _, _, 0,
     0, 0, rfl, issues_pd (by decide +kernel), rfl, by decide +kernel⟩,
   ⟨st (pw ⟨0x04, [(21, 5, (0 : RegNo)), (16, 5, (0 : RegNo)), (0, 16, (0 : BitVec 16).toNat)]⟩ (pd pc0)), _, 0, _, _, _, 0,
     0, 0, rfl, issues_pd (by decide +kernel), rfl, by decide +kernel⟩⟩

/-- The clauses of IntegerResults. -/
theorem test_meets_IntegerResults_2 :
    (∃ (s : State) (d : Dev) (n : CoreNo) (w : Nat) (d' : Dev) (c : Core) (rd rs : RegNo) (imm : BitVec 16), d = start s ∧
      Issues n d w d' ∧ c = coreOf n d ∧ reads ⟨0x05, [(21, 5, rd), (16, 5, rs), (0, 16, imm.toNat)]⟩ w = true) ∧
    (∃ (s : State) (d : Dev) (n : CoreNo) (w : Nat) (d' : Dev) (c : Core) (rd : RegNo) (imm : BitVec 16), d = start s ∧
      Issues n d w d' ∧ c = coreOf n d ∧ reads ⟨0x06, [(21, 5, rd), (0, 16, imm.toNat)]⟩ w = true) ∧
    (∃ (s : State) (d : Dev) (n : CoreNo) (w : Nat) (d' : Dev) (c : Core) (rd rs : RegNo) (amt : Fin 64), d = start s ∧
      Issues n d w d' ∧ c = coreOf n d ∧ reads ⟨0x07, [(21, 5, rd), (16, 5, rs), (0, 6, amt)]⟩ w = true) ∧
    (∃ (s : State) (d : Dev) (n : CoreNo) (w : Nat) (d' : Dev) (c : Core) (rd rs rt : RegNo) (p : Fin 8), d = start s ∧
      Issues n d w d' ∧ c = coreOf n d ∧ reads ⟨0x0B, [(21, 5, rd), (16, 5, rs), (11, 5, rt), (0, 3, p)]⟩ w = true) :=
  ⟨⟨st (pw ⟨0x05, [(21, 5, (0 : RegNo)), (16, 5, (0 : RegNo)), (0, 16, (0 : BitVec 16).toNat)]⟩ (pd pc0)), _, 0, _, _, _, 0,
     0, 0, rfl, issues_pd (by decide +kernel), rfl, by decide +kernel⟩,
   ⟨st (pw ⟨0x06, [(21, 5, (0 : RegNo)), (0, 16, (0 : BitVec 16).toNat)]⟩ (pd pc0)), _, 0, _, _, _, 0, 0, rfl,
     issues_pd (by decide +kernel), rfl, by decide +kernel⟩,
   ⟨st (pw ⟨0x07, [(21, 5, (0 : RegNo)), (16, 5, (0 : RegNo)), (0, 6, (0 : Fin 64))]⟩ (pd pc0)), _, 0, _, _, _, 0, 0, 0, rfl,
     issues_pd (by decide +kernel), rfl, by decide +kernel⟩,
   ⟨st (pw ⟨0x0B, [(21, 5, (0 : RegNo)), (16, 5, (0 : RegNo)), (11, 5, (0 : RegNo)), (0, 3, (0 : Fin 8))]⟩ (pd pc0)), _, 0, _,
     _, _, 0, 0, 0, 0, rfl, issues_pd (by decide +kernel), rfl, by decide +kernel⟩⟩

/-- The clauses of PredicateResults. -/
theorem test_meets_PredicateResults :
    (∃ (s : State) (d : Dev) (n : CoreNo) (w : Nat) (d' : Dev) (c : Core) (rs rt : RegNo), d = start s ∧ Issues n d w d' ∧
      c = coreOf n d ∧ reads ⟨0x08, [(16, 5, rs), (11, 5, rt)]⟩ w = true) ∧
    (∃ (s : State) (d : Dev) (n : CoreNo) (w : Nat) (d' : Dev) (c : Core) (pd : Fin 8) (rs : RegNo) (cond : Fin 8) (imm :
      BitVec 13), d = start s ∧ Issues n d w d' ∧ c = coreOf n d ∧ ¬ 5 < cond.val ∧
      reads ⟨0x09, [(23, 3, pd), (16, 5, rs), (13, 3, cond), (0, 13, imm.toNat)]⟩ w = true) ∧
    (∃ (s : State) (d : Dev) (n : CoreNo) (w : Nat) (d' : Dev) (c : Core) (pd : Fin 8) (rs : RegNo) (cond : Fin 8) (imm :
      BitVec 13), d = start s ∧ Issues n d w d' ∧ c = coreOf n d ∧ 5 < cond.val ∧
      reads ⟨0x09, [(23, 3, pd), (16, 5, rs), (13, 3, cond), (0, 13, imm.toNat)]⟩ w = true) ∧
    (∃ (s : State) (d : Dev) (n : CoreNo) (w : Nat) (d' : Dev) (c : Core), d = start s ∧ Issues n d w d' ∧ c = coreOf n d ∧
      reads ⟨0x0A, []⟩ w = true) :=
  ⟨⟨st (pw ⟨0x08, [(16, 5, (0 : RegNo)), (11, 5, (0 : RegNo))]⟩ (pd pc0)), _, 0, _, _, _, 0, 0, rfl,
     issues_pd (by decide +kernel), rfl, by decide +kernel⟩,
   ⟨st (pw ⟨0x09, [(23, 3, (0 : Fin 8)), (16, 5, (0 : RegNo)), (13, 3, (0 : Fin 8)), (0, 13,
     (0 : BitVec 13).toNat)]⟩ (pd pc0)), _, 0, _, _, _, 0, 0, 0, 0, rfl, issues_pd (by decide +kernel), rfl,
     by decide +kernel, by decide +kernel⟩,
   ⟨st (pw ⟨0x09, [(23, 3, (0 : Fin 8)), (16, 5, (0 : RegNo)), (13, 3, (6 : Fin 8)), (0, 13,
     (0 : BitVec 13).toNat)]⟩ (pd pc0)), _, 0, _, _, _, 0, 0, 6, 0, rfl, issues_pd (by decide +kernel), rfl,
     by decide +kernel, by decide +kernel⟩,
   ⟨st (pw ⟨0x0A, []⟩ (pd pc0)), _, 0, _, _, _, rfl, issues_pd (by decide +kernel), rfl, by decide +kernel⟩⟩

/-- The clauses of BranchesAndFences. -/
theorem test_meets_Branches_1 :
    (∃ (s : State) (d : Dev) (n : CoreNo) (w : Nat) (d' : Dev) (c : Core) (off : BitVec 21), d = start s ∧ Issues n d w d' ∧
      c = coreOf n d ∧ reads ⟨0x18, [(0, 21, off.toNat)]⟩ w = true) ∧
    (∃ (s : State) (d : Dev) (n : CoreNo) (w : Nat) (d' : Dev) (c : Core) (off : BitVec 21), d = start s ∧ Issues n d w d' ∧
      c = coreOf n d ∧ reads ⟨0x19, [(0, 21, off.toNat)]⟩ w = true) ∧
    (∃ (s : State) (d : Dev) (n : CoreNo) (w : Nat) (d' : Dev) (c : Core) (p : Fin 8) (sense : Bool) (off : BitVec 21),
      d = start s ∧ Issues n d w d' ∧ c = coreOf n d ∧ (c.pred p == 0xFFFFFFFF) = sense ∧
      reads ⟨0x1A, [(23, 3, p), (22, 1, b2n sense), (0, 21, off.toNat)]⟩ w = true) ∧
    (∃ (s : State) (d : Dev) (n : CoreNo) (w : Nat) (d' : Dev) (c : Core) (p : Fin 8) (sense : Bool) (off : BitVec 21),
      d = start s ∧ Issues n d w d' ∧ c = coreOf n d ∧ (c.pred p == 0xFFFFFFFF) ≠ sense ∧
      reads ⟨0x1A, [(23, 3, p), (22, 1, b2n sense), (0, 21, off.toNat)]⟩ w = true) :=
  ⟨⟨st (pw ⟨0x18, [(0, 21, (0 : BitVec 21).toNat)]⟩ (pd pc0)), _, 0, _, _, _, 0, rfl, issues_pd (by decide +kernel), rfl,
     by decide +kernel⟩,
   ⟨st (pw ⟨0x19, [(0, 21, (0 : BitVec 21).toNat)]⟩ (pd pc0)), _, 0, _, _, _, 0, rfl, issues_pd (by decide +kernel), rfl,
     by decide +kernel⟩,
   ⟨st (pw ⟨0x1A, [(23, 3, (0 : Fin 8)), (22, 1, b2n (true : Bool)), (0, 21, (0 : BitVec 21).toNat)]⟩ (pd pc0)), _, 0, _, _,
     _, 0, true, 0, rfl, issues_pd (by decide +kernel), rfl, by decide +kernel, by decide +kernel⟩,
   ⟨st (pw ⟨0x1A, [(23, 3, (0 : Fin 8)), (22, 1, b2n (false : Bool)), (0, 21, (0 : BitVec 21).toNat)]⟩ (pd pc0)), _, 0, _, _,
     _, 0, false, 0, rfl, issues_pd (by decide +kernel), rfl, by decide +kernel, by decide +kernel⟩⟩

/-- The clauses of BranchesAndFences. -/
theorem test_meets_Branches_2 :
    (∃ (s : State) (d : Dev) (n : CoreNo) (w : Nat) (d' : Dev) (c : Core) (rs : RegNo) (off : BitVec 21), d = start s ∧
      Issues n d w d' ∧ c = coreOf n d ∧ c.get rs = 0 ∧ reads ⟨0x1B, [(21, 5, rs), (0, 21, off.toNat)]⟩ w = true) ∧
    (∃ (s : State) (d : Dev) (n : CoreNo) (w : Nat) (d' : Dev) (c : Core) (rs : RegNo) (off : BitVec 21), d = start s ∧
      Issues n d w d' ∧ c = coreOf n d ∧ c.get rs ≠ 0 ∧ reads ⟨0x1B, [(21, 5, rs), (0, 21, off.toNat)]⟩ w = true) ∧
    (∃ (s : State) (d : Dev) (n : CoreNo) (w : Nat) (d' : Dev) (c : Core) (rs : RegNo) (off : BitVec 21), d = start s ∧
      Issues n d w d' ∧ c = coreOf n d ∧ c.get rs ≠ 0 ∧ reads ⟨0x1C, [(21, 5, rs), (0, 21, off.toNat)]⟩ w = true) ∧
    (∃ (s : State) (d : Dev) (n : CoreNo) (w : Nat) (d' : Dev) (c : Core) (rs : RegNo) (off : BitVec 21), d = start s ∧
      Issues n d w d' ∧ c = coreOf n d ∧ c.get rs = 0 ∧ reads ⟨0x1C, [(21, 5, rs), (0, 21, off.toNat)]⟩ w = true) :=
  ⟨⟨st (pw ⟨0x1B, [(21, 5, (0 : RegNo)), (0, 21, (0 : BitVec 21).toNat)]⟩ (pd pc0)), _, 0, _, _, _, 0, 0, rfl,
     issues_pd (by decide +kernel), rfl, by decide +kernel, by decide +kernel⟩,
   ⟨st (pw ⟨0x1B, [(21, 5, (1 : RegNo)), (0, 21, (0 : BitVec 21).toNat)]⟩ (pd { pc0 with x := { pc := 0, g := [(1, 1)] } })),
     _, 0, _, _, _, 1, 0, rfl, issues_pd (by decide +kernel), rfl, by decide +kernel, by decide +kernel⟩,
   ⟨st (pw ⟨0x1C, [(21, 5, (1 : RegNo)), (0, 21, (0 : BitVec 21).toNat)]⟩ (pd { pc0 with x := { pc := 0, g := [(1, 1)] } })),
     _, 0, _, _, _, 1, 0, rfl, issues_pd (by decide +kernel), rfl, by decide +kernel, by decide +kernel⟩,
   ⟨st (pw ⟨0x1C, [(21, 5, (0 : RegNo)), (0, 21, (0 : BitVec 21).toNat)]⟩ (pd pc0)), _, 0, _, _, _, 0, 0, rfl,
     issues_pd (by decide +kernel), rfl, by decide +kernel, by decide +kernel⟩⟩

/-- The clauses of BranchesAndFences. -/
theorem test_meets_Branches_3 :
    (∃ (s : State) (d : Dev) (n : CoreNo) (w : Nat) (d' : Dev) (c : Core) (rs : RegNo), d = start s ∧ Issues n d w d' ∧
      c = coreOf n d ∧ reads ⟨0x1D, [(16, 5, rs)]⟩ w = true) ∧
    (∃ (s : State) (d : Dev) (n : CoreNo) (w : Nat) (d' : Dev) (c : Core) (rd rs : RegNo), d = start s ∧ Issues n d w d' ∧
      c = coreOf n d ∧ reads ⟨0x1D, [(21, 5, rd), (16, 5, rs)]⟩ w = true) :=
  ⟨⟨st (pw ⟨0x1D, [(16, 5, (0 : RegNo))]⟩ (pd pc0)), _, 0, _, _, _, 0, rfl, issues_pd (by decide +kernel), rfl,
     by decide +kernel⟩,
   ⟨st (pw ⟨0x1D, [(21, 5, (0 : RegNo)), (16, 5, (0 : RegNo))]⟩ (pd pc0)), _, 0, _, _, _, 0, 0, rfl,
     issues_pd (by decide +kernel), rfl, by decide +kernel⟩⟩

/-- The clauses of BranchesAndFences. -/
theorem test_meets_FencesAndHints_1 :
    (∃ (s : State) (d : Dev) (n : CoreNo) (w : Nat) (d' : Dev) (c : Core) (base : RegNo) (off : BitVec 12), d = start s ∧
      Issues n d w d' ∧ c = coreOf n d ∧ reads ⟨0x13, [(16, 5, base), (0, 12, off.toNat)]⟩ w = true) ∧
    (∃ (s : State) (d : Dev) (n : CoreNo) (w : Nat) (d' : Dev) (c : Core) (base : RegNo) (off : BitVec 12), d = start s ∧
      Issues n d w d' ∧ c = coreOf n d ∧ c.x.lvl = .m ∧ reads ⟨0x13, [(16, 5, base), (0, 12, off.toNat)]⟩ w = true) ∧
    (∃ (s : State) (d : Dev) (n : CoreNo) (w : Nat) (d' : Dev) (c : Core) (base : RegNo) (off : BitVec 12), d = start s ∧
      Issues n d w d' ∧ c = coreOf n d ∧ c.x.lvl ≠ .m ∧ reads ⟨0x13, [(16, 5, base), (0, 12, off.toNat)]⟩ w = true) ∧
    (∃ (s : State) (d : Dev) (n : CoreNo) (w : Nat) (d' : Dev) (c : Core), d = start s ∧ Issues n d w d' ∧ c = coreOf n d ∧
      reads ⟨0x15, []⟩ w = true) :=
  ⟨⟨st (pw ⟨0x13, [(16, 5, (0 : RegNo)), (0, 12, (0 : BitVec 12).toNat)]⟩ (pd pc0)), _, 0, _, _, _, 0, 0, rfl,
     issues_pd (by decide +kernel), rfl, by decide +kernel⟩,
   ⟨st (pw ⟨0x13, [(16, 5, (0 : RegNo)), (0, 12, (0 : BitVec 12).toNat)]⟩ (pd pc0)), _, 0, _, _, _, 0, 0, rfl,
     issues_pd (by decide +kernel), rfl, by decide +kernel, by decide +kernel⟩,
   ⟨st (pw ⟨0x13, [(16, 5, (0 : RegNo)), (0, 12, (0 : BitVec 12).toNat)]⟩ (pdU pcU)), _, 0, _, _, _, 0, 0, rfl,
     issues_pd (by decide +kernel), rfl, by decide +kernel, by decide +kernel⟩,
   ⟨st (pw ⟨0x15, []⟩ (pd pc0)), _, 0, _, _, _, rfl, issues_pd (by decide +kernel), rfl, by decide +kernel⟩⟩

/-- The clauses of BranchesAndFences. -/
theorem test_meets_FencesAndHints_2 :
    (∃ (s : State) (d : Dev) (n : CoreNo) (w : Nat) (d' : Dev) (c : Core) (rd : RegNo), d = start s ∧ Issues n d w d' ∧
      c = coreOf n d ∧ reads (.d 0x30 0 [(21, 5, rd), (0, 2, ((0 : Fin 4) : Nat))]) w = true) ∧
    (∃ (s : State) (d : Dev) (n : CoreNo) (w : Nat) (d' : Dev) (c : Core) (rd : RegNo), d = start s ∧ Issues n d w d' ∧
      c = coreOf n d ∧ reads (.d 0x30 0 [(21, 5, rd), (0, 2, ((1 : Fin 4) : Nat))]) w = true) ∧
    (∃ (s : State) (d : Dev) (n : CoreNo) (w : Nat) (d' : Dev) (c : Core), d = start s ∧ Issues n d w d' ∧ c = coreOf n d ∧
      illegalWord w = true) ∧
    (∃ (s : State) (d : Dev) (n : CoreNo) (w : Nat) (d' : Dev) (c : Core) (rd : RegNo), d = start s ∧ Issues n d w d' ∧
      c = coreOf n d ∧ reads (.d 0x30 1 [(21, 5, rd)]) w = true) :=
  ⟨⟨st (pw (.d 0x30 0 [(21, 5, (0 : RegNo)), (0, 2, ((0 : Fin 4) : Nat))]) (pd pc0)), _, 0, _, _, _, 0, rfl,
     issues_pd (by decide +kernel), rfl, by decide +kernel⟩,
   ⟨st (pw (.d 0x30 0 [(21, 5, (0 : RegNo)), (0, 2, ((1 : Fin 4) : Nat))]) (pd pc0)), _, 0, _, _, _, 0, rfl,
     issues_pd (by decide +kernel), rfl, by decide +kernel⟩,
   ⟨st (pd pc0), _, 0, _, _, _, rfl, issues_pd (by decide +kernel), rfl, by decide +kernel⟩,
   ⟨st (pw (.d 0x30 1 [(21, 5, (0 : RegNo))]) (pd pc0)), _, 0, _, _, _, 0, rfl, issues_pd (by decide +kernel), rfl,
     by decide +kernel⟩⟩

/-- The clauses of BranchesAndFences. -/
theorem test_meets_FencesAndHints_3 :
    (∃ (s : State) (d : Dev) (n : CoreNo) (w : Nat) (d' : Dev) (c : Core), d = start s ∧ Issues n d w d' ∧ c = coreOf n d ∧
      c.x.lvl ≠ .u ∧ c.np = false ∧ reads (.d 0x35 0 []) w = true) ∧
    (∃ (s : State) (d : Dev) (n : CoreNo) (w : Nat) (d' : Dev) (c : Core), d = start s ∧ Issues n d w d' ∧ c = coreOf n d ∧
      c.x.lvl ≠ .u ∧ c.np = true ∧ reads (.d 0x35 0 []) w = true) ∧
    (∃ (s : State) (d : Dev) (n : CoreNo) (w : Nat) (d' : Dev) (c : Core), d = start s ∧ Issues n d w d' ∧ c = coreOf n d ∧
      c.x.lvl = .u ∧ reads (.d 0x35 0 []) w = true) ∧
    (∃ (s : State) (d : Dev) (n : CoreNo) (w : Nat) (d' : Dev) (c : Core), d = start s ∧ Issues n d w d' ∧ c = coreOf n d ∧
      c.x.lvl ≠ .u ∧ c.np = true ∧ reads (.d 0x35 1 []) w = true) :=
  ⟨⟨st (pw (.d 0x35 0 []) (pd pc0)), _, 0, _, _, _, rfl, issues_pd (by decide +kernel), rfl, by decide +kernel,
     by decide +kernel, by decide +kernel⟩,
   ⟨st (pw (.d 0x35 0 []) (pd { pc0 with np := true })), _, 0, _, _, _, rfl, issues_pd (by decide +kernel), rfl,
     by decide +kernel, by decide +kernel, by decide +kernel⟩,
   ⟨st (pw (.d 0x35 0 []) (pdU pcU)), _, 0, _, _, _, rfl, issues_pd (by decide +kernel), rfl, by decide +kernel,
     by decide +kernel⟩,
   ⟨st (pw (.d 0x35 1 []) (pd { pc0 with np := true })), _, 0, _, _, _, rfl, issues_pd (by decide +kernel), rfl,
     by decide +kernel, by decide +kernel, by decide +kernel⟩⟩

/-- The clauses of BranchesAndFences. -/
theorem test_meets_FencesAndHints_4 :
    (∃ (s : State) (d : Dev) (n : CoreNo) (w : Nat) (d' : Dev) (c : Core), d = start s ∧ Issues n d w d' ∧ c = coreOf n d ∧
      c.x.lvl ≠ .u ∧ c.np = false ∧ reads (.d 0x35 1 []) w = true) ∧
    (∃ (s : State) (d : Dev) (n : CoreNo) (w : Nat) (d' : Dev) (c : Core), d = start s ∧ Issues n d w d' ∧ c = coreOf n d ∧
      c.x.lvl = .u ∧ reads (.d 0x35 1 []) w = true) :=
  ⟨⟨st (pw (.d 0x35 1 []) (pd pc0)), _, 0, _, _, _, rfl, issues_pd (by decide +kernel), rfl, by decide +kernel,
     by decide +kernel, by decide +kernel⟩,
   ⟨st (pw (.d 0x35 1 []) (pdU pcU)), _, 0, _, _, _, rfl, issues_pd (by decide +kernel), rfl, by decide +kernel,
     by decide +kernel⟩⟩

/-- The clauses of SystemAndTraps. -/
theorem test_meets_LocksAndSystem_1 :
    (∃ (s : State) (d : Dev) (n : CoreNo) (w : Nat) (d' : Dev) (c : Core) (rd rs : RegNo) (imm : BitVec 12) (k : Nat),
      d = start s ∧ Issues n d w d' ∧ c = coreOf n d ∧ isUp SCHi d' = true ∧ k = numOf 7 imm (c.get rs) ∧ lockOf k d' = 0 ∧
      reads (.d 0x31 0 [(21, 5, rd), (16, 5, rs), (0, 12, imm.toNat)]) w = true) ∧
    (∃ (s : State) (d : Dev) (n : CoreNo) (w : Nat) (d' : Dev) (c : Core) (rd rs : RegNo) (imm : BitVec 12) (k : Nat),
      d = start s ∧ Issues n d w d' ∧ c = coreOf n d ∧ isUp SCHi d' = true ∧ k = numOf 7 imm (c.get rs) ∧ lockOf k d' ≠ 0 ∧
      reads (.d 0x31 0 [(21, 5, rd), (16, 5, rs), (0, 12, imm.toNat)]) w = true) ∧
    (∃ (s : State) (d : Dev) (n : CoreNo) (w : Nat) (d' : Dev) (c : Core) (rd rs : RegNo) (imm : BitVec 12) (k : Nat),
      d = start s ∧ Issues n d w d' ∧ c = coreOf n d ∧ isUp SCHi d' = true ∧ k = numOf 7 imm (c.get rs) ∧
      lockOf k d' = n.val + 1 ∧ reads (.d 0x31 1 [(21, 5, rd), (16, 5, rs), (0, 12, imm.toNat)]) w = true) ∧
    (∃ (s : State) (d : Dev) (n : CoreNo) (w : Nat) (d' : Dev) (c : Core) (rd rs : RegNo) (imm : BitVec 12) (num : Nat) (l :
      Level) (v : W64), d = start s ∧ Issues n d w d' ∧ c = coreOf n d ∧ num = numOf 12 imm (c.get rs) ∧ num ≠ 0x01C ∧
      sysRead n num c d' = some (l, v) ∧ l.num ≤ c.x.lvl.num ∧ reads (.d 0x36 0 [(21, 5, rd), (16, 5, rs), (0, 12,
      imm.toNat)]) w = true) :=
  ⟨⟨st (pw (.d 0x31 0 [(21, 5, (0 : RegNo)), (16, 5, (0 : RegNo)), (0, 12, (0 : BitVec 12).toNat)]) (pd pc0)), _, 0, _, _, _,
     0, 0, 0, _, rfl, issues_pd (by decide +kernel), rfl, by decide +kernel, rfl, by decide +kernel, by decide +kernel⟩,
   ⟨st (pw (.d 0x31 0 [(21, 5, (0 : RegNo)), (16, 5, (0 : RegNo)), (0, 12, (0 : BitVec 12).toNat)]) (lockSet 0 2 (pd pc0))),
     _, 0, _, _, _, 0, 0, 0, _, rfl, issues_pd (by decide +kernel), rfl, by decide +kernel, rfl, by decide +kernel,
     by decide +kernel⟩,
   ⟨st (pw (.d 0x31 1 [(21, 5, (0 : RegNo)), (16, 5, (0 : RegNo)), (0, 12, (0 : BitVec 12).toNat)]) (lockSet 0 1 (pd pc0))),
     _, 0, _, _, _, 0, 0, 0, _, rfl, issues_pd (by decide +kernel), rfl, by decide +kernel, rfl, by decide +kernel,
     by decide +kernel⟩,
   ⟨st (pw (.d 0x36 0 [(21, 5, (0 : RegNo)), (16, 5, (0 : RegNo)), (0, 12, (0 : BitVec 12).toNat)]) (pd pc0)), _, 0, _, _, _,
     0, 0, 0, _, _, _, rfl, issues_pd (by decide +kernel), rfl, rfl, by decide +kernel, someGet2 (by decide +kernel),
     by decide +kernel, by decide +kernel⟩⟩

/-- The clauses of SystemAndTraps. -/
theorem test_meets_LocksAndSystem_2 :
    (∃ (s : State) (d : Dev) (n : CoreNo) (w : Nat) (d' : Dev) (c : Core) (rd rs : RegNo) (imm : BitVec 12) (num : Nat),
      d = start s ∧ Issues n d w d' ∧ c = coreOf n d ∧ num = numOf 12 imm (c.get rs) ∧ num = 0x01C ∧ c.x.lvl ≠ .u ∧
      reads (.d 0x36 0 [(21, 5, rd), (16, 5, rs), (0, 12, imm.toNat)]) w = true) ∧
    (∃ (s : State) (d : Dev) (n : CoreNo) (w : Nat) (d' : Dev) (c : Core) (rd rs : RegNo) (imm : BitVec 12) (num : Nat),
      d = start s ∧ Issues n d w d' ∧ c = coreOf n d ∧ num = numOf 12 imm (c.get rs) ∧ sysRead n num c d' = none ∧
      reads (.d 0x36 0 [(21, 5, rd), (16, 5, rs), (0, 12, imm.toNat)]) w = true) ∧
    (∃ (s : State) (d : Dev) (n : CoreNo) (w : Nat) (d' : Dev) (c : Core) (rs : RegNo) (imm : BitVec 12) (num : Nat) (l :
      Level) (v : W64), d = start s ∧ Issues n d w d' ∧ c = coreOf n d ∧ num = numOf 12 imm (c.get rs) ∧
      sysRead n num c d' = some (l, v) ∧ (sysWriteLevel num l).num ≤ c.x.lvl.num ∧ reads (.d 0x36 1 [(16, 5, rs), (0, 12,
      imm.toNat)]) w = true) :=
  ⟨⟨st (pw (.d 0x36 0 [(21, 5, (0 : RegNo)), (16, 5, (0 : RegNo)), (0, 12, (0x1C : BitVec 12).toNat)]) (pd pc0)), _, 0, _, _,
     _, 0, 0, 0x1C, _, rfl, issues_pd (by decide +kernel), rfl, rfl, by decide +kernel, by decide +kernel, by decide +kernel⟩,
   ⟨st (pw (.d 0x36 0 [(21, 5, (0 : RegNo)), (16, 5, (0 : RegNo)), (0, 12, (0xFF : BitVec 12).toNat)]) (pd pc0)), _, 0, _, _,
     _, 0, 0, 0xFF, _, rfl, issues_pd (by decide +kernel), rfl, rfl, by decide +kernel, by decide +kernel⟩,
   ⟨st (pw (.d 0x36 1 [(16, 5, (0 : RegNo)), (0, 12, (0 : BitVec 12).toNat)]) (pd pc0)), _, 0, _, _, _, 0, 0, _, _, _, rfl,
     issues_pd (by decide +kernel), rfl, rfl, someGet2 (by decide +kernel), by decide +kernel, by decide +kernel⟩⟩

/-- The clauses of SystemAndTraps. -/
theorem test_meets_TrapsAndReturn_1 :
    (∃ (s : State) (d : Dev) (n : CoreNo) (w : Nat) (d' : Dev) (c : Core) (imm : BitVec 12), d = start s ∧ Issues n d w d' ∧
      c = coreOf n d ∧ reads (.d 0x37 0 [(0, 12, imm.toNat)]) w = true) ∧
    (∃ (s : State) (d : Dev) (n : CoreNo) (w : Nat) (d' : Dev) (c : Core) (imm : BitVec 12), d = start s ∧ Issues n d w d' ∧
      c = coreOf n d ∧ reads (.d 0x37 1 [(0, 12, imm.toNat)]) w = true) ∧
    (∃ (s : State) (d : Dev) (n : CoreNo) (w : Nat) (d' : Dev) (c : Core) (imm : BitVec 12), d = start s ∧ Issues n d w d' ∧
      c = coreOf n d ∧ reads (.d 0x37 2 [(0, 12, imm.toNat)]) w = true) ∧
    (∃ (s : State) (d : Dev) (n : CoreNo) (w : Nat) (d' : Dev) (c : Core), d = start s ∧ Issues n d w d' ∧ c = coreOf n d ∧
      c.x.lvl ≠ .u ∧ reads (.d 0x37 3 []) w = true) :=
  ⟨⟨st (pw (.d 0x37 0 [(0, 12, (0 : BitVec 12).toNat)]) (pd pc0)), _, 0, _, _, _, 0, rfl, issues_pd (by decide +kernel), rfl,
     by decide +kernel⟩,
   ⟨st (pw (.d 0x37 1 [(0, 12, (0 : BitVec 12).toNat)]) (pd pc0)), _, 0, _, _, _, 0, rfl, issues_pd (by decide +kernel), rfl,
     by decide +kernel⟩,
   ⟨st (pw (.d 0x37 2 [(0, 12, (0 : BitVec 12).toNat)]) (pd pc0)), _, 0, _, _, _, 0, rfl, issues_pd (by decide +kernel), rfl,
     by decide +kernel⟩,
   ⟨st (pw (.d 0x37 3 []) (pd pc0)), _, 0, _, _, _, rfl, issues_pd (by decide +kernel), rfl, by decide +kernel,
     by decide +kernel⟩⟩

/-- The clauses of SystemAndTraps. -/
theorem test_meets_TrapsAndReturn_2 :
    (∃ (s : State) (d : Dev) (n : CoreNo) (w : Nat) (d' : Dev) (c : Core), d = start s ∧ Issues n d w d' ∧ c = coreOf n d ∧
      c.x.lvl = .u ∧ reads (.d 0x37 3 []) w = true) ∧
    (∃ (s : State) (d : Dev) (n : CoreNo) (w : Nat) (d' : Dev) (c : Core), d = start s ∧ Issues n d w d' ∧ c = coreOf n d ∧
      reads .none_ w = true) ∧
    (∃ (s : State) (d : Dev) (n : CoreNo) (w : Nat) (d' : Dev) (c : Core), d = start s ∧ Issues n d w d' ∧ c = coreOf n d ∧
      illegalWord w = true) :=
  ⟨⟨st (pw (.d 0x37 3 []) (pdU pcU)), _, 0, _, _, _, rfl, issues_pd (by decide +kernel), rfl, by decide +kernel,
     by decide +kernel⟩,
   ⟨st (pw .none_ (pd pc0)), _, 0, _, _, _, rfl, issues_pd (by decide +kernel), rfl, by decide +kernel⟩,
   ⟨st (pd pc0), _, 0, _, _, _, rfl, issues_pd (by decide +kernel), rfl, by decide +kernel⟩⟩

/-- The clauses of FloatingResults. -/
theorem test_meets_FloatingTraps_1 :
    (∃ (s : State) (d : Dev) (n : CoreNo) (w : Nat) (d' : Dev) (c : Core) (rd rs rt : RegNo) (dbl : Bool) (r : FRes),
      d = start s ∧ Issues n d w d' ∧ c = coreOf n d ∧ r = fAdd (fmtOf dbl) c.rnd (fpArg dbl (c.get rs)) (fpArg dbl (c.get
      rt)) ∧ r.fl &&& bits c.x.fpcsr.toNat 16 5 ≠ 0 ∧ reads (.a 0x28 rd rs rt) w = true) ∧
    (∃ (s : State) (d : Dev) (n : CoreNo) (w : Nat) (d' : Dev) (c : Core) (rd rs rt : RegNo) (dbl : Bool) (r : FRes),
      d = start s ∧ Issues n d w d' ∧ c = coreOf n d ∧ r = fSub (fmtOf dbl) c.rnd (fpArg dbl (c.get rs)) (fpArg dbl (c.get
      rt)) ∧ r.fl &&& bits c.x.fpcsr.toNat 16 5 ≠ 0 ∧ reads (.a 0x28 rd rs rt) w = true) ∧
    (∃ (s : State) (d : Dev) (n : CoreNo) (w : Nat) (d' : Dev) (c : Core) (rd rs rt : RegNo) (dbl : Bool) (r : FRes),
      d = start s ∧ Issues n d w d' ∧ c = coreOf n d ∧ r = fMul (fmtOf dbl) c.rnd (fpArg dbl (c.get rs)) (fpArg dbl (c.get
      rt)) ∧ r.fl &&& bits c.x.fpcsr.toNat 16 5 ≠ 0 ∧ reads (.a 0x28 rd rs rt) w = true) ∧
    (∃ (s : State) (d : Dev) (n : CoreNo) (w : Nat) (d' : Dev) (c : Core) (rd rs rt : RegNo) (dbl : Bool) (r : FRes),
      d = start s ∧ Issues n d w d' ∧ c = coreOf n d ∧ r = fDiv (fmtOf dbl) c.rnd (fpArg dbl (c.get rs)) (fpArg dbl (c.get
      rt)) ∧ r.fl &&& bits c.x.fpcsr.toNat 16 5 ≠ 0 ∧ reads (.a 0x28 rd rs rt) w = true) :=
  ⟨⟨st (pw (.a 0x28 (1 : RegNo) (1 : RegNo) (1 : RegNo)) (pd pcT)), _, 0, _, _, _, 1, 1, 1, true, _, rfl,
     issues_pd (by decide +kernel), rfl, rfl, by decide +kernel, by decide +kernel⟩,
   ⟨st (pw (.a 0x28 (1 : RegNo) (1 : RegNo) (1 : RegNo)) (pd pcT)), _, 0, _, _, _, 1, 1, 1, true, _, rfl,
     issues_pd (by decide +kernel), rfl, rfl, by decide +kernel, by decide +kernel⟩,
   ⟨st (pw (.a 0x28 (1 : RegNo) (1 : RegNo) (1 : RegNo)) (pd pcT)), _, 0, _, _, _, 1, 1, 1, true, _, rfl,
     issues_pd (by decide +kernel), rfl, rfl, by decide +kernel, by decide +kernel⟩,
   ⟨st (pw (.a 0x28 (1 : RegNo) (1 : RegNo) (1 : RegNo)) (pd pcT)), _, 0, _, _, _, 1, 1, 1, true, _, rfl,
     issues_pd (by decide +kernel), rfl, rfl, by decide +kernel, by decide +kernel⟩⟩

/-- The clauses of FloatingResults. -/
theorem test_meets_FloatingTraps_2 :
    (∃ (s : State) (d : Dev) (n : CoreNo) (w : Nat) (d' : Dev) (c : Core) (rd rs rt : RegNo) (dbl : Bool) (r : FRes),
      d = start s ∧ Issues n d w d' ∧ c = coreOf n d ∧ r = fFma (fmtOf dbl) c.rnd (fpArg dbl (c.get rs)) (fpArg dbl (c.get
      rt)) (fpArg dbl (c.get rd)) ∧ r.fl &&& bits c.x.fpcsr.toNat 16 5 ≠ 0 ∧ reads (.a 0x28 rd rs rt) w = true) ∧
    (∃ (s : State) (d : Dev) (n : CoreNo) (w : Nat) (d' : Dev) (c : Core) (rd rs rt : RegNo) (dbl : Bool) (r : FRes),
      d = start s ∧ Issues n d w d' ∧ c = coreOf n d ∧ r = fMinMax (fmtOf dbl) false (fpArg dbl (c.get rs)) (fpArg dbl (c.get
      rt)) ∧ r.fl &&& bits c.x.fpcsr.toNat 16 5 ≠ 0 ∧ reads (.a 0x28 rd rs rt) w = true) ∧
    (∃ (s : State) (d : Dev) (n : CoreNo) (w : Nat) (d' : Dev) (c : Core) (rd rs rt : RegNo) (dbl : Bool) (r : FRes),
      d = start s ∧ Issues n d w d' ∧ c = coreOf n d ∧ r = fMinMax (fmtOf dbl) true (fpArg dbl (c.get rs)) (fpArg dbl (c.get
      rt)) ∧ r.fl &&& bits c.x.fpcsr.toNat 16 5 ≠ 0 ∧ reads (.a 0x28 rd rs rt) w = true) ∧
    (∃ (s : State) (d : Dev) (n : CoreNo) (w : Nat) (d' : Dev) (c : Core) (rd rs : RegNo) (dbl : Bool) (r : FRes),
      d = start s ∧ Issues n d w d' ∧ c = coreOf n d ∧ r = fSqrt (fmtOf dbl) c.rnd (fpArg dbl (c.get rs)) ∧
      r.fl &&& bits c.x.fpcsr.toNat 16 5 ≠ 0 ∧ reads ⟨0x28, [(21, 5, rd), (16, 5, rs)]⟩ w = true) :=
  ⟨⟨st (pw (.a 0x28 (1 : RegNo) (1 : RegNo) (1 : RegNo)) (pd pcT)), _, 0, _, _, _, 1, 1, 1, true, _, rfl,
     issues_pd (by decide +kernel), rfl, rfl, by decide +kernel, by decide +kernel⟩,
   ⟨st (pw (.a 0x28 (1 : RegNo) (1 : RegNo) (1 : RegNo)) (pd pcT)), _, 0, _, _, _, 1, 1, 1, true, _, rfl,
     issues_pd (by decide +kernel), rfl, rfl, by decide +kernel, by decide +kernel⟩,
   ⟨st (pw (.a 0x28 (1 : RegNo) (1 : RegNo) (1 : RegNo)) (pd pcT)), _, 0, _, _, _, 1, 1, 1, true, _, rfl,
     issues_pd (by decide +kernel), rfl, rfl, by decide +kernel, by decide +kernel⟩,
   ⟨st (pw ⟨0x28, [(21, 5, (1 : RegNo)), (16, 5, (1 : RegNo))]⟩ (pd pcT)), _, 0, _, _, _, 1, 1, true, _, rfl,
     issues_pd (by decide +kernel), rfl, rfl, by decide +kernel, by decide +kernel⟩⟩

/-- The clauses of FloatingResults. -/
theorem test_meets_FloatingTraps_3 :
    (∃ (s : State) (d : Dev) (n : CoreNo) (w : Nat) (d' : Dev) (c : Core) (rd rs : RegNo) (r : FRes), d = start s ∧
      Issues n d w d' ∧ c = coreOf n d ∧ r = fCvt f32 f64 c.rnd ((c.get rs).toNat % 2 ^ 32) ∧
      r.fl &&& bits c.x.fpcsr.toNat 16 5 ≠ 0 ∧ reads ⟨0x28, [(21, 5, rd), (16, 5, rs)]⟩ w = true) ∧
    (∃ (s : State) (d : Dev) (n : CoreNo) (w : Nat) (d' : Dev) (c : Core) (rd rs : RegNo) (r : FRes), d = start s ∧
      Issues n d w d' ∧ c = coreOf n d ∧ r = fCvt f64 f32 c.rnd (c.get rs).toNat ∧ r.fl &&& bits c.x.fpcsr.toNat 16 5 ≠ 0 ∧
      reads ⟨0x28, [(21, 5, rd), (16, 5, rs)]⟩ w = true) ∧
    (∃ (s : State) (d : Dev) (n : CoreNo) (w : Nat) (d' : Dev) (c : Core) (rd rs : RegNo) (r : FRes), d = start s ∧
      Issues n d w d' ∧ c = coreOf n d ∧ r = toInt f32 c.rnd 64 ((c.get rs).toNat % 2 ^ 32) ∧
      r.fl &&& bits c.x.fpcsr.toNat 16 5 ≠ 0 ∧ reads ⟨0x28, [(21, 5, rd), (16, 5, rs)]⟩ w = true) ∧
    (∃ (s : State) (d : Dev) (n : CoreNo) (w : Nat) (d' : Dev) (c : Core) (rd rs : RegNo) (r : FRes), d = start s ∧
      Issues n d w d' ∧ c = coreOf n d ∧ r = toInt f64 c.rnd 64 (c.get rs).toNat ∧ r.fl &&& bits c.x.fpcsr.toNat 16 5 ≠ 0 ∧
      reads ⟨0x28, [(21, 5, rd), (16, 5, rs)]⟩ w = true) :=
  ⟨⟨st (pw ⟨0x28, [(21, 5, (0 : RegNo)), (16, 5, (2 : RegNo))]⟩ (pd pcT)), _, 0, _, _, _, 0, 2, _, rfl,
     issues_pd (by decide +kernel), rfl, rfl, by decide +kernel, by decide +kernel⟩,
   ⟨st (pw ⟨0x28, [(21, 5, (0 : RegNo)), (16, 5, (1 : RegNo))]⟩ (pd pcT)), _, 0, _, _, _, 0, 1, _, rfl,
     issues_pd (by decide +kernel), rfl, rfl, by decide +kernel, by decide +kernel⟩,
   ⟨st (pw ⟨0x28, [(21, 5, (0 : RegNo)), (16, 5, (2 : RegNo))]⟩ (pd pcT)), _, 0, _, _, _, 0, 2, _, rfl,
     issues_pd (by decide +kernel), rfl, rfl, by decide +kernel, by decide +kernel⟩,
   ⟨st (pw ⟨0x28, [(21, 5, (0 : RegNo)), (16, 5, (1 : RegNo))]⟩ (pd pcT)), _, 0, _, _, _, 0, 1, _, rfl,
     issues_pd (by decide +kernel), rfl, rfl, by decide +kernel, by decide +kernel⟩⟩

/-- The clauses of FloatingResults. -/
theorem test_meets_FloatingTraps_4 :
    (∃ (s : State) (d : Dev) (n : CoreNo) (w : Nat) (d' : Dev) (c : Core) (rd rs : RegNo) (r : FRes), d = start s ∧
      Issues n d w d' ∧ c = coreOf n d ∧ r = ofInt f32 c.rnd (c.get rs).toInt ∧ r.fl &&& bits c.x.fpcsr.toNat 16 5 ≠ 0 ∧
      reads ⟨0x28, [(21, 5, rd), (16, 5, rs)]⟩ w = true) ∧
    (∃ (s : State) (d : Dev) (n : CoreNo) (w : Nat) (d' : Dev) (c : Core) (rd rs : RegNo) (r : FRes), d = start s ∧
      Issues n d w d' ∧ c = coreOf n d ∧ r = ofInt f64 c.rnd (c.get rs).toInt ∧ r.fl &&& bits c.x.fpcsr.toNat 16 5 ≠ 0 ∧
      reads ⟨0x28, [(21, 5, rd), (16, 5, rs)]⟩ w = true) ∧
    (∃ (s : State) (d : Dev) (n : CoreNo) (w : Nat) (d' : Dev) (c : Core) (rs rt : RegNo) (dbl : Bool) (r : Bool × Nat),
      d = start s ∧ Issues n d w d' ∧ c = coreOf n d ∧ r = fCmp (fmtOf dbl) 0 (fpArg dbl (c.get rs)) (fpArg dbl (c.get rt)) ∧
      r.2 &&& bits c.x.fpcsr.toNat 16 5 ≠ 0 ∧ reads ⟨0x29, [(16, 5, rs), (11, 5, rt)]⟩ w = true) ∧
    (∃ (s : State) (d : Dev) (n : CoreNo) (w : Nat) (d' : Dev) (c : Core) (rs rt : RegNo) (dbl : Bool) (r : Bool × Nat),
      d = start s ∧ Issues n d w d' ∧ c = coreOf n d ∧ r = fCmp (fmtOf dbl) 1 (fpArg dbl (c.get rs)) (fpArg dbl (c.get rt)) ∧
      r.2 &&& bits c.x.fpcsr.toNat 16 5 ≠ 0 ∧ reads ⟨0x29, [(16, 5, rs), (11, 5, rt)]⟩ w = true) :=
  ⟨⟨st (pw ⟨0x28, [(21, 5, (0 : RegNo)), (16, 5, (3 : RegNo))]⟩ (pd pcT)), _, 0, _, _, _, 0, 3, _, rfl,
     issues_pd (by decide +kernel), rfl, rfl, by decide +kernel, by decide +kernel⟩,
   ⟨st (pw ⟨0x28, [(21, 5, (0 : RegNo)), (16, 5, (3 : RegNo))]⟩ (pd pcT)), _, 0, _, _, _, 0, 3, _, rfl,
     issues_pd (by decide +kernel), rfl, rfl, by decide +kernel, by decide +kernel⟩,
   ⟨st (pw ⟨0x29, [(16, 5, (1 : RegNo)), (11, 5, (1 : RegNo))]⟩ (pd pcT)), _, 0, _, _, _, 1, 1, true, _, rfl,
     issues_pd (by decide +kernel), rfl, rfl, by decide +kernel, by decide +kernel⟩,
   ⟨st (pw ⟨0x29, [(16, 5, (1 : RegNo)), (11, 5, (1 : RegNo))]⟩ (pd pcT)), _, 0, _, _, _, 1, 1, true, _, rfl,
     issues_pd (by decide +kernel), rfl, rfl, by decide +kernel, by decide +kernel⟩⟩

/-- The clauses of FloatingResults. -/
theorem test_meets_FloatingTraps_5 :
    ∃ (s : State) (d : Dev) (n : CoreNo) (w : Nat) (d' : Dev) (c : Core) (rs rt : RegNo) (dbl : Bool) (r : Bool × Nat),
      d = start s ∧ Issues n d w d' ∧ c = coreOf n d ∧ r = fCmp (fmtOf dbl) 2 (fpArg dbl (c.get rs)) (fpArg dbl (c.get rt)) ∧
      r.2 &&& bits c.x.fpcsr.toNat 16 5 ≠ 0 ∧ reads ⟨0x29, [(16, 5, rs), (11, 5, rt)]⟩ w = true :=
  ⟨st (pw ⟨0x29, [(16, 5, (1 : RegNo)), (11, 5, (1 : RegNo))]⟩ (pd pcT)), _, 0, _, _, _, 1, 1, true, _, rfl,
     issues_pd (by decide +kernel), rfl, rfl, by decide +kernel, by decide +kernel⟩

/-- The clauses of VectorFloatResults. -/
theorem test_meets_VectorTraps_1 :
    (∃ (s : State) (d : Dev) (n : CoreNo) (w : Nat) (d' : Dev) (c : Core) (vd va vb : RegNo) (pm : Fin 8) (ty : VTy) (r :
      BitVec 256 × Nat), d = start s ∧ Issues n d w d' ∧ c = coreOf n d ∧ vIsF ty = true ∧
      r = lanes ty (c.pred pm) (c.vec vd) (fun i => fAdd (vFmt ty) c.rnd (lane ty (c.vec va) i) (lane ty (c.vec vb) i)) ∧
      r.2 &&& bits c.x.fpcsr.toNat 16 5 ≠ 0 ∧ reads (.v 0x20 vd va vb pm ty) w = true) ∧
    (∃ (s : State) (d : Dev) (n : CoreNo) (w : Nat) (d' : Dev) (c : Core) (vd va vb : RegNo) (pm : Fin 8) (ty : VTy) (r :
      BitVec 256 × Nat), d = start s ∧ Issues n d w d' ∧ c = coreOf n d ∧ vIsF ty = true ∧
      r = lanes ty (c.pred pm) (c.vec vd) (fun i => fSub (vFmt ty) c.rnd (lane ty (c.vec va) i) (lane ty (c.vec vb) i)) ∧
      r.2 &&& bits c.x.fpcsr.toNat 16 5 ≠ 0 ∧ reads (.v 0x20 vd va vb pm ty) w = true) ∧
    (∃ (s : State) (d : Dev) (n : CoreNo) (w : Nat) (d' : Dev) (c : Core) (vd va vb : RegNo) (pm : Fin 8) (ty : VTy),
      d = start s ∧ Issues n d w d' ∧ c = coreOf n d ∧ vIsF ty = false ∧ reads (.v 0x20 vd va vb pm ty) w = true) ∧
    (∃ (s : State) (d : Dev) (n : CoreNo) (w : Nat) (d' : Dev) (c : Core) (vd va vb : RegNo) (pm : Fin 8) (ty : VTy) (r :
      BitVec 256 × Nat), d = start s ∧ Issues n d w d' ∧ c = coreOf n d ∧ vIsF ty = true ∧
      r = lanes ty (c.pred pm) (c.vec vd) (fun i => fMul (vFmt ty) c.rnd (lane ty (c.vec va) i) (lane ty (c.vec vb) i)) ∧
      r.2 &&& bits c.x.fpcsr.toNat 16 5 ≠ 0 ∧ reads (.v 0x20 vd va vb pm ty) w = true) :=
  ⟨⟨st (pw (.v 0x20 (1 : RegNo) (1 : RegNo) (1 : RegNo) (0 : Fin 8) (.f32 : VTy)) (pd pcT)), _, 0, _, _, _, 1, 1, 1, 0, .f32,
     _, rfl, issues_pd (by decide +kernel), rfl, by decide +kernel, rfl, by decide +kernel, by decide +kernel⟩,
   ⟨st (pw (.v 0x20 (1 : RegNo) (1 : RegNo) (1 : RegNo) (0 : Fin 8) (.f32 : VTy)) (pd pcT)), _, 0, _, _, _, 1, 1, 1, 0, .f32,
     _, rfl, issues_pd (by decide +kernel), rfl, by decide +kernel, rfl, by decide +kernel, by decide +kernel⟩,
   ⟨st (pw (.v 0x20 (0 : RegNo) (0 : RegNo) (0 : RegNo) (0 : Fin 8) (.i32 : VTy)) (pd pc0)), _, 0, _, _, _, 0, 0, 0, 0, .i32,
     rfl, issues_pd (by decide +kernel), rfl, by decide +kernel, by decide +kernel⟩,
   ⟨st (pw (.v 0x20 (1 : RegNo) (1 : RegNo) (1 : RegNo) (0 : Fin 8) (.f32 : VTy)) (pd pcT)), _, 0, _, _, _, 1, 1, 1, 0, .f32,
     _, rfl, issues_pd (by decide +kernel), rfl, by decide +kernel, rfl, by decide +kernel, by decide +kernel⟩⟩

/-- The clauses of VectorFloatResults. -/
theorem test_meets_VectorTraps_2 :
    (∃ (s : State) (d : Dev) (n : CoreNo) (w : Nat) (d' : Dev) (c : Core) (vd va vb : RegNo) (pm : Fin 8) (ty : VTy) (r :
      BitVec 256 × Nat), d = start s ∧ Issues n d w d' ∧ c = coreOf n d ∧ vIsF ty = true ∧
      r = lanes ty (c.pred pm) (c.vec vd) (fun i => fDiv (vFmt ty) c.rnd (lane ty (c.vec va) i) (lane ty (c.vec vb) i)) ∧
      r.2 &&& bits c.x.fpcsr.toNat 16 5 ≠ 0 ∧ reads (.v 0x20 vd va vb pm ty) w = true) ∧
    (∃ (s : State) (d : Dev) (n : CoreNo) (w : Nat) (d' : Dev) (c : Core) (vd va vb : RegNo) (pm : Fin 8) (ty : VTy) (r :
      BitVec 256 × Nat), d = start s ∧ Issues n d w d' ∧ c = coreOf n d ∧ vIsF ty = true ∧
      r = lanes ty (c.pred pm) (c.vec vd) (fun i => fMinMax (vFmt ty) false (lane ty (c.vec va) i) (lane ty (c.vec vb) i)) ∧
      r.2 &&& bits c.x.fpcsr.toNat 16 5 ≠ 0 ∧ reads (.v 0x20 vd va vb pm ty) w = true) ∧
    (∃ (s : State) (d : Dev) (n : CoreNo) (w : Nat) (d' : Dev) (c : Core) (vd va vb : RegNo) (pm : Fin 8) (ty : VTy) (r :
      BitVec 256 × Nat), d = start s ∧ Issues n d w d' ∧ c = coreOf n d ∧ vIsF ty = true ∧
      r = lanes ty (c.pred pm) (c.vec vd) (fun i => fMinMax (vFmt ty) true (lane ty (c.vec va) i) (lane ty (c.vec vb) i)) ∧
      r.2 &&& bits c.x.fpcsr.toNat 16 5 ≠ 0 ∧ reads (.v 0x20 vd va vb pm ty) w = true) ∧
    (∃ (s : State) (d : Dev) (n : CoreNo) (w : Nat) (d' : Dev) (c : Core) (vd va vb : RegNo) (pm : Fin 8) (ty : VTy) (r :
      BitVec 256 × Nat), d = start s ∧ Issues n d w d' ∧ c = coreOf n d ∧ vIsF ty = true ∧
      r = lanes ty (c.pred pm) (c.vec vd) (fun i => fFma (vFmt ty) c.rnd (lane ty (c.vec va) i) (lane ty (c.vec vb) i) (lane
      ty (c.vec vd) i)) ∧ r.2 &&& bits c.x.fpcsr.toNat 16 5 ≠ 0 ∧ reads (.v 0x20 vd va vb pm ty) w = true) :=
  ⟨⟨st (pw (.v 0x20 (1 : RegNo) (1 : RegNo) (1 : RegNo) (0 : Fin 8) (.f32 : VTy)) (pd pcT)), _, 0, _, _, _, 1, 1, 1, 0, .f32,
     _, rfl, issues_pd (by decide +kernel), rfl, by decide +kernel, rfl, by decide +kernel, by decide +kernel⟩,
   ⟨st (pw (.v 0x20 (1 : RegNo) (1 : RegNo) (1 : RegNo) (0 : Fin 8) (.f32 : VTy)) (pd pcT)), _, 0, _, _, _, 1, 1, 1, 0, .f32,
     _, rfl, issues_pd (by decide +kernel), rfl, by decide +kernel, rfl, by decide +kernel, by decide +kernel⟩,
   ⟨st (pw (.v 0x20 (1 : RegNo) (1 : RegNo) (1 : RegNo) (0 : Fin 8) (.f32 : VTy)) (pd pcT)), _, 0, _, _, _, 1, 1, 1, 0, .f32,
     _, rfl, issues_pd (by decide +kernel), rfl, by decide +kernel, rfl, by decide +kernel, by decide +kernel⟩,
   ⟨st (pw (.v 0x20 (1 : RegNo) (1 : RegNo) (1 : RegNo) (0 : Fin 8) (.f32 : VTy)) (pd pcT)), _, 0, _, _, _, 1, 1, 1, 0, .f32,
     _, rfl, issues_pd (by decide +kernel), rfl, by decide +kernel, rfl, by decide +kernel, by decide +kernel⟩⟩

/-- The clauses of VectorFloatResults. -/
theorem test_meets_VectorTraps_3 :
    (∃ (s : State) (d : Dev) (n : CoreNo) (w : Nat) (d' : Dev) (c : Core) (vd va : RegNo) (pm : Fin 8) (ty : VTy) (r : BitVec
      256 × Nat), d = start s ∧ Issues n d w d' ∧ c = coreOf n d ∧ vIsF ty = true ∧
      r = lanes ty (c.pred pm) (c.vec vd) (fun i => fSqrt (vFmt ty) c.rnd (lane ty (c.vec va) i)) ∧
      r.2 &&& bits c.x.fpcsr.toNat 16 5 ≠ 0 ∧ reads ⟨0x20, [(21, 5, vd), (16, 5, va), (8, 3, pm), (5, 3, vCode ty)]⟩ w = true)
      ∧
    (∃ (s : State) (d : Dev) (n : CoreNo) (w : Nat) (d' : Dev) (c : Core) (vd va : RegNo) (pm : Fin 8) (ty : VTy),
      d = start s ∧ Issues n d w d' ∧ c = coreOf n d ∧ vIsF ty = false ∧
      reads ⟨0x20, [(21, 5, vd), (16, 5, va), (8, 3, pm), (5, 3, vCode ty)]⟩ w = true) ∧
    (∃ (s : State) (d : Dev) (n : CoreNo) (w : Nat) (d' : Dev) (c : Core) (vd va : RegNo) (pm : Fin 8) (ty : VTy) (r : BitVec
      256 × Nat), d = start s ∧ Issues n d w d' ∧ c = coreOf n d ∧ vIsF ty = true ∧
      r = lanes ty (c.pred pm) (c.vec vd) (fun i => toInt (vFmt ty) c.rnd (vWidth ty) (lane ty (c.vec va) i)) ∧
      r.2 &&& bits c.x.fpcsr.toNat 16 5 ≠ 0 ∧ reads ⟨0x24, [(21, 5, vd), (16, 5, va), (8, 3, pm), (5, 3, vCode ty)]⟩ w = true)
      ∧
    (∃ (s : State) (d : Dev) (n : CoreNo) (w : Nat) (d' : Dev) (c : Core) (vd va : RegNo) (pm : Fin 8) (ty : VTy),
      d = start s ∧ Issues n d w d' ∧ c = coreOf n d ∧ vIsF ty = false ∧
      reads ⟨0x24, [(21, 5, vd), (16, 5, va), (8, 3, pm), (5, 3, vCode ty)]⟩ w = true) :=
  ⟨⟨st (pw ⟨0x20, [(21, 5, (1 : RegNo)), (16, 5, (1 : RegNo)), (8, 3, (0 : Fin 8)), (5, 3, vCode (.f32 : VTy))]⟩ (pd pcT)), _,
     0, _, _, _, 1, 1, 0, .f32, _, rfl, issues_pd (by decide +kernel), rfl, by decide +kernel, rfl, by decide +kernel,
     by decide +kernel⟩,
   ⟨st (pw ⟨0x20, [(21, 5, (0 : RegNo)), (16, 5, (0 : RegNo)), (8, 3, (0 : Fin 8)), (5, 3, vCode (.i32 : VTy))]⟩ (pd pc0)), _,
     0, _, _, _, 0, 0, 0, .i32, rfl, issues_pd (by decide +kernel), rfl, by decide +kernel, by decide +kernel⟩,
   ⟨st (pw ⟨0x24, [(21, 5, (1 : RegNo)), (16, 5, (1 : RegNo)), (8, 3, (0 : Fin 8)), (5, 3, vCode (.f32 : VTy))]⟩ (pd pcT)), _,
     0, _, _, _, 1, 1, 0, .f32, _, rfl, issues_pd (by decide +kernel), rfl, by decide +kernel, rfl, by decide +kernel,
     by decide +kernel⟩,
   ⟨st (pw ⟨0x24, [(21, 5, (0 : RegNo)), (16, 5, (0 : RegNo)), (8, 3, (0 : Fin 8)), (5, 3, vCode (.i32 : VTy))]⟩ (pd pc0)), _,
     0, _, _, _, 0, 0, 0, .i32, rfl, issues_pd (by decide +kernel), rfl, by decide +kernel, by decide +kernel⟩⟩

/-- The clauses of VectorFloatResults. -/
theorem test_meets_VectorTraps_4 :
    (∃ (s : State) (d : Dev) (n : CoreNo) (w : Nat) (d' : Dev) (c : Core) (vd va : RegNo) (pm : Fin 8) (ty : VTy) (r : BitVec
      256 × Nat), d = start s ∧ Issues n d w d' ∧ c = coreOf n d ∧ vIsF ty = true ∧
      r = lanes ty (c.pred pm) (c.vec vd) (fun i => ofInt (vFmt ty) c.rnd (toS (vWidth ty) (lane ty (c.vec va) i))) ∧
      r.2 &&& bits c.x.fpcsr.toNat 16 5 ≠ 0 ∧ reads ⟨0x24, [(21, 5, vd), (16, 5, va), (8, 3, pm), (5, 3, vCode ty)]⟩ w = true)
      ∧
    (∃ (s : State) (d : Dev) (n : CoreNo) (w : Nat) (d' : Dev) (c : Core) (pd : Fin 8) (va vb : RegNo) (pm : Fin 8) (ty :
      VTy), d = start s ∧ Issues n d w d' ∧ c = coreOf n d ∧ vIsWide ty = true ∧
      cmpFlags 0 ty (c.pred pm) (c.vec va) (c.vec vb) &&& bits c.x.fpcsr.toNat 16 5 ≠ 0 ∧
      reads ⟨0x22, [(21, 3, pd), (16, 5, va), (11, 5, vb), (8, 3, pm), (5, 3, vCode ty)]⟩ w = true) ∧
    (∃ (s : State) (d : Dev) (n : CoreNo) (w : Nat) (d' : Dev) (c : Core) (pd : Fin 8) (va vb : RegNo) (pm : Fin 8) (ty :
      VTy), d = start s ∧ Issues n d w d' ∧ c = coreOf n d ∧ vIsWide ty = false ∧
      reads ⟨0x22, [(21, 3, pd), (16, 5, va), (11, 5, vb), (8, 3, pm), (5, 3, vCode ty)]⟩ w = true) ∧
    (∃ (s : State) (d : Dev) (n : CoreNo) (w : Nat) (d' : Dev) (c : Core) (pd : Fin 8) (va vb : RegNo) (pm : Fin 8) (ty :
      VTy), d = start s ∧ Issues n d w d' ∧ c = coreOf n d ∧ vIsWide ty = true ∧
      cmpFlags 1 ty (c.pred pm) (c.vec va) (c.vec vb) &&& bits c.x.fpcsr.toNat 16 5 ≠ 0 ∧
      reads ⟨0x22, [(21, 3, pd), (16, 5, va), (11, 5, vb), (8, 3, pm), (5, 3, vCode ty)]⟩ w = true) :=
  ⟨⟨st (pw ⟨0x24, [(21, 5, (1 : RegNo)), (16, 5, (1 : RegNo)), (8, 3, (0 : Fin 8)), (5, 3, vCode (.f32 : VTy))]⟩ (pd pcT)), _,
     0, _, _, _, 1, 1, 0, .f32, _, rfl, issues_pd (by decide +kernel), rfl, by decide +kernel, rfl, by decide +kernel,
     by decide +kernel⟩,
   ⟨st (pw ⟨0x22, [(21, 3, (0 : Fin 8)), (16, 5, (1 : RegNo)), (11, 5, (1 : RegNo)), (8, 3, (0 : Fin 8)), (5, 3,
     vCode (.f32 : VTy))]⟩ (pd pcT)), _, 0, _, _, _, 0, 1, 1, 0, .f32, rfl, issues_pd (by decide +kernel), rfl,
     by decide +kernel, by decide +kernel, by decide +kernel⟩,
   ⟨st (pw ⟨0x22, [(21, 3, (0 : Fin 8)), (16, 5, (0 : RegNo)), (11, 5, (0 : RegNo)), (8, 3, (0 : Fin 8)), (5, 3,
     vCode (.i8 : VTy))]⟩ (pd pc0)), _, 0, _, _, _, 0, 0, 0, 0, .i8, rfl, issues_pd (by decide +kernel), rfl,
     by decide +kernel, by decide +kernel⟩,
   ⟨st (pw ⟨0x22, [(21, 3, (0 : Fin 8)), (16, 5, (1 : RegNo)), (11, 5, (1 : RegNo)), (8, 3, (0 : Fin 8)), (5, 3,
     vCode (.f32 : VTy))]⟩ (pd pcT)), _, 0, _, _, _, 0, 1, 1, 0, .f32, rfl, issues_pd (by decide +kernel), rfl,
     by decide +kernel, by decide +kernel, by decide +kernel⟩⟩

/-- The clauses of VectorFloatResults. -/
theorem test_meets_VectorTraps_5 :
    ∃ (s : State) (d : Dev) (n : CoreNo) (w : Nat) (d' : Dev) (c : Core) (pd : Fin 8) (va vb : RegNo) (pm : Fin 8) (ty : VTy),
      d = start s ∧ Issues n d w d' ∧ c = coreOf n d ∧ vIsWide ty = true ∧
      cmpFlags 2 ty (c.pred pm) (c.vec va) (c.vec vb) &&& bits c.x.fpcsr.toNat 16 5 ≠ 0 ∧
      reads ⟨0x22, [(21, 3, pd), (16, 5, va), (11, 5, vb), (8, 3, pm), (5, 3, vCode ty)]⟩ w = true :=
  ⟨st (pw ⟨0x22, [(21, 3, (0 : Fin 8)), (16, 5, (1 : RegNo)), (11, 5, (1 : RegNo)), (8, 3, (0 : Fin 8)), (5, 3,
     vCode (.f32 : VTy))]⟩ (pd pcT)), _, 0, _, _, _, 0, 1, 1, 0, .f32, rfl, issues_pd (by decide +kernel), rfl,
     by decide +kernel, by decide +kernel, by decide +kernel⟩

/-- The clauses of VectorIntegerResults. -/
theorem test_meets_VectorIllegal_1 :
    (∃ (s : State) (d : Dev) (n : CoreNo) (w : Nat) (d' : Dev) (c : Core) (vd va vb : RegNo) (pm : Fin 8) (ty : VTy),
      d = start s ∧ Issues n d w d' ∧ c = coreOf n d ∧ isInt ty = false ∧ reads (.v 0x21 vd va vb pm ty) w = true) ∧
    (∃ (s : State) (d : Dev) (n : CoreNo) (w : Nat) (d' : Dev) (c : Core) (vd va vb : RegNo) (pm : Fin 8) (ty : VTy),
      d = start s ∧ Issues n d w d' ∧ c = coreOf n d ∧ vIsWide ty = false ∧ reads (.v 0x21 vd va vb pm ty) w = true) ∧
    (∃ (s : State) (d : Dev) (n : CoreNo) (w : Nat) (d' : Dev) (c : Core) (vd : RegNo) (pm : Fin 8) (ty : VTy), d = start s ∧
      Issues n d w d' ∧ c = coreOf n d ∧ vIsWide ty = false ∧
      reads ⟨0x23, [(21, 5, vd), (8, 3, pm), (5, 3, vCode ty)]⟩ w = true) ∧
    (∃ (s : State) (d : Dev) (n : CoreNo) (w : Nat) (d' : Dev) (c : Core) (vd va vb : RegNo) (pm : Fin 8) (ty : VTy),
      d = start s ∧ Issues n d w d' ∧ c = coreOf n d ∧ vIsWide ty = false ∧ reads (.v 0x23 vd va vb pm ty) w = true) :=
  ⟨⟨st (pw (.v 0x21 (0 : RegNo) (0 : RegNo) (0 : RegNo) (0 : Fin 8) (.f32 : VTy)) (pd pc0)), _, 0, _, _, _, 0, 0, 0, 0, .f32,
     rfl, issues_pd (by decide +kernel), rfl, by decide +kernel, by decide +kernel⟩,
   ⟨st (pw (.v 0x21 (0 : RegNo) (0 : RegNo) (0 : RegNo) (0 : Fin 8) (.i8 : VTy)) (pd pc0)), _, 0, _, _, _, 0, 0, 0, 0, .i8,
     rfl, issues_pd (by decide +kernel), rfl, by decide +kernel, by decide +kernel⟩,
   ⟨st (pw ⟨0x23, [(21, 5, (0 : RegNo)), (8, 3, (0 : Fin 8)), (5, 3, vCode (.i8 : VTy))]⟩ (pd pc0)), _, 0, _, _, _, 0, 0, .i8,
     rfl, issues_pd (by decide +kernel), rfl, by decide +kernel, by decide +kernel⟩,
   ⟨st (pw (.v 0x23 (0 : RegNo) (0 : RegNo) (0 : RegNo) (0 : Fin 8) (.i8 : VTy)) (pd pc0)), _, 0, _, _, _, 0, 0, 0, 0, .i8,
     rfl, issues_pd (by decide +kernel), rfl, by decide +kernel, by decide +kernel⟩⟩

/-- The clauses of VectorIntegerResults. -/
theorem test_meets_VectorIllegal_2 :
    (∃ (s : State) (d : Dev) (n : CoreNo) (w : Nat) (d' : Dev) (c : Core) (rd va : RegNo) (ty : VTy), d = start s ∧
      Issues n d w d' ∧ c = coreOf n d ∧ vIsWide ty = false ∧
      reads ⟨0x23, [(21, 5, rd), (16, 5, va), (5, 3, vCode ty)]⟩ w = true) ∧
    (∃ (s : State) (d : Dev) (n : CoreNo) (w : Nat) (d' : Dev) (c : Core) (rd va : RegNo) (pm : Fin 8) (ty : VTy),
      d = start s ∧ Issues n d w d' ∧ c = coreOf n d ∧ vIsWide ty = false ∧
      reads ⟨0x23, [(21, 5, rd), (16, 5, va), (8, 3, pm), (5, 3, vCode ty)]⟩ w = true) :=
  ⟨⟨st (pw ⟨0x23, [(21, 5, (0 : RegNo)), (16, 5, (0 : RegNo)), (5, 3, vCode (.i8 : VTy))]⟩ (pd pc0)), _, 0, _, _, _, 0, 0,
     .i8, rfl, issues_pd (by decide +kernel), rfl, by decide +kernel, by decide +kernel⟩,
   ⟨st (pw ⟨0x23, [(21, 5, (0 : RegNo)), (16, 5, (0 : RegNo)), (8, 3, (0 : Fin 8)), (5, 3, vCode (.i8 : VTy))]⟩ (pd pc0)), _,
     0, _, _, _, 0, 0, 0, .i8, rfl, issues_pd (by decide +kernel), rfl, by decide +kernel, by decide +kernel⟩⟩

/-- The clauses of FloatingResults. -/
theorem test_meets_FloatingResults_1 :
    (∃ (s : State) (d : Dev) (n : CoreNo) (w : Nat) (d' : Dev) (c : Core) (rd rs rt : RegNo) (dbl : Bool) (r : FRes),
      d = start s ∧ Issues n d w d' ∧ c = coreOf n d ∧ r = fAdd (fmtOf dbl) c.rnd (fpArg dbl (c.get rs)) (fpArg dbl (c.get
      rt)) ∧ r.fl &&& bits c.x.fpcsr.toNat 16 5 = 0 ∧ reads (.a 0x28 rd rs rt) w = true) ∧
    (∃ (s : State) (d : Dev) (n : CoreNo) (w : Nat) (d' : Dev) (c : Core) (rd rs rt : RegNo) (dbl : Bool) (r : FRes),
      d = start s ∧ Issues n d w d' ∧ c = coreOf n d ∧ r = fSub (fmtOf dbl) c.rnd (fpArg dbl (c.get rs)) (fpArg dbl (c.get
      rt)) ∧ r.fl &&& bits c.x.fpcsr.toNat 16 5 = 0 ∧ reads (.a 0x28 rd rs rt) w = true) ∧
    (∃ (s : State) (d : Dev) (n : CoreNo) (w : Nat) (d' : Dev) (c : Core) (rd rs rt : RegNo) (dbl : Bool) (r : FRes),
      d = start s ∧ Issues n d w d' ∧ c = coreOf n d ∧ r = fMul (fmtOf dbl) c.rnd (fpArg dbl (c.get rs)) (fpArg dbl (c.get
      rt)) ∧ r.fl &&& bits c.x.fpcsr.toNat 16 5 = 0 ∧ reads (.a 0x28 rd rs rt) w = true) ∧
    (∃ (s : State) (d : Dev) (n : CoreNo) (w : Nat) (d' : Dev) (c : Core) (rd rs rt : RegNo) (dbl : Bool) (r : FRes),
      d = start s ∧ Issues n d w d' ∧ c = coreOf n d ∧ r = fDiv (fmtOf dbl) c.rnd (fpArg dbl (c.get rs)) (fpArg dbl (c.get
      rt)) ∧ r.fl &&& bits c.x.fpcsr.toNat 16 5 = 0 ∧ reads (.a 0x28 rd rs rt) w = true) :=
  ⟨⟨st (pw (.a 0x28 (0 : RegNo) (0 : RegNo) (0 : RegNo)) (pd pc0)), _, 0, _, _, _, 0, 0, 0, false, _, rfl,
     issues_pd (by decide +kernel), rfl, rfl, by decide +kernel, by decide +kernel⟩,
   ⟨st (pw (.a 0x28 (0 : RegNo) (0 : RegNo) (0 : RegNo)) (pd pc0)), _, 0, _, _, _, 0, 0, 0, false, _, rfl,
     issues_pd (by decide +kernel), rfl, rfl, by decide +kernel, by decide +kernel⟩,
   ⟨st (pw (.a 0x28 (0 : RegNo) (0 : RegNo) (0 : RegNo)) (pd pc0)), _, 0, _, _, _, 0, 0, 0, false, _, rfl,
     issues_pd (by decide +kernel), rfl, rfl, by decide +kernel, by decide +kernel⟩,
   ⟨st (pw (.a 0x28 (0 : RegNo) (0 : RegNo) (0 : RegNo)) (pd pc0)), _, 0, _, _, _, 0, 0, 0, false, _, rfl,
     issues_pd (by decide +kernel), rfl, rfl, by decide +kernel, by decide +kernel⟩⟩

/-- The clauses of FloatingResults. -/
theorem test_meets_FloatingResults_2 :
    (∃ (s : State) (d : Dev) (n : CoreNo) (w : Nat) (d' : Dev) (c : Core) (rd rs rt : RegNo) (dbl : Bool) (r : FRes),
      d = start s ∧ Issues n d w d' ∧ c = coreOf n d ∧ r = fFma (fmtOf dbl) c.rnd (fpArg dbl (c.get rs)) (fpArg dbl (c.get
      rt)) (fpArg dbl (c.get rd)) ∧ r.fl &&& bits c.x.fpcsr.toNat 16 5 = 0 ∧ reads (.a 0x28 rd rs rt) w = true) ∧
    (∃ (s : State) (d : Dev) (n : CoreNo) (w : Nat) (d' : Dev) (c : Core) (rd rs rt : RegNo) (dbl : Bool) (r : FRes),
      d = start s ∧ Issues n d w d' ∧ c = coreOf n d ∧ r = fMinMax (fmtOf dbl) false (fpArg dbl (c.get rs)) (fpArg dbl (c.get
      rt)) ∧ r.fl &&& bits c.x.fpcsr.toNat 16 5 = 0 ∧ reads (.a 0x28 rd rs rt) w = true) ∧
    (∃ (s : State) (d : Dev) (n : CoreNo) (w : Nat) (d' : Dev) (c : Core) (rd rs rt : RegNo) (dbl : Bool) (r : FRes),
      d = start s ∧ Issues n d w d' ∧ c = coreOf n d ∧ r = fMinMax (fmtOf dbl) true (fpArg dbl (c.get rs)) (fpArg dbl (c.get
      rt)) ∧ r.fl &&& bits c.x.fpcsr.toNat 16 5 = 0 ∧ reads (.a 0x28 rd rs rt) w = true) ∧
    (∃ (s : State) (d : Dev) (n : CoreNo) (w : Nat) (d' : Dev) (c : Core) (rd rs : RegNo) (dbl : Bool) (r : FRes),
      d = start s ∧ Issues n d w d' ∧ c = coreOf n d ∧ r = fSqrt (fmtOf dbl) c.rnd (fpArg dbl (c.get rs)) ∧
      r.fl &&& bits c.x.fpcsr.toNat 16 5 = 0 ∧ reads ⟨0x28, [(21, 5, rd), (16, 5, rs)]⟩ w = true) :=
  ⟨⟨st (pw (.a 0x28 (0 : RegNo) (0 : RegNo) (0 : RegNo)) (pd pc0)), _, 0, _, _, _, 0, 0, 0, false, _, rfl,
     issues_pd (by decide +kernel), rfl, rfl, by decide +kernel, by decide +kernel⟩,
   ⟨st (pw (.a 0x28 (0 : RegNo) (0 : RegNo) (0 : RegNo)) (pd pc0)), _, 0, _, _, _, 0, 0, 0, false, _, rfl,
     issues_pd (by decide +kernel), rfl, rfl, by decide +kernel, by decide +kernel⟩,
   ⟨st (pw (.a 0x28 (0 : RegNo) (0 : RegNo) (0 : RegNo)) (pd pc0)), _, 0, _, _, _, 0, 0, 0, false, _, rfl,
     issues_pd (by decide +kernel), rfl, rfl, by decide +kernel, by decide +kernel⟩,
   ⟨st (pw ⟨0x28, [(21, 5, (0 : RegNo)), (16, 5, (0 : RegNo))]⟩ (pd pc0)), _, 0, _, _, _, 0, 0, false, _, rfl,
     issues_pd (by decide +kernel), rfl, rfl, by decide +kernel, by decide +kernel⟩⟩

/-- The clauses of FloatingResults. -/
theorem test_meets_FloatingResults_3 :
    (∃ (s : State) (d : Dev) (n : CoreNo) (w : Nat) (d' : Dev) (c : Core) (rd rs : RegNo) (r : FRes), d = start s ∧
      Issues n d w d' ∧ c = coreOf n d ∧ r = fCvt f32 f64 c.rnd ((c.get rs).toNat % 2 ^ 32) ∧
      r.fl &&& bits c.x.fpcsr.toNat 16 5 = 0 ∧ reads ⟨0x28, [(21, 5, rd), (16, 5, rs)]⟩ w = true) ∧
    (∃ (s : State) (d : Dev) (n : CoreNo) (w : Nat) (d' : Dev) (c : Core) (rd rs : RegNo) (r : FRes), d = start s ∧
      Issues n d w d' ∧ c = coreOf n d ∧ r = fCvt f64 f32 c.rnd (c.get rs).toNat ∧ r.fl &&& bits c.x.fpcsr.toNat 16 5 = 0 ∧
      reads ⟨0x28, [(21, 5, rd), (16, 5, rs)]⟩ w = true) ∧
    (∃ (s : State) (d : Dev) (n : CoreNo) (w : Nat) (d' : Dev) (c : Core) (rd rs : RegNo) (r : FRes), d = start s ∧
      Issues n d w d' ∧ c = coreOf n d ∧ r = toInt f32 c.rnd 64 ((c.get rs).toNat % 2 ^ 32) ∧
      r.fl &&& bits c.x.fpcsr.toNat 16 5 = 0 ∧ reads ⟨0x28, [(21, 5, rd), (16, 5, rs)]⟩ w = true) ∧
    (∃ (s : State) (d : Dev) (n : CoreNo) (w : Nat) (d' : Dev) (c : Core) (rd rs : RegNo) (r : FRes), d = start s ∧
      Issues n d w d' ∧ c = coreOf n d ∧ r = toInt f64 c.rnd 64 (c.get rs).toNat ∧ r.fl &&& bits c.x.fpcsr.toNat 16 5 = 0 ∧
      reads ⟨0x28, [(21, 5, rd), (16, 5, rs)]⟩ w = true) :=
  ⟨⟨st (pw ⟨0x28, [(21, 5, (0 : RegNo)), (16, 5, (0 : RegNo))]⟩ (pd pc0)), _, 0, _, _, _, 0, 0, _, rfl,
     issues_pd (by decide +kernel), rfl, rfl, by decide +kernel, by decide +kernel⟩,
   ⟨st (pw ⟨0x28, [(21, 5, (0 : RegNo)), (16, 5, (0 : RegNo))]⟩ (pd pc0)), _, 0, _, _, _, 0, 0, _, rfl,
     issues_pd (by decide +kernel), rfl, rfl, by decide +kernel, by decide +kernel⟩,
   ⟨st (pw ⟨0x28, [(21, 5, (0 : RegNo)), (16, 5, (0 : RegNo))]⟩ (pd pc0)), _, 0, _, _, _, 0, 0, _, rfl,
     issues_pd (by decide +kernel), rfl, rfl, by decide +kernel, by decide +kernel⟩,
   ⟨st (pw ⟨0x28, [(21, 5, (0 : RegNo)), (16, 5, (0 : RegNo))]⟩ (pd pc0)), _, 0, _, _, _, 0, 0, _, rfl,
     issues_pd (by decide +kernel), rfl, rfl, by decide +kernel, by decide +kernel⟩⟩

/-- The clauses of FloatingResults. -/
theorem test_meets_FloatingResults_4 :
    (∃ (s : State) (d : Dev) (n : CoreNo) (w : Nat) (d' : Dev) (c : Core) (rd rs : RegNo) (r : FRes), d = start s ∧
      Issues n d w d' ∧ c = coreOf n d ∧ r = ofInt f32 c.rnd (c.get rs).toInt ∧ r.fl &&& bits c.x.fpcsr.toNat 16 5 = 0 ∧
      reads ⟨0x28, [(21, 5, rd), (16, 5, rs)]⟩ w = true) ∧
    (∃ (s : State) (d : Dev) (n : CoreNo) (w : Nat) (d' : Dev) (c : Core) (rd rs : RegNo) (r : FRes), d = start s ∧
      Issues n d w d' ∧ c = coreOf n d ∧ r = ofInt f64 c.rnd (c.get rs).toInt ∧ r.fl &&& bits c.x.fpcsr.toNat 16 5 = 0 ∧
      reads ⟨0x28, [(21, 5, rd), (16, 5, rs)]⟩ w = true) ∧
    (∃ (s : State) (d : Dev) (n : CoreNo) (w : Nat) (d' : Dev) (c : Core) (rd rs rt : RegNo) (dbl : Bool) (r : FRes),
      d = start s ∧ Issues n d w d' ∧ c = coreOf n d ∧ r = fAdd (fmtOf dbl) c.rnd (fpArg dbl (c.get rs)) (fpArg dbl (c.get
      rt)) ∧ r.fl &&& bits c.x.fpcsr.toNat 16 5 ≠ 0 ∧ reads (.a 0x28 rd rs rt) w = true) ∧
    (∃ (s : State) (d : Dev) (n : CoreNo) (w : Nat) (d' : Dev) (c : Core) (rs rt : RegNo) (dbl : Bool) (r : Bool × Nat),
      d = start s ∧ Issues n d w d' ∧ c = coreOf n d ∧ r = fCmp (fmtOf dbl) 0 (fpArg dbl (c.get rs)) (fpArg dbl (c.get rt)) ∧
      r.2 &&& bits c.x.fpcsr.toNat 16 5 = 0 ∧ reads ⟨0x29, [(16, 5, rs), (11, 5, rt)]⟩ w = true) :=
  ⟨⟨st (pw ⟨0x28, [(21, 5, (0 : RegNo)), (16, 5, (0 : RegNo))]⟩ (pd pc0)), _, 0, _, _, _, 0, 0, _, rfl,
     issues_pd (by decide +kernel), rfl, rfl, by decide +kernel, by decide +kernel⟩,
   ⟨st (pw ⟨0x28, [(21, 5, (0 : RegNo)), (16, 5, (0 : RegNo))]⟩ (pd pc0)), _, 0, _, _, _, 0, 0, _, rfl,
     issues_pd (by decide +kernel), rfl, rfl, by decide +kernel, by decide +kernel⟩,
   ⟨st (pw (.a 0x28 (0 : RegNo) (1 : RegNo) (1 : RegNo)) (pd pcT)), _, 0, _, _, _, 0, 1, 1, true, _, rfl,
     issues_pd (by decide +kernel), rfl, rfl, by decide +kernel, by decide +kernel⟩,
   ⟨st (pw ⟨0x29, [(16, 5, (0 : RegNo)), (11, 5, (0 : RegNo))]⟩ (pd pc0)), _, 0, _, _, _, 0, 0, false, _, rfl,
     issues_pd (by decide +kernel), rfl, rfl, by decide +kernel, by decide +kernel⟩⟩

/-- The clauses of FloatingResults. -/
theorem test_meets_FloatingResults_5 :
    (∃ (s : State) (d : Dev) (n : CoreNo) (w : Nat) (d' : Dev) (c : Core) (rs rt : RegNo) (dbl : Bool) (r : Bool × Nat),
      d = start s ∧ Issues n d w d' ∧ c = coreOf n d ∧ r = fCmp (fmtOf dbl) 1 (fpArg dbl (c.get rs)) (fpArg dbl (c.get rt)) ∧
      r.2 &&& bits c.x.fpcsr.toNat 16 5 = 0 ∧ reads ⟨0x29, [(16, 5, rs), (11, 5, rt)]⟩ w = true) ∧
    (∃ (s : State) (d : Dev) (n : CoreNo) (w : Nat) (d' : Dev) (c : Core) (rs rt : RegNo) (dbl : Bool) (r : Bool × Nat),
      d = start s ∧ Issues n d w d' ∧ c = coreOf n d ∧ r = fCmp (fmtOf dbl) 2 (fpArg dbl (c.get rs)) (fpArg dbl (c.get rt)) ∧
      r.2 &&& bits c.x.fpcsr.toNat 16 5 = 0 ∧ reads ⟨0x29, [(16, 5, rs), (11, 5, rt)]⟩ w = true) :=
  ⟨⟨st (pw ⟨0x29, [(16, 5, (0 : RegNo)), (11, 5, (0 : RegNo))]⟩ (pd pc0)), _, 0, _, _, _, 0, 0, false, _, rfl,
     issues_pd (by decide +kernel), rfl, rfl, by decide +kernel, by decide +kernel⟩,
   ⟨st (pw ⟨0x29, [(16, 5, (0 : RegNo)), (11, 5, (0 : RegNo))]⟩ (pd pc0)), _, 0, _, _, _, 0, 0, false, _, rfl,
     issues_pd (by decide +kernel), rfl, rfl, by decide +kernel, by decide +kernel⟩⟩

/-- The clauses of VectorFloatResults. -/
theorem test_meets_VectorFloat_1 :
    (∃ (s : State) (d : Dev) (n : CoreNo) (w : Nat) (d' : Dev) (c : Core) (vd va vb : RegNo) (pm : Fin 8) (ty : VTy) (r :
      BitVec 256 × Nat), d = start s ∧ Issues n d w d' ∧ c = coreOf n d ∧ vIsF ty = true ∧
      r = lanes ty (c.pred pm) (c.vec vd) (fun i => fAdd (vFmt ty) c.rnd (lane ty (c.vec va) i) (lane ty (c.vec vb) i)) ∧
      r.2 &&& bits c.x.fpcsr.toNat 16 5 = 0 ∧ reads (.v 0x20 vd va vb pm ty) w = true) ∧
    (∃ (s : State) (d : Dev) (n : CoreNo) (w : Nat) (d' : Dev) (c : Core) (vd va vb : RegNo) (pm : Fin 8) (ty : VTy) (r :
      BitVec 256 × Nat), d = start s ∧ Issues n d w d' ∧ c = coreOf n d ∧ vIsF ty = true ∧
      r = lanes ty (c.pred pm) (c.vec vd) (fun i => fSub (vFmt ty) c.rnd (lane ty (c.vec va) i) (lane ty (c.vec vb) i)) ∧
      r.2 &&& bits c.x.fpcsr.toNat 16 5 = 0 ∧ reads (.v 0x20 vd va vb pm ty) w = true) ∧
    (∃ (s : State) (d : Dev) (n : CoreNo) (w : Nat) (d' : Dev) (c : Core) (vd va vb : RegNo) (pm : Fin 8) (ty : VTy) (r :
      BitVec 256 × Nat), d = start s ∧ Issues n d w d' ∧ c = coreOf n d ∧ vIsF ty = true ∧
      r = lanes ty (c.pred pm) (c.vec vd) (fun i => fMul (vFmt ty) c.rnd (lane ty (c.vec va) i) (lane ty (c.vec vb) i)) ∧
      r.2 &&& bits c.x.fpcsr.toNat 16 5 = 0 ∧ reads (.v 0x20 vd va vb pm ty) w = true) ∧
    (∃ (s : State) (d : Dev) (n : CoreNo) (w : Nat) (d' : Dev) (c : Core) (vd va vb : RegNo) (pm : Fin 8) (ty : VTy) (r :
      BitVec 256 × Nat), d = start s ∧ Issues n d w d' ∧ c = coreOf n d ∧ vIsF ty = true ∧
      r = lanes ty (c.pred pm) (c.vec vd) (fun i => fDiv (vFmt ty) c.rnd (lane ty (c.vec va) i) (lane ty (c.vec vb) i)) ∧
      r.2 &&& bits c.x.fpcsr.toNat 16 5 = 0 ∧ reads (.v 0x20 vd va vb pm ty) w = true) :=
  ⟨⟨st (pw (.v 0x20 (0 : RegNo) (0 : RegNo) (0 : RegNo) (0 : Fin 8) (.f32 : VTy)) (pd pc0)), _, 0, _, _, _, 0, 0, 0, 0, .f32,
     _, rfl, issues_pd (by decide +kernel), rfl, by decide +kernel, rfl, by decide +kernel, by decide +kernel⟩,
   ⟨st (pw (.v 0x20 (0 : RegNo) (0 : RegNo) (0 : RegNo) (0 : Fin 8) (.f32 : VTy)) (pd pc0)), _, 0, _, _, _, 0, 0, 0, 0, .f32,
     _, rfl, issues_pd (by decide +kernel), rfl, by decide +kernel, rfl, by decide +kernel, by decide +kernel⟩,
   ⟨st (pw (.v 0x20 (0 : RegNo) (0 : RegNo) (0 : RegNo) (0 : Fin 8) (.f32 : VTy)) (pd pc0)), _, 0, _, _, _, 0, 0, 0, 0, .f32,
     _, rfl, issues_pd (by decide +kernel), rfl, by decide +kernel, rfl, by decide +kernel, by decide +kernel⟩,
   ⟨st (pw (.v 0x20 (0 : RegNo) (0 : RegNo) (0 : RegNo) (0 : Fin 8) (.f32 : VTy)) (pd pc0)), _, 0, _, _, _, 0, 0, 0, 0, .f32,
     _, rfl, issues_pd (by decide +kernel), rfl, by decide +kernel, rfl, by decide +kernel, by decide +kernel⟩⟩

/-- The clauses of VectorFloatResults. -/
theorem test_meets_VectorFloat_2 :
    (∃ (s : State) (d : Dev) (n : CoreNo) (w : Nat) (d' : Dev) (c : Core) (vd va vb : RegNo) (pm : Fin 8) (ty : VTy) (r :
      BitVec 256 × Nat), d = start s ∧ Issues n d w d' ∧ c = coreOf n d ∧ vIsF ty = true ∧
      r = lanes ty (c.pred pm) (c.vec vd) (fun i => fMinMax (vFmt ty) false (lane ty (c.vec va) i) (lane ty (c.vec vb) i)) ∧
      r.2 &&& bits c.x.fpcsr.toNat 16 5 = 0 ∧ reads (.v 0x20 vd va vb pm ty) w = true) ∧
    (∃ (s : State) (d : Dev) (n : CoreNo) (w : Nat) (d' : Dev) (c : Core) (vd va vb : RegNo) (pm : Fin 8) (ty : VTy) (r :
      BitVec 256 × Nat), d = start s ∧ Issues n d w d' ∧ c = coreOf n d ∧ vIsF ty = true ∧
      r = lanes ty (c.pred pm) (c.vec vd) (fun i => fMinMax (vFmt ty) true (lane ty (c.vec va) i) (lane ty (c.vec vb) i)) ∧
      r.2 &&& bits c.x.fpcsr.toNat 16 5 = 0 ∧ reads (.v 0x20 vd va vb pm ty) w = true) ∧
    (∃ (s : State) (d : Dev) (n : CoreNo) (w : Nat) (d' : Dev) (c : Core) (vd va vb : RegNo) (pm : Fin 8) (ty : VTy) (r :
      BitVec 256 × Nat), d = start s ∧ Issues n d w d' ∧ c = coreOf n d ∧ vIsF ty = true ∧
      r = lanes ty (c.pred pm) (c.vec vd) (fun i => fFma (vFmt ty) c.rnd (lane ty (c.vec va) i) (lane ty (c.vec vb) i) (lane
      ty (c.vec vd) i)) ∧ r.2 &&& bits c.x.fpcsr.toNat 16 5 = 0 ∧ reads (.v 0x20 vd va vb pm ty) w = true) ∧
    (∃ (s : State) (d : Dev) (n : CoreNo) (w : Nat) (d' : Dev) (c : Core) (vd va : RegNo) (pm : Fin 8) (ty : VTy) (r : BitVec
      256 × Nat), d = start s ∧ Issues n d w d' ∧ c = coreOf n d ∧ vIsF ty = true ∧
      r = lanes ty (c.pred pm) (c.vec vd) (fun i => fSqrt (vFmt ty) c.rnd (lane ty (c.vec va) i)) ∧
      r.2 &&& bits c.x.fpcsr.toNat 16 5 = 0 ∧ reads ⟨0x20, [(21, 5, vd), (16, 5, va), (8, 3, pm), (5, 3, vCode ty)]⟩ w = true)
      :=
  ⟨⟨st (pw (.v 0x20 (0 : RegNo) (0 : RegNo) (0 : RegNo) (0 : Fin 8) (.f32 : VTy)) (pd pc0)), _, 0, _, _, _, 0, 0, 0, 0, .f32,
     _, rfl, issues_pd (by decide +kernel), rfl, by decide +kernel, rfl, by decide +kernel, by decide +kernel⟩,
   ⟨st (pw (.v 0x20 (0 : RegNo) (0 : RegNo) (0 : RegNo) (0 : Fin 8) (.f32 : VTy)) (pd pc0)), _, 0, _, _, _, 0, 0, 0, 0, .f32,
     _, rfl, issues_pd (by decide +kernel), rfl, by decide +kernel, rfl, by decide +kernel, by decide +kernel⟩,
   ⟨st (pw (.v 0x20 (0 : RegNo) (0 : RegNo) (0 : RegNo) (0 : Fin 8) (.f32 : VTy)) (pd pc0)), _, 0, _, _, _, 0, 0, 0, 0, .f32,
     _, rfl, issues_pd (by decide +kernel), rfl, by decide +kernel, rfl, by decide +kernel, by decide +kernel⟩,
   ⟨st (pw ⟨0x20, [(21, 5, (0 : RegNo)), (16, 5, (0 : RegNo)), (8, 3, (0 : Fin 8)), (5, 3, vCode (.f32 : VTy))]⟩ (pd pc0)), _,
     0, _, _, _, 0, 0, 0, .f32, _, rfl, issues_pd (by decide +kernel), rfl, by decide +kernel, rfl, by decide +kernel,
     by decide +kernel⟩⟩

/-- The clauses of VectorFloatResults. -/
theorem test_meets_VectorFloat_3 :
    (∃ (s : State) (d : Dev) (n : CoreNo) (w : Nat) (d' : Dev) (c : Core) (vd va : RegNo) (pm : Fin 8) (ty : VTy) (r : BitVec
      256 × Nat), d = start s ∧ Issues n d w d' ∧ c = coreOf n d ∧ vIsF ty = true ∧
      r = lanes ty (c.pred pm) (c.vec vd) (fun i => toInt (vFmt ty) c.rnd (vWidth ty) (lane ty (c.vec va) i)) ∧
      r.2 &&& bits c.x.fpcsr.toNat 16 5 = 0 ∧ reads ⟨0x24, [(21, 5, vd), (16, 5, va), (8, 3, pm), (5, 3, vCode ty)]⟩ w = true)
      ∧
    (∃ (s : State) (d : Dev) (n : CoreNo) (w : Nat) (d' : Dev) (c : Core) (vd va : RegNo) (pm : Fin 8) (ty : VTy) (r : BitVec
      256 × Nat), d = start s ∧ Issues n d w d' ∧ c = coreOf n d ∧ vIsF ty = true ∧
      r = lanes ty (c.pred pm) (c.vec vd) (fun i => ofInt (vFmt ty) c.rnd (toS (vWidth ty) (lane ty (c.vec va) i))) ∧
      r.2 &&& bits c.x.fpcsr.toNat 16 5 = 0 ∧ reads ⟨0x24, [(21, 5, vd), (16, 5, va), (8, 3, pm), (5, 3, vCode ty)]⟩ w = true)
      ∧
    (∃ (s : State) (d : Dev) (n : CoreNo) (w : Nat) (d' : Dev) (c : Core) (vd va vb : RegNo) (pm : Fin 8) (ty : VTy),
      d = start s ∧ Issues n d w d' ∧ c = coreOf n d ∧ vIsF ty = false ∧ reads (.v 0x20 vd va vb pm ty) w = true) ∧
    (∃ (s : State) (d : Dev) (n : CoreNo) (w : Nat) (d' : Dev) (c : Core) (pd : Fin 8) (va vb : RegNo) (pm : Fin 8) (ty :
      VTy), d = start s ∧ Issues n d w d' ∧ c = coreOf n d ∧ vIsWide ty = true ∧
      cmpFlags 0 ty (c.pred pm) (c.vec va) (c.vec vb) &&& bits c.x.fpcsr.toNat 16 5 = 0 ∧
      reads ⟨0x22, [(21, 3, pd), (16, 5, va), (11, 5, vb), (8, 3, pm), (5, 3, vCode ty)]⟩ w = true) :=
  ⟨⟨st (pw ⟨0x24, [(21, 5, (0 : RegNo)), (16, 5, (0 : RegNo)), (8, 3, (0 : Fin 8)), (5, 3, vCode (.f32 : VTy))]⟩ (pd pc0)), _,
     0, _, _, _, 0, 0, 0, .f32, _, rfl, issues_pd (by decide +kernel), rfl, by decide +kernel, rfl, by decide +kernel,
     by decide +kernel⟩,
   ⟨st (pw ⟨0x24, [(21, 5, (0 : RegNo)), (16, 5, (0 : RegNo)), (8, 3, (0 : Fin 8)), (5, 3, vCode (.f32 : VTy))]⟩ (pd pc0)), _,
     0, _, _, _, 0, 0, 0, .f32, _, rfl, issues_pd (by decide +kernel), rfl, by decide +kernel, rfl, by decide +kernel,
     by decide +kernel⟩,
   ⟨st (pw (.v 0x20 (0 : RegNo) (0 : RegNo) (0 : RegNo) (0 : Fin 8) (.i32 : VTy)) (pd pc0)), _, 0, _, _, _, 0, 0, 0, 0, .i32,
     rfl, issues_pd (by decide +kernel), rfl, by decide +kernel, by decide +kernel⟩,
   ⟨st (pw ⟨0x22, [(21, 3, (0 : Fin 8)), (16, 5, (0 : RegNo)), (11, 5, (0 : RegNo)), (8, 3, (0 : Fin 8)), (5, 3,
     vCode (.f32 : VTy))]⟩ (pd pc0)), _, 0, _, _, _, 0, 0, 0, 0, .f32, rfl, issues_pd (by decide +kernel), rfl,
     by decide +kernel, by decide +kernel, by decide +kernel⟩⟩

/-- The clauses of VectorFloatResults. -/
theorem test_meets_VectorFloat_4 :
    (∃ (s : State) (d : Dev) (n : CoreNo) (w : Nat) (d' : Dev) (c : Core) (pd : Fin 8) (va vb : RegNo) (pm : Fin 8) (ty :
      VTy), d = start s ∧ Issues n d w d' ∧ c = coreOf n d ∧ vIsWide ty = true ∧
      cmpFlags 1 ty (c.pred pm) (c.vec va) (c.vec vb) &&& bits c.x.fpcsr.toNat 16 5 = 0 ∧
      reads ⟨0x22, [(21, 3, pd), (16, 5, va), (11, 5, vb), (8, 3, pm), (5, 3, vCode ty)]⟩ w = true) ∧
    (∃ (s : State) (d : Dev) (n : CoreNo) (w : Nat) (d' : Dev) (c : Core) (pd : Fin 8) (va vb : RegNo) (pm : Fin 8) (ty :
      VTy), d = start s ∧ Issues n d w d' ∧ c = coreOf n d ∧ vIsWide ty = true ∧
      cmpFlags 2 ty (c.pred pm) (c.vec va) (c.vec vb) &&& bits c.x.fpcsr.toNat 16 5 = 0 ∧
      reads ⟨0x22, [(21, 3, pd), (16, 5, va), (11, 5, vb), (8, 3, pm), (5, 3, vCode ty)]⟩ w = true) :=
  ⟨⟨st (pw ⟨0x22, [(21, 3, (0 : Fin 8)), (16, 5, (0 : RegNo)), (11, 5, (0 : RegNo)), (8, 3, (0 : Fin 8)), (5, 3,
     vCode (.f32 : VTy))]⟩ (pd pc0)), _, 0, _, _, _, 0, 0, 0, 0, .f32, rfl, issues_pd (by decide +kernel), rfl,
     by decide +kernel, by decide +kernel, by decide +kernel⟩,
   ⟨st (pw ⟨0x22, [(21, 3, (0 : Fin 8)), (16, 5, (0 : RegNo)), (11, 5, (0 : RegNo)), (8, 3, (0 : Fin 8)), (5, 3,
     vCode (.f32 : VTy))]⟩ (pd pc0)), _, 0, _, _, _, 0, 0, 0, 0, .f32, rfl, issues_pd (by decide +kernel), rfl,
     by decide +kernel, by decide +kernel, by decide +kernel⟩⟩

/-- The clauses of VectorIntegerResults. -/
theorem test_meets_VectorInteger_1 :
    (∃ (s : State) (d : Dev) (n : CoreNo) (w : Nat) (d' : Dev) (c : Core) (vd va vb : RegNo) (pm : Fin 8) (ty : VTy),
      d = start s ∧ Issues n d w d' ∧ c = coreOf n d ∧ isInt ty = true ∧ reads (.v 0x21 vd va vb pm ty) w = true) ∧
    (∃ (s : State) (d : Dev) (n : CoreNo) (w : Nat) (d' : Dev) (c : Core) (vd va vb : RegNo) (pm : Fin 8) (ty : VTy),
      d = start s ∧ Issues n d w d' ∧ c = coreOf n d ∧ vIsWide ty = true ∧ reads (.v 0x21 vd va vb pm ty) w = true) ∧
    (∃ (s : State) (d : Dev) (n : CoreNo) (w : Nat) (d' : Dev) (c : Core) (vd : RegNo) (pm : Fin 8) (ty : VTy), d = start s ∧
      Issues n d w d' ∧ c = coreOf n d ∧ vIsWide ty = true ∧ reads ⟨0x23, [(21, 5, vd), (8, 3, pm), (5, 3, vCode ty)]⟩ w =
      true) ∧
    (∃ (s : State) (d : Dev) (n : CoreNo) (w : Nat) (d' : Dev) (c : Core) (vd va vb : RegNo) (pm : Fin 8) (ty : VTy),
      d = start s ∧ Issues n d w d' ∧ c = coreOf n d ∧ vIsWide ty = true ∧ reads (.v 0x23 vd va vb pm ty) w = true) :=
  ⟨⟨st (pw (.v 0x21 (0 : RegNo) (0 : RegNo) (0 : RegNo) (0 : Fin 8) (.i32 : VTy)) (pd pc0)), _, 0, _, _, _, 0, 0, 0, 0, .i32,
     rfl, issues_pd (by decide +kernel), rfl, by decide +kernel, by decide +kernel⟩,
   ⟨st (pw (.v 0x21 (0 : RegNo) (0 : RegNo) (0 : RegNo) (0 : Fin 8) (.i32 : VTy)) (pd pc0)), _, 0, _, _, _, 0, 0, 0, 0, .i32,
     rfl, issues_pd (by decide +kernel), rfl, by decide +kernel, by decide +kernel⟩,
   ⟨st (pw ⟨0x23, [(21, 5, (0 : RegNo)), (8, 3, (0 : Fin 8)), (5, 3, vCode (.i32 : VTy))]⟩ (pd pc0)), _, 0, _, _, _, 0, 0,
     .i32, rfl, issues_pd (by decide +kernel), rfl, by decide +kernel, by decide +kernel⟩,
   ⟨st (pw (.v 0x23 (0 : RegNo) (0 : RegNo) (0 : RegNo) (0 : Fin 8) (.i32 : VTy)) (pd pc0)), _, 0, _, _, _, 0, 0, 0, 0, .i32,
     rfl, issues_pd (by decide +kernel), rfl, by decide +kernel, by decide +kernel⟩⟩

/-- The clauses of VectorIntegerResults. -/
theorem test_meets_VectorInteger_2 :
    (∃ (s : State) (d : Dev) (n : CoreNo) (w : Nat) (d' : Dev) (c : Core) (rd va : RegNo) (ty : VTy), d = start s ∧
      Issues n d w d' ∧ c = coreOf n d ∧ vIsWide ty = true ∧ reads ⟨0x23, [(21, 5, rd), (16, 5, va), (5, 3, vCode ty)]⟩ w =
      true) ∧
    (∃ (s : State) (d : Dev) (n : CoreNo) (w : Nat) (d' : Dev) (c : Core) (rd va : RegNo) (pm : Fin 8) (ty : VTy),
      d = start s ∧ Issues n d w d' ∧ c = coreOf n d ∧ vIsWide ty = true ∧
      reads ⟨0x23, [(21, 5, rd), (16, 5, va), (8, 3, pm), (5, 3, vCode ty)]⟩ w = true) :=
  ⟨⟨st (pw ⟨0x23, [(21, 5, (0 : RegNo)), (16, 5, (0 : RegNo)), (5, 3, vCode (.i32 : VTy))]⟩ (pd pc0)), _, 0, _, _, _, 0, 0,
     .i32, rfl, issues_pd (by decide +kernel), rfl, by decide +kernel, by decide +kernel⟩,
   ⟨st (pw ⟨0x23, [(21, 5, (0 : RegNo)), (16, 5, (0 : RegNo)), (8, 3, (0 : Fin 8)), (5, 3, vCode (.i32 : VTy))]⟩ (pd pc0)), _,
     0, _, _, _, 0, 0, 0, .i32, rfl, issues_pd (by decide +kernel), rfl, by decide +kernel, by decide +kernel⟩⟩

/-- The clauses of LoadsRead. -/
theorem test_meets_LoadResults_1 :
    (∃ (s : State) (d : Dev) (n : CoreNo) (w : Nat) (d' : Dev) (c : Core) (rd base : RegNo) (off : BitVec 12) (e : Ecc) (v :
      Nat) (d2 : Dev), d = start s ∧ Issues n d w d' ∧ c = coreOf n d ∧ memAddr base off c % 1 = 0 ∧
      loadAt s.fuses n c 1 (memAddr base off c) e d' = (.ok v, d2) ∧ reads (.m 0x10 rd base off) w = true) ∧
    (∃ (s : State) (d : Dev) (n : CoreNo) (w : Nat) (d' : Dev) (c : Core) (rd base : RegNo) (off : BitVec 12) (e : Ecc) (v :
      Nat) (d2 : Dev), d = start s ∧ Issues n d w d' ∧ c = coreOf n d ∧ memAddr base off c % 2 = 0 ∧
      loadAt s.fuses n c 2 (memAddr base off c) e d' = (.ok v, d2) ∧ reads (.m 0x10 rd base off) w = true) ∧
    (∃ (s : State) (d : Dev) (n : CoreNo) (w : Nat) (d' : Dev) (c : Core) (rd base : RegNo) (off : BitVec 12) (e : Ecc) (v :
      Nat) (d2 : Dev), d = start s ∧ Issues n d w d' ∧ c = coreOf n d ∧ memAddr base off c % 4 = 0 ∧
      loadAt s.fuses n c 4 (memAddr base off c) e d' = (.ok v, d2) ∧ reads (.m 0x10 rd base off) w = true) ∧
    (∃ (s : State) (d : Dev) (n : CoreNo) (w : Nat) (d' : Dev) (c : Core) (rd base : RegNo) (off : BitVec 12) (e : Ecc) (v :
      Nat) (d2 : Dev), d = start s ∧ Issues n d w d' ∧ c = coreOf n d ∧ memAddr base off c % 8 = 0 ∧
      loadAt s.fuses n c 8 (memAddr base off c) e d' = (.ok v, d2) ∧ reads (.m 0x10 rd base off) w = true) :=
  ⟨⟨st (pw (.m 0x10 (0 : RegNo) (0 : RegNo) (0 : BitVec 12)) (pd pc0)), _, 0, _, _, _, 0, 0, 0, .clean, _, _, rfl,
     issues_pd (by decide +kernel), rfl, by decide +kernel, pairOk (by decide +kernel), by decide +kernel⟩,
   ⟨st (pw (.m 0x10 (0 : RegNo) (0 : RegNo) (0 : BitVec 12)) (pd pc0)), _, 0, _, _, _, 0, 0, 0, .clean, _, _, rfl,
     issues_pd (by decide +kernel), rfl, by decide +kernel, pairOk (by decide +kernel), by decide +kernel⟩,
   ⟨st (pw (.m 0x10 (0 : RegNo) (0 : RegNo) (0 : BitVec 12)) (pd pc0)), _, 0, _, _, _, 0, 0, 0, .clean, _, _, rfl,
     issues_pd (by decide +kernel), rfl, by decide +kernel, pairOk (by decide +kernel), by decide +kernel⟩,
   ⟨st (pw (.m 0x10 (0 : RegNo) (0 : RegNo) (0 : BitVec 12)) (pd pc0)), _, 0, _, _, _, 0, 0, 0, .clean, _, _, rfl,
     issues_pd (by decide +kernel), rfl, by decide +kernel, pairOk (by decide +kernel), by decide +kernel⟩⟩

/-- The clauses of LoadsRead. -/
theorem test_meets_LoadResults_2 :
    (∃ (s : State) (d : Dev) (n : CoreNo) (w : Nat) (d' : Dev) (c : Core) (vd base : RegNo) (off : BitVec 12) (e : Ecc) (v :
      Nat) (d2 : Dev), d = start s ∧ Issues n d w d' ∧ c = coreOf n d ∧ memAddr base off c % 32 = 0 ∧
      loadAt s.fuses n c 32 (memAddr base off c) e d' = (.ok v, d2) ∧ reads (.m 0x14 vd base off) w = true) ∧
    (∃ (s : State) (d : Dev) (n : CoreNo) (w : Nat) (d' : Dev) (c : Core) (rd base : RegNo) (off : BitVec 12), d = start s ∧
      Issues n d w d' ∧ c = coreOf n d ∧ memAddr base off c % 8 ≠ 0 ∧ reads (.m 0x10 rd base off) w = true) ∧
    (∃ (s : State) (d : Dev) (n : CoreNo) (w : Nat) (d' : Dev) (c : Core) (vd va vb : RegNo) (ty : VTy), d = start s ∧
      Issues n d w d' ∧ c = coreOf n d ∧ vb ≠ 31 ∧ vIsWide ty = true ∧ (c.get vb).toNat % 2 ^ 40 ≤ c.x.residx ∧
      reads (.stream 4 vd va vb ty) w = true) ∧
    (∃ (s : State) (d : Dev) (n : CoreNo) (w : Nat) (d' : Dev) (c : Core) (vd va vb : RegNo) (ty : VTy) (e : Ecc) (i x y :
      Nat) (d2 d3 d4 : Dev) (c2 : Core), d = start s ∧ Issues n d w d' ∧ c = coreOf n d ∧ vb ≠ 31 ∧ vIsWide ty = true ∧
      i = c.x.residx ∧ (c.get vb).toNat % 2 ^ 40 = i + 1 ∧ (c.get va).toNat % vBytes ty = 0 ∧
      (c.get (vb.val + 1)).toNat % vBytes ty = 0 ∧ loadAt s.fuses n c (vBytes ty) (elemAt ty (c.get va) i) e d' = (.ok x,
      d2) ∧ loadAt s.fuses n c (vBytes ty) (elemAt ty (c.get (vb.val + 1)) i) .clean d2 = (.ok y, d3) ∧
      elemRes ty c (elemMulAdd ty c x y (lane ty (c.vec vd) (i % vLanes ty))) d3 (fun z c' => .next ((c'.putVec vd (setLane ty
      (c.vec vd) (i % vLanes ty) z)).res (i + 1)) d3) = .next (c2.res (i + 1)) d4 ∧ reads (.stream 4 vd va vb ty) w = true) :=
  ⟨⟨st (pw (.m 0x14 (0 : RegNo) (0 : RegNo) (0 : BitVec 12)) (pd pc0)), _, 0, _, _, _, 0, 0, 0, .clean, _, _, rfl,
     issues_pd (by decide +kernel), rfl, by decide +kernel, pairOk (by decide +kernel), by decide +kernel⟩,
   ⟨st (pw (.m 0x10 (0 : RegNo) (0 : RegNo) (1 : BitVec 12)) (pd pc0)), _, 0, _, _, _, 0, 0, 1, rfl,
     issues_pd (by decide +kernel), rfl, by decide +kernel, by decide +kernel⟩,
   ⟨st (pw (.stream 4 (0 : RegNo) (0 : RegNo) (0 : RegNo) (.f32 : VTy)) (pd pc0)), _, 0, _, _, _, 0, 0, 0, .f32, rfl,
     issues_pd (by decide +kernel), rfl, by decide +kernel, by decide +kernel, by decide +kernel, by decide +kernel⟩,
   ⟨st (pw (.stream 4 (2 : RegNo) (3 : RegNo) (4 : RegNo) (.f32 : VTy)) (pd pcE)), _, 0, _, _, _, 2, 3, 4, .f32, .clean, _, _,
     _, _, _, _, pcE, rfl, issues_pd (by decide +kernel), rfl, by decide +kernel, by decide +kernel, rfl, by decide +kernel,
     by decide +kernel, by decide +kernel, pairOk (by decide +kernel), pairOk (by decide +kernel),
     elemNext (by decide +kernel), by decide +kernel⟩⟩

/-- The clauses of StoresAndStreams. -/
theorem test_meets_StoreResults_1 :
    (∃ (s : State) (d : Dev) (n : CoreNo) (w : Nat) (d' : Dev) (c : Core) (rd base : RegNo) (off : BitVec 12) (e : Ecc) (r :
      Reached) (a : Nat) (d2 d3 : Dev), d = ties s.pending (start s) ∧ Issues n d w d' ∧ c = coreOf n d ∧
      memAddr base off c % 1 = 0 ∧ c.reach .store (memAddr base off c) d' = (.ok r, d2) ∧ r.pa + 1 ≤ dramSize ∧
      eccOpen r.pa 1 e d2 = (some a, d3) ∧ reads (.m 0x11 rd base off) w = true) ∧
    (∃ (s : State) (d : Dev) (n : CoreNo) (w : Nat) (d' : Dev) (c : Core) (rd base : RegNo) (off : BitVec 12) (r : Reached)
      (d2 d3 : Dev), d = ties s.pending (start s) ∧ Issues n d w d' ∧ c = coreOf n d ∧ memAddr base off c % 1 = 0 ∧
      c.reach .store (memAddr base off c) d' = (.ok r, d2) ∧ ¬ r.pa + 1 ≤ dramSize ∧
      mmioWrite s.fuses (coreWho n c) 1 r.pa ((c.get rd).toNat % 2 ^ 8) (coreSet n { c.next with iret := c.iret + 1 } (used r
      .store d2)) = some d3 ∧ reads (.m 0x11 rd base off) w = true) ∧
    (∃ (s : State) (d : Dev) (n : CoreNo) (w : Nat) (d' : Dev) (c : Core) (rd base : RegNo) (off : BitVec 12) (e : Ecc) (r :
      Reached) (a : Nat) (d2 d3 : Dev), d = ties s.pending (start s) ∧ Issues n d w d' ∧ c = coreOf n d ∧
      memAddr base off c % 2 = 0 ∧ c.reach .store (memAddr base off c) d' = (.ok r, d2) ∧ r.pa + 2 ≤ dramSize ∧
      eccOpen r.pa 2 e d2 = (some a, d3) ∧ reads (.m 0x11 rd base off) w = true) ∧
    (∃ (s : State) (d : Dev) (n : CoreNo) (w : Nat) (d' : Dev) (c : Core) (rd base : RegNo) (off : BitVec 12) (r : Reached)
      (d2 d3 : Dev), d = ties s.pending (start s) ∧ Issues n d w d' ∧ c = coreOf n d ∧ memAddr base off c % 2 = 0 ∧
      c.reach .store (memAddr base off c) d' = (.ok r, d2) ∧ ¬ r.pa + 2 ≤ dramSize ∧
      mmioWrite s.fuses (coreWho n c) 2 r.pa ((c.get rd).toNat % 2 ^ 16) (coreSet n { c.next with iret := c.iret + 1 } (used r
      .store d2)) = some d3 ∧ reads (.m 0x11 rd base off) w = true) :=
  ⟨⟨st (pw (.m 0x11 (0 : RegNo) (0 : RegNo) (0 : BitVec 12)) (pd pc0)), _, 0, _, _, _, 0, 0, 0, .clean, _, _, _, _, rfl,
     issues_pd (by decide +kernel), rfl, by decide +kernel, pairOk (by decide +kernel), by decide +kernel,
     pairSome (by decide +kernel), by decide +kernel⟩,
   ⟨st (pw (.m 0x11 (0 : RegNo) (1 : RegNo) (0 : BitVec 12)) (pd { pc0 with x := { pc := 0, g := [(1, 0xF200000000)] } })), _,
     0, _, _, _, 0, 1, 0, _, _, _, rfl, issues_pd (by decide +kernel), rfl, by decide +kernel, pairOk (by decide +kernel),
     by decide +kernel, someGet (by decide +kernel), by decide +kernel⟩,
   ⟨st (pw (.m 0x11 (0 : RegNo) (0 : RegNo) (0 : BitVec 12)) (pd pc0)), _, 0, _, _, _, 0, 0, 0, .clean, _, _, _, _, rfl,
     issues_pd (by decide +kernel), rfl, by decide +kernel, pairOk (by decide +kernel), by decide +kernel,
     pairSome (by decide +kernel), by decide +kernel⟩,
   ⟨st (pw (.m 0x11 (0 : RegNo) (1 : RegNo) (0 : BitVec 12)) (pd { pc0 with x := { pc := 0, g := [(1, 0xF200000000)] } })), _,
     0, _, _, _, 0, 1, 0, _, _, _, rfl, issues_pd (by decide +kernel), rfl, by decide +kernel, pairOk (by decide +kernel),
     by decide +kernel, someGet (by decide +kernel), by decide +kernel⟩⟩

/-- The clauses of StoresAndStreams. -/
theorem test_meets_StoreResults_2 :
    (∃ (s : State) (d : Dev) (n : CoreNo) (w : Nat) (d' : Dev) (c : Core) (rd base : RegNo) (off : BitVec 12) (e : Ecc) (r :
      Reached) (a : Nat) (d2 d3 : Dev), d = ties s.pending (start s) ∧ Issues n d w d' ∧ c = coreOf n d ∧
      memAddr base off c % 4 = 0 ∧ c.reach .store (memAddr base off c) d' = (.ok r, d2) ∧ r.pa + 4 ≤ dramSize ∧
      eccOpen r.pa 4 e d2 = (some a, d3) ∧ reads (.m 0x11 rd base off) w = true) ∧
    (∃ (s : State) (d : Dev) (n : CoreNo) (w : Nat) (d' : Dev) (c : Core) (rd base : RegNo) (off : BitVec 12) (r : Reached)
      (d2 d3 : Dev), d = ties s.pending (start s) ∧ Issues n d w d' ∧ c = coreOf n d ∧ memAddr base off c % 4 = 0 ∧
      c.reach .store (memAddr base off c) d' = (.ok r, d2) ∧ ¬ r.pa + 4 ≤ dramSize ∧
      mmioWrite s.fuses (coreWho n c) 4 r.pa ((c.get rd).toNat % 2 ^ 32) (coreSet n { c.next with iret := c.iret + 1 } (used r
      .store d2)) = some d3 ∧ reads (.m 0x11 rd base off) w = true) ∧
    (∃ (s : State) (d : Dev) (n : CoreNo) (w : Nat) (d' : Dev) (c : Core) (rd base : RegNo) (off : BitVec 12) (e : Ecc) (r :
      Reached) (a : Nat) (d2 d3 : Dev), d = ties s.pending (start s) ∧ Issues n d w d' ∧ c = coreOf n d ∧
      memAddr base off c % 8 = 0 ∧ c.reach .store (memAddr base off c) d' = (.ok r, d2) ∧ r.pa + 8 ≤ dramSize ∧
      eccOpen r.pa 8 e d2 = (some a, d3) ∧ reads (.m 0x11 rd base off) w = true) ∧
    (∃ (s : State) (d : Dev) (n : CoreNo) (w : Nat) (d' : Dev) (c : Core) (rd base : RegNo) (off : BitVec 12) (r : Reached)
      (d2 d3 : Dev), d = ties s.pending (start s) ∧ Issues n d w d' ∧ c = coreOf n d ∧ memAddr base off c % 8 = 0 ∧
      c.reach .store (memAddr base off c) d' = (.ok r, d2) ∧ ¬ r.pa + 8 ≤ dramSize ∧
      mmioWrite s.fuses (coreWho n c) 8 r.pa ((c.get rd).toNat) (coreSet n { c.next with iret := c.iret + 1 } (used r .store
      d2)) = some d3 ∧ reads (.m 0x11 rd base off) w = true) :=
  ⟨⟨st (pw (.m 0x11 (0 : RegNo) (0 : RegNo) (0 : BitVec 12)) (pd pc0)), _, 0, _, _, _, 0, 0, 0, .clean, _, _, _, _, rfl,
     issues_pd (by decide +kernel), rfl, by decide +kernel, pairOk (by decide +kernel), by decide +kernel,
     pairSome (by decide +kernel), by decide +kernel⟩,
   ⟨st (pw (.m 0x11 (0 : RegNo) (1 : RegNo) (0 : BitVec 12)) (pd { pc0 with x := { pc := 0, g := [(1, 0xF200000000)] } })), _,
     0, _, _, _, 0, 1, 0, _, _, _, rfl, issues_pd (by decide +kernel), rfl, by decide +kernel, pairOk (by decide +kernel),
     by decide +kernel, someGet (by decide +kernel), by decide +kernel⟩,
   ⟨st (pw (.m 0x11 (0 : RegNo) (0 : RegNo) (0 : BitVec 12)) (pd pc0)), _, 0, _, _, _, 0, 0, 0, .clean, _, _, _, _, rfl,
     issues_pd (by decide +kernel), rfl, by decide +kernel, pairOk (by decide +kernel), by decide +kernel,
     pairSome (by decide +kernel), by decide +kernel⟩,
   ⟨st (pw (.m 0x11 (0 : RegNo) (1 : RegNo) (0 : BitVec 12)) (pd { pc0 with x := { pc := 0, g := [(1, 0xF200000000)] } })), _,
     0, _, _, _, 0, 1, 0, _, _, _, rfl, issues_pd (by decide +kernel), rfl, by decide +kernel, pairOk (by decide +kernel),
     by decide +kernel, someGet (by decide +kernel), by decide +kernel⟩⟩

/-- The clauses of StoresAndStreams. -/
theorem test_meets_StoreResults_3 :
    (∃ (s : State) (d : Dev) (n : CoreNo) (w : Nat) (d' : Dev) (c : Core) (vd base : RegNo) (off : BitVec 12) (e : Ecc) (r :
      Reached) (a : Nat) (d2 d3 : Dev), d = ties s.pending (start s) ∧ Issues n d w d' ∧ c = coreOf n d ∧
      memAddr base off c % 32 = 0 ∧ c.reach .store (memAddr base off c) d' = (.ok r, d2) ∧ r.pa + 32 ≤ dramSize ∧
      eccOpen r.pa 32 e d2 = (some a, d3) ∧ reads (.m 0x14 vd base off) w = true) ∧
    (∃ (s : State) (d : Dev) (n : CoreNo) (w : Nat) (d' : Dev) (c : Core) (vd base : RegNo) (off : BitVec 12) (r : Reached)
      (d2 d3 : Dev), d = ties s.pending (start s) ∧ Issues n d w d' ∧ c = coreOf n d ∧ memAddr base off c % 32 = 0 ∧
      c.reach .store (memAddr base off c) d' = (.ok r, d2) ∧ ¬ r.pa + 32 ≤ dramSize ∧
      mmioWrite s.fuses (coreWho n c) 32 r.pa ((c.vec vd).toNat) (coreSet n { c.next with iret := c.iret + 1 } (used r .store
      d2)) = some d3 ∧ reads (.m 0x14 vd base off) w = true) ∧
    (∃ (s : State) (d : Dev) (n : CoreNo) (w : Nat) (d' : Dev) (c : Core) (rd base : RegNo) (off : BitVec 12),
      d = ties s.pending (start s) ∧ Issues n d w d' ∧ c = coreOf n d ∧ memAddr base off c % 8 ≠ 0 ∧
      reads (.m 0x11 rd base off) w = true) :=
  ⟨⟨st (pw (.m 0x14 (0 : RegNo) (0 : RegNo) (0 : BitVec 12)) (pd pc0)), _, 0, _, _, _, 0, 0, 0, .clean, _, _, _, _, rfl,
     issues_pd (by decide +kernel), rfl, by decide +kernel, pairOk (by decide +kernel), by decide +kernel,
     pairSome (by decide +kernel), by decide +kernel⟩,
   ⟨st (pw (.m 0x14 (0 : RegNo) (1 : RegNo) (0 : BitVec 12)) (pd { pc0 with x := { pc := 0, g := [(1, 0xF200000000)] } })), _,
     0, _, _, _, 0, 1, 0, _, _, _, rfl, issues_pd (by decide +kernel), rfl, by decide +kernel, pairOk (by decide +kernel),
     by decide +kernel, someGet (by decide +kernel), by decide +kernel⟩,
   ⟨st (pw (.m 0x11 (0 : RegNo) (0 : RegNo) (1 : BitVec 12)) (pd pc0)), _, 0, _, _, _, 0, 0, 1, rfl,
     issues_pd (by decide +kernel), rfl, by decide +kernel, by decide +kernel⟩⟩

/-- The clauses of AtomicResults. -/
theorem test_meets_Atomics :
    (∃ (s : State) (d : Dev) (n : CoreNo) (w : Nat) (d' : Dev) (c : Core) (rd rs rt : RegNo) (dbl acq rel : Bool) (e : Ecc)
      (nb : Nat) (r : Reached) (b : List Nat) (d2 d3 : Dev), d = start s ∧ Issues n d w d' ∧ c = coreOf n d ∧
      nb = (if dbl then 8 else 4) ∧ (c.get rs).toNat % nb = 0 ∧ c.reach .atomic (c.get rs).toNat d' = (.ok r, d2) ∧
      r.nc = false ∧ r.pa + nb ≤ dramSize ∧ eccRead r.pa nb e d2 = (some b, d3) ∧
      reads ⟨0x12, [(21, 5, rd), (16, 5, rs), (11, 5, rt), (8, 3, 0), (7, 1, b2n dbl), (6, 1, b2n acq), (5, 1, b2n rel)]⟩ w =
      true) ∧
    (∃ (s : State) (d : Dev) (n : CoreNo) (w : Nat) (d' : Dev) (c : Core) (rd rs rt : RegNo) (dbl acq rel : Bool) (e : Ecc)
      (nb : Nat) (r : Reached) (b : List Nat) (d2 d3 : Dev), d = start s ∧ Issues n d w d' ∧ c = coreOf n d ∧
      nb = (if dbl then 8 else 4) ∧ (c.get rs).toNat % nb = 0 ∧ c.reach .atomic (c.get rs).toNat d' = (.ok r, d2) ∧
      r.nc = false ∧ r.pa + nb ≤ dramSize ∧ eccRead r.pa nb e d2 = (some b, d3) ∧
      reads ⟨0x12, [(21, 5, rd), (16, 5, rs), (11, 5, rt), (8, 3, 1), (7, 1, b2n dbl), (6, 1, b2n acq), (5, 1, b2n rel)]⟩ w =
      true) ∧
    (∃ (s : State) (d : Dev) (n : CoreNo) (w : Nat) (d' : Dev) (c : Core) (rd rs rt : RegNo) (dbl acq rel : Bool) (e : Ecc)
      (nb : Nat) (r : Reached) (b : List Nat) (d2 d3 : Dev), d = start s ∧ Issues n d w d' ∧ c = coreOf n d ∧
      nb = (if dbl then 8 else 4) ∧ (c.get rs).toNat % nb = 0 ∧ c.reach .atomic (c.get rs).toNat d' = (.ok r, d2) ∧
      r.nc = false ∧ r.pa + nb ≤ dramSize ∧ eccRead r.pa nb e d2 = (some b, d3) ∧ ofLe b = (c.get rd).toNat % 2 ^ (8 * nb) ∧
      reads ⟨0x12, [(21, 5, rd), (16, 5, rs), (11, 5, rt), (8, 3, 2), (7, 1, b2n dbl), (6, 1, b2n acq), (5, 1, b2n rel)]⟩ w =
      true) ∧
    (∃ (s : State) (d : Dev) (n : CoreNo) (w : Nat) (d' : Dev) (c : Core) (rd rs rt : RegNo) (dbl acq rel : Bool) (e : Ecc)
      (nb : Nat) (r : Reached) (b : List Nat) (d2 d3 : Dev), d = start s ∧ Issues n d w d' ∧ c = coreOf n d ∧
      nb = (if dbl then 8 else 4) ∧ (c.get rs).toNat % nb = 0 ∧ c.reach .atomic (c.get rs).toNat d' = (.ok r, d2) ∧
      r.nc = false ∧ r.pa + nb ≤ dramSize ∧ eccRead r.pa nb e d2 = (some b, d3) ∧ ofLe b ≠ (c.get rd).toNat % 2 ^ (8 * nb) ∧
      reads ⟨0x12, [(21, 5, rd), (16, 5, rs), (11, 5, rt), (8, 3, 2), (7, 1, b2n dbl), (6, 1, b2n acq), (5, 1, b2n rel)]⟩ w =
      true) :=
  ⟨⟨st (pw ⟨0x12, [(21, 5, (0 : RegNo)), (16, 5, (0 : RegNo)), (11, 5, (0 : RegNo)), (8, 3, 0), (7, 1, b2n (false : Bool)),
     (6, 1, b2n (false : Bool)), (5, 1, b2n (false : Bool))]⟩ (pd pc0)), _, 0, _, _, _, 0, 0, 0, false, false, false, .clean,
     _, _, _, _, _, rfl, issues_pd (by decide +kernel), rfl, rfl, by decide +kernel, pairOk (by decide +kernel),
     by decide +kernel, by decide +kernel, pairSome (by decide +kernel), by decide +kernel⟩,
   ⟨st (pw ⟨0x12, [(21, 5, (0 : RegNo)), (16, 5, (0 : RegNo)), (11, 5, (0 : RegNo)), (8, 3, 1), (7, 1, b2n (false : Bool)),
     (6, 1, b2n (false : Bool)), (5, 1, b2n (false : Bool))]⟩ (pd pc0)), _, 0, _, _, _, 0, 0, 0, false, false, false, .clean,
     _, _, _, _, _, rfl, issues_pd (by decide +kernel), rfl, rfl, by decide +kernel, pairOk (by decide +kernel),
     by decide +kernel, by decide +kernel, pairSome (by decide +kernel), by decide +kernel⟩,
   ⟨st (pw ⟨0x12, [(21, 5, (0 : RegNo)), (16, 5, (1 : RegNo)), (11, 5, (0 : RegNo)), (8, 3, 2), (7, 1, b2n (false : Bool)),
     (6, 1, b2n (false : Bool)), (5, 1, b2n (false : Bool))]⟩ (pd { pc0 with x := { pc := 0, g := [(1, 0x100)] } })), _, 0, _,
     _, _, 0, 1, 0, false, false, false, .clean, _, _, _, _, _, rfl, issues_pd (by decide +kernel), rfl, rfl,
     by decide +kernel, pairOk (by decide +kernel), by decide +kernel, by decide +kernel, pairSome (by decide +kernel),
     by decide +kernel, by decide +kernel⟩,
   ⟨st (pw ⟨0x12, [(21, 5, (1 : RegNo)), (16, 5, (0 : RegNo)), (11, 5, (0 : RegNo)), (8, 3, 2), (7, 1, b2n (false : Bool)),
     (6, 1, b2n (false : Bool)), (5, 1, b2n (false : Bool))]⟩ (pd { pc0 with x := { pc := 0, g := [(1, 1)] } })), _, 0, _, _,
     _, 1, 0, 0, false, false, false, .clean, _, _, _, _, _, rfl, issues_pd (by decide +kernel), rfl, rfl, by decide +kernel,
     pairOk (by decide +kernel), by decide +kernel, by decide +kernel, pairSome (by decide +kernel), by decide +kernel,
     by decide +kernel⟩⟩

/-- The clauses of StoresAndStreams. -/
theorem test_meets_Streams_1 :
    (∃ (s : State) (d : Dev) (n : CoreNo) (w : Nat) (d' : Dev) (c : Core) (vd va vb : RegNo) (ty : VTy),
      d = ties s.pending (start s) ∧ Issues n d w d' ∧ c = coreOf n d ∧ vb ≠ 31 ∧ (c.get vb).toNat % 2 ^ 40 ≤ c.x.residx ∧
      reads (.stream 0 vd va vb ty) w = true) ∧
    (∃ (s : State) (d : Dev) (n : CoreNo) (w : Nat) (d' : Dev) (c : Core) (vd va vb : RegNo) (ty : VTy) (e : Ecc) (i v : Nat)
      (d2 d3 : Dev), d = ties s.pending (start s) ∧ Issues n d w d' ∧ c = coreOf n d ∧ vb ≠ 31 ∧ i = c.x.residx ∧
      (c.get vb).toNat % 2 ^ 40 = i + 1 ∧ (c.get vd).toNat % vBytes ty = 0 ∧ (c.get va).toNat % vBytes ty = 0 ∧
      loadAt s.fuses n c (vBytes ty) (elemAt ty (c.get va) i) e d' = (.ok v, d2) ∧
      elemStore s.fuses n (vBytes ty) (elemAt ty (c.get vd) i) v .clean c c d2 = .next (c.res (i + 1)) d3 ∧
      reads (.stream 0 vd va vb ty) w = true) ∧
    (∃ (s : State) (d : Dev) (n : CoreNo) (w : Nat) (d' : Dev) (c : Core) (vd vb : RegNo) (ty : VTy),
      d = ties s.pending (start s) ∧ Issues n d w d' ∧ c = coreOf n d ∧ vb ≠ 31 ∧ (c.get vb).toNat % 2 ^ 40 ≤ c.x.residx ∧
      reads (.stream 1 vd 0 vb ty) w = true) ∧
    (∃ (s : State) (d : Dev) (n : CoreNo) (w : Nat) (d' : Dev) (c : Core) (vd vb : RegNo) (ty : VTy) (e : Ecc) (i : Nat) (d3 :
      Dev), d = ties s.pending (start s) ∧ Issues n d w d' ∧ c = coreOf n d ∧ vb ≠ 31 ∧ i = c.x.residx ∧
      (c.get vb).toNat % 2 ^ 40 = i + 1 ∧ (c.get vd).toNat % vBytes ty = 0 ∧
      elemStore s.fuses n (vBytes ty) (elemAt ty (c.get vd) i) ((c.get (vb.val + 1)).toNat % 2 ^ vWidth ty) e c c d' = .next
      (c.res (i + 1)) d3 ∧ reads (.stream 1 vd 0 vb ty) w = true) :=
  ⟨⟨st (pw (.stream 0 (0 : RegNo) (0 : RegNo) (0 : RegNo) (.f32 : VTy)) (pd pc0)), _, 0, _, _, _, 0, 0, 0, .f32, rfl,
     issues_pd (by decide +kernel), rfl, by decide +kernel, by decide +kernel, by decide +kernel⟩,
   ⟨st (pw (.stream 0 (2 : RegNo) (3 : RegNo) (4 : RegNo) (.f32 : VTy)) (pd pcE)), _, 0, _, _, _, 2, 3, 4, .f32, .clean, _, _,
     _, _, rfl, issues_pd (by decide +kernel), rfl, by decide +kernel, rfl, by decide +kernel, by decide +kernel,
     by decide +kernel, pairOk (by decide +kernel), elemNext (by decide +kernel), by decide +kernel⟩,
   ⟨st (pw (.stream 1 (0 : RegNo) 0 (0 : RegNo) (.f32 : VTy)) (pd pc0)), _, 0, _, _, _, 0, 0, .f32, rfl,
     issues_pd (by decide +kernel), rfl, by decide +kernel, by decide +kernel, by decide +kernel⟩,
   ⟨st (pw (.stream 1 (2 : RegNo) 0 (4 : RegNo) (.f32 : VTy)) (pd pcE)), _, 0, _, _, _, 2, 4, .f32, .clean, _, _, rfl,
     issues_pd (by decide +kernel), rfl, by decide +kernel, rfl, by decide +kernel, by decide +kernel,
     elemNext (by decide +kernel), by decide +kernel⟩⟩

/-- The clauses of StoresAndStreams. -/
theorem test_meets_Streams_2 :
    (∃ (s : State) (d : Dev) (n : CoreNo) (w : Nat) (d' : Dev) (c : Core) (vd va vb : RegNo) (ty : VTy),
      d = ties s.pending (start s) ∧ Issues n d w d' ∧ c = coreOf n d ∧ vb ≠ 31 ∧ vIsWide ty = true ∧
      (c.get vb).toNat % 2 ^ 40 ≤ c.x.residx ∧ reads (.stream 2 vd va vb ty) w = true) ∧
    (∃ (s : State) (d : Dev) (n : CoreNo) (w : Nat) (d' : Dev) (c : Core) (vd va vb : RegNo) (ty : VTy) (e : Ecc) (i x y :
      Nat) (d2 d3 d4 : Dev) (c2 : Core), d = ties s.pending (start s) ∧ Issues n d w d' ∧ c = coreOf n d ∧ vb ≠ 31 ∧
      vIsWide ty = true ∧ i = c.x.residx ∧ (c.get vb).toNat % 2 ^ 40 = i + 1 ∧ (c.get vd).toNat % vBytes ty = 0 ∧
      (c.get va).toNat % vBytes ty = 0 ∧ loadAt s.fuses n c (vBytes ty) (elemAt ty (c.get va) i) e d' = (.ok x, d2) ∧
      loadAt s.fuses n c (vBytes ty) (elemAt ty (c.get vd) i) .clean d2 = (.ok y, d3) ∧
      elemRes ty c (elemMulAdd ty c ((c.get (vb.val + 1)).toNat % 2 ^ vWidth ty) x y) d3 (fun z c' => elemStore s.fuses n
      (vBytes ty) (elemAt ty (c.get vd) i) z .clean c c' d3) = .next (c2.res (i + 1)) d4 ∧
      reads (.stream 2 vd va vb ty) w = true) ∧
    (∃ (s : State) (d : Dev) (n : CoreNo) (w : Nat) (d' : Dev) (c : Core) (vd vb : RegNo) (ty : VTy),
      d = ties s.pending (start s) ∧ Issues n d w d' ∧ c = coreOf n d ∧ vb ≠ 31 ∧ vIsWide ty = true ∧
      (c.get vb).toNat % 2 ^ 40 ≤ c.x.residx ∧ reads (.stream 3 vd 0 vb ty) w = true) ∧
    (∃ (s : State) (d : Dev) (n : CoreNo) (w : Nat) (d' : Dev) (c : Core) (vd vb : RegNo) (ty : VTy) (e : Ecc) (i x : Nat) (d2
      d4 : Dev) (c2 : Core), d = ties s.pending (start s) ∧ Issues n d w d' ∧ c = coreOf n d ∧ vb ≠ 31 ∧ vIsWide ty = true ∧
      i = c.x.residx ∧ (c.get vb).toNat % 2 ^ 40 = i + 1 ∧ (c.get vd).toNat % vBytes ty = 0 ∧
      loadAt s.fuses n c (vBytes ty) (elemAt ty (c.get vd) i) e d' = (.ok x, d2) ∧
      elemRes ty c (elemMul ty c ((c.get (vb.val + 1)).toNat % 2 ^ vWidth ty) x) d2 (fun z c' => elemStore s.fuses n (vBytes
      ty) (elemAt ty (c.get vd) i) z .clean c c' d2) = .next (c2.res (i + 1)) d4 ∧ reads (.stream 3 vd 0 vb ty) w = true) :=
  ⟨⟨st (pw (.stream 2 (0 : RegNo) (0 : RegNo) (0 : RegNo) (.f32 : VTy)) (pd pc0)), _, 0, _, _, _, 0, 0, 0, .f32, rfl,
     issues_pd (by decide +kernel), rfl, by decide +kernel, by decide +kernel, by decide +kernel, by decide +kernel⟩,
   ⟨st (pw (.stream 2 (2 : RegNo) (3 : RegNo) (4 : RegNo) (.f32 : VTy)) (pd pcE)), _, 0, _, _, _, 2, 3, 4, .f32, .clean, _, _,
     _, _, _, _, pcE, rfl, issues_pd (by decide +kernel), rfl, by decide +kernel, by decide +kernel, rfl, by decide +kernel,
     by decide +kernel, by decide +kernel, pairOk (by decide +kernel), pairOk (by decide +kernel),
     elemNext (by decide +kernel), by decide +kernel⟩,
   ⟨st (pw (.stream 3 (0 : RegNo) 0 (0 : RegNo) (.f32 : VTy)) (pd pc0)), _, 0, _, _, _, 0, 0, .f32, rfl,
     issues_pd (by decide +kernel), rfl, by decide +kernel, by decide +kernel, by decide +kernel, by decide +kernel⟩,
   ⟨st (pw (.stream 3 (2 : RegNo) 0 (4 : RegNo) (.f32 : VTy)) (pd pcE)), _, 0, _, _, _, 2, 4, .f32, .clean, _, _, _, _, pcE,
     rfl, issues_pd (by decide +kernel), rfl, by decide +kernel, by decide +kernel, rfl, by decide +kernel, by decide +kernel,
     pairOk (by decide +kernel), elemNext (by decide +kernel), by decide +kernel⟩⟩

/-- The clauses of PagesAndFlow. -/
theorem test_meets_PageInstructions_1 :
    (∃ (s : State) (d : Dev) (n : CoreNo) (w : Nat) (d' : Dev) (c : Core) (rd rs rt : RegNo) (c0 c2 : Core) (d2 : Dev),
      d = start s ∧ Issues n d w d' ∧ c = coreOf n d ∧ c.x.lvl ≠ .u ∧ rd.val ≠ 0 ∧ rs.val ≠ 0 ∧ rt.val ≠ 0 ∧ rd ≠ rs ∧
      rd ≠ rt ∧ rs ≠ rt ∧ (c.get rs).toNat % 4096 = 0 ∧ c0 = (if c.x.residx = 0 then c.put rd 0 else c) ∧
      ¬ (c.get rt).toNat ≤ c0.x.residx ∧ relPage rd (c.get rs).toNat (c.get rt).toNat c0 d' = .next c2 d2 ∧
      (c.get rt).toNat ≤ c2.x.residx ∧ reads (.d 0x32 0 [(21, 5, rd), (16, 5, rs)]) w = true) ∧
    (∃ (s : State) (d : Dev) (n : CoreNo) (w : Nat) (d' : Dev) (c : Core) (rd rs : RegNo), d = start s ∧ Issues n d w d' ∧
      c = coreOf n d ∧ c.x.lvl = .u ∧ reads (.d 0x32 0 [(21, 5, rd), (16, 5, rs)]) w = true) ∧
    (∃ (s : State) (d : Dev) (n : CoreNo) (w : Nat) (d' : Dev) (c : Core) (rd rs rt : RegNo) (c0 c2 : Core) (d2 : Dev),
      d = start s ∧ Issues n d w d' ∧ c = coreOf n d ∧ c.x.lvl ≠ .u ∧ rd.val ≠ 0 ∧ rs.val ≠ 0 ∧ rt.val ≠ 0 ∧ rd ≠ rs ∧
      rd ≠ rt ∧ rs ≠ rt ∧ (c.get rs).toNat % 4096 = 0 ∧ c0 = (if c.x.residx = 0 then c.put rd 0 else c) ∧
      ¬ (c.get rt).toNat ≤ c0.x.residx ∧ pinPage rd (c.get rs).toNat c0 d' = .next c2 d2 ∧ (c.get rt).toNat ≤ c2.x.residx ∧
      reads (.d 0x32 1 [(21, 5, rd), (16, 5, rs)]) w = true) ∧
    (∃ (s : State) (d : Dev) (n : CoreNo) (w : Nat) (d' : Dev) (c : Core) (rd rs : RegNo), d = start s ∧ Issues n d w d' ∧
      c = coreOf n d ∧ c.x.lvl = .u ∧ reads (.d 0x32 1 [(21, 5, rd), (16, 5, rs)]) w = true) :=
  ⟨⟨st (pw (.d 0x32 0 [(21, 5, (1 : RegNo)), (16, 5, (2 : RegNo))]) (pdU pcP)), _, 0, _, _, _, 1, 2, 3, _, _, _, rfl,
     issues_pd (by decide +kernel), rfl, by decide +kernel, by decide +kernel, by decide +kernel, by decide +kernel,
     by decide +kernel, by decide +kernel, by decide +kernel, by decide +kernel, rfl, by decide +kernel,
     pageNext (by decide +kernel), by decide +kernel, by decide +kernel⟩,
   ⟨st (pw (.d 0x32 0 [(21, 5, (0 : RegNo)), (16, 5, (0 : RegNo))]) (pdU pcU)), _, 0, _, _, _, 0, 0, rfl,
     issues_pd (by decide +kernel), rfl, by decide +kernel, by decide +kernel⟩,
   ⟨st (pw (.d 0x32 1 [(21, 5, (1 : RegNo)), (16, 5, (2 : RegNo))]) (pdU pcP)), _, 0, _, _, _, 1, 2, 3, _, _, _, rfl,
     issues_pd (by decide +kernel), rfl, by decide +kernel, by decide +kernel, by decide +kernel, by decide +kernel,
     by decide +kernel, by decide +kernel, by decide +kernel, by decide +kernel, rfl, by decide +kernel,
     pageNext (by decide +kernel), by decide +kernel, by decide +kernel⟩,
   ⟨st (pw (.d 0x32 1 [(21, 5, (0 : RegNo)), (16, 5, (0 : RegNo))]) (pdU pcU)), _, 0, _, _, _, 0, 0, rfl,
     issues_pd (by decide +kernel), rfl, by decide +kernel, by decide +kernel⟩⟩

/-- The clauses of PagesAndFlow. -/
theorem test_meets_PageInstructions_2 :
    (∃ (s : State) (d : Dev) (n : CoreNo) (w : Nat) (d' : Dev) (c : Core) (rd rs rt : RegNo) (c0 c2 : Core) (d2 : Dev),
      d = start s ∧ Issues n d w d' ∧ c = coreOf n d ∧ c.x.lvl ≠ .u ∧ rd.val ≠ 0 ∧ rs.val ≠ 0 ∧ rt.val ≠ 0 ∧ rd ≠ rs ∧
      rd ≠ rt ∧ rs ≠ rt ∧ (c.get rs).toNat % 4096 = 0 ∧ c0 = (if c.x.residx = 0 then c.put rd 0 else c) ∧
      ¬ (c.get rt).toNat ≤ c0.x.residx ∧ unpinPage rd (c.get rs).toNat c0 d' = .next c2 d2 ∧ (c.get rt).toNat ≤ c2.x.residx ∧
      reads (.d 0x32 2 [(21, 5, rd), (16, 5, rs)]) w = true) ∧
    (∃ (s : State) (d : Dev) (n : CoreNo) (w : Nat) (d' : Dev) (c : Core) (rd rs : RegNo), d = start s ∧ Issues n d w d' ∧
      c = coreOf n d ∧ c.x.lvl = .u ∧ reads (.d 0x32 2 [(21, 5, rd), (16, 5, rs)]) w = true) :=
  ⟨⟨st (pw (.d 0x32 2 [(21, 5, (1 : RegNo)), (16, 5, (2 : RegNo))]) (pdU pcP)), _, 0, _, _, _, 1, 2, 3, _, _, _, rfl,
     issues_pd (by decide +kernel), rfl, by decide +kernel, by decide +kernel, by decide +kernel, by decide +kernel,
     by decide +kernel, by decide +kernel, by decide +kernel, by decide +kernel, rfl, by decide +kernel,
     pageNext (by decide +kernel), by decide +kernel, by decide +kernel⟩,
   ⟨st (pw (.d 0x32 2 [(21, 5, (0 : RegNo)), (16, 5, (0 : RegNo))]) (pdU pcU)), _, 0, _, _, _, 0, 0, rfl,
     issues_pd (by decide +kernel), rfl, by decide +kernel, by decide +kernel⟩⟩

/-- The clauses of PagesAndFlow. -/
theorem test_meets_FlowInstructions_1 :
    (∃ (s : State) (d : Dev) (n : CoreNo) (w : Nat) (d' : Dev) (c : Core) (rd rs : RegNo) (d2 : Dev), d = start s ∧
      Issues n d w d' ∧ c = coreOf n d ∧ c.eact = false ∧ runs SCHi d' = true ∧ ahead (2 + n) s.pending = false ∧
      readyReq ((c.get rs).toNat % 2 ^ 32) c.x.lvl d' = (some dfOk, d2) ∧ reads (.d 0x33 0 [(21, 5, rd), (16, 5,
      rs)]) w = true) ∧
    (∃ (s : State) (d : Dev) (n : CoreNo) (w : Nat) (d' : Dev) (c : Core) (rd rs : RegNo), d = start s ∧ Issues n d w d' ∧
      c = coreOf n d ∧ c.eact = false ∧ runs SCHi d' = true ∧ ahead (2 + n) s.pending = true ∧ reads (.d 0x33 0 [(21, 5, rd),
      (16, 5, rs)]) w = true) ∧
    (∃ (s : State) (d : Dev) (n : CoreNo) (w : Nat) (d' : Dev) (c : Core) (rd rs : RegNo) (slot : Fin 16) (d2 : Dev),
      d = start s ∧ Issues n d w d' ∧ c = coreOf n d ∧ c.eact = false ∧ runs SCHi d' = true ∧
      ahead (2 + n) s.pending = false ∧ postReq ((c.get rs).toNat % 2 ^ 32) slot (c.get rd) c.x.lvl d' = (some dfOk, d2) ∧
      reads (.d 0x33 1 [(21, 5, rd), (16, 5, rs), (0, 4, slot)]) w = true) ∧
    (∃ (s : State) (d : Dev) (n : CoreNo) (w : Nat) (d' : Dev) (c : Core) (rd rs : RegNo) (slot : Fin 16), d = start s ∧
      Issues n d w d' ∧ c = coreOf n d ∧ c.eact = false ∧ runs SCHi d' = true ∧ ahead (2 + n) s.pending = true ∧
      reads (.d 0x33 1 [(21, 5, rd), (16, 5, rs), (0, 4, slot)]) w = true) :=
  ⟨⟨st (pw (.d 0x33 0 [(21, 5, (0 : RegNo)), (16, 5, (0 : RegNo))]) (gd 0 0 pc0)), _, 0, _, _, _, 0, 0, _, rfl,
     issues_pd (by decide +kernel), rfl, by decide +kernel, by decide +kernel, by decide +kernel, pairEq (by decide +kernel),
     by decide +kernel⟩,
   ⟨{ st (pw (.d 0x33 0 [(21, 5, (0 : RegNo)), (16, 5, (0 : RegNo))]) (gd 0 0 pc0)) with pending := [.eventToken .clean] }, _,
     0, _, _, _, 0, 0, rfl, issues_pd (by decide +kernel), rfl, by decide +kernel, by decide +kernel, by decide +kernel,
     by decide +kernel⟩,
   ⟨st (pw (.d 0x33 1 [(21, 5, (0 : RegNo)), (16, 5, (0 : RegNo)), (0, 4, (0 : Fin 16))]) (gd 0 0 pc0)), _, 0, _, _, _, 0, 0,
     0, _, rfl, issues_pd (by decide +kernel), rfl, by decide +kernel, by decide +kernel, by decide +kernel,
     pairEq (by decide +kernel), by decide +kernel⟩,
   ⟨{ st (pw (.d 0x33 1 [(21, 5, (0 : RegNo)), (16, 5, (0 : RegNo)), (0, 4,
     (0 : Fin 16))]) (gd 0 0 pc0)) with pending := [.dfdone 1 2] }, _, 0, _, _, _, 0, 0, 0, rfl,
     issues_pd (by decide +kernel), rfl, by decide +kernel, by decide +kernel, by decide +kernel, by decide +kernel⟩⟩

/-- The clauses of PagesAndFlow. -/
theorem test_meets_FlowInstructions_2 :
    (∃ (s : State) (d : Dev) (n : CoreNo) (w : Nat) (d' : Dev) (c : Core) (rd rs : RegNo) (d2 : Dev), d = start s ∧
      Issues n d w d' ∧ c = coreOf n d ∧ c.eact = false ∧ runs SCHi d' = true ∧ ahead cancelRank s.pending = false ∧
      cancelReq ((c.get rs).toNat % 2 ^ 32) c.x.lvl d' = (dfOk, d2) ∧ (coreOf n (serveStalls d2)).entry = c.entry ∧
      reads (.d 0x33 2 [(21, 5, rd), (16, 5, rs)]) w = true) ∧
    (∃ (s : State) (d : Dev) (n : CoreNo) (w : Nat) (d' : Dev) (c : Core) (rd rs : RegNo) (h : Nat), d = start s ∧
      Issues n d w d' ∧ c = coreOf n d ∧ c.eact = false ∧ runs SCHi d' = true ∧ ahead cancelRank s.pending = true ∧
      h = (c.get rs).toNat % 2 ^ 32 ∧ reads (.d 0x33 2 [(21, 5, rd), (16, 5, rs)]) w = true) ∧
    (∃ (s : State) (d : Dev) (n : CoreNo) (w : Nat) (d' : Dev) (c : Core) (rs : RegNo) (d2 : Dev), d = start s ∧
      Issues n d w d' ∧ c = coreOf n d ∧ c.eact = false ∧ runs SCHi d' = true ∧ c.x.lkcnt = 0 ∧
      doneReq n (c.get rs) (coreSet n { c.endNp d'.raw with iret := c.iret + 1 } d') = (true, d2) ∧ reads (.d 0x34 0 [(16, 5,
      rs)]) w = true) ∧
    (∃ (s : State) (d : Dev) (n : CoreNo) (w : Nat) (d' : Dev) (c : Core) (rs : RegNo), d = start s ∧ Issues n d w d' ∧
      c = coreOf n d ∧ c.eact = false ∧ runs SCHi d' = true ∧ 0 < c.x.lkcnt ∧ reads (.d 0x34 0 [(16, 5, rs)]) w = true) :=
  ⟨⟨st (pw (.d 0x33 2 [(21, 5, (0 : RegNo)), (16, 5, (0 : RegNo))]) (gd 0 1 pc0)), _, 0, _, _, _, 0, 0, _, rfl,
     issues_pd (by decide +kernel), rfl, by decide +kernel, by decide +kernel, by decide +kernel, pairEq (by decide +kernel),
     by decide +kernel, by decide +kernel⟩,
   ⟨{ st (pw (.d 0x33 2 [(21, 5, (0 : RegNo)), (16, 5, (0 : RegNo))]) (gd 0 1 pc0)) with pending := [.dfready 3 1 2] }, _, 0,
     _, _, _, 0, 0, _, rfl, issues_pd (by decide +kernel), rfl, by decide +kernel, by decide +kernel, by decide +kernel, rfl,
     by decide +kernel⟩,
   ⟨st (pw (.d 0x34 0 [(16, 5, (0 : RegNo))]) (pd pc0)), _, 0, _, _, _, 0, _, rfl, issues_pd (by decide +kernel), rfl,
     by decide +kernel, by decide +kernel, by decide +kernel, pairEq (by decide +kernel), by decide +kernel⟩,
   ⟨st (pw (.d 0x34 0 [(16, 5, (0 : RegNo))]) (pd { pc0 with x := { pc := 0, lkcnt := 1 } })), _, 0, _, _, _, 0, rfl,
     issues_pd (by decide +kernel), rfl, by decide +kernel, by decide +kernel, by decide +kernel, by decide +kernel⟩⟩

/-- The clauses of PagesAndFlow. -/
theorem test_meets_FlowInstructions_3 :
    (∃ (s : State) (d : Dev) (n : CoreNo) (w : Nat) (d' : Dev) (c : Core), d = start s ∧ Issues n d w d' ∧ c = coreOf n d ∧
      c.eact = false ∧ runs SCHi d' = true ∧ c.x.lkcnt = 0 ∧ canYield n d' = true ∧ cancelPend n d' = false ∧
      reads (.d 0x34 1 []) w = true) ∧
    (∃ (s : State) (d : Dev) (n : CoreNo) (w : Nat) (d' : Dev) (c : Core) (rd rs : RegNo), d = start s ∧ Issues n d w d' ∧
      c = coreOf n d ∧ c.eact = true ∧ reads (.d 0x33 0 [(21, 5, rd), (16, 5, rs)]) w = true) :=
  ⟨⟨st (pw (.d 0x34 1 []) yd), _, 0, _, _, _, rfl, issues_pd (by decide +kernel), rfl, by decide +kernel, by decide +kernel,
     by decide +kernel, by decide +kernel, by decide +kernel, by decide +kernel⟩,
   ⟨st (pw (.d 0x33 0 [(21, 5, (0 : RegNo)), (16, 5, (0 : RegNo))]) (pd { pc0 with em := { eact := true } })), _, 0, _, _, _,
     0, 0, rfl, issues_pd (by decide +kernel), rfl, by decide +kernel, by decide +kernel⟩⟩

/-- The clauses of MemoryUnits. -/
theorem test_meets_FramePool_1 :
    (∃ (s : State) (d : Dev) (w : Who) (x : Dev), d = start s ∧ isUp MEMi d ∧ atS w = true ∧
      x = unheld (winBase MEMi + 0x40) d ∧ x.mem.inval < 8) ∧
    (∃ (s : State) (d : Dev) (w : Who), d = start s ∧ isUp MEMi d ∧ atM w = true ∧ on MEM.MEMCTL.POOLEN d = false) ∧
    (∃ (s : State) (d : Dev) (w : Who), d = start s ∧ isUp MEMi d ∧ atM w = true) ∧
    (∃ (s : State) (d : Dev), d = start s ∧ isUp MEMi d ∧ on MEM.MEMSTAT.SWEEP d = true) :=
  ⟨⟨st up, _, ⟨0, .m⟩, _, rfl, by decide +kernel, by decide +kernel, rfl, by decide +kernel⟩,
   ⟨st (wrB MEM.MEMCTL.POOLEN false up), _, ⟨0, .m⟩, rfl, by decide +kernel, by decide +kernel, by decide +kernel⟩,
   ⟨st up, _, ⟨0, .m⟩, rfl, by decide +kernel, by decide +kernel⟩,
   ⟨st (wrB MEM.MEMSTAT.SWEEP true up), _, rfl, by decide +kernel, by decide +kernel⟩⟩

/-- The clauses of MemoryUnits. -/
theorem test_meets_FramePool_2 :
    (∃ (s : State) (d : Dev) (w : Who) (f : Nat), d = start s ∧ isUp MEMi d ∧ atS w = true ∧ pickBlock 1 d = some f) ∧
    (∃ (s : State) (d : Dev) (f : BitVec 28) (w : Who), d = start s ∧ isUp MEMi d ∧ atS w = true ∧ f.toNat < frames ∧
      (ftState (ftGet f.toNat d) = fOther ∨ ftState (ftGet f.toNat d) = fMapped)) ∧
    (∃ (s : State) (d : Dev) (w : Who), d = start s ∧ isUp MEMi d ∧ atS w = true) ∧
    (∃ (s : State) (d : Dev), d = start s ∧ isUp MEMi d ∧ on MEM.MEMCTL.SCRUBEN d = true ∧
      d.mem.scrubAt + scrubGap d ≤ d.raw) :=
  ⟨⟨st up, _, ⟨0, .m⟩, _, rfl, by decide +kernel, by decide +kernel, pickBlock_first (by decide +kernel)⟩,
   ⟨st (dramWrite 0 [3] up), _, 0, ⟨0, .m⟩, rfl, by decide +kernel, by decide +kernel, by decide +kernel, by decide +kernel⟩,
   ⟨st up, _, ⟨0, .m⟩, rfl, by decide +kernel, by decide +kernel⟩,
   ⟨st (wrB MEM.MEMCTL.SCRUBEN true { up with raw := 2 ^ 40 }), _, rfl, by decide +kernel, by decide +kernel,
     by decide +kernel⟩⟩

/-- The clauses of MemoryUnits. -/
theorem test_meets_DmaChannels_1 :
    (∃ (s : State) (d : Dev) (c : Fin 32) (level : Fin 4) (w : Who), d = start s ∧ isUp MEMi d ∧ atS w = true ∧
      chOpen c d = true ∧ level.val ≤ w.lvl.num ∧ level.val < 3) ∧
    (∃ (s : State) (d : Dev) (c : Fin 32) (x : Desc) (d1 : Dev), d = start s ∧ isUp MEMi d ∧
      Sys2Proof.Machine.rd (MEM.CHSTAT.STATE c) d = chRun ∧ chDesc s.fuses c d = (some x, d1)) ∧
    (∃ (s : State) (d : Dev) (c : Fin 32) (at_ : W32) (wr_ : Bool) (x : Desc) (d1 d2 : Dev) (y : Bool), d = start s ∧
      isUp MEMi d ∧ Sys2Proof.Machine.rd (MEM.CHSTAT.STATE c) d = chRun ∧ chDesc s.fuses c d = (some x, d1) ∧
      at_.toNat < x.len ∧ Sys2Proof.Machine.rd (MEM.CHDONE c) d1 ≤ at_.toNat ∧ (chanOf_ c d1).skip = false ∧
      d2 = dmaUntil s.fuses (fun k => if k = c then some at_.toNat else
      none) (fun y => !(Sys2Proof.Machine.rd (MEM.CHSTAT.STATE c) y == chRun && !decide (at_.toNat ≤ Sys2Proof.Machine.rd
      (MEM.CHDONE c) y))) (roundsFor d1) d1 ∧ Sys2Proof.Machine.rd (MEM.CHSTAT.STATE c) d2 = chRun ∧
      Sys2Proof.Machine.rd (MEM.CHDONE c) d2 = at_.toNat ∧ hostWaits c x d2 = false ∧
      (y = (if x.op = 1 ∨ x.op = 2 then true else if x.op = 3 then false else wr_))) ∧
    (∃ (s : State) (d : Dev) (c : Fin 32) (at_ : W32) (wr_ : Bool) (x : Desc) (d1 d2 : Dev) (y : Bool), d = start s ∧
      isUp MEMi d ∧ Sys2Proof.Machine.rd (MEM.CHSTAT.STATE c) d = chRun ∧ chDesc s.fuses c d = (some x, d1) ∧
      at_.toNat < x.len ∧ Sys2Proof.Machine.rd (MEM.CHDONE c) d1 ≤ at_.toNat ∧ (chanOf_ c d1).skip = false ∧ 2 ≤ x.op ∧
      d2 = dmaUntil s.fuses (fun k => if k = c then some at_.toNat else
      none) (fun y => !(Sys2Proof.Machine.rd (MEM.CHSTAT.STATE c) y == chRun && !decide (at_.toNat ≤ Sys2Proof.Machine.rd
      (MEM.CHDONE c) y))) (roundsFor d1) d1 ∧ Sys2Proof.Machine.rd (MEM.CHSTAT.STATE c) d2 = chRun ∧
      Sys2Proof.Machine.rd (MEM.CHDONE c) d2 = at_.toNat ∧ hostWaits c x d2 = false ∧
      (y = (if x.op = 1 ∨ x.op = 2 then true else if x.op = 3 then false else wr_))) :=
  ⟨⟨st up, _, 0, 0, ⟨0, .m⟩, rfl, by decide +kernel, by decide +kernel, by decide +kernel, by decide +kernel,
     by decide +kernel⟩,
   ⟨st (dm 0), _, 0, _, _, rfl, by decide +kernel, by decide +kernel, pairSome (by decide +kernel)⟩,
   ⟨st (dm 0), _, 0, 7, false, _, _, _, _, rfl, by decide +kernel, by decide +kernel, pairSome (by decide +kernel),
     by decide +kernel, by decide +kernel, by decide +kernel, rfl, by decide +kernel, by decide +kernel, by decide +kernel,
     rfl⟩,
   ⟨st (dm 2), _, 0, 0, false, _, _, _, _, rfl, by decide +kernel, by decide +kernel, pairSome (by decide +kernel),
     by decide +kernel, by decide +kernel, by decide +kernel, by decide +kernel, rfl, by decide +kernel, by decide +kernel,
     by decide +kernel, rfl⟩⟩

/-- The clauses of MemoryUnits. -/
theorem test_meets_DmaChannels_2 :
    (∃ (s : State) (d : Dev) (c : Fin 32), d = start s ∧ isUp MEMi d ∧ Sys2Proof.Machine.rd (MEM.CHSTAT.STATE c) d = chRun ∧
      (chanOf_ c d).desc = none) ∧
    (∃ (s : State) (d : Dev) (c : Fin 32) (w : Who), d = start s ∧ isUp MEMi d ∧ atS w = true ∧
      s.pending.any (aborts c) = false ∧ Sys2Proof.Machine.rd (MEM.CHSTAT.STATE c) d = chParked) ∧
    (∃ (s : State) (d : Dev) (c : Fin 32), d = start s ∧ s.pending.any (aborts c) = true) ∧
    (∃ (s : State) (d : Dev) (c : Fin 32) (w : Who) (x : Desc), d = start s ∧ isUp MEMi d ∧ atS w = true ∧
      Sys2Proof.Machine.rd (MEM.CHSTAT.STATE c) d = chParked ∧ (chanOf_ c d).desc = some x) :=
  ⟨⟨st (wr (MEM.CHSTAT.STATE 0) 1 up), _, 0, rfl, by decide +kernel, by decide +kernel, by decide +kernel⟩,
   ⟨st (wr (MEM.CHSTAT.STATE 0) 2 up), _, 0, ⟨0, .m⟩, rfl, by decide +kernel, by decide +kernel, by decide +kernel,
     by decide +kernel⟩,
   ⟨{ st up with pending := [.dmaAbort 0 ⟨0, .m⟩] }, _, 0, rfl, by decide +kernel⟩,
   ⟨st (wr (MEM.CHSTAT.STATE 0) 2 (dm 0)), _, 0, ⟨0, .m⟩, _, rfl, by decide +kernel, by decide +kernel, by decide +kernel,
     someGet (by decide +kernel)⟩⟩

/-- The clauses of MemoryUnits. -/
theorem test_meets_DmaChannels_3 :
    (∃ (s : State) (d : Dev) (c : Fin 32) (w : Who), d = start s ∧ isUp MEMi d ∧ atS w = true ∧
      Sys2Proof.Machine.rd (MEM.CHSTAT.STATE c) d = chParked ∧ (chanOf_ c d).desc = none) ∧
    (∃ (s : State) (d : Dev) (c : Fin 32) (w : Who), d = start s ∧ isUp MEMi d ∧ atS w = true ∧
      (Sys2Proof.Machine.rd (MEM.CHSTAT.STATE c) d = chParked ∨ Sys2Proof.Machine.rd (MEM.CHSTAT.STATE c) d = chRun)) :=
  ⟨⟨st (wr (MEM.CHSTAT.STATE 0) 2 up), _, 0, ⟨0, .m⟩, rfl, by decide +kernel, by decide +kernel, by decide +kernel,
     by decide +kernel⟩,
   ⟨st (wr (MEM.CHSTAT.STATE 0) 2 up), _, 0, ⟨0, .m⟩, rfl, by decide +kernel, by decide +kernel, by decide +kernel⟩⟩

/-- The clauses of MonitorsRun. -/
theorem test_meets_Monitors_1 :
    (∃ (s : State) (d : Dev) (b : Fin 32) (w : Who) (f : Fld), d = start s ∧ isUp SECi d ∧ atM w = true ∧ critBit b = some f ∧
      on f d = true ∧ critCause b d = false ∧ tget d.sec.critRaw b 0 + rawPerS ≤ d.raw) ∧
    (∃ (s : State) (d : Dev) (isl : Fin 9), d = start s ∧ isUp AONi d ∧ isl.val ≠ 0 ∧ tget d.isl isl.val .off ≠ .off) ∧
    (∃ (s : State) (d : Dev) (isl : Fin 9), d = start s ∧ isUp AONi d ∧ isl.val ≠ 0 ∧ tget d.isl isl.val .off ≠ .off ∧
      bit (tget d.aon.holds isl.val 0) 1 = true) ∧
    (∃ (s : State) (d : Dev), d = start s ∧ isUp AONi d) :=
  ⟨⟨st (wrB SEC.CRITSTAT.CLOCK true { up with raw := 26000000 }), _, 5, ⟨0, .m⟩, SEC.CRITSTAT.CLOCK, rfl, by decide +kernel,
     rfl, by decide +kernel, by decide +kernel, by decide +kernel, by decide +kernel⟩,
   ⟨st up, _, 1, rfl, by decide +kernel, by decide +kernel, by decide +kernel⟩,
   ⟨st { up with aon := { up.aon with holds := [(1, 2)] } }, _, 1, rfl, by decide +kernel, by decide +kernel,
     by decide +kernel, by decide +kernel⟩,
   ⟨st up, _, rfl, by decide +kernel⟩⟩

/-- The clauses of MonitorsRun. -/
theorem test_meets_Monitors_2 :
    (∃ (s : State) (d : Dev), d = start s ∧ isUp AONi d ∧ d.aon.power = .run ∧ bit (tget d.aon.holds 1 0) 4 = false) ∧
    (∃ (s : State) (d : Dev), d = start s ∧ isUp AONi d ∧ d.aon.power = .run ∧ bit (tget d.aon.holds 1 0) 4 = true) :=
  ⟨⟨st { up with aon := { up.aon with power := .run } }, _, rfl, by decide +kernel, by decide +kernel, by decide +kernel⟩,
   ⟨st { up with aon := { up.aon with power := .run, holds := [(1, 16)] } }, _, rfl, by decide +kernel, by decide +kernel,
     by decide +kernel⟩⟩

/-- The clauses of RingRuns. -/
theorem test_meets_RingCycles_1 :
    (∃ (s : State) (d : Dev), d = start s ∧ isUp NETi d ∧ on NET.NETCTL.RINGEN d = true) ∧
    (∃ (s : State) (d : Dev), d = start s ∧ isUp AONi d) ∧
    (∃ (s : State) (d : Dev) (f : PortFrame), d = start s ∧ f.etype = 0x88B5 ∧ isUp NETi d ∧ on NET.NETCTL.RINGEN d = true ∧
      on NET.NETCTL.CYCEN d = true) ∧
    (∃ (s : State) (d : Dev) (f : PortFrame), d = start s ∧ f.etype ≠ 0x88B5) :=
  ⟨⟨st (wrB NET.NETCTL.RINGEN true up), _, rfl, by decide +kernel, by decide +kernel⟩,
   ⟨st up, _, rfl, by decide +kernel⟩,
   ⟨st (wrB NET.NETCTL.CYCEN true (wrB NET.NETCTL.RINGEN true up)), _, ⟨0, 0, 0, 0x88B5, []⟩, rfl, by decide +kernel,
     by decide +kernel, by decide +kernel, by decide +kernel⟩,
   ⟨st up, _, ⟨0, 0, 0, 0, []⟩, rfl, by decide +kernel⟩⟩

/-- The clauses of RingRuns. -/
theorem test_meets_RingCycles_2 :
    (∃ (s : State) (d : Dev), d = start s ∧ isUp NETi d ∧ d.net.isOpen = true) ∧
    (∃ (s : State) (d : Dev), d = start s ∧ isUp NETi d ∧ on NET.RINGSTAT.MOSS d = true) :=
  ⟨⟨st { up with net := { up.net with isOpen := true } }, _, rfl, by decide +kernel, by decide +kernel⟩,
   ⟨st (wrB NET.RINGSTAT.MOSS true up), _, rfl, by decide +kernel, by decide +kernel⟩⟩

/-- The clauses of RingRuns. -/
theorem test_meets_RingControl_1 :
    (∃ (s : State) (d : Dev) (w : Who), d = start s ∧ isUp NETi d ∧ atS w = true ∧ on NET.NETCTL.CYCEN d = false ∧
      cycFits d = true) ∧
    (∃ (s : State) (d : Dev) (w : Who), d = start s ∧ isUp NETi d ∧ atS w = true ∧ on NET.NETCTL.CYCEN d = false ∧
      cycFits d = false) ∧
    (∃ (s : State) (d : Dev) (w : Who), d = start s ∧ isUp NETi d ∧ atS w = true) ∧
    (∃ (s : State) (d : Dev) (w : Who), d = start s ∧ isUp NETi d ∧ atS w = true ∧ on NET.NETCTL.RINGEN d = false) :=
  ⟨⟨st (wrB NET.NETCTL.CYCEN false up), _, ⟨0, .m⟩, rfl, by decide +kernel, by decide +kernel, by decide +kernel,
     by decide +kernel⟩,
   ⟨st (wrB NET.NETCTL.CYCEN false (wr NET.CYCCFG.NMEM 48 (wr NET.CYCCFG.CYCT 0 up))), _, ⟨0, .m⟩, rfl, by decide +kernel,
     by decide +kernel, by decide +kernel, by decide +kernel⟩,
   ⟨st up, _, ⟨0, .m⟩, rfl, by decide +kernel, by decide +kernel⟩,
   ⟨st (wrB NET.NETCTL.RINGEN false up), _, ⟨0, .m⟩, rfl, by decide +kernel, by decide +kernel, by decide +kernel⟩⟩

/-- The clauses of RingRuns. -/
theorem test_meets_RingControl_2 :
    (∃ (s : State) (d : Dev) (w : Who), d = start s ∧ isUp NETi d ∧ atS w = true ∧ on NET.NETCTL.RINGEN d = true) ∧
    (∃ (s : State) (d : Dev), d = start s ∧ isUp NETi d) ∧
    (∃ (s : State) (d : Dev) (p : Packet), d = start s ∧ isUp NETi d ∧ hwPeek 30 d = some p ∧ p.ecc ≠ .double) ∧
    (∃ (s : State) (d : Dev) (p : Packet), d = start s ∧ isUp NETi d ∧ hwPeek 30 d = some p ∧ p.ecc = .double) :=
  ⟨⟨st (wrB NET.NETCTL.RINGEN true up), _, ⟨0, .m⟩, rfl, by decide +kernel, by decide +kernel, by decide +kernel⟩,
   ⟨st up, _, rfl, by decide +kernel⟩,
   ⟨st (q1 30 [0, 0] up), _, (pk [0, 0]), rfl, by decide +kernel, by decide +kernel, by decide +kernel⟩,
   ⟨st (qSet 30 { pkts := [{ items := [0, 0], shown := true, ecc := .double }] } up), _, _, rfl, by decide +kernel,
     someGet (by decide +kernel), by decide +kernel⟩⟩

/-- The clauses of RingRuns. -/
theorem test_meets_RingControl_3 :
    (∃ (s : State) (d : Dev), d = start s ∧ isUp NETi d ∧ on NET.NETCTL.RINGEN d = true) ∧
    (∃ (s : State) (d : Dev) (f : PortFrame), d = start s ∧ isUp NETi d ∧ f.etype = 0x88B5 ∧ d.net.annDone = 0 ∧
      on NET.NETCTL.RINGEN d = true ∧ ofBe (sub (f.body.map BitVec.toNat) 0 2) = 6 ∧ 8 ≤ f.body.length ∧ f.port = 0) ∧
    (∃ (s : State) (d : Dev) (f : PortFrame), d = start s ∧ isUp NETi d ∧ f.etype = 0x88B5 ∧ f.port = 1) :=
  ⟨⟨st (wrB NET.NETCTL.RINGEN true up), _, rfl, by decide +kernel, by decide +kernel⟩,
   ⟨st (wrB NET.NETCTL.RINGEN true up), _, ⟨0, 0, 0, 0x88B5, [0, 6, 0, 0, 0, 0, 0, 0]⟩, rfl, by decide +kernel,
     by decide +kernel, by decide +kernel, by decide +kernel, by decide +kernel, by decide +kernel, by decide +kernel⟩,
   ⟨st up, _, ⟨1, 0, 0, 0x88B5, []⟩, rfl, by decide +kernel, by decide +kernel, by decide +kernel⟩⟩

/-- The clauses of RegistersByAddress. -/
theorem test_meets_RegisterAccess_1 :
    (∃ (s : State) (d : Dev) (a : BitVec 40) (v : W32) (w : Who) (y : Dev), d = start s ∧
      mmioWrite s.fuses w 4 a.toNat v.toNat (ties s.pending d) = some y) ∧
    (∃ (s : State) (d : Dev) (a : BitVec 40) (v : W32) (w : Who) (x : Dev), d = start s ∧ x = ties s.pending d ∧
      mmioWrite s.fuses w 4 a.toNat v.toNat x = none) ∧
    (∃ (s : State) (d : Dev) (a : BitVec 40) (w : Who) (y : Dev), d = start s ∧ mmioRead s.fuses w 4 a.toNat d = some y) ∧
    (∃ (s : State) (d : Dev) (a : BitVec 40) (w : Who), d = start s ∧ mmioRead s.fuses w 4 a.toNat d = none) :=
  ⟨⟨st up, _, 0xF000000000, 0, ⟨0, .m⟩, _, rfl, someGet (by decide +kernel)⟩,
   ⟨st up, _, 0xFE00000000, 0, ⟨0, .m⟩, _, rfl, rfl, by decide +kernel⟩,
   ⟨st up, _, 0xF000000000, ⟨0, .m⟩, _, rfl, someGet (by decide +kernel)⟩,
   ⟨st up, _, 0xFE00000000, ⟨0, .m⟩, rfl, by decide +kernel⟩⟩

/-- The clauses of RegistersByAddress. -/
theorem test_meets_RegisterAccess_2 :
    ∃ (s : State) (d : Dev) (f : Fin 16) (r : Nat), d = start s ∧ r = ferryRecv f (ferryOf f d).hdr.toNat d ∧
      batchWaits r f d = true ∧ d.batchDue.contains r = true ∧ isUp (recvIsl r) d = true :=
  ⟨st (wr (FERRY.FCFG.RECEIVER 8) 8 (wr (BELL.DBMASK 8) 0 { ferrySet 8 { full := true } up with batchDue := [8] })), _, 8, _,
     rfl, rfl, by decide +kernel, by decide +kernel, by decide +kernel⟩

/-- The clauses of SchedulerRuns. -/
theorem test_meets_SchedulerEvents_1 :
    (∃ (s : State) (d : Dev) (n : CoreNo), d = start s ∧ runs APPi d = true ∧ runs SCHi d = true ∧
      s.pending.any (fencing d n) = false ∧ (coreOf n d).fatal = false ∧ (coreOf n d).open_ = true) ∧
    (∃ (s : State) (d : Dev) (n : CoreNo), d = start s ∧ s.pending.any (fencing d n) = true) ∧
    (∃ (s : State) (d : Dev), d = start s ∧ runs SCHi d = true ∧ ahead 1 s.pending = false ∧ full d = false) ∧
    (∃ (s : State) (d : Dev), d = start s ∧ runs SCHi d = true ∧ ahead 1 s.pending = true) :=
  ⟨⟨st up, _, 0, rfl, by decide +kernel, by decide +kernel, by decide +kernel, by decide +kernel, by decide +kernel⟩,
   ⟨{ st up with pending := [.cfenceWrite 1 ⟨0, .m⟩] }, _, 0, rfl, by decide +kernel⟩,
   ⟨st up, _, rfl, by decide +kernel, by decide +kernel, by decide +kernel⟩,
   ⟨{ st up with pending := [.dfdone 1 2] }, _, rfl, by decide +kernel, by decide +kernel⟩⟩

/-- The clauses of SchedulerRuns. -/
theorem test_meets_SchedulerEvents_2 :
    (∃ (s : State) (d : Dev) (w : Who), d = start s ∧ isUp SCHi d ∧ atS w = true) ∧
    (∃ (s : State) (d : Dev), d = start s ∧ runs APPi d = true ∧ runs SCHi d = true ∧ choiceWaits s.pending d = false ∧
      on SCH.DFCTL.EN d = true ∧ d.sch.run = true) ∧
    (∃ (s : State) (d : Dev), d = start s ∧ runs APPi d = true ∧ runs SCHi d = true ∧ choiceWaits s.pending d = true) ∧
    (∃ (s : State) (d : Dev) (n : CoreNo), d = start s ∧ runs APPi d = true ∧ runs SCHi d = true ∧ (coreOf n d).run = .idle ∧
      bit (Sys2Proof.Machine.rd SCH.NAPHOLD d) n = false ∧ (coreOf n d).from_ + Sys2Proof.Machine.rd SCH.NAPDLY d * 26 ≤
      d.raw) :=
  ⟨⟨st up, _, ⟨0, .m⟩, rfl, by decide +kernel, by decide +kernel⟩,
   ⟨st (wrB SCH.DFCTL.EN true { up with sch := { up.sch with run := true } }), _, rfl, by decide +kernel, by decide +kernel,
     by decide +kernel, by decide +kernel, by decide +kernel⟩,
   ⟨{ st up with pending := [.cfenceWrite 1 ⟨0, .m⟩] }, _, rfl, by decide +kernel, by decide +kernel, by decide +kernel⟩,
   ⟨st { coreSet 0 { pc0 with run := .idle } up with raw := 2 ^ 40 }, _, 0, rfl, by decide +kernel, by decide +kernel,
     by decide +kernel, by decide +kernel, by decide +kernel⟩⟩

/-- The clauses of SchedulerRuns. -/
theorem test_meets_SchedulerEvents_3 :
    (∃ (s : State) (d : Dev) (n : CoreNo) (r x t : Nat), d = start s ∧ runs APPi d = true ∧ runs SCHi d = true ∧
      (coreOf n d).stall = some (.ready r x t) ∧ t + 52 ≤ d.raw ∧ full d = true) ∧
    (∃ (s : State) (d : Dev) (n : CoreNo) (r x q t : Nat) (v : W64), d = start s ∧ runs APPi d = true ∧ runs SCHi d = true ∧
      (coreOf n d).stall = some (.post r x q v t) ∧ t + 52 ≤ d.raw ∧ full d = true) ∧
    (∃ (s : State) (d : Dev) (w : Who), d = start s ∧ isUp SCHi d ∧ atM w = true) ∧
    (∃ (s : State) (d : Dev), d = start s ∧ runs APPi d = true ∧ runs SCHi d = true ∧ on APP.STCTL.EN d = true ∧
      d.app.stCur = none ∧ d.app.stTry = none ∧ (d.app.stAt.map (· + turnEach)).getD 0 ≤ d.raw) :=
  ⟨⟨st { coreSet 0 { pc0 with stall := some (.ready 0 0 0) } up with raw := 2 ^ 40, sch :=
     { up.sch with ready := List.replicate 1024 { h := 0, pri := 0, aff := 1 } } }, _, 0, 0, 0, 0, rfl, by decide +kernel,
     by decide +kernel, by decide +kernel, by decide +kernel, by decide +kernel⟩,
   ⟨st { coreSet 0 { pc0 with stall := some (.post 0 0 0 0 0) } up with raw := 2 ^ 40, sch :=
     { up.sch with ready := List.replicate 1024 { h := 0, pri := 0, aff := 1 } } }, _, 0, 0, 0, 0, 0, 0, rfl,
     by decide +kernel, by decide +kernel, by decide +kernel, by decide +kernel, by decide +kernel⟩,
   ⟨st up, _, ⟨0, .m⟩, rfl, by decide +kernel, by decide +kernel⟩,
   ⟨st (wrB APP.STCTL.EN true { up with raw := 2 ^ 40 }), _, rfl, by decide +kernel, by decide +kernel, by decide +kernel,
     by decide +kernel, by decide +kernel, by decide +kernel⟩⟩

/-- The clauses of SchedulerRuns. -/
theorem test_meets_SchedulerEvents_4 :
    (∃ (s : State) (d : Dev) (t : Nat), d = start s ∧ runs APPi d = true ∧ runs SCHi d = true ∧ on APP.STCTL.EN d = true ∧
      d.app.stCur = none ∧ d.app.stTry = some t) ∧
    (∃ (s : State) (d : Dev) (n : Nat), d = start s ∧ runs APPi d = true ∧ d.app.stCur = some n) ∧
    (∃ (s : State) (d : Dev) (n : CoreNo), d = start s ∧ canIssue n d = true ∧
      (coreOf n d).nplim < (coreOf n d).npcnt d.raw) :=
  ⟨⟨st (wrB APP.STCTL.EN true { up with app := { up.app with stTry := some 0 } }), _, 0, rfl, by decide +kernel,
     by decide +kernel, by decide +kernel, by decide +kernel, by decide +kernel⟩,
   ⟨st { up with app := { up.app with stCur := some 0 } }, _, _, rfl, by decide +kernel, someGet (by decide +kernel)⟩,
   ⟨st { coreSet 0 { pc0 with np := true } up with raw := 2 ^ 40 }, _, 0, rfl, by decide +kernel, by decide +kernel⟩⟩

/-- The clauses of CycleInstructions. -/
theorem test_meets_CycleArithmetic_1 :
    (∃ (s : State) (d v : Dev) (r : Running) (x a b : Fin 64), d = start s ∧ isUp CTLi d = true ∧ v = fetched r d ∧
      AtOp d r (.fr 0x2 x a b)) ∧
    (∃ (s : State) (d v : Dev) (r : Running) (x a b : Fin 64), d = start s ∧ isUp CTLi d = true ∧ v = fetched r d ∧
      AtOp d r (.fr 0x8 x a b)) ∧
    (∃ (s : State) (d v : Dev) (r : Running) (x a b : Fin 64), d = start s ∧ isUp CTLi d = true ∧ v = fetched r d ∧
      AtOp d r (.fr 0x9 x a b)) ∧
    (∃ (s : State) (d v : Dev) (r : Running) (x a b : Fin 64), d = start s ∧ isUp CTLi d = true ∧ v = fetched r d ∧
      AtOp d r (.fr 0xA x a b)) :=
  ⟨⟨st (cd (.fr 0x2 (0 : Fin 64) (0 : Fin 64) (0 : Fin 64))), _, _, cr (.fr 0x2 (0 : Fin 64) (0 : Fin 64) (0 : Fin 64)), 0, 0,
     0, rfl, by decide +kernel, rfl, ⟨rfl, ⟨_, rfl, by decide +kernel⟩, by decide +kernel⟩⟩,
   ⟨st (cd (.fr 0x8 (0 : Fin 64) (0 : Fin 64) (0 : Fin 64))), _, _, cr (.fr 0x8 (0 : Fin 64) (0 : Fin 64) (0 : Fin 64)), 0, 0,
     0, rfl, by decide +kernel, rfl, ⟨rfl, ⟨_, rfl, by decide +kernel⟩, by decide +kernel⟩⟩,
   ⟨st (cd (.fr 0x9 (0 : Fin 64) (0 : Fin 64) (0 : Fin 64))), _, _, cr (.fr 0x9 (0 : Fin 64) (0 : Fin 64) (0 : Fin 64)), 0, 0,
     0, rfl, by decide +kernel, rfl, ⟨rfl, ⟨_, rfl, by decide +kernel⟩, by decide +kernel⟩⟩,
   ⟨st (cd (.fr 0xA (0 : Fin 64) (0 : Fin 64) (0 : Fin 64))), _, _, cr (.fr 0xA (0 : Fin 64) (0 : Fin 64) (0 : Fin 64)), 0, 0,
     0, rfl, by decide +kernel, rfl, ⟨rfl, ⟨_, rfl, by decide +kernel⟩, by decide +kernel⟩⟩⟩

/-- The clauses of CycleInstructions. -/
theorem test_meets_CycleArithmetic_2 :
    (∃ (s : State) (d v : Dev) (r : Running) (x a b : Fin 64), d = start s ∧ isUp CTLi d = true ∧ v = fetched r d ∧
      AtOp d r (.fr 0xB x a b)) ∧
    (∃ (s : State) (d v : Dev) (r : Running) (x a b : Fin 64), d = start s ∧ isUp CTLi d = true ∧ v = fetched r d ∧
      AtOp d r (.fr 0xC x a b)) ∧
    (∃ (s : State) (d v : Dev) (r : Running) (x a b : Fin 64), d = start s ∧ isUp CTLi d = true ∧ v = fetched r d ∧
      AtOp d r (.fr 0xD x a b)) ∧
    (∃ (s : State) (d v : Dev) (r : Running) (x a b : Fin 64), d = start s ∧ isUp CTLi d = true ∧ v = fetched r d ∧
      AtOp d r (.fr 0xE x a b)) :=
  ⟨⟨st (cd (.fr 0xB (0 : Fin 64) (0 : Fin 64) (0 : Fin 64))), _, _, cr (.fr 0xB (0 : Fin 64) (0 : Fin 64) (0 : Fin 64)), 0, 0,
     0, rfl, by decide +kernel, rfl, ⟨rfl, ⟨_, rfl, by decide +kernel⟩, by decide +kernel⟩⟩,
   ⟨st (cd (.fr 0xC (0 : Fin 64) (0 : Fin 64) (0 : Fin 64))), _, _, cr (.fr 0xC (0 : Fin 64) (0 : Fin 64) (0 : Fin 64)), 0, 0,
     0, rfl, by decide +kernel, rfl, ⟨rfl, ⟨_, rfl, by decide +kernel⟩, by decide +kernel⟩⟩,
   ⟨st (cd (.fr 0xD (0 : Fin 64) (0 : Fin 64) (0 : Fin 64))), _, _, cr (.fr 0xD (0 : Fin 64) (0 : Fin 64) (0 : Fin 64)), 0, 0,
     0, rfl, by decide +kernel, rfl, ⟨rfl, ⟨_, rfl, by decide +kernel⟩, by decide +kernel⟩⟩,
   ⟨st (cd (.fr 0xE (0 : Fin 64) (0 : Fin 64) (0 : Fin 64))), _, _, cr (.fr 0xE (0 : Fin 64) (0 : Fin 64) (0 : Fin 64)), 0, 0,
     0, rfl, by decide +kernel, rfl, ⟨rfl, ⟨_, rfl, by decide +kernel⟩, by decide +kernel⟩⟩⟩

/-- The clauses of CycleInstructions. -/
theorem test_meets_CycleArithmetic_3 :
    (∃ (s : State) (d v : Dev) (r : Running) (x a b : Fin 64), d = start s ∧ isUp CTLi d = true ∧ v = fetched r d ∧
      AtOp d r (.fr 0xF x a b)) ∧
    (∃ (s : State) (d v : Dev) (r : Running) (x a b : Fin 64), d = start s ∧ isUp CTLi d = true ∧ v = fetched r d ∧
      AtOp d r (.fr 0x10 x a b)) ∧
    (∃ (s : State) (d v : Dev) (r : Running) (x a b : Fin 64), d = start s ∧ isUp CTLi d = true ∧ v = fetched r d ∧
      AtOp d r (.fr 0x11 x a b)) ∧
    (∃ (s : State) (d v : Dev) (r : Running) (x a b : Fin 64), d = start s ∧ isUp CTLi d = true ∧ v = fetched r d ∧
      AtOp d r (.fr 0x12 x a b)) :=
  ⟨⟨st (cd (.fr 0xF (0 : Fin 64) (0 : Fin 64) (0 : Fin 64))), _, _, cr (.fr 0xF (0 : Fin 64) (0 : Fin 64) (0 : Fin 64)), 0, 0,
     0, rfl, by decide +kernel, rfl, ⟨rfl, ⟨_, rfl, by decide +kernel⟩, by decide +kernel⟩⟩,
   ⟨st (cd (.fr 0x10 (0 : Fin 64) (0 : Fin 64) (0 : Fin 64))), _, _, cr (.fr 0x10 (0 : Fin 64) (0 : Fin 64) (0 : Fin 64)), 0,
     0, 0, rfl, by decide +kernel, rfl, ⟨rfl, ⟨_, rfl, by decide +kernel⟩, by decide +kernel⟩⟩,
   ⟨st (cd (.fr 0x11 (0 : Fin 64) (0 : Fin 64) (0 : Fin 64))), _, _, cr (.fr 0x11 (0 : Fin 64) (0 : Fin 64) (0 : Fin 64)), 0,
     0, 0, rfl, by decide +kernel, rfl, ⟨rfl, ⟨_, rfl, by decide +kernel⟩, by decide +kernel⟩⟩,
   ⟨st (cd (.fr 0x12 (0 : Fin 64) (0 : Fin 64) (0 : Fin 64))), _, _, cr (.fr 0x12 (0 : Fin 64) (0 : Fin 64) (0 : Fin 64)), 0,
     0, 0, rfl, by decide +kernel, rfl, ⟨rfl, ⟨_, rfl, by decide +kernel⟩, by decide +kernel⟩⟩⟩

/-- The clauses of CycleInstructions. -/
theorem test_meets_CycleArithmetic_4 :
    (∃ (s : State) (d v : Dev) (r : Running) (x a b : Fin 64), d = start s ∧ isUp CTLi d = true ∧ v = fetched r d ∧
      AtOp d r (.fr 0x13 x a b)) ∧
    (∃ (s : State) (d v : Dev) (r : Running) (x a b : Fin 64), d = start s ∧ isUp CTLi d = true ∧ v = fetched r d ∧
      AtOp d r (.fr 0x14 x a b)) ∧
    (∃ (s : State) (d v : Dev) (r : Running) (x a b : Fin 64), d = start s ∧ isUp CTLi d = true ∧ v = fetched r d ∧
      AtOp d r (.fr 0x15 x a b)) ∧
    (∃ (s : State) (d v : Dev) (r : Running) (x a b : Fin 64), d = start s ∧ isUp CTLi d = true ∧ v = fetched r d ∧
      AtOp d r (.fb 0x22 x a b 0 0)) :=
  ⟨⟨st (cd (.fr 0x13 (0 : Fin 64) (0 : Fin 64) (0 : Fin 64))), _, _, cr (.fr 0x13 (0 : Fin 64) (0 : Fin 64) (0 : Fin 64)), 0,
     0, 0, rfl, by decide +kernel, rfl, ⟨rfl, ⟨_, rfl, by decide +kernel⟩, by decide +kernel⟩⟩,
   ⟨st (cd (.fr 0x14 (0 : Fin 64) (0 : Fin 64) (0 : Fin 64))), _, _, cr (.fr 0x14 (0 : Fin 64) (0 : Fin 64) (0 : Fin 64)), 0,
     0, 0, rfl, by decide +kernel, rfl, ⟨rfl, ⟨_, rfl, by decide +kernel⟩, by decide +kernel⟩⟩,
   ⟨st (cd (.fr 0x15 (0 : Fin 64) (0 : Fin 64) (0 : Fin 64))), _, _, cr (.fr 0x15 (0 : Fin 64) (0 : Fin 64) (0 : Fin 64)), 0,
     0, 0, rfl, by decide +kernel, rfl, ⟨rfl, ⟨_, rfl, by decide +kernel⟩, by decide +kernel⟩⟩,
   ⟨st (cd (.fb 0x22 (0 : Fin 64) (0 : Fin 64) (0 : Fin 64) 0 0)), _, _,
     cr (.fb 0x22 (0 : Fin 64) (0 : Fin 64) (0 : Fin 64) 0 0), 0, 0, 0, rfl, by decide +kernel, rfl, ⟨rfl, ⟨_, rfl,
     by decide +kernel⟩, by decide +kernel⟩⟩⟩

/-- The clauses of CycleInstructions. -/
theorem test_meets_CycleArithmetic_5 :
    ∃ (s : State) (d v : Dev) (r : Running) (x : Fin 64) (imm : BitVec 20), d = start s ∧ isUp CTLi d = true ∧
      v = fetched r d ∧ AtOp d r (.fk x imm.toNat) :=
  ⟨st (cd (.fk (0 : Fin 64) (0 : BitVec 20).toNat)), _, _, cr (.fk (0 : Fin 64) (0 : BitVec 20).toNat), 0, 0, rfl,
     by decide +kernel, rfl, ⟨rfl, ⟨_, rfl, by decide +kernel⟩, by decide +kernel⟩⟩

/-- The clauses of CycleInstructions. -/
theorem test_meets_CycleFlow_1 :
    (∃ (s : State) (d v : Dev) (r : Running) (x a b : Fin 64) (q : Running), d = start s ∧ isUp CTLi d = true ∧
      v = fetched r d ∧ AtOp d r (.fr 1 x a b) ∧ v.ctl.run = some q) ∧
    (∃ (s : State) (d v : Dev) (r : Running) (a n : Fin 64), d = start s ∧ isUp CTLi d = true ∧ v = fetched r d ∧
      AtOp d r (.fs 0x18 a 0 n)) ∧
    (∃ (s : State) (d v : Dev) (r : Running) (a n : Fin 64), d = start s ∧ isUp CTLi d = true ∧ v = fetched r d ∧
      AtOp d r (.fs 0x19 a 0 n)) ∧
    (∃ (s : State) (d v : Dev) (r : Running) (k ph n : Fin 64), d = start s ∧ isUp CTLi d = true ∧ v = fetched r d ∧
      AtOp d r (.fs 0x1A k ph n)) :=
  ⟨⟨st (cd (.fr 1 (0 : Fin 64) (0 : Fin 64) (0 : Fin 64))), _, _, cr (.fr 1 (0 : Fin 64) (0 : Fin 64) (0 : Fin 64)), 0, 0, 0,
     _, rfl, by decide +kernel, rfl, ⟨rfl, ⟨_, rfl, by decide +kernel⟩, by decide +kernel⟩, someGet (by decide +kernel)⟩,
   ⟨st (cd (.fs 0x18 (0 : Fin 64) 0 (1 : Fin 64))), _, _, cr (.fs 0x18 (0 : Fin 64) 0 (1 : Fin 64)), 0, 1, rfl,
     by decide +kernel, rfl, ⟨rfl, ⟨_, rfl, by decide +kernel⟩, by decide +kernel⟩⟩,
   ⟨st (cd (.fs 0x19 (0 : Fin 64) 0 (1 : Fin 64))), _, _, cr (.fs 0x19 (0 : Fin 64) 0 (1 : Fin 64)), 0, 1, rfl,
     by decide +kernel, rfl, ⟨rfl, ⟨_, rfl, by decide +kernel⟩, by decide +kernel⟩⟩,
   ⟨st (cd (.fs 0x1A (2 : Fin 64) (0 : Fin 64) (1 : Fin 64))), _, _, cr (.fs 0x1A (2 : Fin 64) (0 : Fin 64) (1 : Fin 64)), 2,
     0, 1, rfl, by decide +kernel, rfl, ⟨rfl, ⟨_, rfl, by decide +kernel⟩, by decide +kernel⟩⟩⟩

/-- The clauses of CycleInstructions. -/
theorem test_meets_CycleFlow_2 :
    (∃ (s : State) (d v : Dev) (r : Running) (x : Fin 64) (cell : BitVec 12), d = start s ∧ isUp CTLi d = true ∧
      v = fetched r d ∧ AtOp d r (.fm 5 x cell.toNat)) ∧
    (∃ (s : State) (d v : Dev) (r : Running) (x : Fin 64) (cell : BitVec 12), d = start s ∧ isUp CTLi d = true ∧
      v = fetched r d ∧ AtOp d r (.fm 4 x cell.toNat) ∧ cBad (Sys2Proof.Machine.rd (CTL.DMEM cell.toNat) v) = false) ∧
    (∃ (s : State) (d v : Dev) (r : Running) (x : Fin 64) (cell : BitVec 12), d = start s ∧ isUp CTLi d = true ∧
      v = fetched r d ∧ AtOp d r (.fm 4 x cell.toNat)) ∧
    (∃ (s : State) (d v : Dev) (r : Running) (x m off : Fin 64) (ty : Fin 8) (bt : Fin 32), d = start s ∧ isUp CTLi d = true ∧
      v = fetched r d ∧ AtOp d r (.fp 6 x m off ty bt)) :=
  ⟨⟨st (cd (.fm 5 (0 : Fin 64) (0 : BitVec 12).toNat)), _, _, cr (.fm 5 (0 : Fin 64) (0 : BitVec 12).toNat), 0, 0, rfl,
     by decide +kernel, rfl, ⟨rfl, ⟨_, rfl, by decide +kernel⟩, by decide +kernel⟩⟩,
   ⟨st (cd (.fm 4 (0 : Fin 64) (0 : BitVec 12).toNat)), _, _, cr (.fm 4 (0 : Fin 64) (0 : BitVec 12).toNat), 0, 0, rfl,
     by decide +kernel, rfl, ⟨rfl, ⟨_, rfl, by decide +kernel⟩, by decide +kernel⟩, by decide +kernel⟩,
   ⟨st (cd (.fm 4 (0 : Fin 64) (0 : BitVec 12).toNat)), _, _, cr (.fm 4 (0 : Fin 64) (0 : BitVec 12).toNat), 0, 0, rfl,
     by decide +kernel, rfl, ⟨rfl, ⟨_, rfl, by decide +kernel⟩, by decide +kernel⟩⟩,
   ⟨st (cd (.fp 6 (0 : Fin 64) (0 : Fin 64) (0 : Fin 64) (0 : Fin 8) (0 : Fin 32))), _, _,
     cr (.fp 6 (0 : Fin 64) (0 : Fin 64) (0 : Fin 64) (0 : Fin 8) (0 : Fin 32)), 0, 0, 0, 0, 0, rfl, by decide +kernel, rfl,
     ⟨rfl, ⟨_, rfl, by decide +kernel⟩, by decide +kernel⟩⟩⟩

/-- The clauses of CycleInstructions. -/
theorem test_meets_CycleFlow_3 :
    ∃ (s : State) (d v : Dev) (r : Running) (x m off : Fin 64) (ty : Fin 8) (bt : Fin 32), d = start s ∧ isUp CTLi d = true ∧
      v = fetched r d ∧ AtOp d r (.fp 7 x m off ty bt) ∧ bit (Sys2Proof.Machine.rd CTL.OUTOWN v) m = true ∧
      (List.range 48).any (fun a => axisOn m a v) = false :=
  ⟨st (wr CTL.OUTOWN 1 (cd (.fp 7 (0 : Fin 64) (0 : Fin 64) (0 : Fin 64) (0 : Fin 8) (0 : Fin 32)))), _, _,
     cr (.fp 7 (0 : Fin 64) (0 : Fin 64) (0 : Fin 64) (0 : Fin 8) (0 : Fin 32)), 0, 0, 0, 0, 0, rfl, by decide +kernel, rfl,
     ⟨rfl, ⟨_, rfl, by decide +kernel⟩, by decide +kernel⟩, by decide +kernel, by decide +kernel⟩

/-- The clauses of CycleBlocksRun. -/
theorem test_meets_CycleBlocks_1 :
    (∃ (s : State) (d v : Dev) (r : Running) (x a b u : Fin 64) (h : Bool), d = start s ∧ isUp CTLi d = true ∧
      v = fetched r d ∧ AtOp d r (.fb 0x20 x a b u (b2n h)) ∧ lbOk u (or h (autoHand u v).isSome) v = true ∧
      (lat (CTL.LBCFG.OFEN u) v = 1 → filtOk (lat (CTL.LBCFG.OFILT u) v) v = true)) ∧
    (∃ (s : State) (d v : Dev) (r : Running) (x a b u : Fin 64), d = start s ∧ isUp CTLi d = true ∧ v = fetched r d ∧
      AtOp d r (.fb 0x21 x a b u 0) ∧ filtOk u v = true) ∧
    (∃ (s : State) (d v : Dev) (r : Running) (x a b u : Fin 64), d = start s ∧ isUp CTLi d = true ∧ v = fetched r d ∧
      AtOp d r (.fb 0x21 x a b u 0) ∧ filtOk u (inc CTL.ECCCNT v) = true) ∧
    (∃ (s : State) (d v : Dev) (r : Running) (x a b u : Fin 64) (e : Ecc), d = start s ∧ isUp CTLi d = true ∧
      v = fetched r d ∧ AtOp d r (.fb 0x23 x a b u 0) ∧ ffOk u v = true ∧ e ≠ .double) :=
  ⟨⟨st (cd (.fb 0x20 (0 : Fin 64) (0 : Fin 64) (0 : Fin 64) (0 : Fin 64) (b2n (false : Bool)))), _, _,
     cr (.fb 0x20 (0 : Fin 64) (0 : Fin 64) (0 : Fin 64) (0 : Fin 64) (b2n (false : Bool))), 0, 0, 0, 0, false, rfl,
     by decide +kernel, rfl, ⟨rfl, ⟨_, rfl, by decide +kernel⟩, by decide +kernel⟩, by decide +kernel, by decide +kernel⟩,
   ⟨st (cd (.fb 0x21 (0 : Fin 64) (0 : Fin 64) (0 : Fin 64) (0 : Fin 64) 0)), _, _,
     cr (.fb 0x21 (0 : Fin 64) (0 : Fin 64) (0 : Fin 64) (0 : Fin 64) 0), 0, 0, 0, 0, rfl, by decide +kernel, rfl, ⟨rfl, ⟨_,
     rfl, by decide +kernel⟩, by decide +kernel⟩, by decide +kernel⟩,
   ⟨st (cd (.fb 0x21 (0 : Fin 64) (0 : Fin 64) (0 : Fin 64) (0 : Fin 64) 0)), _, _,
     cr (.fb 0x21 (0 : Fin 64) (0 : Fin 64) (0 : Fin 64) (0 : Fin 64) 0), 0, 0, 0, 0, rfl, by decide +kernel, rfl, ⟨rfl, ⟨_,
     rfl, by decide +kernel⟩, by decide +kernel⟩, by decide +kernel⟩,
   ⟨st (cd (.fb 0x23 (0 : Fin 64) (0 : Fin 64) (0 : Fin 64) (0 : Fin 64) 0)), _, _,
     cr (.fb 0x23 (0 : Fin 64) (0 : Fin 64) (0 : Fin 64) (0 : Fin 64) 0), 0, 0, 0, 0, .clean, rfl, by decide +kernel, rfl,
     ⟨rfl, ⟨_, rfl, by decide +kernel⟩, by decide +kernel⟩, by decide +kernel, by decide +kernel⟩⟩

/-- The clauses of CycleBlocksRun. -/
theorem test_meets_CycleBlocks_2 :
    (∃ (s : State) (d v : Dev) (r : Running) (x a b : Fin 64) (u : Fin 48), d = start s ∧ isUp CTLi d = true ∧
      v = fetched r d ∧ AtOp d r (.fb 0x24 x a b u 0) ∧ axState u v = 0) ∧
    (∃ (s : State) (d v : Dev) (r : Running) (x a b : Fin 64) (u : Fin 48) (y : Dev), d = start s ∧ isUp CTLi d = true ∧
      v = fetched r d ∧ AtOp d r (.fb 0x24 x a b u 0) ∧ axState u v ≠ 0 ∧ y = profile u (axRules u v) ∧ axClass u y = 0) ∧
    (∃ (s : State) (d v : Dev) (r : Running) (x a b : Fin 64) (u : Fin 48), d = start s ∧ isUp CTLi d = true ∧
      v = fetched r d ∧ AtOp d r (.fb 0x25 x a b u 0) ∧ axState u v ≠ 0) ∧
    (∃ (s : State) (d v : Dev) (r : Running) (x a b : Fin 64) (u : Fin 48), d = start s ∧ isUp CTLi d = true ∧
      v = fetched r d ∧ AtOp d r (.fb 0x25 x a b u 0) ∧ axState u v = 0) :=
  ⟨⟨st (cd (.fb 0x24 (0 : Fin 64) (0 : Fin 64) (0 : Fin 64) (0 : Fin 48) 0)), _, _,
     cr (.fb 0x24 (0 : Fin 64) (0 : Fin 64) (0 : Fin 64) (0 : Fin 48) 0), 0, 0, 0, 0, rfl, by decide +kernel, rfl, ⟨rfl, ⟨_,
     rfl, by decide +kernel⟩, by decide +kernel⟩, by decide +kernel⟩,
   ⟨st (wr (CTL.AXSTAT.STATE 0) 1 (cd (.fb 0x24 (0 : Fin 64) (0 : Fin 64) (0 : Fin 64) (0 : Fin 48) 0))), _, _,
     cr (.fb 0x24 (0 : Fin 64) (0 : Fin 64) (0 : Fin 64) (0 : Fin 48) 0), 0, 0, 0, 0, _, rfl, by decide +kernel, rfl, ⟨rfl,
     ⟨_, rfl, by decide +kernel⟩, by decide +kernel⟩, by decide +kernel, rfl, by decide +kernel⟩,
   ⟨st (wr (CTL.AXSTAT.STATE 0) 1 (cd (.fb 0x25 (0 : Fin 64) (0 : Fin 64) (0 : Fin 64) (0 : Fin 48) 0))), _, _,
     cr (.fb 0x25 (0 : Fin 64) (0 : Fin 64) (0 : Fin 64) (0 : Fin 48) 0), 0, 0, 0, 0, rfl, by decide +kernel, rfl, ⟨rfl, ⟨_,
     rfl, by decide +kernel⟩, by decide +kernel⟩, by decide +kernel⟩,
   ⟨st (cd (.fb 0x25 (0 : Fin 64) (0 : Fin 64) (0 : Fin 64) (0 : Fin 48) 0)), _, _,
     cr (.fb 0x25 (0 : Fin 64) (0 : Fin 64) (0 : Fin 64) (0 : Fin 48) 0), 0, 0, 0, 0, rfl, by decide +kernel, rfl, ⟨rfl, ⟨_,
     rfl, by decide +kernel⟩, by decide +kernel⟩, by decide +kernel⟩⟩

/-- The clauses of CycleBlocksRun. -/
theorem test_meets_CycleBlocks_3 :
    (∃ (s : State) (d v : Dev) (r : Running) (x a b : Fin 64) (u : Fin 48), d = start s ∧ isUp CTLi d = true ∧
      v = fetched r d ∧ AtOp d r (.fb 0x26 x a b u 0) ∧ axState u v ≠ 0) ∧
    (∃ (s : State) (d v : Dev) (r : Running) (x a b : Fin 64) (u : Fin 48), d = start s ∧ isUp CTLi d = true ∧
      v = fetched r d ∧ AtOp d r (.fb 0x26 x a b u 0) ∧ axState u v = 0) :=
  ⟨⟨st (wr (CTL.AXSTAT.STATE 0) 1 (cd (.fb 0x26 (0 : Fin 64) (0 : Fin 64) (0 : Fin 64) (0 : Fin 48) 0))), _, _,
     cr (.fb 0x26 (0 : Fin 64) (0 : Fin 64) (0 : Fin 64) (0 : Fin 48) 0), 0, 0, 0, 0, rfl, by decide +kernel, rfl, ⟨rfl, ⟨_,
     rfl, by decide +kernel⟩, by decide +kernel⟩, by decide +kernel⟩,
   ⟨st (cd (.fb 0x26 (0 : Fin 64) (0 : Fin 64) (0 : Fin 64) (0 : Fin 48) 0)), _, _,
     cr (.fb 0x26 (0 : Fin 64) (0 : Fin 64) (0 : Fin 64) (0 : Fin 48) 0), 0, 0, 0, 0, rfl, by decide +kernel, rfl, ⟨rfl, ⟨_,
     rfl, by decide +kernel⟩, by decide +kernel⟩, by decide +kernel⟩⟩

/-- The clauses of CycleEventsRun. -/
theorem test_meets_CycleEvents_1 :
    (∃ (s : State) (d : Dev), d = start s ∧ isUp CTLi d) ∧
    (∃ (s : State) (d : Dev) (p : Nat), d = start s ∧ isUp CTLi d ∧ d.ctl.trig = some p ∧ ctlRuns d = true ∧
      d.ctl.handed = some (cycIdx d) ∧ d.ctl.run = none ∧ d.ctl.ran = false ∧ pastDl d = false ∧
      on (CTL.PROGTAB.VALID p) d = true) ∧
    (∃ (s : State) (d : Dev) (w : Who), d = start s ∧ isUp CTLi d ∧ atS w = true) ∧
    (∃ (s : State) (d : Dev) (x : Fin 4096) (w : Who), d = start s ∧ isUp CTLi d ∧ atS w = true ∧
      (List.range 16).any (fun p => on (CTL.PROGTAB.VALID p) d && decide (Sys2Proof.Machine.rd (CTL.PROGTAB.START p) d ≤ x ∧
      x < Sys2Proof.Machine.rd (CTL.PROGTAB.START p) d + Sys2Proof.Machine.rd (CTL.PROGTAB.LEN p) d)) = false) :=
  ⟨⟨st up, _, rfl, by decide +kernel⟩,
   ⟨st (wrB (CTL.PROGTAB.VALID (0 : Nat)) true (wrB (CTL.PROGTAB.VALID 0) true (wrB CTL.CTLCTL.EN true { up with ctl :=
     { up.ctl with trig := some 0, handed := some 0 } }))), _, 0, rfl, by decide +kernel, by decide +kernel,
     by decide +kernel, by decide +kernel, by decide +kernel, by decide +kernel, by decide +kernel, by decide +kernel⟩,
   ⟨st up, _, ⟨0, .m⟩, rfl, by decide +kernel, by decide +kernel⟩,
   ⟨st up, _, 0, ⟨0, .m⟩, rfl, by decide +kernel, by decide +kernel, by decide +kernel⟩⟩

/-- The clauses of CycleEventsRun. -/
theorem test_meets_CycleEvents_2 :
    (∃ (s : State) (d : Dev) (w : Who), d = start s ∧ isUp CTLi d ∧ atS w = true ∧ on CTL.CTLCTL.EN d = false) ∧
    (∃ (s : State) (d : Dev) (w : Who), d = start s ∧ isUp CTLi d ∧ atS w = true ∧ on CTL.CTLCTL.EN d = true ∧
      axes.any (fun a => axState a d != 0) = false) ∧
    (∃ (s : State) (d : Dev) (m : Fin 4) (w : Who), d = start s ∧ isUp CTLi d ∧ atS w = true ∧ m.val ≠ 3) ∧
    (∃ (s : State) (d : Dev), d = start s ∧ isUp CTLi d ∧ d.ctl.dlDue = false ∧ pastDl d = true ∧ d.ctl.dl ≠ some (cycIdx d) ∧
      ctlRuns d = true ∧ d.ctl.run = none ∧ d.ctl.ran = false ∧ d.ctl.trig = none) :=
  ⟨⟨st (wrB CTL.CTLCTL.EN false up), _, ⟨0, .m⟩, rfl, by decide +kernel, by decide +kernel, by decide +kernel⟩,
   ⟨st (wrB CTL.CTLCTL.EN true up), _, ⟨0, .m⟩, rfl, by decide +kernel, by decide +kernel, by decide +kernel,
     by decide +kernel⟩,
   ⟨st up, _, 0, ⟨0, .m⟩, rfl, by decide +kernel, by decide +kernel, by decide +kernel⟩,
   ⟨st (wrB CTL.CTLCTL.EN true { up with raw := 6300 }), _, rfl, by decide +kernel, by decide +kernel, by decide +kernel,
     by decide +kernel, by decide +kernel, by decide +kernel, by decide +kernel, by decide +kernel⟩⟩

/-- The clauses of AxisCommandsWait. -/
theorem test_meets_AxisCommands :
    (∃ (s : State) (d : Dev) (a : Fin 48) (w : Who), d = start s ∧ isUp CTLi d ∧ atS w = true ∧ on CTL.CTLCTL.EN d = true ∧
      (axOf a d).cmd ≠ some 5) ∧
    (∃ (s : State) (d : Dev) (a : Fin 48) (w : Who), d = start s ∧ isUp CTLi d ∧ atS w = true ∧ (axOf a d).cmd ≠ some 5) ∧
    (∃ (s : State) (d : Dev) (a : Fin 48), d = start s ∧ isUp CTLi d ∧ on (CTL.IDLECFG.PDEN a) d = true ∧
      on (CTL.AXSTAT.STANDSTILL a) d = true ∧ axState a d ≠ 0 ∧ (axOf a d).mv = .still ∧
      Sys2Proof.Machine.rd (CTL.IDLECFG.IDLEDLY a) d * 1000000 ≤ ((axOf a d).still - 1) * cycNs d) :=
  ⟨⟨st (wrB CTL.CTLCTL.EN true up), _, 0, ⟨0, .m⟩, rfl, by decide +kernel, by decide +kernel, by decide +kernel,
     by decide +kernel⟩,
   ⟨st up, _, 0, ⟨0, .m⟩, rfl, by decide +kernel, by decide +kernel, by decide +kernel⟩,
   ⟨st (wrB (CTL.AXSTAT.STANDSTILL (0 : Fin 48)) true (wrB (CTL.IDLECFG.PDEN (0 : Fin 48)) true (wr (CTL.AXSTAT.STATE 0) 1 (axSet 0 { still := 2 ^ 40 } up)))), _, 0, rfl, by decide +kernel, by decide +kernel, by decide +kernel, by decide +kernel, by decide +kernel, by decide +kernel⟩⟩

/-- The clauses of BasebandRuns. -/
theorem test_meets_BasebandChannels_1 :
    (∃ (s : State) (d : Dev) (v : W32) (w : Who), d = start s ∧ isUp POSi d ∧ atS w = true ∧ bit v.toNat 0 = true ∧
      bit v.toNat 1 = false ∧ on POS.BBCTL.EN d = false) ∧
    (∃ (s : State) (d : Dev) (v : W32) (w : Who), d = start s ∧ isUp POSi d ∧ atS w = true ∧ bit v.toNat 0 = false ∧
      bit v.toNat 1 = false ∧ on POS.BBCTL.EN d = true) ∧
    (∃ (s : State) (d : Dev), d = start s ∧ runs POSi d = true ∧ on POS.BBSTAT.RUN d = true ∧ d.pos.dwellEnd ≤ d.raw) ∧
    (∃ (s : State) (d : Dev) (w : Who), d = start s ∧ isUp POSi d ∧ atS w = true) :=
  ⟨⟨st (wrB POS.BBCTL.EN false up), _, 1, ⟨0, .m⟩, rfl, by decide +kernel, by decide +kernel, by decide +kernel,
     by decide +kernel, by decide +kernel⟩,
   ⟨st (wrB POS.BBCTL.EN true up), _, 0, ⟨0, .m⟩, rfl, by decide +kernel, by decide +kernel, by decide +kernel,
     by decide +kernel, by decide +kernel⟩,
   ⟨st (wrB POS.BBSTAT.RUN true up), _, rfl, by decide +kernel, by decide +kernel, by decide +kernel⟩,
   ⟨st up, _, ⟨0, .m⟩, rfl, by decide +kernel, by decide +kernel⟩⟩

/-- The clauses of BasebandRuns. -/
theorem test_meets_BasebandChannels_2 :
    (∃ (s : State) (d : Dev) (c : Fin 24), d = start s ∧ runs POSi d = true ∧ chState c d = cPullin) ∧
    (∃ (s : State) (d : Dev) (c : Fin 24), d = start s ∧ runs POSi d = true ∧ chState c d = cTrack ∧
      on (POS.CHSTAT.CARRIER c) d = false) ∧
    (∃ (s : State) (d : Dev) (c : Fin 24), d = start s ∧ runs POSi d = true ∧ chState c d = cPullin ∧
      (chG c d).pull + (chG c d).set.limit * 10 * rawPerMs ≤ d.raw) ∧
    (∃ (s : State) (d : Dev) (c : Fin 24), d = start s ∧ runs POSi d = true ∧ chState c d = cTrack ∧
      on (POS.CHSTAT.BSYNC c) d = false) :=
  ⟨⟨st (wr (POS.CHSTAT.STATE 0) 2 up), _, 0, rfl, by decide +kernel, by decide +kernel⟩,
   ⟨st (wrB (POS.CHSTAT.CARRIER (0 : Fin 24)) false (wr (POS.CHSTAT.STATE 0) 3 up)), _, 0, rfl, by decide +kernel,
     by decide +kernel, by decide +kernel⟩,
   ⟨st (wr (POS.CHSTAT.STATE 0) 2 { up with raw := 2 ^ 40 }), _, 0, rfl, by decide +kernel, by decide +kernel,
     by decide +kernel⟩,
   ⟨st (wrB (POS.CHSTAT.BSYNC (0 : Fin 24)) false (wr (POS.CHSTAT.STATE 0) 3 up)), _, 0, rfl, by decide +kernel,
     by decide +kernel, by decide +kernel⟩⟩

/-- The clauses of BasebandRuns. -/
theorem test_meets_BasebandChannels_3 :
    (∃ (s : State) (d : Dev) (c : Fin 24) (n : Nat), d = start s ∧ runs POSi d = true ∧ chState c d = cTrack ∧
      on (POS.CHSTAT.BSYNC c) d = true ∧ on (POS.CHSTAT.FSYNC c) d = false ∧ towSync (chG c d).hist = some n) ∧
    (∃ (s : State) (d : Dev) (c : Fin 24), d = start s ∧ runs POSi d = true ∧ chState c d = cTrack ∧
      on (POS.CHSTAT.CARRIER c) d = true) ∧
    (∃ (s : State) (d : Dev) (c : Fin 24), d = start s ∧ runs POSi d = true ∧ chState c d = cTrack) ∧
    (∃ (s : State) (d : Dev) (c : Fin 24), d = start s ∧ runs POSi d = true ∧ chState c d = cReacq ∧
      (chG c d).loss + Sys2Proof.Machine.rd POS.REACQWIN d * rawPerS ≤ d.raw) :=
  ⟨⟨st (wrB (POS.CHSTAT.FSYNC (0 : Fin 24)) false (wrB (POS.CHSTAT.BSYNC (0 : Fin 24)) true (chGSet 0 { hist := [8230,
     139 * 2 ^ 22, 0, 0, 0, 0, 0, 0, 0, 0, 0, 139 * 2 ^ 22, 0] } (wr (POS.CHSTAT.STATE 0) 3 up)))), _, 0, _, rfl,
     by decide +kernel, by decide +kernel, by decide +kernel, by decide +kernel, someGet (by decide +kernel)⟩,
   ⟨st (wrB (POS.CHSTAT.CARRIER (0 : Fin 24)) true (wr (POS.CHSTAT.STATE 0) 3 up)), _, 0, rfl, by decide +kernel,
     by decide +kernel, by decide +kernel⟩,
   ⟨st (wr (POS.CHSTAT.STATE 0) 3 up), _, 0, rfl, by decide +kernel, by decide +kernel⟩,
   ⟨st (wr (POS.CHSTAT.STATE 0) 4 { up with raw := 2 ^ 40 }), _, 0, rfl, by decide +kernel, by decide +kernel,
     by decide +kernel⟩⟩

/-- The clauses of BasebandRuns. -/
theorem test_meets_BasebandChannels_4 :
    ∃ (s : State) (d : Dev) (c : Fin 24), d = start s ∧ runs POSi d = true ∧ chState c d = cTrack ∧
      on (POS.CHSTAT.BSYNC c) d = true :=
  ⟨st (wrB (POS.CHSTAT.BSYNC (0 : Fin 24)) true (wr (POS.CHSTAT.STATE 0) 3 up)), _, 0, rfl, by decide +kernel,
     by decide +kernel, by decide +kernel⟩

/-- The clauses of BaseEpochsRun. -/
theorem test_meets_BaseEpochs_1 :
    (∃ (s : State) (d : Dev) (w : Who), d = start s ∧ isUp POSi d ∧ atS w = true) ∧
    (∃ (s : State) (d : Dev) (w : Who), d = start s ∧ isUp POSi d ∧ atS w = true ∧ on POS.BASECTL.VALID d = true) ∧
    (∃ (s : State) (d : Dev), d = start s ∧ runs POSi d = true ∧ d.pos.epochDue ≠ 0 ∧ on POS.BBCTL.EN d = true ∧
      d.pos.lastAt = none) ∧
    (∃ (s : State) (d : Dev) (t : Nat), d = start s ∧ runs POSi d = true ∧ d.pos.epochDue ≠ 0 ∧ on POS.BBCTL.EN d = true ∧
      d.pos.lastAt = some t ∧ t + 5 * rawPerMs ≤ d.raw) :=
  ⟨⟨st up, _, ⟨0, .m⟩, rfl, by decide +kernel, by decide +kernel⟩,
   ⟨st (wrB POS.BASECTL.VALID true up), _, ⟨0, .m⟩, rfl, by decide +kernel, by decide +kernel, by decide +kernel⟩,
   ⟨st (wrB POS.BBCTL.EN true { up with pos := { up.pos with epochDue := 1 } }), _, rfl, by decide +kernel, by decide +kernel,
     by decide +kernel, by decide +kernel⟩,
   ⟨st (wrB POS.BBCTL.EN true { up with raw := 2 ^ 40, pos := { up.pos with epochDue := 1, lastAt := some 0 } }), _, _, rfl,
     by decide +kernel, by decide +kernel, by decide +kernel, someGet (by decide +kernel), by decide +kernel⟩⟩

/-- The clauses of BaseEpochsRun. -/
theorem test_meets_BaseEpochs_2 :
    (∃ (s : State) (d : Dev) (l : Latch), d = start s ∧ runs POSi d = true ∧ d.pos.latch = some l ∧ l.full = false) ∧
    (∃ (s : State) (d : Dev) (l : Latch), d = start s ∧ runs POSi d = true ∧ d.pos.latch = some l ∧ l.tc = false ∧
      on POS.BASECTL.VALID d = true ∧ Sys2Proof.Machine.rd AON.WCTL.SRC d = 1) ∧
    (∃ (s : State) (d : Dev) (p : Packet), d = start s ∧ isUp SECi d ∧ hwPeek 20 d = some p ∧ p.ecc = .clean) ∧
    (∃ (s : State) (d : Dev) (p : Packet), d = start s ∧ isUp SECi d ∧ hwPeek 20 d = some p) :=
  ⟨⟨st { up with pos := { up.pos with latch := some ⟨0, 0, 0, false, false, [], 0, false, false, []⟩ } }, _, _, rfl,
     by decide +kernel, someGet (by decide +kernel), by decide +kernel⟩,
   ⟨st (wrB POS.BASECTL.VALID true (wr AON.WCTL.SRC 1 { up with pos := { up.pos with latch := some ⟨0, 0, 0, false, false, [],
     0, false, false, []⟩ } })), _, _, rfl, by decide +kernel, someGet (by decide +kernel), by decide +kernel,
     by decide +kernel, by decide +kernel⟩,
   ⟨st (q1 20 [0] up), _, _, rfl, by decide +kernel, someGet (by decide +kernel), by decide +kernel⟩,
   ⟨st (q1 20 [0] up), _, _, rfl, by decide +kernel, someGet (by decide +kernel)⟩⟩

/-- The clauses of BaseEpochsRun. -/
theorem test_meets_BaseEpochs_3 :
    ∃ (s : State) (d : Dev), d = start s ∧ runs POSi d = true ∧ on POS.BBSTAT.RUN d = true :=
  ⟨st (wrB POS.BBSTAT.RUN true up), _, rfl, by decide +kernel, by decide +kernel⟩

/-- The clauses of RoverSolverRuns. -/
theorem test_meets_RoverSolver_1 :
    (∃ (s : State) (d : Dev) (p : Packet), d = start s ∧ runs POSi d = true ∧ on POS.SOLCTL.EN d = true ∧
      d.pos.store.length < 64 ∧ hwPeek 23 d = some p) ∧
    (∃ (s : State) (d : Dev), d = start s ∧ runs POSi d = true) ∧
    (∃ (s : State) (d : Dev) (i : Nat), d = start s ∧ runs POSi d = true ∧
      findIx (fun o => !o.ready && or (recOld o.r (oEpoch o.bytes) d) (waitOver o d)) d.pos.store = some i) ∧
    (∃ (s : State) (d : Dev) (p : Fin 4) (x : Pipe), d = start s ∧ runs POSi d = true ∧ pipeOf p d = some x) :=
  ⟨⟨st (wrB POS.SOLCTL.EN true (q1 23 [0] up)), _, _, rfl, by decide +kernel, by decide +kernel, by decide +kernel,
     someGet (by decide +kernel)⟩,
   ⟨st up, _, rfl, by decide +kernel⟩,
   ⟨st { up with raw := 2 ^ 40, pos := { up.pos with store := [⟨0, [], 0, 0, false⟩] } }, _, _, rfl, by decide +kernel,
     someGet (by decide +kernel)⟩,
   ⟨st { up with pos := { up.pos with pipes := [(0, some ⟨⟨0, [], 0, 0, false⟩, ⟨[], 0, []⟩, false, ⟨0, 0, 0, 0, 0, 0, 0, 0,
     0, 0, 0, 0, 0, 0, 0, 0, 0, false, [], [], [], []⟩⟩)] } }, _, 0, _, rfl, by decide +kernel, someGet (by decide +kernel)⟩⟩

/-- The clauses of RoverSolverRuns. -/
theorem test_meets_RoverSolver_2 :
    (∃ (s : State) (d : Dev) (w : Who), d = start s ∧ isUp POSi d ∧ atS w = true) ∧
    (∃ (s : State) (d : Dev) (w : Who), d = start s ∧ isUp POSi d ∧ atS w = true ∧ on POS.SOLCTL.EN d = false ∧
      rotOk d = true) ∧
    (∃ (s : State) (d : Dev) (w : Who), d = start s ∧ isUp POSi d ∧ atS w = true ∧ on POS.SOLCTL.EN d = false ∧
      rotOk d = false) ∧
    (∃ (s : State) (d : Dev) (w : Who), d = start s ∧ isUp POSi d ∧ atS w = true ∧ on POS.SOLCTL.EN d = false) :=
  ⟨⟨st up, _, ⟨0, .m⟩, rfl, by decide +kernel, by decide +kernel⟩,
   ⟨st (wrB POS.SOLCTL.EN false (wr (POS.SITEROT 0) (2 ^ 30) (wr (POS.SITEROT 4) (2 ^ 30) (wr (POS.SITEROT 8) (2 ^ 30) up)))),
     _, ⟨0, .m⟩, rfl, by decide +kernel, by decide +kernel, by decide +kernel, by decide +kernel⟩,
   ⟨st (wrB POS.SOLCTL.EN false up), _, ⟨0, .m⟩, rfl, by decide +kernel, by decide +kernel, by decide +kernel,
     by decide +kernel⟩,
   ⟨st (wrB POS.SOLCTL.EN false up), _, ⟨0, .m⟩, rfl, by decide +kernel, by decide +kernel, by decide +kernel⟩⟩

/-- The clauses of RoverSolverRuns. -/
theorem test_meets_RoverSolver_3 :
    (∃ (s : State) (d : Dev) (w : Who), d = start s ∧ isUp POSi d ∧ atS w = true ∧ on POS.SOLCTL.EN d = false ∧
      on POS.SITECTL.VALID d = true) ∧
    (∃ (s : State) (d : Dev) (w : Who), d = start s ∧ isUp POSi d ∧ atS w = true ∧ on POS.SOLCTL.EN d = true) :=
  ⟨⟨st (wrB POS.SITECTL.VALID true (wrB POS.SOLCTL.EN false up)), _, ⟨0, .m⟩, rfl, by decide +kernel, by decide +kernel,
     by decide +kernel, by decide +kernel⟩,
   ⟨st (wrB POS.SOLCTL.EN true up), _, ⟨0, .m⟩, rfl, by decide +kernel, by decide +kernel, by decide +kernel⟩⟩

/-- The clauses of TrackCommandsRun. -/
theorem test_meets_TrackCommands_1 :
    (∃ (s : State) (d y : Dev) (x : W64) (r : List W64) (own : Nat) (vs : List Resv) (k : Nat) (z : Dev), d = start s ∧
      runs SCHi d = true ∧ own = baseId s.fuses ∧ y = hwTaken 25 d ∧ AsksTrack d 0x01 x r ∧ z = permitSeen y ∧
      vs = permitLegs x r z ∧ mslot (hMem x) z = some k ∧ permitCheck own x r (membOf k z) vs z = none ∧
      vs.all (fun v => segOwner v.seg z == own) = true) ∧
    (∃ (s : State) (d y : Dev) (x : W64) (r : List W64) (own : Nat) (vs : List Resv) (k : Nat) (z : Dev), d = start s ∧
      runs SCHi d = true ∧ own = baseId s.fuses ∧ y = hwTaken 25 d ∧ AsksTrack d 0x01 x r ∧ z = permitSeen y ∧
      vs = permitLegs x r z ∧ mslot (hMem x) z = some k ∧ permitCheck own x r (membOf k z) vs z = none ∧
      vs.all (fun v => segOwner v.seg z == own) = false ∧ vs.any (fun v => bit (Sys2Proof.Machine.rd SCH.TRKSTAT.PEERLOST z)
      (segOwner v.seg z)) = false ∧ z.sch.cross.length < 16) ∧
    (∃ (s : State) (d y : Dev) (x : W64) (r : List W64) (own : Nat) (k : Nat) (m : Memb), d = start s ∧ runs SCHi d = true ∧
      own = baseId s.fuses ∧ y = hwTaken 25 d ∧ AsksTrack d 0x02 x r ∧ r = [] ∧ mslot (hMem x) y = some k ∧
      membOf k y = some m ∧ m.lost = false ∧ m.pid = hPid x ∧ m.passed = 0) ∧
    (∃ (s : State) (d y : Dev) (x : W64) (r : List W64) (own : Nat) (k : Nat) (m : Memb), d = start s ∧ runs SCHi d = true ∧
      own = baseId s.fuses ∧ y = hwTaken 25 d ∧ AsksTrack d 0x03 x r ∧ r = [] ∧ mslot (hMem x) y = some k ∧
      membOf k y = some m ∧ m.pid = hPid x ∧ hLeg x < m.legs.length) :=
  ⟨⟨st (wr SCH.CHKMAX 25000 (q1 25 [0x40001, 0x8000] (rs [(0, some { opn := true })] (mb m0 (sg 20 tk))))), _, _, _, _, _, _,
     _, _, rfl, by decide +kernel, rfl, rfl, ⟨by decide +kernel, ⟨_, rfl, rfl, rfl⟩, by decide +kernel⟩,
     permitSeen_long (by decide +kernel), rfl, someGet (by decide +kernel), by decide +kernel, by decide +kernel⟩,
   ⟨st (wr SCH.CHKMAX 25000 (q1 25 [0x40001, 0x8000] (rs [(0, some { opn := true })] (mb m0 (sg 52 tk))))), _, _, _, _, _, _,
     _, _, rfl, by decide +kernel, rfl, rfl, ⟨by decide +kernel, ⟨_, rfl, rfl, rfl⟩, by decide +kernel⟩,
     permitSeen_long (by decide +kernel), rfl, someGet (by decide +kernel), by decide +kernel, by decide +kernel,
     by decide +kernel, by decide +kernel⟩,
   ⟨st (q1 25 [2] (mb m0 tk)), _, _, _, _, _, _, _, rfl, by decide +kernel, rfl, rfl, ⟨by decide +kernel, ⟨_, rfl, rfl, rfl⟩,
     by decide +kernel⟩, by decide +kernel, someGet (by decide +kernel), someGet (by decide +kernel), by decide +kernel,
     by decide +kernel, by decide +kernel⟩,
   ⟨st (q1 25 [3] (mb m0 tk)), _, _, _, _, _, _, _, rfl, by decide +kernel, rfl, rfl, ⟨by decide +kernel, ⟨_, rfl, rfl, rfl⟩,
     by decide +kernel⟩, by decide +kernel, someGet (by decide +kernel), someGet (by decide +kernel), by decide +kernel,
     by decide +kernel⟩⟩

/-- The clauses of TrackCommandsRun. -/
theorem test_meets_TrackCommands_2 :
    (∃ (s : State) (d y : Dev) (x : W64) (r : List W64) (own : Nat) (k : Nat) (m : Memb), d = start s ∧ runs SCHi d = true ∧
      own = baseId s.fuses ∧ y = hwTaken 25 d ∧ AsksTrack d 0x04 x r ∧ r = [] ∧ mslot (hMem x) y = some k ∧
      membOf k y = some m ∧ m.cutDl.isSome = true ∧ m.cutPid = hPid x) ∧
    (∃ (s : State) (d y : Dev) (x : W64) (r : List W64) (own : Nat) (k seg : Nat) (a : Resv) (z : Dev), d = start s ∧
      runs SCHi d = true ∧ own = baseId s.fuses ∧ y = hwTaken 25 d ∧ AsksTrack d 0x05 x r ∧ r.length = 1 ∧
      mslot (hMem x) y = none ∧ freeIx 128 (fun k => (membOf k y).isSome) y = some k ∧ z = drawn y ∧
      seg = bits (r.getD 0 0).toNat 48 14 ∧ a = { enter := sfNow y, exit := 0, seg := seg, opn := true, mem := hMem x } ∧
      resvRoom 1 z = true ∧ segValid seg z = true ∧ firstConflict a z = none) ∧
    (∃ (s : State) (d y : Dev) (x : W64) (r : List W64) (own : Nat) (k : Nat) (m : Memb), d = start s ∧ runs SCHi d = true ∧
      own = baseId s.fuses ∧ y = hwTaken 25 d ∧ AsksTrack d 0x06 x r ∧ r = [] ∧ mslot (hMem x) y = some k ∧
      membOf k y = some m ∧ m.lost = false ∧ moving m = false ∧ m.cross = false) ∧
    (∃ (s : State) (d y : Dev) (x : W64) (r : List W64) (own : Nat) (k : Nat) (m : Memb), d = start s ∧ runs SCHi d = true ∧
      own = baseId s.fuses ∧ y = hwTaken 25 d ∧ AsksTrack d 0x07 x r ∧ r.length = 2 ∧ mslot (hMem x) y = some k ∧
      membOf k y = some m) :=
  ⟨⟨st (q1 25 [4] (mb { m0 with cutDl := some 0 } tk)), _, _, _, _, _, _, _, rfl, by decide +kernel, rfl, rfl,
     ⟨by decide +kernel, ⟨_, rfl, rfl, rfl⟩, by decide +kernel⟩, by decide +kernel, someGet (by decide +kernel),
     someGet (by decide +kernel), by decide +kernel, by decide +kernel⟩,
   ⟨st (q1 25 [5, 0] (sg 16 tk)), _, _, _, _, _, _, _, _, _, rfl, by decide +kernel, rfl, rfl, ⟨by decide +kernel, ⟨_, rfl,
     rfl, rfl⟩, by decide +kernel⟩, by decide +kernel, by decide +kernel, someGet (by decide +kernel), rfl, rfl, rfl,
     by decide +kernel, by decide +kernel, by decide +kernel⟩,
   ⟨st (q1 25 [6] (mb m0 tk)), _, _, _, _, _, _, _, rfl, by decide +kernel, rfl, rfl, ⟨by decide +kernel, ⟨_, rfl, rfl, rfl⟩,
     by decide +kernel⟩, by decide +kernel, someGet (by decide +kernel), someGet (by decide +kernel), by decide +kernel,
     by decide +kernel, by decide +kernel⟩,
   ⟨st (q1 25 [7, 0, 0] (mb m0 tk)), _, _, _, _, _, _, _, rfl, by decide +kernel, rfl, rfl, ⟨by decide +kernel, ⟨_, rfl, rfl,
     rfl⟩, by decide +kernel⟩, by decide +kernel, someGet (by decide +kernel), someGet (by decide +kernel)⟩⟩

/-- The clauses of TrackCommandsRun. -/
theorem test_meets_TrackCommands_3 :
    (∃ (s : State) (d y : Dev) (x : W64) (r : List W64) (own : Nat), d = start s ∧ runs SCHi d = true ∧ own = baseId s.fuses ∧
      y = hwTaken 25 d ∧ AsksTrack d 0x08 x r ∧ r.length = 4) ∧
    (∃ (s : State) (d y : Dev) (x : W64) (r : List W64) (own : Nat) (k i : Nat) (m : Memb), d = start s ∧ runs SCHi d = true ∧
      own = baseId s.fuses ∧ y = hwTaken 25 d ∧ AsksTrack d 0x09 x r ∧ r.length = 1 ∧ mslot (hMem x) y = some k ∧
      membOf k y = some m ∧ m.lost = true ∧ rejoined m.id y = true ∧ frozenOn m (bits (r.getD 0 0).toNat 0 14) y = some i ∧
      segIndoor (bits (r.getD 0 0).toNat 0 14) y = true) ∧
    (∃ (s : State) (d y : Dev) (x : W64) (r : List W64) (own : Nat) (k i : Nat) (m : Memb), d = start s ∧ runs SCHi d = true ∧
      own = baseId s.fuses ∧ y = hwTaken 25 d ∧ AsksTrack d 0x09 x r ∧ r.length = 1 ∧ mslot (hMem x) y = some k ∧
      membOf k y = some m ∧ m.lost = true ∧ rejoined m.id y = true ∧ frozenOn m (bits (r.getD 0 0).toNat 0 14) y = some i ∧
      segIndoor (bits (r.getD 0 0).toNat 0 14) y = false) :=
  ⟨⟨st (q1 25 [8, 0, 0, 0, 0] tk), _, _, _, _, _, rfl, by decide +kernel, rfl, rfl, ⟨by decide +kernel, ⟨_, rfl, rfl, rfl⟩,
     by decide +kernel⟩, by decide +kernel⟩,
   ⟨st (q1 25 [9, 0] (setLink 0 2 (rs [(0, some { frozen := true })] (mb { m0 with lost := true } (sg 24 tk))))), _, _, _, _,
     _, _, _, _, rfl, by decide +kernel, rfl, rfl, ⟨by decide +kernel, ⟨_, rfl, rfl, rfl⟩, by decide +kernel⟩,
     by decide +kernel, someGet (by decide +kernel), someGet (by decide +kernel), by decide +kernel, by decide +kernel,
     someGet (by decide +kernel), by decide +kernel⟩,
   ⟨st (q1 25 [9, 0] (setLink 0 2 (rs [(0, some { frozen := true })] (mb { m0 with lost := true } (sg 16 tk))))), _, _, _, _,
     _, _, _, _, rfl, by decide +kernel, rfl, rfl, ⟨by decide +kernel, ⟨_, rfl, rfl, rfl⟩, by decide +kernel⟩,
     by decide +kernel, someGet (by decide +kernel), someGet (by decide +kernel), by decide +kernel, by decide +kernel,
     someGet (by decide +kernel), by decide +kernel⟩⟩

/-- The clauses of PeerPacketsRun. -/
theorem test_meets_PeerPackets_1 :
    (∃ (s : State) (d y : Dev) (x : W64) (r : List W64) (own : Nat), d = start s ∧ runs SCHi d = true ∧ own = baseId s.fuses ∧
      y = hwTaken 28 d ∧ PeerSays d own 0x01 x r ∧ holdCheck own (pSrc x) (pMem x) r y = none) ∧
    (∃ (s : State) (d y : Dev) (x : W64) (r : List W64) (own : Nat) (q : Refn), d = start s ∧ runs SCHi d = true ∧
      own = baseId s.fuses ∧ y = hwTaken 28 d ∧ PeerSays d own 0x01 x r ∧ holdCheck own (pSrc x) (pMem x) r y = some q) ∧
    (∃ (s : State) (d y : Dev) (x : W64) (r : List W64) (own : Nat) (c : Cross), d = start s ∧ runs SCHi d = true ∧
      own = baseId s.fuses ∧ y = hwTaken 28 d ∧ PeerSays d own 0x02 x r ∧ crossOf x y = some c ∧ c.commit = false) ∧
    (∃ (s : State) (d y : Dev) (x : W64) (r : List W64) (own : Nat) (c : Cross), d = start s ∧ runs SCHi d = true ∧
      own = baseId s.fuses ∧ y = hwTaken 28 d ∧ PeerSays d own 0x03 x r ∧ crossOf x y = some c) :=
  ⟨⟨st (q1 28 [1] { tk with sch := { tk.sch with peerSf := [(0, 1)] } }), _, _, _, _, _, rfl, by decide +kernel, rfl, rfl,
     ⟨⟨_, rfl, rfl, rfl⟩, by decide +kernel, by decide +kernel⟩, by decide +kernel⟩,
   ⟨st (q1 28 [1] tk), _, _, _, _, _, _, rfl, by decide +kernel, rfl, rfl, ⟨⟨_, rfl, rfl, rfl⟩, by decide +kernel,
     by decide +kernel⟩, someGet (by decide +kernel)⟩,
   ⟨st (q1 28 [2] (xc false tk)), _, _, _, _, _, _, rfl, by decide +kernel, rfl, rfl, ⟨⟨_, rfl, rfl, rfl⟩, by decide +kernel,
     by decide +kernel⟩, someGet (by decide +kernel), by decide +kernel⟩,
   ⟨st (q1 28 [3] (xc false tk)), _, _, _, _, _, _, rfl, by decide +kernel, rfl, rfl, ⟨⟨_, rfl, rfl, rfl⟩, by decide +kernel,
     by decide +kernel⟩, someGet (by decide +kernel)⟩⟩

/-- The clauses of PeerPacketsRun. -/
theorem test_meets_PeerPackets_2 :
    (∃ (s : State) (d y : Dev) (x : W64) (r : List W64) (own : Nat) (f : Fgn), d = start s ∧ runs SCHi d = true ∧
      own = baseId s.fuses ∧ y = hwTaken 28 d ∧ PeerSays d own 0x04 x r ∧ fgnFor x y = some f ∧
      (f.done = true ∨ sfDiff (sfNow y) f.till < 0)) ∧
    (∃ (s : State) (d y : Dev) (x : W64) (r : List W64) (own : Nat) (f : Fgn), d = start s ∧ runs SCHi d = true ∧
      own = baseId s.fuses ∧ y = hwTaken 28 d ∧ PeerSays d own 0x04 x r ∧ fgnFor x y = some f ∧ f.done = false ∧
      0 ≤ sfDiff (sfNow y) f.till) ∧
    (∃ (s : State) (d y : Dev) (x : W64) (r : List W64) (own : Nat) (c : Cross), d = start s ∧ runs SCHi d = true ∧
      own = baseId s.fuses ∧ y = hwTaken 28 d ∧ PeerSays d own 0x05 x r ∧ crossOf x y = some c ∧ c.commit = true) ∧
    (∃ (s : State) (d y : Dev) (x : W64) (r : List W64) (own : Nat) (c : Cross), d = start s ∧ runs SCHi d = true ∧
      own = baseId s.fuses ∧ y = hwTaken 28 d ∧ PeerSays d own 0x06 x r ∧ crossOf x y = some c) :=
  ⟨⟨st (q1 28 [4] (xf true tk)), _, _, _, _, _, _, rfl, by decide +kernel, rfl, rfl, ⟨⟨_, rfl, rfl, rfl⟩, by decide +kernel,
     by decide +kernel⟩, someGet (by decide +kernel), by decide +kernel⟩,
   ⟨st (q1 28 [4] (xf false tk)), _, _, _, _, _, _, rfl, by decide +kernel, rfl, rfl, ⟨⟨_, rfl, rfl, rfl⟩, by decide +kernel,
     by decide +kernel⟩, someGet (by decide +kernel), by decide +kernel, by decide +kernel⟩,
   ⟨st (q1 28 [5] (xc true tk)), _, _, _, _, _, _, rfl, by decide +kernel, rfl, rfl, ⟨⟨_, rfl, rfl, rfl⟩, by decide +kernel,
     by decide +kernel⟩, someGet (by decide +kernel), by decide +kernel⟩,
   ⟨st (q1 28 [6] (xc true tk)), _, _, _, _, _, _, rfl, by decide +kernel, rfl, rfl, ⟨⟨_, rfl, rfl, rfl⟩, by decide +kernel,
     by decide +kernel⟩, someGet (by decide +kernel)⟩⟩

/-- The clauses of PeerPacketsRun. -/
theorem test_meets_PeerPackets_3 :
    (∃ (s : State) (d y : Dev) (x : W64) (r : List W64) (own : Nat) (f : Fgn), d = start s ∧ runs SCHi d = true ∧
      own = baseId s.fuses ∧ y = hwTaken 28 d ∧ PeerSays d own 0x07 x r ∧ fgnFor x y = some f) ∧
    (∃ (s : State) (d y : Dev) (x : W64) (r : List W64) (own : Nat), d = start s ∧ runs SCHi d = true ∧ own = baseId s.fuses ∧
      y = hwTaken 28 d ∧ PeerSays d own 0x08 x r) ∧
    (∃ (s : State) (d y : Dev) (x : W64) (r : List W64) (own : Nat) (k : Nat) (m : Memb), d = start s ∧ runs SCHi d = true ∧
      own = baseId s.fuses ∧ y = hwTaken 28 d ∧ PeerSays d own 0x09 x r ∧ mslot (pMem x) y = some k ∧ membOf k y = some m) ∧
    (∃ (s : State) (d y : Dev) (x : W64) (r : List W64) (own : Nat) (k : Nat), d = start s ∧ runs SCHi d = true ∧
      own = baseId s.fuses ∧ y = hwTaken 28 d ∧ PeerSays d own 0x0A x r ∧ mslot (pMem x) y = some k) :=
  ⟨⟨st (q1 28 [7] (xf true tk)), _, _, _, _, _, _, rfl, by decide +kernel, rfl, rfl, ⟨⟨_, rfl, rfl, rfl⟩, by decide +kernel,
     by decide +kernel⟩, someGet (by decide +kernel)⟩,
   ⟨st (q1 28 [8] tk), _, _, _, _, _, rfl, by decide +kernel, rfl, rfl, ⟨⟨_, rfl, rfl, rfl⟩, by decide +kernel,
     by decide +kernel⟩⟩,
   ⟨st (q1 28 [9] (mb m0 tk)), _, _, _, _, _, _, _, rfl, by decide +kernel, rfl, rfl, ⟨⟨_, rfl, rfl, rfl⟩, by decide +kernel,
     by decide +kernel⟩, someGet (by decide +kernel), someGet (by decide +kernel)⟩,
   ⟨st (q1 28 [10] (mb m0 tk)), _, _, _, _, _, _, rfl, by decide +kernel, rfl, rfl, ⟨⟨_, rfl, rfl, rfl⟩, by decide +kernel,
     by decide +kernel⟩, someGet (by decide +kernel)⟩⟩

/-- The clauses of PeerPacketsRun. -/
theorem test_meets_PeerPackets_4 :
    ∃ (s : State) (d y : Dev) (x : W64) (r : List W64) (own : Nat), d = start s ∧ runs SCHi d = true ∧ own = baseId s.fuses ∧
      y = hwTaken 28 d ∧ PeerSays d own 0x0B x r :=
  ⟨st (q1 28 [11] tk), _, _, _, _, _, rfl, by decide +kernel, rfl, rfl, ⟨⟨_, rfl, rfl, rfl⟩, by decide +kernel,
     by decide +kernel⟩⟩

/-- The clauses of TrackEventsRun. -/
theorem test_meets_TrackEvents_1 :
    (∃ (s : State) (d : Dev) (p : Packet) (x : W64) (r : List W64), d = start s ∧ runs SCHi d = true ∧ cmdsOpen d = true ∧
      hwPeek 25 d = some p ∧ p.ecc = .clean ∧ p.items = x :: r ∧ (hCode x = 0 ∨ 0x09 < hCode x)) ∧
    (∃ (s : State) (d : Dev) (e : Ecc), d = start s ∧ runs SCHi d = true ∧ on SCH.TRKCTL.EN d = true ∧
      on SCH.TRKSTAT.INCONS d = false ∧ d.sch.evalSf ≠ some (sfNow d) ∧ e ≠ .double) ∧
    (∃ (s : State) (d : Dev), d = start s ∧ runs SCHi d = true ∧ on SCH.TRKCTL.EN d = true ∧ on SCH.TRKSTAT.INCONS d = false ∧
      d.sch.evalSf ≠ some (sfNow d)) ∧
    (∃ (s : State) (d : Dev) (k : Fin 128) (m : Memb) (t : Nat), d = start s ∧ runs SCHi d = true ∧ membOf k d = some m ∧
      m.cutDl = some t ∧ m.cutTold = false ∧ 0 ≤ sfDiff (sfNow d) t) :=
  ⟨⟨st (q1 25 [0] tk), _, _, 0, [], rfl, by decide +kernel, by decide +kernel, someGet (by decide +kernel), by decide +kernel,
     by decide +kernel, by decide +kernel⟩,
   ⟨st (wrB SCH.TRKSTAT.INCONS false (wrB SCH.TRKCTL.EN true up)), _, .clean, rfl, by decide +kernel, by decide +kernel,
     by decide +kernel, by decide +kernel, by decide +kernel⟩,
   ⟨st (wrB SCH.TRKSTAT.INCONS false (wrB SCH.TRKCTL.EN true up)), _, rfl, by decide +kernel, by decide +kernel,
     by decide +kernel, by decide +kernel⟩,
   ⟨st (mb { m0 with cutDl := some 0 } tk), _, 0, _, _, rfl, by decide +kernel, someGet (by decide +kernel),
     someGet (by decide +kernel), by decide +kernel, by decide +kernel⟩⟩

/-- The clauses of TrackEventsRun. -/
theorem test_meets_TrackEvents_2 :
    (∃ (s : State) (d : Dev) (p : Packet), d = start s ∧ runs SCHi d = true ∧ hwPeek 24 d = some p ∧ p.ecc = .clean) ∧
    (∃ (s : State) (d : Dev) (k : Fin 128) (m : Memb), d = start s ∧ runs SCHi d = true ∧ membOf k d = some m ∧
      on SCH.TRKCTL.NOFIXEN d = true ∧ moving m = true ∧ (currentSegs m d).any (fun s => !segIndoor s d) = true ∧
      (d.sch.times.nofix : Int) ≤ sfDiff (sfNow d) m.testSf) ∧
    (∃ (s : State) (d : Dev) (p : Packet) (k : Nat), d = start s ∧ runs SCHi d = true ∧ hwPeek 18 d = some p ∧
      mslot ((p.items.getD 0 0).toNat % 1024) (hwTaken 18 d) = some k) ∧
    (∃ (s : State) (d : Dev) (p : Packet), d = start s ∧ runs SCHi d = true ∧ hwPeek 19 d = some p) :=
  ⟨⟨st (q1 24 [0] tk), _, _, rfl, by decide +kernel, someGet (by decide +kernel), by decide +kernel⟩,
   ⟨st (wrB SCH.TRKCTL.NOFIXEN true (withSch (fun s => { s with times := { nofix := 0 } }) (rs [(0, some {}), (1,
     some {})] (mb { m0 with legs := [some 0, some 1] } tk)))), _, 0, _, rfl, by decide +kernel, someGet (by decide +kernel),
     by decide +kernel, by decide +kernel, by decide +kernel, by decide +kernel⟩,
   ⟨st (q1 18 [0] (mb m0 tk)), _, _, _, rfl, by decide +kernel, someGet (by decide +kernel), someGet (by decide +kernel)⟩,
   ⟨st (q1 19 [0] tk), _, _, rfl, by decide +kernel, someGet (by decide +kernel)⟩⟩

/-- The clauses of TrackEventsRun. -/
theorem test_meets_TrackEvents_3 :
    (∃ (s : State) (d : Dev) (r : Req), d = start s ∧ runs SECi d = true ∧ nextReq d = some r ∧ r.secure = false ∧
      r.code = 0x4C ∧ (reqRelease r s.fuses d).st = sOk) ∧
    (∃ (s : State) (d : Dev), d = start s ∧ runs SCHi d = true ∧
      (d.sch.hbSf = 0 ∨ (Sys2Proof.Machine.rd SCH.PHBPER d : Int) ≤ sfDiff (sfNow d) (d.sch.hbSf - 1))) ∧
    (∃ (s : State) (d : Dev) (f : Fgn), d = start s ∧ runs SCHi d = true ∧
      d.sch.fgn.find? (fun f => !f.done && decide (0 ≤ sfDiff (sfNow d) f.till)) = some f) ∧
    (∃ (s : State) (d : Dev) (c : Cross), d = start s ∧ runs SCHi d = true ∧
      d.sch.fgn.find? (fun f => !f.done && decide (0 ≤ sfDiff (sfNow d) f.till)) = none ∧
      d.sch.cross.find? (fun c => decide ((d.sch.times.holdTo : Int) ≤ sfDiff (sfNow d) c.asked)) = some c) :=
  ⟨⟨stf fuD (slot 5 0 [1, 2] (rq 8 0x4C [76, 4901770682301415424, 2935356144846483164, 3846080229] up)), _, _, rfl,
     by decide +kernel, someGet (by decide +kernel), by decide +kernel, by decide +kernel, by decide +kernel⟩,
   ⟨st up, _, rfl, by decide +kernel, by decide +kernel⟩,
   ⟨st (xf false tk), _, _, rfl, by decide +kernel, someGet (by decide +kernel)⟩,
   ⟨st (withSch (fun s => { s with times := { holdTo := 0 } }) (xc false tk)), _, _, rfl, by decide +kernel,
     by decide +kernel, someGet (by decide +kernel)⟩⟩

/-- The clauses of TrackEventsRun. -/
theorem test_meets_TrackEvents_4 :
    (∃ (s : State) (d : Dev) (b : Fin 8), d = start s ∧ runs SCHi d = true ∧ b.val ≠ baseId s.fuses ∧
      bit (Sys2Proof.Machine.rd SCH.PEERMASK d) b = true ∧ bit (Sys2Proof.Machine.rd SCH.TRKSTAT.PEERLOST d) b = false ∧
      (tget d.sch.peerSf b 0 = 0 ∨ (Sys2Proof.Machine.rd SCH.PHBTO d : Int) ≤ sfDiff (sfNow d) (tget d.sch.peerSf b 0 - 1))) ∧
    (∃ (s : State) (d : Dev) (p : Packet), d = start s ∧ runs SCHi d = true ∧ hwPeek 28 d = some p ∧ p.ecc = .clean ∧
      pDst (p.items.getD 0 0) ≠ baseId s.fuses) ∧
    (∃ (s : State) (d : Dev) (p : Packet), d = start s ∧ runs SCHi d = true ∧ hwPeek 28 d = some p ∧ p.ecc = .clean ∧
      pDst (p.items.getD 0 0) = baseId s.fuses ∧ (pTyp (p.items.getD 0 0) = 0 ∨ 0x0B < pTyp (p.items.getD 0 0))) ∧
    (∃ (s : State) (d : Dev), d = start s ∧ runs SCHi d = true) :=
  ⟨⟨st (wr SCH.PEERMASK 2 tk), _, 1, rfl, by decide +kernel, by decide +kernel, by decide +kernel, by decide +kernel,
     by decide +kernel⟩,
   ⟨st (q1 28 [0x800] tk), _, _, rfl, by decide +kernel, someGet (by decide +kernel), by decide +kernel, by decide +kernel⟩,
   ⟨st (q1 28 [0] tk), _, _, rfl, by decide +kernel, someGet (by decide +kernel), by decide +kernel, by decide +kernel,
     by decide +kernel⟩,
   ⟨st up, _, rfl, by decide +kernel⟩⟩

/-- The clauses of TrackEventsRun. -/
theorem test_meets_TrackControls_1 :
    (∃ (s : State) (d : Dev) (w : Who), d = start s ∧ isUp SCHi d ∧ atS w = true) ∧
    (∃ (s : State) (d : Dev) (off : BitVec 20) (w : Who), d = start s ∧ isUp SCHi d ∧ atS w = true ∧ off.toNat < 0xA0000 ∧
      off.toNat % 4 = 0 ∧ on SCH.TRKCTL.EN d = false) ∧
    (∃ (s : State) (d : Dev) (w : Who), d = start s ∧ isUp SCHi d ∧ atS w = true ∧ on SCH.AUCTSTAT.BUSY d = false) ∧
    (∃ (s : State) (d : Dev) (w : Who), d = start s ∧ isUp SCHi d ∧ atS w = true ∧ on SCH.AUCTSTAT.BUSY d = true) :=
  ⟨⟨st up, _, ⟨0, .m⟩, rfl, by decide +kernel, by decide +kernel⟩,
   ⟨st (wrB SCH.TRKCTL.EN false up), _, 0, ⟨0, .m⟩, rfl, by decide +kernel, by decide +kernel, by decide +kernel,
     by decide +kernel, by decide +kernel⟩,
   ⟨st (wrB SCH.AUCTSTAT.BUSY false up), _, ⟨0, .m⟩, rfl, by decide +kernel, by decide +kernel, by decide +kernel⟩,
   ⟨st (wrB SCH.AUCTSTAT.BUSY true up), _, ⟨0, .m⟩, rfl, by decide +kernel, by decide +kernel, by decide +kernel⟩⟩

/-- The clauses of TrackEventsRun. -/
theorem test_meets_TrackControls_2 :
    (∃ (s : State) (d : Dev) (asg : List (BitVec 16)) (prices : List W64) (l : List Nat) (p : List Int) (e : Dev),
      d = start s ∧ runs SCHi d = true ∧ on SCH.AUCTSTAT.BUSY d = true ∧ auctLate d = false ∧ auctReach true d = (true, e) ∧
      auctOk e = true ∧ l = asg.map BitVec.toNat ∧ p = prices.map BitVec.toInt ∧ assigned l e = true ∧
      withinBound l p (epsAt e (phases e - 1)) e = true) ∧
    (∃ (s : State) (d : Dev) (ph : BitVec 8) (asg : List (BitVec 16)) (prices : List W64) (l : List Nat) (p : List Int) (e :
      Dev), d = start s ∧ runs SCHi d = true ∧ on SCH.AUCTSTAT.BUSY d = true ∧ auctLate d = true ∧ ph.toNat ≠ 0 ∧
      auctReach true d = (true, e) ∧ auctOk e = true ∧ l = asg.map BitVec.toNat ∧ p = prices.map BitVec.toInt ∧
      ph.toNat < phases e ∧ assigned l e = true ∧ withinBound l p (epsAt e (ph.toNat - 1)) e = true) ∧
    (∃ (s : State) (d : Dev) (ph : BitVec 8) (e : Dev), d = start s ∧ runs SCHi d = true ∧ on SCH.AUCTSTAT.BUSY d = true ∧
      auctLate d = true ∧ ph.toNat = 0 ∧ auctReach false d = (true, e) ∧ auctOk e = true) ∧
    (∃ (s : State) (d : Dev) (e : Dev), d = start s ∧ runs SCHi d = true ∧ on SCH.AUCTSTAT.BUSY d = true ∧
      auctLate d = false ∧ auctReach true d = (false, e)) :=
  ⟨⟨st (wrB SCH.AUCTSTAT.BUSY true { au with sch := { au.sch with auctFrom := 2 ^ 60 } }), _, [0xFFFF], [0], _, _, _, rfl,
     by decide +kernel, by decide +kernel, by decide +kernel, pairEq (by decide +kernel), by decide +kernel, rfl, rfl,
     by decide +kernel, by decide +kernel⟩,
   ⟨st (wrB SCH.AUCTSTAT.BUSY true au), _, 1, [0xFFFF], [0], _, _, _, rfl, by decide +kernel, by decide +kernel,
     by decide +kernel, by decide +kernel, pairEq (by decide +kernel), by decide +kernel, rfl, rfl, by decide +kernel,
     by decide +kernel, by decide +kernel⟩,
   ⟨st (wrB SCH.AUCTSTAT.BUSY true au), _, 0, _, rfl, by decide +kernel, by decide +kernel, by decide +kernel,
     by decide +kernel, pairEq (by decide +kernel), by decide +kernel⟩,
   ⟨st (wrB SCH.AUCTSTAT.BUSY true up), _, _, rfl, by decide +kernel, by decide +kernel, by decide +kernel,
     pairEq (by decide +kernel)⟩⟩

/-! ## The other statements' hypotheses -/

/-- StepRunsFront: a queue with a command in it; its step is that command's. -/
theorem test_meets_StepRunsFront :
    ∃ (s : State) (c : Instr) (r : List Instr), s.pending = c :: r ∧ step s = exec c { s with pending := r } :=
  ⟨{ st up with pending := [.rawrd 0 1] }, _, _, rfl, rfl⟩

/-- IdleTick: nothing waits, with AON down and up. -/
theorem test_meets_IdleTick :
    (∃ s : State, s.pending = [] ∧ isUp AONi s.dev = false) ∧ (∃ s : State, s.pending = [] ∧ isUp AONi s.dev = true) :=
  ⟨⟨State.reset, rfl, by decide +kernel⟩, ⟨st up, rfl, by decide +kernel⟩⟩

/-- PendingKept: a command that runs. -/
theorem test_meets_PendingKept : ∃ (c : Instr) (s t : State), Runs c s t := ⟨.tsnap, st up, _, rfl⟩

/-- FusesOnlyBlow: a step. -/
theorem test_meets_FusesOnlyBlow : ∃ s t : State, Steps s t := ⟨{ st up with pending := [.tsnap] }, _, rfl⟩

/-- LifeCycleLegal: a step from legal fuses. -/
theorem test_meets_LifeCycleLegal : ∃ s t : State, LifeLegal s.fuses ∧ Steps s t :=
  ⟨{ st up with pending := [.tsnap] }, _,
    { deployed := by decide, settings := by decide, owner := by decide, images := by decide, service := by decide,
      retired := by decide, svc := by decide, secver := by decide, slots := by decide }, rfl⟩

/-- ResetState: a field whose reset value fits. -/
theorem test_meets_ResetState : ∃ f : Fld, f.rst < 2 ^ 64 := ⟨SCH.CHKMAX, by decide +kernel⟩

/-- CycleCodeRoundTrip and CycleWordExact: an instruction at the top of its fields' ranges, and its word. -/
theorem test_meets_CycleCodeRoundTrip : ∃ c : COp, c.wf = true := ⟨.fp 7 63 63 63 7 31, by decide +kernel⟩
theorem test_meets_CycleWordExact : ∃ (w : Nat) (c : COp), w < 2 ^ 32 ∧ COp.dec w = some c :=
  ⟨(COp.fp 7 63 63 63 7 31).enc, _, by decide +kernel, someGet (by decide +kernel)⟩

/-- DramWriteExact: the last byte of DRAM, and one beside it. -/
theorem test_meets_DramWriteExact :
    (∃ (a : Nat) (l : List Nat) (i : Nat), i < l.length ∧ a + i < dramSize) ∧
    (∃ (a : Nat) (l : List Nat) (b : Nat), b < a ∨ a + l.length ≤ b ∨ dramSize ≤ b) :=
  ⟨⟨dramSize - 1, [1], 0, by decide +kernel, by decide +kernel⟩, ⟨1, [1], 0, by decide +kernel⟩⟩

/-- PairWrites: SEC's zone grants, low and high. -/
theorem test_meets_PairWrites :
    (∃ (s : State) (d : Dev) (a : BitVec 40) (w : Who), d = ties s.pending (start s) ∧ winOf a.toNat ≠ .unmapped ∧
      winOf a.toNat ≠ .sram ∧ mayReach w a.toNat = true ∧ isUp (winIsl (winOf a.toNat)) d = true ∧ unassigned a.toNat = false ∧
      pairLow a.toNat = true ∧ pairHigh a.toNat = false ∧ blocked w a.toNat d = false) ∧
    (∃ (s : State) (d : Dev) (a : BitVec 40) (w : Who), d = ties s.pending (start s) ∧ winOf a.toNat ≠ .unmapped ∧
      winOf a.toNat ≠ .sram ∧ mayReach w a.toNat = true ∧ isUp (winIsl (winOf a.toNat)) d = true ∧ unassigned a.toNat = false ∧
      pairHigh a.toNat = true ∧ payRefused w (a.toNat - 4) d = false ∧ blocked w (a.toNat - 4) d = false) ∧
    (∃ (s : State) (d : Dev) (a : BitVec 40) (w : Who), d = ties s.pending (start s) ∧ winOf a.toNat ≠ .unmapped ∧
      winOf a.toNat ≠ .sram ∧ mayReach w a.toNat = true ∧ isUp (winIsl (winOf a.toNat)) d = true ∧ unassigned a.toNat = false ∧
      pairHigh a.toNat = true ∧ (payRefused w (a.toNat - 4) d = true ∨ blocked w (a.toNat - 4) d = true)) :=
  ⟨⟨st up, _, 0xF000100410, ⟨0, .m⟩, rfl, by and_intros <;> decide +kernel⟩,
    ⟨st up, _, 0xF000100414, ⟨0, .m⟩, rfl, by and_intros <;> decide +kernel⟩,
    ⟨st up, _, 0xF100080804, ⟨0, .m⟩, rfl, by and_intros <;> decide +kernel⟩⟩

/-- PairReads: the same pair. -/
theorem test_meets_PairReads :
    ∃ (s : State) (d : Dev) (a b : BitVec 40) (w : Who) (i v : Nat), d = start s ∧ b.toNat = a.toNat + 4 ∧
      winOf a.toNat = .regs i ∧ winOf b.toNat = .regs i ∧ mayReach w a.toNat = true ∧ mayReach w b.toNat = true ∧
      isUp i d = true ∧ (fieldsAt a.toNat).any Fld.pair = true ∧ pairHigh a.toNat = false ∧ pairHigh b.toNat = true ∧
      (i = 0 → aonRam (a.toNat - winBase 0) = false ∧ aonRam (b.toNat - winBase 0) = false) ∧
      (i = 3 → a.toNat < winBase 3 + 0xFFC ∨ winBase 3 + 0x1200 ≤ a.toNat) ∧
      (i = 4 → a.toNat ≠ winBase 4 + 0x14 ∧ b.toNat ≠ winBase 4 + 0x14) ∧
      v = wordOf (fieldsAt a.toNat) (live s.fuses a.toNat d) ∧ v < 2 ^ 64 :=
  ⟨st up, start (st up), 0xF000100410, 0xF000100414, ⟨0, .m⟩, 1, _,
    by refine ⟨rfl, ?_, ?_, ?_, ?_, ?_, ?_, ?_, ?_, ?_, ?_, ?_, ?_, rfl, ?_⟩ <;> decide +kernel⟩

/-- LockReads, LockWrites and LockTies: a free lock, one held by requester 15, the holder's own write and another's. -/
theorem test_meets_LockReads :
    (∃ (s : State) (d : Dev) (n : Fin 128) (w : Who), d = start s ∧ isUp SCHi d = true ∧ lvlOk false w = true ∧ lockOf n d = 0) ∧
    (∃ (s : State) (d : Dev) (n : Fin 128) (w : Who) (h : Fin 16),
      d = start s ∧ isUp SCHi d = true ∧ lvlOk false w = true ∧ lockOf n d = h.val + 1) :=
  ⟨⟨st up, _, 127, ⟨15, .m⟩, rfl, by and_intros <;> decide +kernel⟩,
    ⟨st (lockSet 127 16 up), _, 127, ⟨0, .s⟩, 15, rfl, by and_intros <;> decide +kernel⟩⟩
theorem test_meets_LockWrites :
    (∃ (s : State) (d : Dev) (n : Fin 128) (v : Fin 16) (w : Who), d = start s ∧ isUp SCHi d = true ∧ lvlOk false w = true ∧
      lockOf n d = w.rq.val + 1 ∧ v = w.rq) ∧
    (∃ (s : State) (d : Dev) (n : Fin 128) (v : Fin 16) (w : Who), d = start s ∧ isUp SCHi d = true ∧ lvlOk false w = true ∧
      ¬ (lockOf n d = w.rq.val + 1 ∧ v = w.rq)) :=
  ⟨⟨st (lockSet 0 1 up), _, 0, 0, ⟨0, .m⟩, rfl, by and_intros <;> decide +kernel⟩,
    ⟨st up, _, 0, 0, ⟨0, .m⟩, rfl, by and_intros <;> decide +kernel⟩⟩
theorem test_meets_LockTies :
    ∃ (s : State) (d : Dev) (n : Fin 128) (w : Who) (l : List Who), d = start s ∧ isUp SCHi d = true ∧ lockOf n d = 0 ∧
      w ∈ l ∧ (∀ q ∈ l, lvlOk false q = true ∧ w.rq ≤ q.rq) ∧ (l.map (·.rq)).Nodup ∧ ∃ q ∈ l, q ≠ w :=
  ⟨st up, _, 0, ⟨3, .m⟩, [⟨7, .m⟩, ⟨3, .m⟩, ⟨15, .s⟩], rfl, by and_intros <;> decide +kernel⟩

/-- PoolFrames: a pool with frame 0 free, one with none free, and a frame that is OTHER. -/
theorem test_meets_PoolFrames :
    ∃ (s : State) (d : Dev) (w : Who) (f : BitVec 28), d = start s ∧ isUp MEMi d = true ∧ atS w = true ∧
      rd MEM.FTBASE d + 8 * frames ≤ dramSize ∧ f.toNat < frames ∧ ftState (ftGet f.toNat d) = fOther :=
  ⟨st (dramWrite 0 [3] up), _, ⟨0, .m⟩, 0, rfl, by and_intros <;> decide +kernel⟩

/-- EretReturns: a core above U with a section to come back to, and one at U. -/
theorem test_meets_EretReturns :
    (∃ (s : State) (d : Dev) (n : CoreNo) (w : Nat) (d' : Dev) (c : Core), d = start s ∧ Issues n d w d' ∧ c = coreOf n d ∧
      reads (.d 0x37 3 []) w = true ∧ c.x.lvl ≠ .u ∧ Uncancelled n (coreSet n c d') ∧ (c.exc c.x.lvl).pnp = true) ∧
    (∃ (s : State) (d : Dev) (n : CoreNo) (w : Nat) (d' : Dev) (c : Core), d = start s ∧ Issues n d w d' ∧ c = coreOf n d ∧
      reads (.d 0x37 3 []) w = true ∧ c.x.lvl = .u) :=
  ⟨⟨st (pw (.d 0x37 3 []) (pd { pc0 with em := { pnp := true } })), _, 0, _, _, _, rfl, issues_pd (by decide +kernel), rfl,
      by decide +kernel, by decide +kernel, uncancelled_idle (by decide +kernel), by decide +kernel⟩,
    ⟨st (pw (.d 0x37 3 []) (pdU pcU)), _, 0, _, _, _, rfl, issues_pd (by decide +kernel), rfl, by decide +kernel, by decide +kernel⟩⟩

/-- TrapThenReturn: a trap of a core at U. -/
theorem test_meets_TrapThenReturn : ∃ (c : Core) (x : Trap) (l : Level), l = trapLevel c x.code ∧ c.x.lvl = .u :=
  ⟨pcU, ⟨xPriv, 0, false⟩, _, rfl, rfl⟩

/-- IntegerFrame: a core that issues one of its instructions. -/
theorem test_meets_IntegerFrame :
    ∃ (s : State) (d : Dev) (n : CoreNo) (w : Nat) (d' : Dev) (c : Core) (rd rs rt : RegNo) (cmd : Instr),
      d = start s ∧ Issues n d w d' ∧ c = coreOf n d ∧ Uncancelled n (coreSet n c d') ∧ cmd ∈ [Instr.add n rd rs rt] ∧
      reads (.a 0x01 rd rs rt) w = true :=
  ⟨st (pw (.a 0x01 31 30 29) (pd pc0)), _, 0, _, _, _, 31, 30, 29, _, rfl, issues_pd (by decide +kernel), rfl,
    uncancelled_idle (by decide +kernel), List.mem_singleton.mpr rfl, by decide +kernel⟩

/-- StoreFrame: a store of eight bytes, at a translated address. -/
theorem test_meets_StoreFrame :
    ∃ (s : State) (d : Dev) (n : CoreNo) (w : Nat) (d' : Dev) (c : Core) (rd base : RegNo) (off : BitVec 12) (r : Reached)
      (d2 u : Dev), d = ties s.pending (start s) ∧ Issues n d w d' ∧ c = coreOf n d ∧ reads (.m 0x11 rd base off) w = true ∧
      memAddr base off c % 8 = 0 ∧ c.reach .store (memAddr base off c) d' = (.ok r, d2) ∧ r.pa + 8 ≤ dramSize ∧
      marked (r.pa / 8) 1 d2 = [] ∧ u = used r .store d2 ∧
      Uncancelled n (coreSet n c (dramWrite r.pa (leBytes 8 (c.get rd).toNat) u)) :=
  ⟨st (pw (.m 0x11 3 0 0) (pdU pcP)), _, 0, _, _, _, 3, 0, 0, _, _, _, rfl, issues_pd (by decide +kernel), rfl,
    by decide +kernel, by decide +kernel, pairOk (by decide +kernel), by decide +kernel, by decide +kernel, rfl,
    uncancelled_idle (by decide +kernel)⟩

/-- LevelRefused and DownUnchanged: a requester at level U; an island down, a core that does not issue. -/
theorem test_meets_LevelRefused :
    ∃ (s : State) (d : Dev) (w : Who), d = start s ∧ atS w = false ∧ atM w = false ∧ (∀ m : Bool, lvlOk m w = false) ∧
      tiesDone s.pending d = d :=
  ⟨st up, _, ⟨0, .u⟩, rfl, by decide +kernel, by decide +kernel, by decide +kernel, by decide +kernel⟩
theorem test_meets_DownUnchanged :
    ∃ (s : State) (d : Dev), d = start s ∧ (∀ i, i < 9 → isUp i d = false ∧ runs i d = false) ∧
      (∀ n : CoreNo, canIssue n d = false) ∧ tiesDone s.pending d = d ∧ ties s.pending d = d :=
  ⟨State.reset, _, rfl, by decide +kernel, by decide +kernel, rfl, rfl⟩

/-! ## Ill-formed commands -/

theorem test_wf_requester : (Instr.restore ⟨12, .m⟩).wf = false ∧ (Instr.restore ⟨11, .m⟩).wf = true := by decide +kernel
theorem test_wf_register_address :
    (Instr.registerWrite 0xF000000002 0 ⟨0, .m⟩).wf = false ∧ (Instr.rcRead 0xF000000001 ⟨0, .m⟩).wf = false ∧
      (Instr.pairLowRead 0xF000000004 ⟨0, .m⟩).wf = true := by decide +kernel
theorem test_wf_graph_offset : (Instr.graphWrite 2 0 ⟨0, .m⟩).wf = false := by decide +kernel
theorem test_wf_port_frame : (Instr.inputFrame ⟨0, 0, 0, 0x88B5, List.replicate 1501 0⟩ true).wf = false := by decide +kernel
theorem test_wf_ordinary_frame :
    (Instr.ordinaryFrame (some ⟨0, 0, List.replicate 1519 0⟩)).wf = false ∧
      (Instr.ordinaryFrame (some ⟨0, 0, List.replicate 13 0⟩)).wf = false := by decide +kernel
theorem test_wf_radio_frame : (Instr.joinReq 0 (List.replicate 265 0) 0 false 0).wf = false := by decide +kernel
theorem test_wf_prn :
    (Instr.channelPin 0 0 ⟨0, .m⟩).wf = false ∧ (Instr.channelPin 0 33 ⟨0, .m⟩).wf = false ∧
      (Instr.channelPin 0 32 ⟨0, .m⟩).wf = true := by decide +kernel
theorem test_wf_measurements : (Instr.measLatch (List.replicate 25 ⟨0, 0, 0, 0⟩)).wf = false := by decide +kernel
theorem test_wf_lock_reader : (Instr.lockWrite 0 0 ⟨12, .m⟩).wf = false := by decide +kernel

/-! ## Published vectors -/

/-- FIPS 180-4: SHA-256 of "abc". -/
theorem test_sha256 : beNat (sha256 [0x61, 0x62, 0x63]) = 0xba7816bf8f01cfea414140de5dae2223b00361a396177a9cb410ff61f20015ad := by
  decide +kernel
/-- FIPS 197, C.1: AES-128. -/
theorem test_aes128 :
    beNat (aes (natBe 16 0x000102030405060708090a0b0c0d0e0f) (natBe 16 0x00112233445566778899aabbccddeeff)) =
      0x69c4e0d86a7b0430d8cdb78070b4c55a := by decide +kernel
/-- RFC 4493, example 1: AES-CMAC of the empty message. -/
theorem test_cmac : beNat (cmac (natBe 16 0x2b7e151628aed2a6abf7158809cf4f3c) []) = 0xbb1d6929e95937287fa37d129b756746 := by
  decide +kernel
/-- IEEE 754: 1 + 2 in binary64; 1/3 in binary32, inexact; an overflow; the root of a negative number. -/
theorem test_float :
    fAdd f64 0 0x3FF0000000000000 0x4000000000000000 = { v := 0x4008000000000000 } ∧
      (fDiv f32 0 0x3F800000 0x40400000).v = 0x3EAAAAAB ∧ (fMul f32 0 0x7F7FFFFF 0x40000000).v = 0x7F800000 ∧
      (fSqrt f32 0 0x40800000).v = 0x40000000 := by decide +kernel

/-! ## Worked examples and encodings of the spec -/

/-- The hopping example of Fleet radio: superframe 1,000, lane 2 of base 1, channel 17 with the full map, and with channels 20–29
dropped; then lane 3 takes channel 18. -/
theorem test_hopping :
    chanOf { settings := some ⟨1, 0, 1, 0⟩ } 2 1000 up = 17 ∧
      chanOf { settings := some ⟨1, 0, 1, 0⟩ } 2 1000 (wr RAD.CHMAP (2 ^ 37 - 1 - (2 ^ 30 - 2 ^ 20)) up) = 17 ∧
      chanOf { settings := some ⟨1, 0, 1, 0⟩ } 3 1000 (wr RAD.CHMAP (2 ^ 37 - 1 - (2 ^ 30 - 2 ^ 20)) up) = 18 := by
  decide +kernel
/-- The example ring of Drive ring: 16 members, RDLY 18 µs, slots from 20 µs on at 0.8 µs: SIMIN is 22.64 µs, INDL 53.8 µs
after the sample instant. -/
theorem test_ring_times :
    siMin (wr NET.CYCCFG.NMEM 16 (wr NET.RDLY 18000 up)) = 22640 ∧
      inSpan (wr NET.INSLOT0 20000 (wr NET.SLOTGAP 800 (wr NET.CYCCFG.NMEM 16 (wr NET.RDLY 18000 up)))) = 53800 := by
  decide +kernel
/-- The lock example of Islands and straits: C6, C3 and a DMA channel (requester 13 there) read a free lock at once: C3 holds
it, the others read 4; a write of 6 by C6 is ignored and counted, a write of 3 by C3 frees it. -/
theorem test_locks :
    (match exec (.lockRead 12 [⟨6, .m⟩, ⟨3, .m⟩, ⟨13, .m⟩]) (st up) with
      | .next t => lockOf 12 t.dev == 4 && t.dev.lockSeen == [(3, 0), (6, 4), (13, 4)]
      | _ => false) = true ∧
    (match exec (.lockWrite 12 6 ⟨6, .m⟩) (st (lockSet 12 4 up)) with
      | .next t => lockOf 12 t.dev == 4 && rd SCH.LOCKERR t.dev == 1
      | _ => false) = true ∧
    (match exec (.lockWrite 12 3 ⟨3, .m⟩) (st (lockSet 12 4 up)) with
      | .next t => lockOf 12 t.dev == 0
      | _ => false) = true := by decide +kernel
/-- Table 10-2, one word of each format, bit by bit: ADD f1, f2, f3; LDK f1, 0x3F800; ST f2, cell 0xDFF; IN f3, bit 5 of byte 8
of member 1; SKZ f4, 2; PIDSTEP f5, f6, f7 on unit 9 with H. Op 0 and a set reserved bit are no instruction. -/
theorem test_cycle_words :
    COp.dec 0x20108300 = some (.fr 8 1 2 3) ∧ COp.dec 0x0C13F800 = some (.fk 1 0x3F800) ∧
      COp.dec 0x142DFF00 = some (.fm 5 2 0xDFF) ∧ COp.dec 0x183048E5 = some (.fp 6 3 1 8 7 5) ∧
      COp.dec 0x60400200 = some (.fs 0x18 4 0 2) ∧ COp.dec 0x80518725 = some (.fb 0x20 5 6 7 9 1) ∧
      COp.dec 0 = none ∧ COp.dec 0x20108301 = none := by decide +kernel

/-- Table 12-1, one word of each of three formats, bit by bit: ADDI g1, g0, 5; a load of g1 at g2 − 4; an integer operation on
g31, g30 and g29. The all-zero word spells none. -/
theorem test_pretan_words :
    reads ⟨0x02, [(21, 5, 1), (16, 5, 0), (0, 16, 5)]⟩ 0x08200005 = true ∧ reads (.m 0x10 1 2 0xFFC) 0x40220FFC = true ∧
      reads (.a 0x01 31 30 29) 0x07FEE800 = true ∧ reads (.a 0x01 31 30 28) 0x07FEE800 = false ∧ illegalWord 0 = true := by
  decide +kernel

/-! ## Single commands -/

/-- A step takes the front command: ADDI g1, g0, 5 at level M. -/
theorem test_step_addi :
    (match step { st (pw ⟨0x02, [(21, 5, 1), (16, 5, 0), (0, 16, 5)]⟩ (pd pc0)) with pending := [.addi 0 1 0 5, .npb 0] } with
      | .next t => (coreOf 0 t.dev).get 1 == 5 && (coreOf 0 t.dev).x.pc == 4 && t.pending == [.npb 0]
      | _ => false) = true := by decide +kernel
/-- g0 reads 0 whatever is written to it (R386). -/
theorem test_g0 :
    (match exec (.addi 0 0 0 5) (st (pw ⟨0x02, [(21, 5, 0), (16, 5, 0), (0, 16, 5)]⟩ (pd pc0))) with
      | .next t => (coreOf 0 t.dev).get 0 == 0 && (coreOf 0 t.dev).x.pc == 4
      | _ => false) = true := by decide +kernel
/-- SD through a page table puts the register's bytes in memory, lowest first (R388, R389); LW reads them sign-extended. -/
theorem test_store :
    (match exec (.sd 0 1 0 0x40 .clean) (st (pw (.m 0x11 1 0 0x40)
      (pdU { pcP with x := { pcP.x with g := [(1, 0x8877665544332211)] } }))) with
      | .next t => dramRead 0x40 8 t.dev == [0x11, 0x22, 0x33, 0x44, 0x55, 0x66, 0x77, 0x88] && dramGet 0x48 t.dev == 0
      | _ => false) = true := by decide +kernel
theorem test_load :
    (match exec (.lw 0 1 0 0x40 .clean) (st (pw (.m 0x10 1 0 0x40) (dramWrite 0x40 [0, 0, 0, 0x80] (pd pc0)))) with
      | .next t => (coreOf 0 t.dev).get 1 == 0xFFFFFFFF80000000
      | _ => false) = true := by decide +kernel
/-- A misaligned load raises ALIGN with the address in EVAL (R388, Table 12-7), and EPC names the load. -/
theorem test_align :
    (match exec (.lw 0 1 0 0x41 .clean) (st (pw (.m 0x10 1 0 0x41) (pd pc0))) with
      | .next t => (coreOf 0 t.dev).em.code == 3 && (coreOf 0 t.dev).em.eval == 0x41 && (coreOf 0 t.dev).em.epc == 0 &&
          (coreOf 0 t.dev).em.eact
      | _ => false) = true := by decide +kernel
/-- A register command at an address Table 11-2 does not map is a bus error: a read shows 0, and nothing else happens (R358,
R360). -/
theorem test_unmapped :
    (match exec (.registerWrite 0xFE00000000 0 ⟨0, .m⟩) (st up) with
      | .next t => decide (t = st up)
      | _ => false) = true ∧
    (match exec (.rcRead 0xFE00000000 ⟨0, .m⟩) (st { up with rdata := 5 }) with
      | .next t => decide (t = st up)
      | _ => false) = true := by decide +kernel
/-- The all-zero word spells no instruction: a core that runs into it raises ILLEGAL, whatever instruction is named (R388). -/
theorem test_zero_word :
    (match exec (.addi 0 1 0 5) (st (pd pc0)) with
      | .next t => (coreOf 0 t.dev).em.code == 1 && (coreOf 0 t.dev).get 1 == 0
      | _ => false) = true := by decide +kernel
/-- PUSH of one item and END, made presentable, is popped from a queue between cores (R364, R365). -/
theorem test_queue :
    (match exec (.queuePop 36 .clean ⟨0, .m⟩) (st (q1 36 [7] up)) with
      | .next t => t.dev.rdata == 7
      | _ => false) = true := by decide +kernel

end Sys2Proof.Tests
end

section
/-! Proofs/PairWrites.lean: 32-bit writes that reach their island, and the low word a pair holds until its high word is written
(R10). -/

namespace Sys2Proof.Proofs

open Sys2Proof Sys2Proof.Machine Sys2Proof.Safety Sys2Proof.Laws

/-! ## What the held low words leave alone -/

theorem set_held_zero (a : Nat) (d : Dev) : { d with held := tset d.held a 0 0 } = unheld a d := rfl

@[simp] theorem payRefused_unheld (w : Who) (a b : Nat) (d : Dev) : payRefused w a (unheld b d) = payRefused w a d := rfl

@[simp] theorem blocked_unheld (w : Who) (a b : Nat) (d : Dev) : blocked w a (unheld b d) = blocked w a d := rfl

@[simp] theorem tget_unheld_same (a : Nat) (d : Dev) : tget (unheld a d).held a 0 = 0 := tget_tset_same d.held a 0 0

@[simp] theorem inc_held (f : Fld) (d : Dev) : (inc f d).held = d.held := rfl

@[simp] theorem blockedNote_held (a : Nat) (d : Dev) : (blockedNote a d).held = d.held := by
  unfold blockedNote
  split
  · exact inc_held _ _
  · rfl

/-! ## A 32-bit write to a pair's words (R10) -/

section RegWrite

variable {fu : Fuses} {w : Who} {a : Nat} {v : W32} {d : Dev}

/-- A low word that is no high word as well is held, and the block is otherwise as it was. -/
theorem regWrite_pairLow (hu : unassigned a = false) (hl : pairLow a = true) (hh : pairHigh a = false)
    (hb : blocked w a d = false) : regWrite fu w a v d = { d with held := tset d.held a v 0 } := by
  simp [regWrite, hu, hl, hh, hb]

/-- A high word taken writes the pair's 64 bits with the held low word, which is 0 before they take effect. -/
theorem regWrite_pairHigh (hu : unassigned a = false) (hh : pairHigh a = true) (hp : payRefused w (a - 4) d = false)
    (hb : blocked w (a - 4) d = false) :
    regWrite fu w a v d =
      wholeWrite fu w (a - 4) ((tget d.held (a - 4) 0).toNat + v.toNat * 2 ^ 32) (unheld (a - 4) d) := by
  simp only [regWrite, hu, hh, set_held_zero, payRefused_unheld, blocked_unheld, hp, hb, Bool.and_false, Bool.false_eq_true,
    if_true, if_false]

/-- A high word refused or ignored changes the held low words in nothing but that the pair's own is 0. -/
theorem regWrite_pairHigh_held (hu : unassigned a = false) (hh : pairHigh a = true)
    (h : payRefused w (a - 4) d = true ∨ blocked w (a - 4) d = true) :
    (regWrite fu w a v d).held = (unheld (a - 4) d).held := by
  by_cases hp : payRefused w (a - 4) d = true
  · simp only [regWrite, hu, hh, set_held_zero, payRefused_unheld, hp, Bool.and_self, Bool.false_eq_true, if_true, if_false]
    split
    · exact inc_held _ _
    · rfl
  · have hb := h.resolve_left hp
    simp only [regWrite, hu, hh, set_held_zero, payRefused_unheld, blocked_unheld, hp, hb, Bool.and_false, Bool.false_eq_true,
      if_true, if_false, blockedNote_held]

end RegWrite

/-! ## A write command that reaches its island -/

/-- A 32-bit write to a window that runs and that its requester may reach is the register write (R357, R359). -/
theorem mmioWrite_word {fu : Fuses} {w : Who} {a : Nat} {d : Dev} (v : W32) (hm : winOf a ≠ .unmapped)
    (hs : winOf a ≠ .sram) (hr : mayReach w a = true) (hi : isUp (winIsl (winOf a)) d = true) :
    mmioWrite fu w 4 a v.toNat d = some (regWrite fu w a v d) := by
  simp [mmioWrite, hm, hs, hr, whenUp_up hi]

/-- A write command that reaches its island answers the register write, with the ties of its raw count. -/
theorem writeAccess_eq {s : State} {a : BitVec 40} {w : Who} {d : Dev} (v : W32) (hd : d = ties s.pending (start s))
    (hm : winOf a.toNat ≠ .unmapped) (hs : winOf a.toNat ≠ .sram) (hr : mayReach w a.toNat = true)
    (hi : isUp (winIsl (winOf a.toNat)) d = true) :
    writeAccess a v w s = .next (after s (regWrite s.fuses w a.toNat v d)) := by
  subst hd
  rw [writeAccess, regAccess, onDev_eq, mmioWrite_word v hm hs hr hi, Option.getD_some]

theorem exec_pairLowWrite (a : BitVec 40) (v : W32) (w : Who) (s : State) :
    exec (.pairLowWrite a v w) s = writeAccess a v w s := rfl

theorem exec_pairHighWrite (a : BitVec 40) (v : W32) (w : Who) (s : State) :
    exec (.pairHighWrite a v w) s = writeAccess a v w s := rfl

/-- No pair holds a low word after reset. -/
theorem reset_held (a : Nat) : tget State.reset.dev.held a 0 = 0 := rfl

/-- Settles O10: each command is the register write, whose three cases are the held low word, the high word taken and the
high word refused or ignored. -/
theorem pairWrites : Obligations.PairWrites := by
  unfold Obligations.PairWrites
  refine ⟨reset_held, fun s d a v w hd hm hs hr hi hu => ⟨fun hl hh hb => ?low, fun hh hp hb => ?high, fun hh h => ?ignored⟩⟩
  case low => rw [Runs, exec_pairLowWrite, writeAccess_eq v hd hm hs hr hi, regWrite_pairLow hu hl hh hb]
  case high =>
    rw [Runs, exec_pairHighWrite, writeAccess_eq v hd hm hs hr hi, regWrite_pairHigh hu hh hp hb]
    rfl
  case ignored =>
    refine ⟨_, (exec_pairHighWrite a v w s).trans (writeAccess_eq v hd hm hs hr hi), ?_⟩
    change tget (regWrite s.fuses w a.toNat v d).held (a.toNat - 4) 0 = 0
    rw [regWrite_pairHigh_held hu hh h, tget_unheld_same]

end Sys2Proof.Proofs
end

section
/-! Proofs/Locks.lean: reads and writes of a lock that reach SCH (R376, R377). -/

namespace Sys2Proof.Proofs

open Sys2Proof Sys2Proof.Machine Sys2Proof.Safety Sys2Proof.Laws

/-! ## The effect of a read and of a write (R376, R377) -/

section LockEffects

variable {n rq v : Nat} {d : Dev}

theorem lockRead_free (h : lockOf n d = 0) : lockRead n rq d = { lockSet n (rq + 1) d with rdata := 0 } := if_pos h

theorem lockRead_held (h : lockOf n d ≠ 0) : lockRead n rq d = { d with rdata := BitVec.ofNat 64 (lockOf n d) } := if_neg h

theorem lockRead_free_rdata (h : lockOf n d = 0) : (lockRead n rq d).rdata = 0 := by rw [lockRead_free h]

theorem lockRead_free_lock (h : lockOf n d = 0) : (lockRead n rq d).lock = (lockSet n (rq + 1) d).lock := by
  rw [lockRead_free h]

/-- A read of a free lock makes the reader its holder. -/
theorem lockOf_lockRead_free (h : lockOf n d = 0) : lockOf n (lockRead n rq d) = rq + 1 := by
  rw [lockOf, lockRead_free_lock h, ← lockOf, lockOf_lockSet]

/-- A read of a free lock leaves the other locks as they were. -/
theorem lockOf_lockRead_free_ne {m : Nat} (h : lockOf n d = 0) (hm : m ≠ n) : lockOf m (lockRead n rq d) = lockOf m d := by
  rw [lockOf, lockRead_free_lock h, ← lockOf, lockOf_lockSet_ne _ _ hm]

theorem lockWrite_owner (h : lockOf n d = rq + 1 ∧ v = rq) : lockWrite n rq v d = lockSet n 0 d := if_pos h

theorem lockWrite_other (h : ¬ (lockOf n d = rq + 1 ∧ v = rq)) : lockWrite n rq v d = inc SCH.LOCKERR d := if_neg h

end LockEffects

/-! ## What is kept of the answers (R378) -/

/-- The block with the answers of a LOCK_READ kept, each with its reader's number. -/
def withSeen (l : List (Nat × Nat)) (d : Dev) : Dev := { d with lockSeen := l }

@[simp] theorem isUp_withSeen (i : Nat) (l : List (Nat × Nat)) (d : Dev) : isUp i (withSeen l d) = isUp i d := rfl

@[simp] theorem lockOf_withSeen (n : Nat) (l : List (Nat × Nat)) (d : Dev) : lockOf n (withSeen l d) = lockOf n d := rfl

/-- A read of a lock does not look at the answers kept, and leaves them. -/
@[simp] theorem lockRead_withSeen (n rq : Nat) (l : List (Nat × Nat)) (d : Dev) :
    lockRead n rq (withSeen l d) = withSeen l (lockRead n rq d) := by
  by_cases h : lockOf n d = 0
  · rw [lockRead_free h, lockRead_free ((lockOf_withSeen n l d).trans h)]
    rfl
  · rw [lockRead_held h, lockRead_held (by rwa [lockOf_withSeen])]
    rfl

/-- A reader whose read reaches SCH reads the lock, and its answer is kept after the others. -/
theorem lockReadBy_withSeen {n : Nat} {w : Who} {d : Dev} (l : List (Nat × Nat)) (hi : isUp SCHi d = true)
    (hl : lvlOk false w = true) :
    lockReadBy n w (withSeen l d) =
      withSeen (l ++ [(w.rq.val, (lockRead n w.rq d).rdata.toNat)]) (lockRead n w.rq d) := by
  rw [lockReadBy, isUp_withSeen, hi, hl, Bool.and_self, if_pos rfl, lockRead_withSeen]
  rfl

theorem forAll_append {α : Type} (l k : List α) (f : α → Dev → Dev) (d : Dev) :
    forAll (l ++ k) f d = forAll k f (forAll l f d) := List.foldl_append

/-- Of the turns of the requester numbers below k, a lone reader has its own, and no other does anything. -/
theorem forAll_turns_singleton (w : Who) (f : Who → Dev → Dev) (d : Dev) (k : Nat) :
    forAll (List.range k) (fun r d => forAll ([w].filter (fun q => q.rq.val == r)) f d) d =
      if w.rq.val < k then f w d else d := by
  induction k with
  | zero => rfl
  | succ k ih =>
    rw [List.range_succ, forAll_append, ih]
    obtain hlt | heq | hgt := Nat.lt_trichotomy w.rq.val k
    · simp [forAll, hlt, hlt.ne, Nat.lt_succ_of_lt hlt]
    · simp [forAll, heq]
    · simp [forAll, hgt.ne', hgt.not_gt, Nat.not_lt.mpr (Nat.succ_le_of_lt hgt)]

/-! ## The commands -/

theorem exec_lockRead (n : Fin 128) (l : List Who) (s : State) : exec (.lockRead n l) s = execLockRead n l s := rfl

theorem exec_lockWrite (n : Fin 128) (v : Fin 16) (w : Who) (s : State) :
    exec (.lockWrite n v w) s = execLockWrite n v w s := rfl

section Commands

variable {s : State} {n : Fin 128} {w : Who}

/-- LOCK_READ by one requester that reaches SCH is its read of the lock, whose answer alone is kept. -/
theorem exec_lockRead_singleton (hi : isUp SCHi (start s) = true) (hl : lvlOk false w = true) :
    exec (.lockRead n [w]) s =
      .next (after s (withSeen [(w.rq.val, (lockRead n w.rq (start s)).rdata.toNat)] (lockRead n w.rq (start s)))) := by
  rw [exec_lockRead, execLockRead, onDev_eq, forAll_turns_singleton, if_pos w.rq.isLt, ← withSeen,
    lockReadBy_withSeen [] hi hl, List.nil_append]

/-- LOCK_WRITE that reaches SCH is the write of the lock. -/
theorem exec_lockWrite_up {v : Fin 16} (hi : isUp SCHi (start s) = true) (hl : lvlOk false w = true) :
    exec (.lockWrite n v w) s = .next (after s (lockWrite n w.rq v (start s))) := by
  rw [exec_lockWrite, execLockWrite, onDev_eq, hl, whenB, if_pos rfl, whenUp_up hi]

/-- A lone read of a held lock shows its holder plus 1 and leaves the lock to it. -/
theorem runs_lockRead_held {h : Fin 16} (hi : isUp SCHi (start s) = true) (hl : lvlOk false w = true)
    (hh : lockOf n (start s) = h.val + 1) :
    Runs (.lockRead n [w]) s
      (after s { start s with rdata := BitVec.ofNat 64 (h.val + 1), lockSeen := [(w.rq.val, h.val + 1)] }) := by
  have hword : (BitVec.ofNat 64 (h.val + 1)).toNat = h.val + 1 := by rw [BitVec.toNat_ofNat]; omega
  rw [Runs, exec_lockRead_singleton hi hl, lockRead_held (by omega), hh, hword, withSeen]

end Commands

/-- Settles O12: a lone reader's read is the read of the lock, which takes a free one and leaves a held one. -/
theorem lockReads : Obligations.LockReads := by
  unfold Obligations.LockReads
  rintro s _ n w rfl hi hl
  exact ⟨fun hfree => ⟨_, exec_lockRead_singleton hi hl, lockRead_free_rdata hfree, lockOf_lockRead_free hfree,
      fun m hm => lockOf_lockRead_free_ne hfree hm⟩,
    fun h hheld => runs_lockRead_held hi hl hheld⟩

/-- Settles O13: the write of the lock frees it for its holder's own number, and otherwise counts in LOCKERR. -/
theorem lockWrites : Obligations.LockWrites := by
  unfold Obligations.LockWrites
  rintro s _ n v w rfl hi hl
  refine ⟨fun hown hv => ⟨after s (lockSet n 0 (start s)), ?frees, lockOf_lockSet _ _ _, fun m hm => lockOf_lockSet_ne _ _ hm⟩,
    fun hno => ?counted⟩
  case frees => rw [Runs, exec_lockWrite_up hi hl, lockWrite_owner ⟨hown, congrArg Fin.val hv⟩]
  case counted => rw [Runs, exec_lockWrite_up hi hl, lockWrite_other fun ⟨hown, hv⟩ => hno ⟨hown, Fin.ext hv⟩]

end Sys2Proof.Proofs
end

section
/-! Proofs/Returns.lean: a core's instruction that retires or traps, and the return from an exception (R404, R411). -/

namespace Sys2Proof.Proofs

open Sys2Proof Sys2Proof.Machine Sys2Proof.Safety Sys2Proof.Laws

/-! ## A core set changes no operation of the graphs -/

section Operations

variable (n : Nat) (c : Core) (d : Dev)

@[simp] theorem infOf_coreSet (k : Nat) : infOf k (coreSet n c d) = infOf k d := rfl
@[simp] theorem graphOf_coreSet (h : Nat) : graphOf h (coreSet n c d) = graphOf h d := rfl
@[simp] theorem opRead_coreSet (a : Nat) : opRead a (coreSet n c d) = opRead a d := rfl

end Operations

/-! ## The boundary after an instruction (R404, R439) -/

section Boundary

variable {n : Nat} {c c' : Core} {d : Dev}

/-- Of a core, a cancellation asks only which operation it runs. -/
theorem uncancelled_coreSet_congr (hr : c'.run = c.run) (h : Uncancelled n (coreSet n c d)) :
    Uncancelled n (coreSet n c' d) := by
  have he : c'.entry = c.entry := by rw [Core.entry, Core.entry, hr]
  simpa [Uncancelled, he] using h

theorem cancelHere_uncancelled (h : Uncancelled n d) : cancelHere n d = d := by
  unfold cancelHere
  dsimp only
  split
  · rfl
  next k hk =>
    split
    · rfl
    next i hi =>
      split
      · rfl
      next g hg => simp [h k i g hk hi hg]

/-- An instruction that leaves the operation of its core running retires, where that is not to be cancelled. -/
theorem retires_uncancelled (hr : c'.run = c.run) (h : Uncancelled n (coreSet n c d)) :
    retires n c' d = coreSet n { c' with iret := c'.iret + 1 } d :=
  cancelHere_uncancelled (uncancelled_coreSet_congr hr h)

end Boundary

/-! ## What a command of a core answers -/

section Issued

variable {k : Code} {n : CoreNo} {w : Nat} {s : State} {d' : Dev} {f : Nat → Core → Dev → IRes}

/-- An instruction that is done retires. -/
theorem issue_done {c : Core} {d2 : Dev} (h : Issues n (start s) w d') (hk : reads k w = true)
    (hf : f w (coreOf n (start s)) d' = .done c d2) : issue k n s f = .next (after s (retires n c d2)) := by
  rw [issue, onDev_eq, issue_eq h hk, hf, settle, retires]

/-- An instruction that traps is left at its own address. -/
theorem issue_trap {t : Trap} {c : Core} {d2 : Dev} (h : Issues n (start s) w d') (hk : reads k w = true)
    (hf : f w (coreOf n (start s)) d' = .trap t c d2) :
    issue k n s f = .next (after s (cancelHere n (takeTrap n t c.x.pc (coreSet n c d2)))) := by
  rw [issue, onDev_eq, issue_eq h hk, hf, settle]

end Issued

/-! ## The core after the return (R411) -/

section Leave

variable (c : Core) (raw : Nat)

@[simp] theorem exc_setExc (l : Level) (x : ExcRegs) : (c.setExc l x).exc l = x := by
  unfold Core.exc Core.setExc
  by_cases hm : l = .m <;> simp [hm]

@[simp] theorem setExc_run (l : Level) (x : ExcRegs) : (c.setExc l x).run = c.run := by
  unfold Core.setExc
  by_cases hm : l = .m <;> simp [hm]

@[simp] theorem leave_pc : (c.leave raw).x.pc = (c.exc c.x.lvl).epc := rfl
@[simp] theorem leave_lvl : (c.leave raw).x.lvl = (c.exc c.x.lvl).plev := rfl
@[simp] theorem leave_np : (c.leave raw).np = (c.exc c.x.lvl).pnp := rfl
@[simp] theorem leave_run : (c.leave raw).run = c.run := setExc_run _ _ _

/-- The level's registers keep everything but EACT, which clears. -/
@[simp] theorem leave_exc : (c.leave raw).exc c.x.lvl = { c.exc c.x.lvl with eact := false } := exc_setExc _ _ _

theorem leave_npAt (h : (c.exc c.x.lvl).pnp = true) : (c.leave raw).npAt = raw := if_pos h

end Leave

/-- A section that begins now has run for no cycle (R416). -/
theorem npcnt_self (c : Core) : c.npcnt c.npAt = 0 := by simp [Core.npcnt, coreCycles]

/-! ## The command -/

section Eret

variable {s : State} {n : CoreNo} {w : Nat} {d' : Dev}

theorem exec_eret (n : CoreNo) (s : State) : exec (.eret n) s = execEret n s := rfl

/-- ERET above U retires with the core it returns to. -/
theorem exec_eret_above (h : Issues n (start s) w d') (hk : reads (.d 0x37 3 []) w = true)
    (hl : (coreOf n (start s)).x.lvl ≠ .u) :
    exec (.eret n) s = .next (after s (retires n ((coreOf n (start s)).leave d'.raw) d')) :=
  (exec_eret n s).trans (issue_done h hk (if_neg hl))

/-- ERET at U raises PRIV. -/
theorem exec_eret_u (h : Issues n (start s) w d') (hk : reads (.d 0x37 3 []) w = true)
    (hl : (coreOf n (start s)).x.lvl = .u) :
    exec (.eret n) s = .next (after s (cancelHere n
      (takeTrap n ⟨xPriv, w, false⟩ (coreOf n (start s)).x.pc (coreSet n (coreOf n (start s)) d')))) :=
  (exec_eret n s).trans (issue_trap h hk (if_pos hl))

end Eret

/-- Settles O16: above U the command retires with the core it returns to, whose parts are the level's registers; at U it is the
trap. -/
theorem eretReturns : Obligations.EretReturns := by
  unfold Obligations.EretReturns
  rintro s _ n w d' _ rfl hi rfl hk
  refine ⟨fun hl hu => ?above, exec_eret_u hi hk⟩
  case above =>
    generalize hc : coreOf n (start s) = c at hu ⊢
    have hret : retires n (c.leave d'.raw) d' =
        coreSet n { c.leave d'.raw with iret := (c.leave d'.raw).iret + 1 } d' :=
      retires_uncancelled (leave_run c d'.raw) hu
    refine ⟨_, exec_eret_above hi hk hl, ?_⟩
    rw [hc, hret]
    simp only [after, coreOf_coreSet, coreSet_raw]
    refine ⟨leave_pc .., leave_lvl .., leave_np .., ?eact, fun hp => ?npcnt⟩
    case eact => exact congrArg ExcRegs.eact (leave_exc c d'.raw)
    case npcnt =>
      have h0 := npcnt_self (c.leave d'.raw)
      rwa [leave_npAt c d'.raw hp] at h0

end Sys2Proof.Proofs
end

section
/-! Proofs/FramePool.lean: the state of a frame's entry, the search for a free block, and the pool's commands that reach MEM
(R454, R456). -/

namespace Sys2Proof.Proofs

open Sys2Proof Sys2Proof.Machine Sys2Proof.Safety Sys2Proof.Laws

/-! ## The first byte of a write to DRAM -/

section FirstByte

variable {a b v : Nat} {d : Dev}

theorem dramGet_dramPut_same (h : a < dramSize) : dramGet a (dramPut a v d) = v % 256 := by
  simp only [dramPut, if_pos h, dramGet, tget_tset_same, BitVec.toNat_ofNat, Nat.reducePow]

theorem dramGet_dramPut_ne (h : b ≠ a) : dramGet b (dramPut a v d) = dramGet b d := by
  unfold dramPut
  split
  · exact congrArg BitVec.toNat (tget_tset_ne _ _ _ _ h)
  · rfl

/-- Bytes put from an address up leave those below it as they were. -/
theorem dramGet_foldl_dramPut_below (l : List Nat) {k : Nat} (h : b < a + k) (d : Dev) :
    dramGet b ((l.zipIdx k).foldl (fun d e => dramPut (a + e.2) e.1 d) d) = dramGet b d := by
  induction l generalizing k d with
  | nil => rfl
  | cons x r ih =>
    rw [List.zipIdx_cons, List.foldl_cons, ih (Nat.lt_succ_of_lt h), dramGet_dramPut_ne h.ne]

/-- The first byte written is the one read back where the write begins. -/
theorem dramGet_dramWrite_head (h : a < dramSize) (l : List Nat) : dramGet a (dramWrite a (v :: l) d) = v % 256 := by
  rw [dramWrite, List.zipIdx_cons, List.foldl_cons, dramGet_foldl_dramPut_below l (Nat.lt_succ_self a)]
  exact dramGet_dramPut_same h

@[simp] theorem dramPut_regs : (dramPut a v d).regs = d.regs := by
  unfold dramPut
  split <;> rfl

@[simp] theorem dramWrite_regs (l : List Nat) : (dramWrite a l d).regs = d.regs :=
  foldl_keeps (P := fun e : Dev => e.regs = d.regs) (fun _ _ h => dramPut_regs.trans h) _ (unmarked _ _ d) rfl

end FirstByte

/-! ## The state of a frame's entry (R454, Table 14-2) -/

section Entry

variable {f st pte : Nat} {d d' : Dev}

/-- In a frame table that lies in DRAM every frame's entry begins there. -/
theorem ftAddr_lt (h : rd MEM.FTBASE d + 8 * frames ≤ dramSize) (hf : f < frames) : ftAddr f d < dramSize := by
  rw [ftAddr]
  omega

/-- The state stands in the entry's first byte. -/
theorem ftState_ftGet (f : Nat) (d : Dev) : ftState (ftGet f d) = dramGet (ftAddr f d) d % 8 := by
  simp only [ftState, bits, ftGet, dramRead, List.range_succ_eq_map, List.map_cons, ofLe, Nat.add_zero]
  omega

/-- An entry put in a state reads that state. -/
theorem ftState_ftSet (h : ftAddr f d < dramSize) : ftState (ftGet f (ftSet f st pte d)) = st % 8 := by
  have haddr : ftAddr f (ftSet f st pte d) = ftAddr f d := by
    simp only [ftAddr, rd, ftSet, ftPut, dramWrite_regs]
  rw [ftState_ftGet, haddr, ftSet, ftPut, leBytes, dramGet_dramWrite_head h, ftMake]
  omega

/-- An entry is read from memory at a place FTBASE gives. -/
theorem ftGet_congr (hm : d'.mem = d.mem) (hb : rd MEM.FTBASE d' = rd MEM.FTBASE d) : ftGet f d' = ftGet f d := by
  simp only [ftGet, ftAddr, dramRead, dramGet, hm, hb]

/-- What a read answers is no part of the frame table. -/
@[simp] theorem ftGet_rdata (f : Nat) (v : W64) (d : Dev) : ftGet f { d with rdata := v } = ftGet f d := rfl

/-- The count of free frames is kept apart from the frame table. -/
@[simp] theorem ftGet_poolMove (f : Nat) (k : Int) (d : Dev) : ftGet f (poolMove k d) = ftGet f d := by
  unfold poolMove
  split
  · refine ftGet_congr rfl ?_
    rw [poolSet, wrB, rd_wr_ne _ _ (by decide), rd_wr_ne _ _ (by decide)]
  · rfl

end Entry

/-! ## The search for a free block (R456, R457) -/

section Search

variable {n f k : Nat} {d : Dev}

theorem allFree_one : allFree f 1 d = true ↔ ftState (ftGet f d) = fFree := by simp [allFree]

/-- A block taken lies in DRAM and is free. -/
theorem pickBlock_some (h : pickBlock n d = some f) : f + n ≤ frames ∧ allFree f n d = true := by
  simp only [pickBlock, Option.map_eq_some_iff] at h
  obtain ⟨i, hi, rfl⟩ := h
  refine ⟨?_, by simpa using List.find?_some hi⟩
  have hpos : 0 < frames / n := Nat.zero_lt_of_lt (List.mem_range.mp (List.mem_of_find?_eq_some hi))
  calc _ = ((_ + i) % (frames / n) + 1) * n := (Nat.succ_mul _ n).symm
    _ ≤ frames / n * n := Nat.mul_le_mul_right n (Nat.mod_lt _ hpos)
    _ ≤ frames := Nat.div_mul_le_self frames n

/-- A search round m places from any of them comes to each. -/
theorem exists_add_mod_eq {m : Nat} (h : Nat) (hk : k < m) : ∃ i < m, (h % m + i) % m = k := by
  have hh : h % m < m := Nat.mod_lt _ (Nat.zero_lt_of_lt hk)
  obtain hlt | hge := Nat.lt_or_ge k (h % m)
  · refine ⟨k + m - h % m, by omega, ?_⟩
    rw [Nat.add_sub_cancel' (by omega), Nat.add_mod_right, Nat.mod_eq_of_lt hk]
  · exact ⟨k - h % m, by omega, by rw [Nat.add_sub_cancel' hge, Nat.mod_eq_of_lt hk]⟩

/-- Where no block is found, none is free: the search comes to every one. -/
theorem pickBlock_none (h : pickBlock n d = none) (hk : k < frames / n) : allFree (k * n) n d = false := by
  simp only [pickBlock, Option.map_eq_none_iff, List.find?_eq_none, List.mem_range] at h
  obtain ⟨i, hi, rfl⟩ := exists_add_mod_eq (freeOf d).toNat hk
  exact Bool.eq_false_iff.mpr (h i hi)

theorem lt_of_pickBlock (h : pickBlock 1 d = some f) : f < frames := Nat.lt_of_succ_le (pickBlock_some h).1

theorem ftState_of_pickBlock (h : pickBlock 1 d = some f) : ftState (ftGet f d) = fFree :=
  allFree_one.mp (pickBlock_some h).2

theorem ftState_ne_of_pickBlock_none (h : pickBlock 1 d = none) (hf : f < frames) : ftState (ftGet f d) ≠ fFree := by
  have hnot := pickBlock_none h (k := f) (Nat.lt_of_lt_of_eq hf (Nat.div_one frames).symm)
  rw [Nat.mul_one] at hnot
  exact fun hfree => Bool.false_ne_true (hnot.symm.trans (allFree_one.mpr hfree))

end Search

/-! ## The effect of taking and of giving a frame (R456) -/

section PoolEffects

variable {f : Nat} {d : Dev}

/-- What a read does with the outcome of the search. The definition is unfolded as a function: unfolded at a block, the kernel
would carry the search out. -/
theorem poolTake_eq {o : Option Nat} (h : pickBlock 1 d = o) :
    poolTake d = o.elim { drawn d with rdata := 0xFFFFFFFF }
      fun f => { poolMove (-1) (ftSet f fOther 0 (drawn d)) with rdata := BitVec.ofNat 64 f } := by
  conv_lhs =>
    fun
    delta poolTake
  rw [h]
  cases o with
  | none => rfl
  | some f => rfl

theorem poolTake_none (h : pickBlock 1 d = none) : poolTake d = { drawn d with rdata := 0xFFFFFFFF } := poolTake_eq h

theorem poolTake_some (h : pickBlock 1 d = some f) :
    poolTake d = { poolMove (-1) (ftSet f fOther 0 (drawn d)) with rdata := BitVec.ofNat 64 f } := poolTake_eq h

/-- Taking a frame answers its number. -/
theorem poolTake_rdata (h : pickBlock 1 d = some f) : (poolTake d).rdata.toNat = f := by
  have hlt : f < 2 ^ 64 := Nat.lt_of_lt_of_le (lt_of_pickBlock h) (by decide)
  rw [poolTake_some h, BitVec.toNat_ofNat, Nat.mod_eq_of_lt hlt]

/-- The frame taken is OTHER. -/
theorem ftState_poolTake (h : pickBlock 1 d = some f) (ha : ftAddr f d < dramSize) :
    ftState (ftGet f (poolTake d)) = fOther := by
  rw [poolTake_some h, ftGet_rdata, ftGet_poolMove]
  exact ftState_ftSet ha

theorem poolGive_taken (hf : f < frames) (h : ftState (ftGet f d) = fOther ∨ ftState (ftGet f d) = fMapped) :
    poolGive f d = poolMove 1 (ftSet f fFree 0 d) := if_pos ⟨hf, h⟩

theorem poolGive_refused (h : ¬ (f < frames ∧ (ftState (ftGet f d) = fOther ∨ ftState (ftGet f d) = fMapped))) :
    poolGive f d = inc MEM.POOLERR d := if_neg h

/-- The frame given back is FREE. -/
theorem ftState_poolGive (hf : f < frames) (h : ftState (ftGet f d) = fOther ∨ ftState (ftGet f d) = fMapped)
    (ha : ftAddr f d < dramSize) : ftState (ftGet f (poolGive f d)) = fFree := by
  rw [poolGive_taken hf h, ftGet_poolMove]
  exact ftState_ftSet ha

end PoolEffects

/-! ## The commands -/

section PoolCommands

variable {s : State} {w : Who}

@[simp] theorem after_dev (s : State) (d : Dev) : (after s d).dev = d := rfl

theorem exec_pooltake (w : Who) (s : State) : exec (.pooltake w) s = execPooltake w s := rfl

theorem exec_poolgive (f : BitVec 28) (w : Who) (s : State) : exec (.poolgive f w) s = execPoolgive f w s := rfl

/-- An access to MEM that its requester may make, while MEM runs, has its effect (R357, R359). -/
theorem onMem_up {b : Bool} (f : Dev → Dev) (hi : isUp MEMi (start s) = true) (hb : b = true) :
    onMem s (whenB b f) = .next (after s (f (start s))) := by
  rw [onMem, onDev_eq, whenUp_up hi, whenB, if_pos hb]

theorem runs_pooltake (hi : isUp MEMi (start s) = true) (hw : atS w = true) :
    Runs (.pooltake w) s (after s (poolTake (start s))) :=
  (exec_pooltake w s).trans (onMem_up _ hi hw)

theorem runs_poolgive (f : BitVec 28) (hi : isUp MEMi (start s) = true) (hw : atS w = true) :
    Runs (.poolgive f w) s (after s (poolGive f.toNat (start s))) :=
  (exec_poolgive f w s).trans (onMem_up _ hi hw)

end PoolCommands

/-- Settles O15: a read takes the block of one frame that the search finds, and where it finds none no frame is free; a write
frees a frame that is OTHER or MAPPED, and otherwise counts in POOLERR. -/
theorem poolFrames : Obligations.PoolFrames := by
  unfold Obligations.PoolFrames
  rintro s _ w rfl hi hw hbase
  have htake := runs_pooltake hi hw
  have hgive (f : BitVec 28) := runs_poolgive f hi hw
  refine ⟨fun f hf => ⟨ftState_of_pickBlock hf, _, htake, ?number, ?taken⟩,
    fun hnone => ⟨fun f hf => ftState_ne_of_pickBlock_none hnone hf, _, htake, ?empty⟩,
    fun f hf hst => ⟨_, hgive f, ?freed⟩, fun f hno => ?counted⟩
  case number => rw [after_dev, poolTake_rdata hf]
  case taken => rw [after_dev, ftState_poolTake hf (ftAddr_lt hbase (lt_of_pickBlock hf))]
  case empty => rw [after_dev, poolTake_none hnone]
  case freed => rw [after_dev, ftState_poolGive hf hst (ftAddr_lt hbase hf)]
  case counted => exact poolGive_refused hno ▸ hgive f

end Sys2Proof.Proofs
end

section
/-! Proofs/CycleCode.lean: the words of cycle instructions, field by field (R341, Table 10-2). -/

namespace Sys2Proof.Proofs

open Sys2Proof Sys2Proof.Machine

/-! ## The opcodes of the formats (Table 10-3) -/

theorem rOp_iff {op : Nat} : rOp op = true ↔ op = 1 ∨ op = 2 ∨ (8 ≤ op ∧ op ≤ 0x15) := decide_eq_true_iff
theorem sOp_iff {op : Nat} : sOp op = true ↔ 0x18 ≤ op ∧ op ≤ 0x1A := decide_eq_true_iff
theorem bOp_iff {op : Nat} : bOp op = true ↔ 0x20 ≤ op ∧ op ≤ 0x26 := decide_eq_true_iff

/-! ## The fields of a word -/

section Fields

variable {w op d a b lo : Nat}

/-- A word read as an opcode, three six-bit fields and a low byte. -/
structure Fields (w op d a b lo : Nat) : Prop where
  op : bits w 26 6 = op
  d : bits w 20 6 = d
  a : bits w 14 6 = a
  b : bits w 8 6 = b
  lo : bits w 0 8 = lo

/-- Fields within their widths are read back from the word they are put together to. -/
theorem fields_packed (ho : op < 64) (hd : d < 64) (ha : a < 64) (hb : b < 64) (hl : lo < 256)
    (hw : w = op * 2 ^ 26 + d * 2 ^ 20 + a * 2 ^ 14 + b * 2 ^ 8 + lo) : Fields w op d a b lo := by
  constructor <;> simp only [bits, hw] <;> omega

end Fields

/-! ## Decoding by format -/

section Decode

variable {w op d a b lo : Nat}

theorem dec_r (h : Fields w op d a b 0) (ho : rOp op = true) : COp.dec w = some (.fr op d a b) := by
  obtain ⟨rfl, rfl, rfl, rfl, hl⟩ := h
  simp only [COp.dec, ho, hl, if_true]

theorem dec_k (h : Fields w 3 d a b lo) : COp.dec w = some (.fk d (bits w 0 20)) := by
  obtain ⟨ho, rfl, rfl, rfl, hl⟩ := h
  simp [COp.dec, ho, rOp]

theorem dec_m (h : Fields w op d a b 0) (ho : op = 4 ∨ op = 5) : COp.dec w = some (.fm op d (bits w 8 12)) := by
  obtain ⟨hop, rfl, rfl, rfl, hl⟩ := h
  have hr : ¬ rOp op = true := by rw [rOp_iff]; omega
  have h3 : op ≠ 3 := by omega
  simp only [COp.dec, hop, hr, h3, ho, hl, Bool.false_eq_true, if_true, if_false]

theorem dec_p (h : Fields w op d a b lo) (ho : op = 6 ∨ op = 7) (hty : bits w 5 3 = 7 ∨ bits w 0 5 = 0) :
    COp.dec w = some (.fp op d a b (bits w 5 3) (bits w 0 5)) := by
  obtain ⟨hop, rfl, rfl, rfl, hl⟩ := h
  have hr : ¬ rOp op = true := by rw [rOp_iff]; omega
  have h3 : op ≠ 3 := by omega
  have h4 : ¬ (op = 4 ∨ op = 5) := by omega
  simp only [COp.dec, hop, hr, h3, h4, ho, hty, Bool.false_eq_true, if_true, if_false]

theorem dec_s (h : Fields w op d a b 0) (ho : sOp op = true) (hb : b ≠ 0) (ha : op = 0x1A ∨ a = 0) :
    COp.dec w = some (.fs op d a b) := by
  obtain ⟨hop, rfl, rfl, rfl, hl⟩ := h
  have hs := sOp_iff.mp ho
  have hr : ¬ rOp op = true := by rw [rOp_iff]; omega
  have h3 : op ≠ 3 := by omega
  have h4 : ¬ (op = 4 ∨ op = 5) := by omega
  have h6 : ¬ (op = 6 ∨ op = 7) := by omega
  simp only [COp.dec, hop, hr, h3, h4, h6, ho, hl, hb, ha, ne_eq, not_false_eq_true, and_self, Bool.false_eq_true, if_true, if_false]

theorem dec_b (h : Fields w op d a b lo) (ho : bOp op = true) (hsub : bits w 0 2 = 0 ∨ (op = 0x20 ∧ bits w 0 2 = 1))
    (hunit : op ≠ 0x22 ∨ bits w 2 6 = 0) : COp.dec w = some (.fb op d a b (bits w 2 6) (bits w 0 2)) := by
  obtain ⟨hop, rfl, rfl, rfl, hl⟩ := h
  have hb := bOp_iff.mp ho
  have hr : ¬ rOp op = true := by rw [rOp_iff]; omega
  have h3 : op ≠ 3 := by omega
  have h4 : ¬ (op = 4 ∨ op = 5) := by omega
  have h6 : ¬ (op = 6 ∨ op = 7) := by omega
  have hs : ¬ sOp op = true := by rw [sOp_iff]; omega
  simp only [COp.dec, hop, hr, h3, h4, h6, hs, ho, hsub, hunit, and_self, Bool.false_eq_true, if_true, if_false]

end Decode

/-! ## The round trip, and its way back -/

theorem enc_lt {c : COp} (h : c.wf = true) : c.enc < 2 ^ 32 := by
  cases c <;> simp only [COp.wf, Bool.and_eq_true, decide_eq_true_eq, rOp_iff, sOp_iff, bOp_iff] at h <;>
    simp only [COp.enc] <;> omega

theorem dec_enc {c : COp} (h : c.wf = true) : COp.dec c.enc = some c := by
  cases c with
  | fr op d a b =>
    simp only [COp.wf, Bool.and_eq_true, decide_eq_true_eq] at h
    obtain ⟨hop, hd, ha, hb⟩ := h
    have := rOp_iff.mp hop
    exact dec_r (fields_packed (by omega) hd ha hb (by omega) (by simp only [COp.enc, Nat.add_zero])) hop
  | fk d imm =>
    simp only [COp.wf, decide_eq_true_eq] at h
    obtain ⟨hd, hi⟩ := h
    have hf : Fields (COp.fk d imm).enc 3 d (imm / 2 ^ 14) (imm / 2 ^ 8 % 64) (imm % 256) :=
      fields_packed (by omega) hd (by omega) (by omega) (by omega) (by simp only [COp.enc]; omega)
    have himm : bits (COp.fk d imm).enc 0 20 = imm := by simp only [bits, COp.enc]; omega
    rw [dec_k hf, himm]
  | fm op d cell =>
    simp only [COp.wf, decide_eq_true_eq] at h
    obtain ⟨hop, hd, hc⟩ := h
    have hf : Fields (COp.fm op d cell).enc op d (cell / 64) (cell % 64) 0 :=
      fields_packed (by omega) hd (by omega) (by omega) (by omega) (by simp only [COp.enc]; omega)
    have hcell : bits (COp.fm op d cell).enc 8 12 = cell := by simp only [bits, COp.enc]; omega
    rw [dec_m hf hop, hcell]
  | fp op d mem off ty bt =>
    simp only [COp.wf, decide_eq_true_eq] at h
    obtain ⟨hop, hd, hm, ho, ht, hb, hr⟩ := h
    have hf : Fields (COp.fp op d mem off ty bt).enc op d mem off (ty * 2 ^ 5 + bt) :=
      fields_packed (by omega) hd hm ho (by omega) (by simp only [COp.enc]; omega)
    have hty : bits (COp.fp op d mem off ty bt).enc 5 3 = ty := by simp only [bits, COp.enc]; omega
    have hbt : bits (COp.fp op d mem off ty bt).enc 0 5 = bt := by simp only [bits, COp.enc]; omega
    rw [dec_p hf hop (by rwa [hty, hbt]), hty, hbt]
  | fs op a ph n =>
    simp only [COp.wf, Bool.and_eq_true, decide_eq_true_eq] at h
    obtain ⟨hop, ha, hp, hn, hn0, hr⟩ := h
    have := sOp_iff.mp hop
    exact dec_s (fields_packed (by omega) ha hp hn (by omega) (by simp only [COp.enc, Nat.add_zero])) hop hn0 hr
  | fb op d a b unit sub =>
    simp only [COp.wf, Bool.and_eq_true, decide_eq_true_eq] at h
    obtain ⟨hop, hd, ha, hb, hu, hs, hr⟩ := h
    have := bOp_iff.mp hop
    have hf : Fields (COp.fb op d a b unit sub).enc op d a b (unit * 2 ^ 2 + sub) :=
      fields_packed (by omega) hd ha hb (by omega) (by simp only [COp.enc]; omega)
    have hunit : bits (COp.fb op d a b unit sub).enc 2 6 = unit := by simp only [bits, COp.enc]; omega
    have hsub : bits (COp.fb op d a b unit sub).enc 0 2 = sub := by simp only [bits, COp.enc]; omega
    rw [dec_b hf hop (by rwa [hsub]) (by rwa [hunit]), hunit, hsub]

theorem bits_lt (w lo k : Nat) : bits w lo k < 2 ^ k := Nat.mod_lt _ (Nat.two_pow_pos k)

/-- Settles O7: each format's fields are read back from the word they are packed into. -/
theorem cycleCodeRoundTrip : Obligations.CycleCodeRoundTrip := by
  unfold Obligations.CycleCodeRoundTrip
  exact fun c h => ⟨dec_enc h, enc_lt h⟩

/-- A word that decodes is the word of what it decodes to, which is an instruction a word can spell. -/
theorem wf_enc_of_dec {w : Nat} {c : COp} (hw : w < 2 ^ 32) (h : COp.dec w = some c) : c.wf = true ∧ c.enc = w := by
  unfold COp.dec at h
  dsimp only at h
  split_ifs at h with hr h0 h3 h4 h0 h6 hty hs h0 hb h0 <;> obtain rfl := Option.some.inj h <;>
    simp only [COp.wf, COp.enc, Bool.and_eq_true, decide_eq_true_eq]
  case pos => 
    refine ⟨⟨hr, bits_lt .., bits_lt .., bits_lt ..⟩, ?_⟩
    simp only [bits] at h0 ⊢
    omega
  case pos =>
    refine ⟨⟨bits_lt .., bits_lt ..⟩, ?_⟩
    simp only [bits] at h3 ⊢
    omega
  case pos =>
    refine ⟨⟨h4, bits_lt .., bits_lt ..⟩, ?_⟩
    simp only [bits] at h0 ⊢
    omega
  case pos =>
    refine ⟨⟨h6, bits_lt .., bits_lt .., bits_lt .., bits_lt .., bits_lt .., hty⟩, ?_⟩
    simp only [bits]
    omega
  case pos =>
    obtain ⟨hlo, hn, ha⟩ := h0
    refine ⟨⟨hs, bits_lt .., bits_lt .., bits_lt .., hn, ha⟩, ?_⟩
    simp only [bits] at hlo ⊢
    omega
  case pos =>
    obtain ⟨hsub, hunit⟩ := h0
    refine ⟨⟨hb, bits_lt .., bits_lt .., bits_lt .., bits_lt .., hsub, hunit⟩, ?_⟩
    simp only [bits]
    omega

/-- Settles O8: each format's word is what its fields are packed into. -/
theorem cycleWordExact : Obligations.CycleWordExact := by
  unfold Obligations.CycleWordExact
  exact fun w c hw h => wf_enc_of_dec hw h

end Sys2Proof.Proofs
end

section
/-! Proofs/QueueAndFuses.lean: what no command does: add to the queue or take from it, or undo a fuse (R504, R571). -/

namespace Sys2Proof.Proofs

open Sys2Proof Sys2Proof.Machine Sys2Proof.Safety Sys2Proof.Laws

/-! ## The queue -/

/-- Whatever a command is, it answers fuses and a block, with the queue it was given. -/
theorem exec_next (c : Instr) (s : State) : ∃ fu d, exec c s = .next { s with fuses := fu, dev := d } := by
  cases c with
  | tamperClear f => cases f <;> exact ⟨_, _, rfl⟩
  | operatorRelease sch => cases sch <;> exact ⟨_, _, rfl⟩
  | _ => exact ⟨_, _, rfl⟩

/-- Settles O4: every command answers the queue it was given. -/
theorem pendingKept : Obligations.PendingKept := by
  unfold Obligations.PendingKept
  intro c s t h
  obtain ⟨fu, d, he⟩ := exec_next c s
  obtain rfl := Host.Outcome.next.inj (he.symm.trans h)
  rfl

/-! ## Fuses -/

theorem FusesKept.refl (fu : Fuses) : FusesKept fu fu where
  provisioned := id
  deployed := id
  retired := id
  svc := le_rfl
  secver := le_rfl
  settings _ := id
  owner _ := id
  imgKeys := List.prefix_rfl
  devid _ := rfl

/-- What has blown nothing has kept what had blown. -/
theorem fusesKept_of_eq {a b : Fuses} (h : b = a) : FusesKept a b := h ▸ FusesKept.refl a

/-- A command that leaves the fuses undoes none. -/
theorem fusesKept_of_dev {s t : State} {d : Dev} (h : (.next { s with dev := d } : Out) = .next t) :
    FusesKept s.fuses t.fuses :=
  fusesKept_of_eq (Host.Outcome.next.inj h ▸ rfl)

theorem fusesKept_of_onFuses {s t : State} {f : Fuses → Dev → Fuses × Dev} (hf : ∀ fu d, FusesKept fu (f fu d).1)
    (h : onFuses s f = .next t) : FusesKept s.fuses t.fuses :=
  Host.Outcome.next.inj h ▸ hf _ _

/-! ### Requests that SEC serves -/

/-- A served request leaves the fuses its act leaves, and one that is not served the fuses there were. -/
theorem fusesKept_serve {want : Req → Bool} {act : Req → Fuses → Dev → Res} (h : ∀ r fu d, FusesKept fu (act r fu d).fu)
    (fu : Fuses) (d : Dev) : FusesKept fu (serve want act fu d).1 := by
  unfold serve
  split
  · exact FusesKept.refl fu
  · split
    · exact h _ _ _
    · exact FusesKept.refl fu

theorem withWrm_fst (r : Fuses × Dev) (fu : Fuses) (d : Dev) : (withWrm r fu d).1 = r.1 := by
  unfold withWrm
  split <;> rfl

@[simp] theorem no_fu (st : Nat) (fu : Fuses) (d : Dev) : (no st fu d).fu = fu := rfl
@[simp] theorem ok_fu (fu : Fuses) (d : Dev) : (ok fu d).fu = fu := rfl
@[simp] theorem transition_fu (n : Nat) (fu : Fuses) (d : Dev) : (transition n fu d).fu = fu := rfl

section Requests

variable (r : Req) (fu : Fuses) (d : Dev)

theorem reqDerive_fu : (reqDerive r fu d).fu = fu := by
  fun_cases reqDerive r fu d <;> rfl

theorem reqDiscard_fu : (reqDiscard r fu d).fu = fu := by
  fun_cases reqDiscard r fu d <;> rfl

theorem reqAes_fu : (reqAes r fu d).fu = fu := by
  fun_cases reqAes r fu d <;> rfl

theorem reqHmac_fu : (reqHmac r fu d).fu = fu := by
  fun_cases reqHmac r fu d <;> rfl

theorem reqSha_fu : (reqSha r fu d).fu = fu := by
  fun_cases reqSha r fu d <;> rfl

theorem reqVerify_fu : (reqVerify r fu d).fu = fu := by
  fun_cases reqVerify r fu d <;> rfl

theorem reqRandom_fu : (reqRandom r fu d).fu = fu := by
  fun_cases reqRandom r fu d <;> rfl

theorem reqBeaconGen_fu : (reqBeaconGen r fu d).fu = fu := by
  fun_cases reqBeaconGen r fu d <;> rfl

theorem reqResume_fu : (reqResume r fu d).fu = fu := by
  fun_cases reqResume r fu d <;> rfl

theorem reqNetResume_fu : (reqNetResume r fu d).fu = fu := by
  fun_cases reqNetResume r fu d <;> rfl

theorem reqChallenge_fu : (reqChallenge r fu d).fu = fu := by
  fun_cases reqChallenge r fu d <;> rfl

theorem reqSession_fu : (reqSession r fu d).fu = fu := by
  fun_cases reqSession r fu d <;> rfl

theorem reqRingKey_fu : (reqRingKey r fu d).fu = fu := by
  fun_cases reqRingKey r fu d <;> rfl

theorem reqRelease_fu : (reqRelease r fu d).fu = fu := by
  fun_cases reqRelease r fu d <;> rfl

/-! ### Requests that blow fuses (R506, R507, R508, R509, R528, R571) -/

/-- Before PROVISIONED no serial number stands. -/
theorem provisioned_of_lcState_zero {fu : Fuses} (h : lcState fu = 0) : fu.provisioned = false := by
  unfold lcState at h
  split_ifs at h with _ _ _ hp
  exact Bool.eq_false_iff.mpr hp

/-- An owner key is blown only where none stands. -/
theorem fusesKept_reqSetOwner : FusesKept fu (reqSetOwner r fu d).fu := by
  fun_cases reqSetOwner r fu d
  case case4 _ hnone _ =>
    rw [Option.not_isSome_iff_eq_none] at hnone
    exact { FusesKept.refl fu with owner := fun x hx => absurd (hnone.symm.trans hx) (by simp) }
  all_goals exact FusesKept.refl fu

/-- The first image key is blown only where none stands. -/
theorem fusesKept_reqSetImageKey : FusesKept fu (reqSetImageKey r fu d).fu := by
  fun_cases reqSetImageKey r fu d
  case case4 _ hnone _ =>
    rw [not_not] at hnone
    exact { FusesKept.refl fu with imgKeys := hnone ▸ List.nil_prefix }
  all_goals exact FusesKept.refl fu

/-- Settings are blown where none stand, or where the same stand already. -/
theorem fusesKept_settings {st : Settings} (h : ¬ (fu.settings.isSome ∧ fu.settings ≠ some st)) :
    FusesKept fu { fu with settings := some st } :=
  { FusesKept.refl fu with
    settings := fun x hx => by
      rw [hx] at h
      simpa [eq_comm] using h }

theorem fusesKept_deployed {st : Settings} (h : ¬ (fu.settings.isSome ∧ fu.settings ≠ some st)) :
    FusesKept fu { fu with settings := some st, deployed := true } :=
  { fusesKept_settings fu h with deployed := fun _ => rfl }

/-- A request that ends at the spore or at the random IV has blown the settings alone, one that goes through DEPLOYED too. -/
theorem fusesKept_reqDeploy : FusesKept fu (reqDeploy r fu d).fu := by
  fun_cases reqDeploy r fu d
  case case4 hset _ => exact fusesKept_settings fu hset
  case case5 hset _ _ _ => exact fusesKept_settings fu hset
  case case6 hset _ _ _ _ _ _ _ _ _ _ => exact fusesKept_deployed fu hset
  all_goals exact FusesKept.refl fu

theorem fusesKept_retire : FusesKept fu (retire fu d).fu :=
  { FusesKept.refl fu with retired := fun _ => rfl }

theorem fusesKept_reqRetireLocal : FusesKept fu (reqRetireLocal r fu d).fu := by
  fun_cases reqRetireLocal r fu d
  case case3 => exact fusesKept_retire fu d
  all_goals exact FusesKept.refl fu

theorem fusesKept_actServiceEnter : FusesKept fu (actServiceEnter fu d).fu := by
  unfold actServiceEnter
  split
  · exact FusesKept.refl fu
  · exact { FusesKept.refl fu with svc := Nat.le_succ _ }

theorem fusesKept_actServiceExit : FusesKept fu (actServiceExit fu d).fu := by
  unfold actServiceExit
  split
  · exact FusesKept.refl fu
  · exact { FusesKept.refl fu with svc := Nat.le_succ _ }

theorem fusesKept_actImageKey (arg : List Nat) : FusesKept fu (actImageKey arg fu d).fu := by
  unfold actImageKey
  split
  · exact FusesKept.refl fu
  · exact { FusesKept.refl fu with imgKeys := List.prefix_append _ _ }

/-- A new version lies above the one that stands. -/
theorem fusesKept_actSecver (v : Nat) : FusesKept fu (actSecver v fu d).fu := by
  unfold actSecver
  split
  · exact FusesKept.refl fu
  next h => exact { FusesKept.refl fu with secver := (Nat.lt_of_not_le fun hv => h (Or.inl hv)).le }

theorem actDebugUnlock_fu (arg : List Nat) : (actDebugUnlock arg fu d).fu = fu := by
  fun_cases actDebugUnlock arg fu d <;> rfl

theorem actLichenClear_fu : (actLichenClear fu d).fu = fu := by
  fun_cases actLichenClear fu d <;> rfl

/-- Of the signed commands' acts, two count a service transition, three blow their own fuses, and three none. -/
theorem fusesKept_signedAct (b : List Nat) : FusesKept fu (signedAct b fu d).fu := by
  unfold signedAct
  split
  · exact fusesKept_actServiceEnter fu d
  · exact fusesKept_actServiceExit fu d
  · exact fusesKept_retire fu d
  · exact fusesKept_actImageKey fu d _
  · exact fusesKept_actSecver fu d _
  · exact FusesKept.refl fu
  · exact fusesKept_of_eq (actDebugUnlock_fu fu d _)
  · exact fusesKept_of_eq (actLichenClear_fu fu d)

theorem fusesKept_reqSigned : FusesKept fu (reqSigned r fu d).fu := by
  unfold reqSigned
  dsimp only
  generalize (if r.w.length ≠ 15 then sFormat else signedCheck r.secure false (r.bytes 120) fu d) = st
  split
  · exact FusesKept.refl fu
  · exact fusesKept_signedAct fu _ _

/-- The frame form of TAMPER_CLEAR blows no fuse. -/
theorem tamperFrame_fst (port src : Nat) (body : List Nat) : (tamperFrame port src body fu d).1 = fu := by
  fun_cases tamperFrame port src body fu d <;> rfl

/-- Enrolment writes the serial number of a module that has none. -/
theorem fusesKept_enrol (puf : BitVec 3570) (key : Bool) : FusesKept fu (enrol puf key fu d).1 := by
  unfold enrol
  split
  · exact FusesKept.refl fu
  next h =>
    have hp := provisioned_of_lcState_zero (Classical.not_not.mp fun h0 => h (Or.inl h0))
    exact { FusesKept.refl fu with provisioned := fun _ => rfl, devid := fun hd => absurd (hp.symm.trans hd) (by simp) }

end Requests

/-! ### The commands -/

theorem fusesKept_of_served {s t : State} {want : Req → Bool} {act : Req → Fuses → Dev → Res}
    (hact : ∀ r fu d, FusesKept fu (act r fu d).fu) (h : onFuses s (serve want act) = .next t) : FusesKept s.fuses t.fuses :=
  fusesKept_of_onFuses (fusesKept_serve hact) h

theorem fusesKept_of_transition {s t : State} {want : Req → Bool} {act : Req → Fuses → Dev → Res}
    (hact : ∀ r fu d, FusesKept fu (act r fu d).fu)
    (h : onFuses s (fun fu d => withWrm (serve want act fu d) fu d) = .next t) : FusesKept s.fuses t.fuses :=
  fusesKept_of_onFuses (fun fu d => (withWrm_fst ..).symm ▸ fusesKept_serve hact fu d) h

theorem exec_tamperClear_frame (f : PortFrame) (s : State) :
    exec (.tamperClear (some f)) s = onFuses s (fun fu d =>
      if isUp SECi d && isUp APPi d && f.etype == 0x88B5 then tamperFrame f.port f.src.toNat (nats f.body) fu d else (fu, d)) :=
  rfl

/-- No command undoes a fuse: the requests that SEC serves and enrolment blow them, and no other command touches them. -/
theorem exec_fusesKept {c : Instr} {s t : State} (h : exec c s = .next t) : FusesKept s.fuses t.fuses := by
  cases c with
  | derive => exact fusesKept_of_served (fun r fu d => fusesKept_of_eq (reqDerive_fu r fu d)) h
  | discard => exact fusesKept_of_served (fun r fu d => fusesKept_of_eq (reqDiscard_fu r fu d)) h
  | aes => exact fusesKept_of_served (fun r fu d => fusesKept_of_eq (reqAes_fu r fu d)) h
  | hmac => exact fusesKept_of_served (fun r fu d => fusesKept_of_eq (reqHmac_fu r fu d)) h
  | sha256 => exact fusesKept_of_served (fun r fu d => fusesKept_of_eq (reqSha_fu r fu d)) h
  | verify => exact fusesKept_of_served (fun r fu d => fusesKept_of_eq (reqVerify_fu r fu d)) h
  | random => exact fusesKept_of_served (fun r fu d => fusesKept_of_eq (reqRandom_fu r fu d)) h
  | beaconGen => exact fusesKept_of_served (fun r fu d => fusesKept_of_eq (reqBeaconGen_fu r fu d)) h
  | resume => exact fusesKept_of_onFuses (fun fu d => fusesKept_serve (fun r fu d => fusesKept_of_eq (reqResume_fu r fu d)) fu _) h
  | networkResume =>
    exact fusesKept_of_onFuses (fun fu d => fusesKept_serve (fun r fu d => fusesKept_of_eq (reqNetResume_fu r fu d)) fu _) h
  | challenge => exact fusesKept_of_served (fun r fu d => fusesKept_of_eq (reqChallenge_fu r fu d)) h
  | session => exact fusesKept_of_served (fun r fu d => fusesKept_of_eq (reqSession_fu r fu d)) h
  | ringkey => exact fusesKept_of_served (fun r fu d => fusesKept_of_eq (reqRingKey_fu r fu d)) h
  | secRequestBad => exact fusesKept_of_served (fun r fu d => FusesKept.refl fu) h
  | setowner => exact fusesKept_of_served fusesKept_reqSetOwner h
  | setimagekey => exact fusesKept_of_served fusesKept_reqSetImageKey h
  | deploy => exact fusesKept_of_transition fusesKept_reqDeploy h
  | retireLocal => exact fusesKept_of_transition fusesKept_reqRetireLocal h
  | signed => exact fusesKept_of_transition fusesKept_reqSigned h
  | serviceEnter => exact fusesKept_of_transition fusesKept_reqSigned h
  | serviceExit => exact fusesKept_of_transition fusesKept_reqSigned h
  | retire => exact fusesKept_of_transition fusesKept_reqSigned h
  | imagekey => exact fusesKept_of_served fusesKept_reqSigned h
  | secver => exact fusesKept_of_served fusesKept_reqSigned h
  | debugUnlock => exact fusesKept_of_served fusesKept_reqSigned h
  | lichenClear => exact fusesKept_of_served fusesKept_reqSigned h
  | tamperClear f =>
    cases f with
    | none => exact fusesKept_of_transition fusesKept_reqSigned h
    | some f =>
      rw [exec_tamperClear_frame] at h
      refine fusesKept_of_onFuses (fun fu d => fusesKept_of_eq ?_) h
      split
      · exact tamperFrame_fst ..
      · rfl
  | operatorRelease sch =>
    cases sch with
    | false => exact fusesKept_of_served (fun r fu d => fusesKept_of_eq (reqRelease_fu r fu d)) h
    | true => exact fusesKept_of_dev h
  | enrolment puf key => exact fusesKept_of_onFuses (fun fu d => fusesKept_enrol fu d puf key) h
  | _ => exact fusesKept_of_dev h

/-- Settles O5: a step is a count of the raw counter, which leaves the fuses, or a command. -/
theorem fusesOnlyBlow : Obligations.FusesOnlyBlow := by
  unfold Obligations.FusesOnlyBlow
  intro s t h
  unfold Steps step at h
  split at h
  · exact fusesKept_of_dev h
  next r _ => exact exec_fusesKept (s := { s with pending := r }) h

end Sys2Proof.Proofs
end

section
/-! Proofs/DramBytes.lean: the bytes of a write to DRAM. -/

namespace Sys2Proof.Proofs

open Sys2Proof Sys2Proof.Machine Sys2Proof.Safety Sys2Proof.Laws

section Bytes

variable {a b v k : Nat} {d : Dev}

/-- A byte beyond DRAM is not written. -/
theorem dramGet_dramPut_beyond (h : dramSize ≤ b) : dramGet b (dramPut a v d) = dramGet b d := by
  by_cases hb : b = a
  · rw [dramPut, if_neg (by omega)]
  · exact dramGet_dramPut_ne hb

/-- Bytes put from an address up leave those from their end up as they were, and those beyond DRAM. -/
theorem dramGet_foldl_dramPut_above (l : List Nat) (h : a + k + l.length ≤ b ∨ dramSize ≤ b) (d : Dev) :
    dramGet b ((l.zipIdx k).foldl (fun d e => dramPut (a + e.2) e.1 d) d) = dramGet b d := by
  induction l generalizing k d with
  | nil => rfl
  | cons x r ih =>
    rw [List.length_cons] at h
    rw [List.zipIdx_cons, List.foldl_cons, ih (by omega)]
    obtain hend | hbeyond := h
    · exact dramGet_dramPut_ne (by omega)
    · exact dramGet_dramPut_beyond hbeyond

/-- Each byte put in DRAM is read back at its place. -/
theorem dramGet_foldl_dramPut_at (l : List Nat) {i : Nat} (hi : i < l.length) (h : a + k + i < dramSize) (d : Dev) :
    dramGet (a + k + i) ((l.zipIdx k).foldl (fun d e => dramPut (a + e.2) e.1 d) d) = l.getD i 0 % 256 := by
  induction l generalizing k i d with
  | nil => exact absurd hi (Nat.not_lt_zero i)
  | cons x r ih =>
    rw [List.zipIdx_cons, List.foldl_cons]
    cases i with
    | zero =>
      rw [dramGet_foldl_dramPut_below r (by omega), Nat.add_zero, dramGet_dramPut_same (by omega), List.getD_cons_zero]
    | succ i =>
      rw [show a + k + (i + 1) = a + (k + 1) + i by omega, ih (Nat.lt_of_succ_lt_succ hi) (by omega), List.getD_cons_succ]

/-- A byte within what is written to DRAM. -/
theorem dramGet_dramWrite_at (l : List Nat) {i : Nat} (hi : i < l.length) (h : a + i < dramSize) :
    dramGet (a + i) (dramWrite a l d) = l.getD i 0 % 256 := by
  have hat := dramGet_foldl_dramPut_at (k := 0) l hi h (unmarked ((a + 7) / 8) ((a + l.length) / 8) d)
  rwa [Nat.add_zero] at hat

/-- A byte below what is written, from its end up, or beyond DRAM. -/
theorem dramGet_dramWrite_beside (l : List Nat) (h : b < a ∨ a + l.length ≤ b ∨ dramSize ≤ b) :
    dramGet b (dramWrite a l d) = dramGet b d := by
  rw [dramWrite]
  obtain hbelow | habove := h
  · exact dramGet_foldl_dramPut_below l hbelow _
  · exact dramGet_foldl_dramPut_above l habove _

end Bytes

/-- Settles O9: a byte within the bytes written, and one beside them. -/
theorem dramWriteExact : Obligations.DramWriteExact := by
  unfold Obligations.DramWriteExact
  exact fun a l d => ⟨fun i hi h => dramGet_dramWrite_at l hi h, fun b h => dramGet_dramWrite_beside l h⟩

end Sys2Proof.Proofs
end

section
/-! Proofs/LockTies.lean: several readers of one free lock (R376, R378). -/

namespace Sys2Proof.Proofs

open Sys2Proof Sys2Proof.Machine Sys2Proof.Safety Sys2Proof.Laws

/-! ## The order of the readers -/

/-- The readers in the order of their turns: by requester number. -/
def turns (l : List Who) : List Who := (List.range 16).flatMap fun r => l.filter fun q => q.rq.val == r

theorem mem_turns {l : List Who} {q : Who} : q ∈ turns l ↔ q ∈ l := by
  simp only [turns, List.mem_flatMap, List.mem_range, List.mem_filter, beq_iff_eq]
  exact ⟨fun ⟨_, _, hq, _⟩ => hq, fun hq => ⟨q.rq.val, q.rq.isLt, hq, rfl⟩⟩

/-- Of readers of different numbers, those of one reader's number are that reader. -/
theorem filter_rq_eq_singleton {l : List Who} {w : Who} (hw : w ∈ l) (hl : (l.map (·.rq)).Nodup) :
    l.filter (fun q => q.rq.val == w.rq.val) = [w] := by
  induction l with
  | nil => exact absurd hw (List.not_mem_nil)
  | cons x r ih =>
    rw [List.map_cons, List.nodup_cons] at hl
    obtain ⟨hx, hr⟩ := hl
    obtain rfl | hw := List.mem_cons.mp hw
    · have hnone : r.filter (fun q => q.rq.val == w.rq.val) = [] := by
        simp only [List.filter_eq_nil_iff, beq_iff_eq]
        exact fun q hq he => hx (List.mem_map.mpr ⟨q, hq, Fin.ext he⟩)
      rw [List.filter_cons, if_pos (beq_self_eq_true _), hnone]
    · have hne : ¬ (x.rq.val == w.rq.val) = true := by
        rw [beq_iff_eq]
        exact fun he => hx (List.mem_map.mpr ⟨w, hw, Fin.ext he.symm⟩)
      rw [List.filter_cons, if_neg hne, ih hw hr]

/-- The lowest reader has the first turn. -/
theorem turns_eq_cons {l : List Who} {w : Who} (hw : w ∈ l) (hmin : ∀ q ∈ l, w.rq ≤ q.rq) (hl : (l.map (·.rq)).Nodup) :
    ∃ r, turns l = w :: r := by
  obtain ⟨below, above, hsplit⟩ := List.append_of_mem (List.mem_range.mpr w.rq.isLt)
  have hlt : ∀ r ∈ below, r < w.rq.val := by
    have hord := List.pairwise_lt_range (n := 16)
    rw [hsplit, List.pairwise_append] at hord
    exact fun r hr => hord.2.2 r hr _ List.mem_cons_self
  have hbelow : below.flatMap (fun r => l.filter fun q => q.rq.val == r) = [] := by
    simp only [List.flatMap_eq_nil_iff, List.filter_eq_nil_iff, beq_iff_eq]
    intro r hr q hq he
    have := hlt r hr
    have := Fin.le_def.mp (hmin q hq)
    omega
  rw [turns, hsplit, List.flatMap_append, hbelow, List.flatMap_cons, filter_rq_eq_singleton hw hl]
  exact ⟨_, rfl⟩

theorem forAll_turns (l : List Who) (f : Who → Dev → Dev) (d : Dev) :
    forAll (List.range 16) (fun r d => forAll (l.filter (fun q => q.rq.val == r)) f d) d = forAll (turns l) f d := by
  simp only [forAll, turns, List.foldl_flatMap]

/-! ## The readers after the first -/

section Held

variable {n h : Nat} {d : Dev}

theorem lockReadBy_held {q : Who} (hi : isUp SCHi d = true) (hl : lvlOk false q = true) (hh : lockOf n d = h + 1) (hb : h < 16) :
    lockReadBy n q d = { d with rdata := BitVec.ofNat 64 (h + 1), lockSeen := d.lockSeen ++ [(q.rq.val, h + 1)] } := by
  have hword : (BitVec.ofNat 64 (h + 1)).toNat = h + 1 := by rw [BitVec.toNat_ofNat]; omega
  rw [lockReadBy, hi, hl, Bool.and_self, if_pos rfl, lockRead_held (by omega), hh]
  dsimp only
  rw [hword]

/-- Readers of a held lock leave every lock as it is, and each is shown the holder. -/
theorem forAll_lockReadBy_held (l : List Who) (hi : isUp SCHi d = true) (hl : ∀ q ∈ l, lvlOk false q = true)
    (hh : lockOf n d = h + 1) (hb : h < 16) :
    (forAll l (lockReadBy n) d).lock = d.lock ∧
      (forAll l (lockReadBy n) d).lockSeen = d.lockSeen ++ l.map fun q => (q.rq.val, h + 1) := by
  induction l generalizing d with
  | nil => simp [forAll]
  | cons q r ih =>
    have hq := lockReadBy_held hi (hl q List.mem_cons_self) hh hb
    obtain ⟨hlock, hseen⟩ := ih (d := lockReadBy n q d) (by rw [hq]; exact hi)
      (fun q' hq' => hl q' (List.mem_cons_of_mem q hq')) (by rw [hq]; exact hh)
    refine ⟨hlock.trans (by rw [hq]), hseen.trans ?_⟩
    rw [hq, List.map_cons, List.append_assoc, List.singleton_append]

end Held

/-- Settles O14: the lowest reader takes the free lock in the first turn; it holds it in every later one. -/
theorem lockTies : Obligations.LockTies := by
  unfold Obligations.LockTies
  rintro s _ n w l rfl hi hfree hw hl hnodup
  obtain ⟨r, hr⟩ := turns_eq_cons hw (fun q hq => (hl q hq).2) hnodup
  have hmem (q : Who) : q ∈ w :: r ↔ q ∈ l := hr ▸ mem_turns
  have hlater (q) (hq : q ∈ r) : lvlOk false q = true := (hl q ((hmem q).mp (List.mem_cons_of_mem w hq))).1
  have hfirst := lockReadBy_withSeen (n := n) [] hi (hl w hw).1
  rw [lockRead_free_rdata hfree] at hfirst
  obtain ⟨hlock, hseen⟩ := forAll_lockReadBy_held (d := lockReadBy n w (withSeen [] (start s))) r
    (by rw [hfirst, lockRead_free hfree]; exact hi) hlater (by rw [hfirst]; exact lockOf_lockRead_free hfree) w.rq.isLt
  have hrun : exec (.lockRead n l) s = .next (after s (forAll r (lockReadBy n) (lockReadBy n w (withSeen [] (start s))))) := by
    rw [exec_lockRead, execLockRead, onDev_eq, forAll_turns, hr]
    rfl
  refine ⟨_, hrun, ?holder, fun m hm => ?others, ?first, fun q hq hne => ?later⟩
  case holder =>
    rw [lockOf, after_dev, hlock, ← lockOf, hfirst]
    exact lockOf_lockRead_free hfree
  case others =>
    rw [lockOf, after_dev, hlock, ← lockOf, hfirst]
    exact lockOf_lockRead_free_ne hfree hm
  case first =>
    rw [after_dev, hseen, hfirst]
    exact List.mem_append_left _ (List.mem_singleton.mpr rfl)
  case later =>
    have hqr : q ∈ r := (List.mem_cons.mp ((hmem q).mpr hq)).resolve_left hne
    rw [after_dev, hseen]
    exact List.mem_append_right _ (List.mem_map.mpr ⟨q, hqr, rfl⟩)

end Sys2Proof.Proofs
end

section
/-! Proofs/TrapReturn.lean: a trap's entry and the return from it (R409, R411). -/

namespace Sys2Proof.Proofs

open Sys2Proof Sys2Proof.Machine Sys2Proof.Safety Sys2Proof.Laws

section Enter

variable (c : Core) (t : Trap) (l : Level) (epc : W64) (raw : Nat)

@[simp] theorem setExc_x (x : ExcRegs) : (c.setExc l x).x = c.x := by
  unfold Core.setExc
  split <;> rfl

@[simp] theorem setExc_np (x : ExcRegs) : (c.setExc l x).np = c.np := by
  unfold Core.setExc
  split <;> rfl

@[simp] theorem enter_lvl : (c.enter t l epc raw).x.lvl = l := rfl
@[simp] theorem enter_pc : (c.enter t l epc raw).x.pc = (c.exc l).evec := rfl
@[simp] theorem enter_np : (c.enter t l epc raw).np = false := setExc_np _ _ _
@[simp] theorem enter_g : (c.enter t l epc raw).x.g = c.x.g := by simp [Core.enter, Core.endNp]

/-- The level's registers hold what the return takes up again. -/
@[simp] theorem enter_exc : (c.enter t l epc raw).exc l =
    { c.exc l with
      epc := epc, code := t.code, eval := BitVec.ofNat 64 t.eval, w := t.w, pnp := c.np, eact := true, plev := c.x.lvl } :=
  exc_setExc _ _ _

@[simp] theorem leave_g : (c.leave raw).x.g = c.x.g := by simp [Core.leave, Core.endNp]

end Enter

/-- Settles O17: the return takes up what the entry put in the level's registers. -/
theorem trapThenReturn : Obligations.TrapThenReturn := by
  unfold Obligations.TrapThenReturn
  intro c x epc raw raw' l _
  have heact : ((c.enter x l epc raw).leave raw').exc l =
      { (c.enter x l epc raw).exc l with eact := false } := leave_exc (c.enter x l epc raw) raw'
  simp [heact]

end Sys2Proof.Proofs
end

section
/-! Proofs/CoreInstructions.lean: Pretan's instructions that a core carries out within itself (R386-R411). -/

namespace Sys2Proof.Proofs

open Sys2Proof Sys2Proof.Machine Sys2Proof.Safety Sys2Proof.Laws

/-! ## What an issued instruction answers, by what it does -/

section Issue

variable {k : Code} {n : CoreNo} {w : Nat} {s : State} {d' : Dev} {f : Nat → Core → Dev → IRes}

/-- An instruction that raises its exception once it has retired is left behind (R408). -/
theorem issue_after {t : Trap} {c : Core} {d2 : Dev} (h : Issues n (start s) w d') (hk : reads k w = true)
    (hf : f w (coreOf n (start s)) d' = .after t c d2) :
    issue k n s f =
      .next (after s (cancelHere n (takeTrap n t (c.x.pc + 4) (coreSet n { c with iret := c.iret + 1 } d2)))) := by
  rw [issue, onDev_eq, issue_eq h hk, hf, settle]

/-- An instruction that reads the fuses is one of the fuses there are. -/
theorem issueF_eq (f : Fuses → Nat → Core → Dev → IRes) : issueF k n s f = issue k n s (f s.fuses) := by
  rw [issueF, issue, onDev_eq, onDev_eq]

/-- A word that is no instruction's raises ILLEGAL, whatever the command names (R388). -/
theorem issue_illegalWord (h : Issues n (start s) w d') (hw : illegalWord w = true) :
    issue k n s f =
      .next (after s (cancelHere n (takeTrap n ⟨xIllegal, w, false⟩ (coreOf n (start s)).x.pc d'))) := by
  rw [issue, onDev_eq, issue_illegal h hw]

theorem issue_setReg {rd : RegNo} {v : Core → W64} (h : Issues n (start s) w d') (hk : reads k w = true) :
    issue k n s (setReg rd v) =
      .next (after s (retires n ((coreOf n (start s)).put rd (v (coreOf n (start s)))).next d')) :=
  issue_done h hk rfl

theorem issue_setPred {pd : Fin 8} {v : Core → W32} (h : Issues n (start s) w d') (hk : reads k w = true) :
    issue k n s (setPred pd v) =
      .next (after s (retires n ((coreOf n (start s)).putPred pd (v (coreOf n (start s)))).next d')) :=
  issue_done h hk rfl

theorem issue_cmp {pd : Fin 8} {v : Core → Bool} (h : Issues n (start s) w d') (hk : reads k w = true) :
    issue k n s (cmp pd v) =
      .next (after s (retires n ((coreOf n (start s)).putPred pd (allBits (v (coreOf n (start s))))).next d')) :=
  issue_done h hk rfl

end Issue

/-! ## Integer instructions -/

/-- Settles O33: each writes its one register. -/
theorem integerResults : Obligations.IntegerResults := by
  unfold Obligations.IntegerResults
  rintro s _ n w d' _ rfl hi rfl
  and_intros <;> intros <;> exact issue_setReg hi ‹reads _ w = true›

section Frame

variable {s : State} {n : CoreNo} {w : Nat} {d' : Dev} {c : Core} {rd : RegNo} {v : W64}

/-- A register that is not the one written, or any where that is g0 (R386). -/
theorem get_put_other {r : Nat} (h : r ≠ rd ∨ rd = 0) : (c.put rd v).get r = c.get r := by
  rw [get_put, if_neg]
  rintro ⟨hr, h0⟩
  exact h.elim (fun hne => hne hr) (fun hz => h0 (congrArg Fin.val hz))

/-- The state after an instruction that wrote one register. -/
theorem after_retires_put (hu : Uncancelled n (coreSet n c d')) :
    after s (retires n (c.put rd v).next d') = after s (coreSet n { (c.put rd v).next with iret := c.iret + 1 } d') := by
  have hret := retires_uncancelled (c' := (c.put rd v).next) (put_run rd v c) hu
  rw [hret, show (c.put rd v).next.iret = c.iret from put_iret rd v c]

/-- Such an instruction left everything else as it was. -/
theorem wroteOnly_put :
    WroteOnly n rd c s d' (after s (coreSet n { (c.put rd v).next with iret := c.iret + 1 } d')) where
  regs r hr := by
    rw [after_dev, coreOf_coreSet]
    exact get_put_other (hr.imp id Fin.ext)
  preds := by rw [after_dev, coreOf_coreSet]; exact put_x_p rd v c
  vecs := by rw [after_dev, coreOf_coreSet]; exact put_x_v rd v c
  fpcsr := by rw [after_dev, coreOf_coreSet]; exact put_x_fpcsr rd v c
  level := by rw [after_dev, coreOf_coreSet]; exact put_x_lvl rd v c
  traps := by rw [after_dev, coreOf_coreSet]; exact ⟨put_es rd v c, put_em rd v c⟩
  others k hk := coreOf_coreSet_ne _ _ hk
  bytes a := rfl
  special := rfl
  queue := rfl
  fuses := rfl

/-- An instruction that writes one register changes that register, the pc and IRET. -/
theorem issue_setReg_frame {k : Code} {f : Core → W64} (hi : Issues n (start s) w d') (hk : reads k w = true)
    (hu : Uncancelled n (coreSet n (coreOf n (start s)) d')) :
    ∃ t, issue k n s (setReg rd f) = .next t ∧ WroteOnly n rd (coreOf n (start s)) s d' t ∧
      (coreOf n t.dev).x.pc = (coreOf n (start s)).x.pc + 4 ∧ (coreOf n t.dev).iret = (coreOf n (start s)).iret + 1 := by
  refine ⟨_, (issue_setReg hi hk).trans (congrArg _ (after_retires_put hu)), wroteOnly_put, ?_, ?_⟩ <;>
    rw [after_dev, coreOf_coreSet]
  exact congrArg (· + 4) (put_x_pc ..)

end Frame

/-- Settles O18: each of the commands is an instruction that writes one register. -/
theorem integerFrame : Obligations.IntegerFrame := by
  unfold Obligations.IntegerFrame
  rintro s _ n w d' _ rd rs rt imm amt p cmd rfl hi rfl hu hcmd
  simp only [List.mem_cons, List.not_mem_nil, or_false] at hcmd
  rcases hcmd with ⟨hcmd, hk⟩ | ⟨rfl, hk⟩ | ⟨rfl, hk⟩ | ⟨rfl, hk⟩ | ⟨rfl, hk⟩ | ⟨rfl, hk⟩ | ⟨hcmd, hk⟩ | ⟨rfl, hk⟩
  case inl =>
    rcases hcmd with rfl | rfl | rfl | rfl | rfl | rfl | rfl | rfl | rfl | rfl | rfl | rfl | rfl | rfl | rfl | rfl | rfl |
      rfl | rfl | rfl <;> exact issue_setReg_frame hi hk hu
  case inr.inr.inr.inr.inr.inr.inl =>
    rcases hcmd with rfl | rfl | rfl <;> exact issue_setReg_frame hi hk hu
  all_goals exact issue_setReg_frame hi hk hu

/-! ## Comparisons and predicates -/

/-- Settles O34: each writes its one predicate; a comparison with an immediate by a reserved condition is ILLEGAL. -/
theorem predicateResults : Obligations.PredicateResults := by
  unfold Obligations.PredicateResults
  rintro s _ n w d' _ rfl hi rfl
  refine ⟨?cmpeq, ?cmpne, ?cmplt, ?cmpge, ?cmpltu, ?cmpgeu, ?cmpi, ?cmpiReserved, ?pand, ?por, ?pxor, ?pnot, ?pmov⟩
  case cmpeq | cmpne | cmplt | cmpge | cmpltu | cmpgeu => intros; exact issue_cmp hi ‹reads _ w = true›
  case cmpi => exact fun pd rs cond imm hc hk => issue_done hi hk (if_neg hc)
  case cmpiReserved => exact fun pd rs cond imm hc hk => issue_trap hi hk (if_pos hc)
  case pand | por | pxor | pnot | pmov => intros; exact issue_setPred hi ‹reads _ w = true›

/-! ## Branches, fences and sections -/

section Branches

variable {k : Code} {n : CoreNo} {w : Nat} {s : State} {d' : Dev} {off : BitVec 21} {c : Core} {take : Core → Bool}

theorem branch_taken (d : Dev) : branch true off c d = .done (c.goto_ (c.x.pc + off.signExtend 64 * 4)) d := rfl

theorem branch_not_taken (d : Dev) : branch false off c d = .done c.next d := rfl

theorem issue_branch_taken (hi : Issues n (start s) w d') (hk : reads k w = true) (ht : take (coreOf n (start s)) = true) :
    issue k n s (fun _ c => branch (take c) off c) = .next (after s (retires n
      ((coreOf n (start s)).goto_ ((coreOf n (start s)).x.pc + off.signExtend 64 * 4)) d')) :=
  issue_done hi hk (by rw [ht, branch_taken])

theorem issue_branch_not_taken (hi : Issues n (start s) w d') (hk : reads k w = true)
    (ht : take (coreOf n (start s)) = false) :
    issue k n s (fun _ c => branch (take c) off c) = .next (after s (retires n (coreOf n (start s)).next d')) :=
  issue_done hi hk (by rw [ht, branch_not_taken])

end Branches

/-- Settles O35: branches by their condition, hints and fences that only move on, what needs M or a level above U by the level. -/
theorem branchesAndFences : Obligations.BranchesAndFences := by
  unfold Obligations.BranchesAndFences
  rintro s _ n w d' _ rfl hi rfl
  refine ⟨?br, ?call, ?bpTaken, ?bpPassed, ?cbzTaken, ?cbzPassed, ?cbnzTaken, ?cbnzPassed, ?jr, ?jalr, ?pref, ?clean,
    ?cinval, ?cinvalPriv, ?fenceM, ?fenceIo, ?fenceI, ?timerdCycle, ?timerdWall, ?timerdIllegal, ?rawrd, ?npb, ?npbAgain,
    ?npbPriv, ?npe, ?npeOutside, ?npePriv⟩
  case bpTaken => exact fun p sense off hp hk => issue_branch_taken hi hk (beq_iff_eq.mpr hp)
  case bpPassed => exact fun p sense off hp hk => issue_branch_not_taken hi hk (beq_false_of_ne hp)
  case cbzTaken => exact fun rs off h0 hk => issue_branch_taken hi hk (beq_iff_eq.mpr h0)
  case cbzPassed => exact fun rs off h0 hk => issue_branch_not_taken hi hk (beq_false_of_ne h0)
  case cbnzTaken => exact fun rs off h0 hk => issue_branch_taken hi hk (bne_iff_ne.mpr h0)
  case cbnzPassed => exact fun rs off h0 hk => issue_branch_not_taken hi hk (bne_eq_false_iff_eq.mpr h0)
  case br | call | jr | jalr | pref | clean | fenceM | fenceIo | fenceI | timerdCycle | timerdWall | rawrd =>
    intros
    exact issue_done hi ‹reads _ w = true› rfl
  case timerdIllegal => exact fun rd sel hw => issue_illegalWord hi hw
  case cinval => exact fun base off hm hk => issue_done hi hk (if_pos hm)
  case cinvalPriv => exact fun base off hm hk => issue_trap hi hk (if_neg hm)
  case npb => exact fun hu hnp hk => issue_done hi hk (by simp only [if_neg hu, hnp, Bool.false_eq_true, if_false])
  case npbAgain => exact fun hu hnp hk => issue_done hi hk (by simp only [if_neg hu, hnp, if_true])
  case npe => exact fun hu hnp hk => issue_done hi hk (by simp only [if_neg hu, hnp, if_true])
  case npeOutside => exact fun hu hnp hk => issue_done hi hk (by simp only [if_neg hu, hnp, Bool.false_eq_true, if_false])
  case npbPriv | npePriv => exact fun hu hk => issue_trap hi hk (if_pos hu)

/-! ## Locks, system registers and traps -/

/-- NPMAX reads the longest section there has been, the one that runs now among them. -/
theorem sysRead_npmax (n : Nat) (c : Core) (d : Dev) :
    sysRead n 0x01C c d = some (.s, BitVec.ofNat 64 (max c.npmax (c.npcnt d.raw))) := rfl

theorem not_lt_of_above {l : Level} (h : l ≠ .u) : ¬ l.num < Level.s.num := by
  cases l with
  | u => exact absurd rfl h
  | s => exact Nat.lt_irrefl _
  | m => decide

/-- Settles O36: locks by what they hold, system registers by their number and level, traps, and words that are no instruction. -/
theorem systemAndTraps : Obligations.SystemAndTraps := by
  unfold Obligations.SystemAndTraps
  rintro s _ n w d' _ rfl hi rfl
  refine ⟨?lktryFree, ?lktryHeld, ?lkrel, ?mfs, ?mfsNpmax, ?mfsIllegal, ?mts, ?svc, ?mcall, ?brk, ?eret, ?eretPriv,
    ?illegal, ?addIllegal, ?lwIllegal, ?brIllegal, ?vaddIllegal, ?faddIllegal, ?lktryIllegal, ?mfsIllegalWord, ?svcIllegal⟩
  case svc | mcall | brk => exact fun imm hk => issue_after hi hk rfl
  case eret => exact fun hl hk => exec_eret_above hi hk hl
  case eretPriv => exact fun hl hk => exec_eret_u hi hk hl
  case illegal => exact fun hk => issue_trap hi hk rfl
  case addIllegal | brIllegal | vaddIllegal | faddIllegal | lktryIllegal | mfsIllegalWord | svcIllegal =>
    intros
    exact issue_illegalWord hi ‹illegalWord w = true›
  case lwIllegal => 
    intro rd base off e hw
    change execLw n rd base off e s = _
    exact (issueF_eq _).trans (issue_illegalWord hi hw)
  case lktryFree =>
    rintro rd rs imm k hup rfl hfree hk
    exact issue_done hi hk (by simp only [hup, hfree, Bool.not_true, Bool.false_eq_true, if_false, if_true, BitVec.ofNat_eq_ofNat])
  case lktryHeld =>
    rintro rd rs imm k hup rfl hheld hk
    exact issue_done hi hk (by simp only [hup, hheld, Bool.not_true, Bool.false_eq_true, if_false])
  case lkrel =>
    rintro rd rs imm k hup rfl hown hk
    exact issue_done hi hk (by simp only [hup, hown, beq_self_eq_true, Bool.and_self, if_true])
  case mfs =>
    rintro rd rs imm num l v rfl hnum hread hlvl hk
    exact issue_done hi hk (by simp only [hread, if_neg (Nat.not_lt.mpr hlvl), if_neg hnum])
  case mfsNpmax =>
    rintro rd rs imm num rfl hnum hlvl hk
    exact issue_done hi hk (by simp only [hnum, sysRead_npmax, if_neg (not_lt_of_above hlvl), if_true])
  case mfsIllegal =>
    rintro rd rs imm num rfl hread hk
    exact issue_trap hi hk (by simp only [hread])
  case mts =>
    rintro rs imm num l v rfl hread hlvl hk
    exact issue_done hi hk (by simp only [hread, if_neg (Nat.not_lt.mpr hlvl)])

end Sys2Proof.Proofs
end

section
/-! Proofs/FloatsAndVectors.lean: Pretan's floating and vector instructions (R386, R395, Table 12-5). -/

namespace Sys2Proof.Proofs

open Sys2Proof Sys2Proof.Machine Sys2Proof.Safety Sys2Proof.Laws

/-! ## The end of a floating instruction: its flags, or the trap enabled for one -/

section FpEnd

variable {fl w : Nat} {c0 c : Core} {d : Dev}

theorem fpEnd_quiet (h : fl &&& bits c0.x.fpcsr.toNat 16 5 = 0) : fpEnd fl c0 c d = .done (c.sticky fl).next d :=
  if_neg (not_not_intro h)

theorem fpEnd_enabled (h : fl &&& bits c0.x.fpcsr.toNat 16 5 ≠ 0) : fpEnd fl c0 c d = .trap ⟨xFp, fl, false⟩ c0 d :=
  if_pos h

end FpEnd

section Issue

variable {k : Code} {n : CoreNo} {w : Nat} {s : State} {d' : Dev}

/-! ## Scalar instructions -/

section Scalar

variable {rd rs rt : RegNo} {pd : Fin 8} {dbl : Bool} {f : Core → FRes} {r : FRes} {j : Nat} {q : Bool × Nat}

theorem issue_fpOp_quiet (hi : Issues n (start s) w d') (hk : reads k w = true) (hr : r = f (coreOf n (start s)))
    (hq : r.fl &&& bits (coreOf n (start s)).x.fpcsr.toNat 16 5 = 0) :
    issue k n s (fpOp rd dbl f) =
      .next (after s (retires n (((coreOf n (start s)).put rd (fpReg dbl r.v)).sticky r.fl).next d')) := by
  subst hr
  exact issue_done hi hk (fpEnd_quiet hq)

theorem issue_fpOp_enabled (hi : Issues n (start s) w d') (hk : reads k w = true) (hr : r = f (coreOf n (start s)))
    (hq : r.fl &&& bits (coreOf n (start s)).x.fpcsr.toNat 16 5 ≠ 0) :
    issue k n s (fpOp rd dbl f) = .next (after s (cancelHere n (takeTrap n ⟨xFp, r.fl, false⟩ (coreOf n (start s)).x.pc
      (coreSet n (coreOf n (start s)) d')))) := by
  subst hr
  exact issue_trap hi hk (fpEnd_enabled hq)

theorem issue_fpCmp_quiet (hi : Issues n (start s) w d') (hk : reads k w = true)
    (hr : q = fCmp (fmtOf dbl) j (fpArg dbl ((coreOf n (start s)).get rs)) (fpArg dbl ((coreOf n (start s)).get rt)))
    (hq : q.2 &&& bits (coreOf n (start s)).x.fpcsr.toNat 16 5 = 0) :
    issue k n s (fpCmp j pd rs rt dbl) =
      .next (after s (retires n (((coreOf n (start s)).putPred pd (allBits q.1)).sticky q.2).next d')) := by
  subst hr
  exact issue_done hi hk (fpEnd_quiet hq)

theorem issue_fpCmp_enabled (hi : Issues n (start s) w d') (hk : reads k w = true)
    (hr : q = fCmp (fmtOf dbl) j (fpArg dbl ((coreOf n (start s)).get rs)) (fpArg dbl ((coreOf n (start s)).get rt)))
    (hq : q.2 &&& bits (coreOf n (start s)).x.fpcsr.toNat 16 5 ≠ 0) :
    issue k n s (fpCmp j pd rs rt dbl) = .next (after s (cancelHere n (takeTrap n ⟨xFp, q.2, false⟩
      (coreOf n (start s)).x.pc (coreSet n (coreOf n (start s)) d')))) := by
  subst hr
  exact issue_trap hi hk (fpEnd_enabled hq)

end Scalar

/-! ## Vector instructions -/

section Vector

variable {legal : Bool} {vd va vb : RegNo} {pd pm : Fin 8} {ty : VTy} {f : Core → Nat → FRes} {g : Core → Nat → Nat}
  {r : BitVec 256 × Nat} {j : Nat}

/-- A type that the class does not have is ILLEGAL (R388). -/
theorem issue_vecOp_illegal (hi : Issues n (start s) w d') (hk : reads k w = true) (hl : legal = false) :
    issue k n s (vecOp legal vd pm ty f) = .next (after s (cancelHere n (takeTrap n ⟨xIllegal, w, false⟩
      (coreOf n (start s)).x.pc (coreSet n (coreOf n (start s)) d')))) := by
  subst hl
  exact issue_trap hi hk rfl

theorem issue_vecOp_quiet (hi : Issues n (start s) w d') (hk : reads k w = true) (hl : legal = true)
    (hr : r = lanes ty ((coreOf n (start s)).pred pm) ((coreOf n (start s)).vec vd) (f (coreOf n (start s))))
    (hq : r.2 &&& bits (coreOf n (start s)).x.fpcsr.toNat 16 5 = 0) :
    issue k n s (vecOp legal vd pm ty f) =
      .next (after s (retires n (((coreOf n (start s)).putVec vd r.1).sticky r.2).next d')) := by
  subst hl hr
  exact issue_done hi hk (fpEnd_quiet hq)

theorem issue_vecOp_enabled (hi : Issues n (start s) w d') (hk : reads k w = true) (hl : legal = true)
    (hr : r = lanes ty ((coreOf n (start s)).pred pm) ((coreOf n (start s)).vec vd) (f (coreOf n (start s))))
    (hq : r.2 &&& bits (coreOf n (start s)).x.fpcsr.toNat 16 5 ≠ 0) :
    issue k n s (vecOp legal vd pm ty f) = .next (after s (cancelHere n (takeTrap n ⟨xFp, r.2, false⟩
      (coreOf n (start s)).x.pc (coreSet n (coreOf n (start s)) d')))) := by
  subst hl hr
  exact issue_trap hi hk (fpEnd_enabled hq)

/-- Elements that raise no flag are written, and FPCSR stays. -/
theorem issue_vecOp_flagless (hi : Issues n (start s) w d') (hk : reads k w = true) (hl : legal = true) :
    issue k n s (vecOp legal vd pm ty fun c i => { v := g c i }) =
      .next (after s (retires n ((coreOf n (start s)).putVec vd
        (lanes ty ((coreOf n (start s)).pred pm) ((coreOf n (start s)).vec vd) fun i => { v := g (coreOf n (start s)) i }).1).next
        d')) := by
  have hfl := lanes_flags ty ((coreOf n (start s)).pred pm) ((coreOf n (start s)).vec vd) (g (coreOf n (start s)))
  rw [issue_vecOp_quiet hi hk hl rfl (by rw [hfl, Nat.zero_and]), hfl, sticky_zero]

theorem issue_vecCmp_illegal (hi : Issues n (start s) w d') (hk : reads k w = true) (hl : vIsWide ty = false) :
    issue k n s (vecCmp j pd va vb pm ty) = .next (after s (cancelHere n (takeTrap n ⟨xIllegal, w, false⟩
      (coreOf n (start s)).x.pc (coreSet n (coreOf n (start s)) d')))) :=
  issue_trap hi hk (by rw [vecCmp, hl]; rfl)

theorem issue_vecCmp_quiet (hi : Issues n (start s) w d') (hk : reads k w = true) (hl : vIsWide ty = true)
    (hq : cmpFlags j ty ((coreOf n (start s)).pred pm) ((coreOf n (start s)).vec va) ((coreOf n (start s)).vec vb) &&&
      bits (coreOf n (start s)).x.fpcsr.toNat 16 5 = 0) :
    issue k n s (vecCmp j pd va vb pm ty) =
      .next (after s (retires n (((coreOf n (start s)).putPred pd
        (cmpBits j ty ((coreOf n (start s)).pred pm) ((coreOf n (start s)).pred pd) ((coreOf n (start s)).vec va)
          ((coreOf n (start s)).vec vb))).sticky
        (cmpFlags j ty ((coreOf n (start s)).pred pm) ((coreOf n (start s)).vec va) ((coreOf n (start s)).vec vb))).next d')) :=
  issue_done hi hk (by rw [vecCmp, hl]; exact fpEnd_quiet hq)

theorem issue_vecCmp_enabled (hi : Issues n (start s) w d') (hk : reads k w = true) (hl : vIsWide ty = true)
    (hq : cmpFlags j ty ((coreOf n (start s)).pred pm) ((coreOf n (start s)).vec va) ((coreOf n (start s)).vec vb) &&&
      bits (coreOf n (start s)).x.fpcsr.toNat 16 5 ≠ 0) :
    issue k n s (vecCmp j pd va vb pm ty) = .next (after s (cancelHere n (takeTrap n
      ⟨xFp, cmpFlags j ty ((coreOf n (start s)).pred pm) ((coreOf n (start s)).vec va) ((coreOf n (start s)).vec vb), false⟩
      (coreOf n (start s)).x.pc (coreSet n (coreOf n (start s)) d')))) :=
  issue_trap hi hk (by rw [vecCmp, hl]; exact fpEnd_enabled hq)

end Vector

end Issue

/-! ## The commands -/

/-- Settles O37: each writes its rounded result or its predicate where no flag it raises is enabled, and otherwise traps. -/
theorem floatingResults : Obligations.FloatingResults := by
  unfold Obligations.FloatingResults
  rintro s _ n w d' _ rfl hi rfl
  refine ⟨?fadd, ?fsub, ?fmul, ?fdiv, ?fma, ?fmin, ?fmax, ?fsqrt, ?sToD, ?dToS, ?sToInt, ?dToInt, ?intToS, ?intToD,
    ?faddTrap, ?fcmpeq, ?fcmplt, ?fcmple, ?faddTrap', ?fsubTrap, ?fmulTrap, ?fdivTrap, ?fmaTrap, ?fminTrap, ?fmaxTrap,
    ?fsqrtTrap, ?sToDTrap, ?dToSTrap, ?sToIntTrap, ?dToIntTrap, ?intToSTrap, ?intToDTrap, ?fcmpeqTrap, ?fcmpltTrap,
    ?fcmpleTrap⟩
  case fadd | fsub | fmul | fdiv | fma | fmin | fmax => exact fun rd rs rt dbl r hr hq hk => issue_fpOp_quiet hi hk hr hq
  case fsqrt => exact fun rd rs dbl r hr hq hk => issue_fpOp_quiet hi hk hr hq
  case sToD | dToS | sToInt | dToInt | intToS | intToD => exact fun rd rs r hr hq hk => issue_fpOp_quiet hi hk hr hq
  case faddTrap | faddTrap' | fsubTrap | fmulTrap | fdivTrap | fmaTrap | fminTrap | fmaxTrap =>
    exact fun rd rs rt dbl r hr hq hk => issue_fpOp_enabled hi hk hr hq
  case fsqrtTrap => exact fun rd rs dbl r hr hq hk => issue_fpOp_enabled hi hk hr hq
  case sToDTrap | dToSTrap | sToIntTrap | dToIntTrap | intToSTrap | intToDTrap =>
    exact fun rd rs r hr hq hk => issue_fpOp_enabled hi hk hr hq
  case fcmpeq | fcmplt | fcmple => exact fun pd rs rt dbl r hr hq hk => issue_fpCmp_quiet hi hk hr hq
  case fcmpeqTrap | fcmpltTrap | fcmpleTrap => exact fun pd rs rt dbl r hr hq hk => issue_fpCmp_enabled hi hk hr hq

/-- Settles O38: as scalar instructions, element by element; a type that the class does not have is ILLEGAL. -/
theorem vectorFloatResults : Obligations.VectorFloatResults := by
  unfold Obligations.VectorFloatResults
  rintro s _ n w d' _ rfl hi rfl
  refine ⟨?vadd, ?vsub, ?vmul, ?vdiv, ?vmin, ?vmax, ?vfma, ?vsqrt, ?toInt, ?ofInt, ?vaddIllegal, ?vcmpeq, ?vcmplt, ?vcmple,
    ?vaddTrap, ?vsubTrap, ?vsubIllegal, ?vmulTrap, ?vmulIllegal, ?vdivTrap, ?vdivIllegal, ?vminTrap, ?vminIllegal,
    ?vmaxTrap, ?vmaxIllegal, ?vfmaTrap, ?vfmaIllegal, ?vsqrtTrap, ?vsqrtIllegal, ?toIntTrap, ?vcvtIllegal, ?ofIntTrap,
    ?vcmpeqTrap, ?vcmpeqIllegal, ?vcmpltTrap, ?vcmpltIllegal, ?vcmpleTrap, ?vcmpleIllegal⟩
  case vadd | vsub | vmul | vdiv | vmin | vmax | vfma =>
    exact fun vd va vb pm ty r hl hr hq hk => issue_vecOp_quiet hi hk hl hr hq
  case vsqrt | toInt | ofInt => exact fun vd va pm ty r hl hr hq hk => issue_vecOp_quiet hi hk hl hr hq
  case vaddTrap | vsubTrap | vmulTrap | vdivTrap | vminTrap | vmaxTrap | vfmaTrap =>
    exact fun vd va vb pm ty r hl hr hq hk => issue_vecOp_enabled hi hk hl hr hq
  case vsqrtTrap | toIntTrap | ofIntTrap => exact fun vd va pm ty r hl hr hq hk => issue_vecOp_enabled hi hk hl hr hq
  case vaddIllegal | vsubIllegal | vmulIllegal | vdivIllegal | vminIllegal | vmaxIllegal | vfmaIllegal =>
    exact fun vd va vb pm ty hl hk => issue_vecOp_illegal hi hk hl
  case vsqrtIllegal => exact fun vd va pm ty hl hk => issue_vecOp_illegal hi hk hl
  case vcvtIllegal => exact fun vd va pm ty toI hl hk => issue_vecOp_illegal hi hk hl
  case vcmpeq | vcmplt | vcmple => exact fun pd va vb pm ty hl hq hk => issue_vecCmp_quiet hi hk hl hq
  case vcmpeqTrap | vcmpltTrap | vcmpleTrap => exact fun pd va vb pm ty hl hq hk => issue_vecCmp_enabled hi hk hl hq
  case vcmpeqIllegal | vcmpltIllegal | vcmpleIllegal => exact fun pd va vb pm ty hl hk => issue_vecCmp_illegal hi hk hl

/-- Settles O39: elements that raise no flag, and a type that the class does not have, which is ILLEGAL. -/
theorem vectorIntegerResults : Obligations.VectorIntegerResults := by
  unfold Obligations.VectorIntegerResults
  rintro s _ n w d' _ rfl hi rfl
  refine ⟨?viadd, ?visub, ?vimul, ?vshl, ?vshr, ?vand, ?vor, ?vxor, ?vbcast, ?vperm, ?vins, ?vext, ?vred, ?viaddIllegal,
    ?visubIllegal, ?vimulIllegal, ?vshlIllegal, ?vshrIllegal, ?vandIllegal, ?vorIllegal, ?vxorIllegal, ?vbcastIllegal,
    ?vpermIllegal, ?vinsIllegal, ?vextIllegal, ?vredIllegal⟩
  case viadd | visub | vimul | vshl | vshr | vand | vor | vxor | vperm | vins =>
    exact fun vd va vb pm ty hl hk => issue_vecOp_flagless hi hk hl
  case vbcast => exact fun vd ra pm ty hl hk => issue_vecOp_flagless hi hk hl
  case vext => exact fun rd va rb ty hl hk => issue_done hi hk (by simp only [hl]; rfl)
  case vred => exact fun rd va pm ty hl hk => issue_done hi hk (by simp only [hl]; rfl)
  case viaddIllegal | visubIllegal | vimulIllegal | vshlIllegal | vshrIllegal | vandIllegal | vorIllegal | vxorIllegal |
      vpermIllegal | vinsIllegal =>
    exact fun vd va vb pm ty hl hk => issue_vecOp_illegal hi hk hl
  case vbcastIllegal => exact fun vd ra pm ty hl hk => issue_vecOp_illegal hi hk hl
  case vextIllegal => exact fun rd va rb ty hl hk => issue_trap hi hk (by simp only [hl]; rfl)
  case vredIllegal => exact fun rd va pm ty hl hk => issue_trap hi hk (by simp only [hl]; rfl)

end Sys2Proof.Proofs
end

section
/-! Proofs/MemoryInstructions.lean: loads, atomics, stores and vector streams (R388, R391, R392, R401, R402). -/

namespace Sys2Proof.Proofs

open Sys2Proof Sys2Proof.Machine Sys2Proof.Safety Sys2Proof.Laws

/-! ## What each kind of access comes to -/

section Accesses

variable {fu : Fuses} {n : CoreNo} {nb w va v : Nat} {base : RegNo} {off : BitVec 12} {e : Ecc} {c : Core} {d d2 d3 : Dev}
  {r : Reached}

theorem loadOp_ok {put : Nat → Core → Core} (ha : memAddr base off c % nb = 0)
    (hl : loadAt fu n c nb (memAddr base off c) e d = (.ok v, d2)) :
    loadOp fu nb base off e put n w c d = .done (put v c).next d2 := by
  rw [loadOp, if_neg (not_not_intro ha), hl]

theorem loadOp_misaligned {put : Nat → Core → Core} (ha : memAddr base off c % nb ≠ 0) :
    loadOp fu nb base off e put n w c d = .trap ⟨xAlign, memAddr base off c, false⟩ c d := if_pos ha

/-- A store to DRAM whose word ECC finds good. -/
theorem storeAt_dram {a : Nat} {cw : Core} {fin : Dev → IRes} (hr : c.reach .store va d = (.ok r, d2))
    (hd : r.pa + nb ≤ dramSize) (he : eccOpen r.pa nb e d2 = (some a, d3)) :
    storeAt fu n c nb va v e cw fin d = fin (dramWrite a (leBytes nb v) (used r .store d3)) := by
  simp only [storeAt, hr, if_pos hd, he]

/-- A store to a window that takes it. -/
theorem storeAt_window {cw : Core} {fin : Dev → IRes} (hr : c.reach .store va d = (.ok r, d2))
    (hd : ¬ r.pa + nb ≤ dramSize)
    (hw : mmioWrite fu (coreWho n c) nb r.pa v (coreSet n cw (used r .store d2)) = some d3) :
    storeAt fu n c nb va v e cw fin d = .settled d3 := by
  simp only [storeAt, hr, if_neg hd, hw]

theorem storeOp_aligned {x : Core → Nat} (ha : memAddr base off c % nb = 0) :
    storeOp fu nb base off e x n w c d =
      storeAt fu n c nb (memAddr base off c) (x c) e { c.next with iret := c.iret + 1 } (fun d => .done c.next d) d :=
  if_neg (not_not_intro ha)

theorem storeOp_misaligned {x : Core → Nat} (ha : memAddr base off c % nb ≠ 0) :
    storeOp fu nb base off e x n w c d = .trap ⟨xAlign, memAddr base off c, false⟩ c d := if_pos ha

end Accesses

section Atomics

variable {rd rs rt : RegNo} {dbl : Bool} {e : Ecc} {new : Nat → Nat → Nat → Option Nat} {w nb : Nat} {c : Core}
  {r : Reached} {b : List Nat} {d d2 d3 : Dev} (hnb : nb = (if dbl then 8 else 4)) (ha : (c.get rs).toNat % nb = 0)
  (hr : c.reach .atomic (c.get rs).toNat d = (.ok r, d2)) (hnc : r.nc = false) (hd : r.pa + nb ≤ dramSize)
  (he : eccRead r.pa nb e d2 = (some b, d3))

include hnb ha hr hnc hd he

/-- An aligned atomic on cacheable DRAM whose word ECC finds good, and that writes one (R391). -/
theorem atomOp_writes {v : Nat}
    (hnew : new (ofLe b) ((c.get rd).toNat % 2 ^ (8 * nb)) ((c.get rt).toNat % 2 ^ (8 * nb)) = some v) :
    atomOp rd rs rt dbl e new w c d = .done (putU rd (ofLe b) c).next
      (dramWrite (movedTo r.pa (struck (r.pa / 8) e d2) d3) (leBytes nb (v % 2 ^ (8 * nb))) (used r .atomic d3)) := by
  have hin : ¬ (r.nc = true ∨ dramSize < r.pa + nb) := by simp [hnc, hd]
  subst hnb
  simp only [atomOp, if_neg (not_not_intro ha), hr, if_neg hin, he, hnew]

/-- One that leaves memory as it is (R392). -/
theorem atomOp_keeps
    (hnew : new (ofLe b) ((c.get rd).toNat % 2 ^ (8 * nb)) ((c.get rt).toNat % 2 ^ (8 * nb)) = none) :
    atomOp rd rs rt dbl e new w c d = .done (putU rd (ofLe b) c).next (used r .atomic d3) := by
  have hin : ¬ (r.nc = true ∨ dramSize < r.pa + nb) := by simp [hnc, hd]
  subst hnb
  simp only [atomOp, if_neg (not_not_intro ha), hr, if_neg hin, he, hnew]

end Atomics

/-! ## Streams -/

section Streams

variable {fu : Fuses} {n : CoreNo} {nb w va v i : Nat} {e : Ecc} {c c' c2 : Core} {d d2 : Dev} {ty : VTy} {vb : RegNo}
  {legal : Bool} {count : Nat} {bases : Core → List W64} {step : Nat → W64 → Ecc → Core → Dev → SStep}

/-- A stream with no element left ends (R401). -/
theorem streamOp_over (hvb : vb ≠ 31) (hl : legal = true) (hn : (c.get vb).toNat % 2 ^ 40 ≤ c.x.residx) :
    streamOp legal vb ty count e bases step w c d = .done (c.res 0).next d := by
  rw [streamOp, if_neg (by simp [hvb, hl])]
  exact if_pos hn

/-- A stream's last element, after which it ends (R401). -/
theorem streamOp_last (hvb : vb ≠ 31) (hl : legal = true) (hi : i = c.x.residx)
    (hn : (c.get vb).toNat % 2 ^ 40 = i + 1) (hb : ∀ b ∈ bases c, b.toNat % vBytes ty = 0)
    (hs : step i (c.get (vb.val + 1)) e c d = .next (c2.res (i + 1)) d2) :
    streamOp legal vb ty 1 e bases step w c d = .done ((c2.res (i + 1)).res 0).next d2 := by
  subst hi
  have hleft : ¬ c.x.residx + 1 ≤ c.x.residx := Nat.not_succ_le_self _
  have hfind : (bases c).find? (fun b => b.toNat % vBytes ty ≠ 0) = none := by simpa using hb
  have hend : c.x.residx + 1 ≤ (c2.res (c.x.residx + 1)).x.residx := Nat.le_refl _
  rw [streamOp, if_neg (by simp [hvb, hl])]
  simp only [hn, if_neg hleft, hfind, streamLoop, hs, if_pos hend]

theorem elemLoad_ok {f : Nat → Dev → SStep} (h : loadAt fu n c nb va e d = (.ok v, d2)) :
    elemLoad fu n nb va e c d f = f v d2 := by
  rw [elemLoad, h]

end Streams

/-! ## Commands of instructions that read memory -/

section Reads

variable {k : Code} {n : CoreNo} {w nb v : Nat} {s : State} {d' d2 : Dev} {base : RegNo} {off : BitVec 12} {e : Ecc}
  {put : Nat → Core → Core}

theorem issueF_load (hi : Issues n (start s) w d') (ha : memAddr base off (coreOf n (start s)) % nb = 0)
    (hl : loadAt s.fuses n (coreOf n (start s)) nb (memAddr base off (coreOf n (start s))) e d' = (.ok v, d2))
    (hk : reads k w = true) :
    issueF k n s (fun fu => loadOp fu nb base off e put n) =
      .next (after s (retires n (put v (coreOf n (start s))).next d2)) :=
  (issueF_eq _).trans (issue_done hi hk (loadOp_ok ha hl))

theorem issueF_load_misaligned (hi : Issues n (start s) w d') (ha : memAddr base off (coreOf n (start s)) % nb ≠ 0)
    (hk : reads k w = true) :
    issueF k n s (fun fu => loadOp fu nb base off e put n) =
      .next (after s (cancelHere n (takeTrap n ⟨xAlign, memAddr base off (coreOf n (start s)), false⟩
        (coreOf n (start s)).x.pc (coreSet n (coreOf n (start s)) d')))) :=
  (issueF_eq _).trans (issue_trap hi hk (loadOp_misaligned ha))

end Reads

/-- Settles O40: an aligned load writes what it read, and a stream of reads takes its element or ends. -/
theorem loadsRead : Obligations.LoadsRead := by
  unfold Obligations.LoadsRead
  rintro s _ n w d' _ rfl hi rfl
  refine ⟨?lb, ?lbu, ?lh, ?lhu, ?lw, ?lwu, ?ld, ?vld, ?ldMisaligned, ?vsdotOver, ?vsdotLast⟩
  case lb | lbu | lh | lhu | lw | lwu | ld | vld =>
    intro rd base off e v d2 ha hl hk
    dsimp only [exec]
    exact issueF_load hi ha hl hk
  case ldMisaligned =>
    intro rd base off e ha hk
    dsimp only [exec]
    exact issueF_load_misaligned hi ha hk
  case vsdotOver =>
    intro vd va vb ty count e hvb hl hn hk
    dsimp only [exec]
    exact (issueF_eq _).trans (issue_done hi hk (streamOp_over hvb hl hn))
  case vsdotLast =>
    intro vd va vb ty e i x y d2 d3 d4 c2 hvb hl hres hn hva hvb' hx hy hstep hk
    dsimp only [exec]
    refine (issueF_eq _).trans (issue_done hi hk (streamOp_last hvb hl hres hn ?_ ?_))
    · simp [hva, hvb']
    · rw [elemLoad_ok hx, elemLoad_ok hy]
      exact hstep

/-- Settles O41: the word comes back, and memory takes what the operation makes of it. -/
theorem atomicResults : Obligations.AtomicResults := by
  unfold Obligations.AtomicResults
  rintro s _ n w d' _ rfl hi rfl
  refine ⟨?aadd, ?aswp, ?acasEqual, ?acasOther⟩
  case aadd | aswp =>
    exact fun _ _ _ _ _ _ _ _ _ _ _ _ hnb ha hr hnc hd he hk => issue_done hi hk (atomOp_writes hnb ha hr hnc hd he rfl)
  case acasEqual =>
    exact fun _ _ _ _ _ _ _ _ _ _ _ _ hnb ha hr hnc hd he heq hk =>
      issue_done hi hk (atomOp_writes hnb ha hr hnc hd he (if_pos heq))
  case acasOther =>
    exact fun _ _ _ _ _ _ _ _ _ _ _ _ hnb ha hr hnc hd he hne hk =>
      issue_done hi hk (atomOp_keeps hnb ha hr hnc hd he (if_neg hne))

/-! ## Commands of instructions that write memory -/

section Writes

variable {k : Code} {n : CoreNo} {w nb : Nat} {s : State} {d d' d2 d3 : Dev} {c : Core} {f : Fuses → Nat → Core → Dev → IRes}

/-- An instruction that may write a register, which its core issues after the ties of its raw count. -/
theorem issueW_eq (hd : d = ties s.pending (start s)) (hi : Issues n d w d') (hc : c = coreOf n d) (hk : reads k w = true) :
    issueW k n s f = .next (after s (cancelHere n (settle n (f s.fuses w c d') d'))) := by
  subst hd hc
  rw [issueW, onDev_eq, issue_eq hi hk]

theorem issueW_done {c2 : Core} (hd : d = ties s.pending (start s)) (hi : Issues n d w d') (hc : c = coreOf n d)
    (hk : reads k w = true) (hf : f s.fuses w c d' = .done c2 d2) :
    issueW k n s f = .next (after s (retires n c2 d2)) := by
  rw [issueW_eq hd hi hc hk, hf, settle, retires]

theorem issueW_trap {t : Trap} (hd : d = ties s.pending (start s)) (hi : Issues n d w d') (hc : c = coreOf n d)
    (hk : reads k w = true) (hf : f s.fuses w c d' = .trap t c d2) :
    issueW k n s f = .next (after s (cancelHere n (takeTrap n t c.x.pc (coreSet n c d2)))) := by
  rw [issueW_eq hd hi hc hk, hf, settle]

theorem issueW_settled (hd : d = ties s.pending (start s)) (hi : Issues n d w d') (hc : c = coreOf n d)
    (hk : reads k w = true) (hf : f s.fuses w c d' = .settled d2) :
    issueW k n s f = .next (after s (cancelHere n d2)) := by
  rw [issueW_eq hd hi hc hk, hf, settle]

variable {base : RegNo} {off : BitVec 12} {e : Ecc} {x : Core → Nat} {r : Reached}

theorem issueW_store_dram {a : Nat} (hd : d = ties s.pending (start s)) (hi : Issues n d w d') (hc : c = coreOf n d)
    (ha : memAddr base off c % nb = 0) (hr : c.reach .store (memAddr base off c) d' = (.ok r, d2))
    (hin : r.pa + nb ≤ dramSize) (he : eccOpen r.pa nb e d2 = (some a, d3)) (hk : reads k w = true) :
    issueW k n s (fun fu => storeOp fu nb base off e x n) =
      .next (after s (retires n c.next (dramWrite a (leBytes nb (x c)) (used r .store d3)))) :=
  issueW_done hd hi hc hk ((storeOp_aligned ha).trans (storeAt_dram hr hin he))

theorem issueW_store_window (hd : d = ties s.pending (start s)) (hi : Issues n d w d') (hc : c = coreOf n d)
    (ha : memAddr base off c % nb = 0) (hr : c.reach .store (memAddr base off c) d' = (.ok r, d2))
    (hin : ¬ r.pa + nb ≤ dramSize)
    (hw : mmioWrite s.fuses (coreWho n c) nb r.pa (x c) (coreSet n { c.next with iret := c.iret + 1 } (used r .store d2)) =
      some d3) (hk : reads k w = true) :
    issueW k n s (fun fu => storeOp fu nb base off e x n) = .next (after s (cancelHere n d3)) :=
  issueW_settled hd hi hc hk ((storeOp_aligned ha).trans (storeAt_window hr hin hw))

end Writes

/-- Settles O42: an aligned store goes to DRAM or to a window, and a stream takes its element or ends. -/
theorem storesAndStreams : Obligations.StoresAndStreams := by
  unfold Obligations.StoresAndStreams
  intro s d n w d' c hd hi hc
  refine ⟨?sb, ?sbWindow, ?sh, ?shWindow, ?sw, ?swWindow, ?sd, ?sdWindow, ?vst, ?vstWindow, ?sdMisaligned, ?vscpyOver,
    ?vscpyLast, ?vsfillOver, ?vsfillLast, ?vsaxpyOver, ?vsaxpyLast, ?vsscalOver, ?vsscalLast⟩
  case sb | sh | sw | sd | vst =>
    intro rd base off e r a d2 d3 ha hr hin he hk
    dsimp only [exec]
    exact issueW_store_dram hd hi hc ha hr hin he hk
  case sbWindow | shWindow | swWindow | sdWindow | vstWindow =>
    intro rd base off e r d2 d3 ha hr hin hw hk
    dsimp only [exec]
    exact issueW_store_window hd hi hc ha hr hin hw hk
  case sdMisaligned =>
    intro rd base off e ha hk
    dsimp only [exec]
    exact issueW_trap hd hi hc hk (storeOp_misaligned ha)
  case vscpyOver =>
    intro vd va vb ty count e hvb hn hk
    dsimp only [exec]
    exact issueW_done hd hi hc hk (streamOp_over hvb rfl hn)
  case vsfillOver =>
    intro vd vb ty count e hvb hn hk
    dsimp only [exec]
    exact issueW_done hd hi hc hk (streamOp_over hvb rfl hn)
  case vsaxpyOver =>
    intro vd va vb ty count e hvb hl hn hk
    dsimp only [exec]
    exact issueW_done hd hi hc hk (streamOp_over hvb hl hn)
  case vsscalOver =>
    intro vd vb ty count e hvb hl hn hk
    dsimp only [exec]
    exact issueW_done hd hi hc hk (streamOp_over hvb hl hn)
  case vscpyLast =>
    intro vd va vb ty e i v d2 d3 hvb hres hn hvd hva hv hstore hk
    dsimp only [exec]
    refine issueW_done hd hi hc hk (streamOp_last hvb rfl hres hn (by simp [hvd, hva]) ?_)
    rw [elemLoad_ok hv, hstore]
  case vsfillLast =>
    intro vd vb ty e i d3 hvb hres hn hvd hstore hk
    dsimp only [exec]
    exact issueW_done hd hi hc hk (streamOp_last hvb rfl hres hn (by simp [hvd]) hstore)
  case vsaxpyLast =>
    intro vd va vb ty e i x y d2 d3 d4 c2 hvb hl hres hn hvd hva hx hy hstep hk
    dsimp only [exec]
    refine issueW_done hd hi hc hk (streamOp_last hvb hl hres hn (by simp [hvd, hva]) ?_)
    rw [elemLoad_ok hx, elemLoad_ok hy, hstep]
  case vsscalLast =>
    intro vd vb ty e i x d2 d4 c2 hvb hl hres hn hvd hx hstep hk
    dsimp only [exec]
    refine issueW_done hd hi hc hk (streamOp_last hvb hl hres hn (by simp [hvd]) ?_)
    rw [elemLoad_ok hx, hstep]

end Sys2Proof.Proofs
end

section
/-! Proofs/StoreFrame.lean: what a store to DRAM changes, where ECC finds nothing (R388, R389, R447, R452). -/

namespace Sys2Proof.Proofs

open Sys2Proof Sys2Proof.Machine Sys2Proof.Safety Sys2Proof.Laws

/-! ## The bytes of a number -/

@[simp] theorem length_leBytes (n v : Nat) : (leBytes n v).length = n := by
  induction n generalizing v with
  | zero => rfl
  | succ n ih => rw [leBytes, List.length_cons, ih]

theorem lt_of_mem_leBytes {n v x : Nat} (h : x ∈ leBytes n v) : x < 256 := by
  induction n generalizing v with
  | zero => exact absurd h List.not_mem_nil
  | succ n ih =>
    obtain rfl | hx := List.mem_cons.mp h
    · exact Nat.mod_lt _ (by decide)
    · exact ih hx

/-- The low n bytes of a number are those of its low 8n bits. -/
theorem leBytes_mod (n v : Nat) : leBytes n (v % 2 ^ (8 * n)) = leBytes n v := by
  induction n generalizing v with
  | zero => rfl
  | succ n ih =>
    have hpow : 2 ^ (8 * (n + 1)) = 2 ^ (8 * n) * 256 := pow_add 2 (8 * n) 8
    rw [leBytes, leBytes, hpow, Nat.mod_mul_left_mod, Nat.mod_mul_left_div_self, ih]

/-! ## A write to DRAM reaches memory only -/

section DramOnly

variable {a v k n : Nat} {l : List Nat} {c : Core} {r : Reached} {acc : Acc} {d : Dev}

theorem dramPut_app : (dramPut a v d).app = d.app := by
  unfold dramPut
  split <;> rfl

theorem dramWrite_app : (dramWrite a l d).app = d.app :=
  foldl_keeps (P := fun e : Dev => e.app = d.app) (fun _ _ h => dramPut_app.trans h) _ (unmarked _ _ d) rfl

theorem coreOf_dramWrite : coreOf k (dramWrite a l d) = coreOf k d := by rw [coreOf, dramWrite_app, coreOf]

/-- The use of a leaf is noted in its entry, which stands in DRAM (R452). -/
theorem pteUse_eq_dramWrite : pteUse a acc d = d ∨ ∃ l, pteUse a acc d = dramWrite a l d :=
  (ite_eq_or_eq _ d (pteWrite a _ d)).imp id fun h => ⟨_, h⟩

theorem used_eq_dramWrite : used r acc d = d ∨ ∃ b l, used r acc d = dramWrite b l d := by
  unfold used
  split
  · exact .inl rfl
  next b _ => exact pteUse_eq_dramWrite.imp id fun ⟨l, h⟩ => ⟨b, l, h⟩

theorem used_regs : (used r acc d).regs = d.regs := by
  obtain h | ⟨b, l, h⟩ := used_eq_dramWrite (r := r) (acc := acc) (d := d)
  · rw [h]
  · rw [h, dramWrite_regs]

theorem coreOf_used : coreOf k (used r acc d) = coreOf k d := by
  obtain h | ⟨b, l, h⟩ := used_eq_dramWrite (r := r) (acc := acc) (d := d)
  · rw [h]
  · rw [h, coreOf_dramWrite]

@[simp] theorem dramGet_coreSet : dramGet a (coreSet n c d) = dramGet a d := rfl

end DramOnly

/-- The bytes of a number written to DRAM are read back. -/
theorem dramRead_dramWrite {a n : Nat} (v : Nat) {d : Dev} (h : a + n ≤ dramSize) :
    dramRead a n (dramWrite a (leBytes n v) d) = leBytes n v := by
  refine List.ext_getElem (by simp [dramRead]) fun i hi hi' => ?_
  have hin : i < n := by simpa using hi'
  simp only [dramRead, List.getElem_map, List.getElem_range]
  rw [dramGet_dramWrite_at _ hi' (by omega), List.getD_eq_getElem _ _ hi',
    Nat.mod_eq_of_lt (lt_of_mem_leBytes (List.getElem_mem hi'))]

/-! ## A word in which ECC finds nothing (R446, R447) -/

section Clean

variable {pa nb : Nat} {d : Dev}

/-- An access that found nothing has moved no frame. -/
theorem movedTo_self : movedTo pa d d = pa := by
  have hne : ¬ (ftState (ftGet (pa / 4096) d) = fMapped ∧ ftState (ftGet (pa / 4096) d) = fRetired) :=
    fun ⟨hm, hr⟩ => absurd (hm.symm.trans hr) (by decide)
  simp only [movedTo, if_neg hne, ite_self]

theorem wordsOver_word (k : Nat) : wordsOver (k * 8) 8 = 1 := by
  simp only [wordsOver]
  omega

/-- A word that is not marked reads as it stands. -/
theorem eccRead_word_unmarked {k : Nat} (h : marked k 1 d = []) : eccRead (k * 8) 8 .clean d = (some (dramRead (k * 8) 8 d), d) := by
  simp only [eccRead, struck, id_eq, wordsOver_word, Nat.mul_div_cancel k (Nat.zero_lt_succ 7), h, forAll, List.any_nil,
    List.foldl_nil, Bool.false_eq_true, if_false]

/-- A store into a word that is not marked goes where it is addressed. -/
theorem eccOpen_unmarked (h : marked (pa / 8) 1 d = []) : eccOpen pa nb .clean d = (some pa, d) := by
  simp only [eccOpen, eccRead_word_unmarked h, struck, id_eq, movedTo_self, ite_self]

end Clean

/-! ## The block after a store -/

section Frame

variable {s : State} {d d' d2 u : Dev} {n : CoreNo} {c : Core} {pa nb v : Nat} {r : Reached}

/-- A store of a core to DRAM, through the leaf it used. -/
theorem store_frame (hin : pa + nb ≤ dramSize) (hu : u = used r .store d2) :
    let t := after s (coreSet n { c.next with iret := c.iret + 1 } (dramWrite pa (leBytes nb v) u))
    dramRead pa nb t.dev = leBytes nb v ∧
      (∀ a, a < pa ∨ pa + nb ≤ a → dramGet a t.dev = dramGet a u) ∧
      (coreOf n t.dev).x = c.next.x ∧ (∀ k, k ≠ n.val → coreOf k t.dev = coreOf k d2) ∧
      t.dev.regs = d2.regs ∧ t.pending = s.pending ∧ t.fuses = s.fuses := by
  refine ⟨dramRead_dramWrite v hin, fun a ha => ?_, ?_, fun k hk => ?_, ?_, rfl, rfl⟩
  · exact dramGet_dramWrite_beside _ (by rw [length_leBytes]; omega)
  · rw [after_dev, coreOf_coreSet]
  · rw [after_dev, coreOf_coreSet_ne _ _ hk, coreOf_dramWrite, hu, coreOf_used]
  · exact (dramWrite_regs _).trans (by rw [hu, used_regs])

end Frame

/-- Settles O19: each of the commands puts its register's low bytes at the translated address. -/
theorem storeFrame : Obligations.StoreFrame := by
  unfold Obligations.StoreFrame
  intro s d n w d' c rd base off r d2 u nb cmd hd hi hc hk ha hcmd hr hin hmark hu hun
  have hrun : exec cmd s = .next (after s (retires n c.next (dramWrite r.pa (leBytes nb (c.get rd).toNat) u))) := by
    have hclean := eccOpen_unmarked (nb := nb) hmark
    subst hu
    rcases hcmd with ⟨rfl, rfl⟩ | ⟨rfl, rfl⟩ | ⟨rfl, rfl⟩ | ⟨rfl, rfl⟩ <;> dsimp only [exec]
    case inl | inr.inl | inr.inr.inl => rw [← leBytes_mod]; exact issueW_store_dram hd hi hc ha hr hin hclean hk
    case inr.inr.inr => exact issueW_store_dram hd hi hc ha hr hin hclean hk
  exact ⟨_, hrun.trans (by rw [retires_uncancelled (c := c) (c' := c.next) rfl hun]; rfl), store_frame hin hu⟩

end Sys2Proof.Proofs
end

section
/-! Proofs/PagesAndFlow.lean: Pretan's page and dataflow instructions (R398-R400, R403-R407). -/

namespace Sys2Proof.Proofs

open Sys2Proof Sys2Proof.Machine Sys2Proof.Safety Sys2Proof.Laws

/-! ## Page instructions -/

section Pages

variable {rd rs rt : RegNo} {count w : Nat} {step : Nat → Nat → Core → Dev → PStep} {c c0 c2 : Core} {d d2 : Dev}

/-- Below S a page instruction is not allowed (R400). -/
theorem pageOp_u (hl : c.x.lvl = .u) : pageOp rd rs rt count step w c d = .trap ⟨xPriv, w, false⟩ c d := if_pos hl

/-- A page instruction that comes to its last page is done (R400). -/
theorem pageOp_last (hl : c.x.lvl ≠ .u) (hrd : rd.val ≠ 0) (hrs : rs.val ≠ 0) (hrt : rt.val ≠ 0) (hds : rd ≠ rs)
    (hdt : rd ≠ rt) (hst : rs ≠ rt) (ha : (c.get rs).toNat % 4096 = 0) (h0 : c0 = (if c.x.residx = 0 then c.put rd 0 else c))
    (hleft : ¬ (c.get rt).toNat ≤ c0.x.residx) (hs : step (c.get rs).toNat (c.get rt).toNat c0 d = .next c2 d2)
    (hend : (c.get rt).toNat ≤ c2.x.residx) : pageOp rd rs rt 1 step w c d = .done (c2.res 0).next d2 := by
  have hregs : ¬ (rd.val = 0 ∨ rs.val = 0 ∨ rt.val = 0 ∨ rd = rs ∨ rd = rt ∨ rs = rt) := by
    simp only [hrd, hrs, hrt, hds, hdt, hst, or_self, not_false_eq_true]
  subst h0
  rw [pageOp, if_neg hl, if_neg hregs]
  simp only [if_neg (not_not_intro ha), pageLoop, if_neg hleft, hs, if_pos hend]

end Pages

/-! ## Dataflow instructions -/

section Flow

variable {k : Code} {n : CoreNo} {w : Nat} {s : State} {d' d2 : Dev} {f : Core → Dev → IRes} {c c2 : Core} {t : Trap}

/-- Outside a handler, while SCH takes requests, a dataflow instruction does what it does (R407). -/
theorem flowOp_taken (he : c.eact = false) (hr : runs SCHi d' = true) : flowOp f w c d' = f c d' := by
  simp only [flowOp, he, hr, Bool.not_true, Bool.false_eq_true, if_false]

/-- In a handler it traps (R407). -/
theorem flowOp_handler (he : c.eact = true) : flowOp f w c d' = .trap ⟨xDfCtx, w, false⟩ c d' := by
  simp only [flowOp, he, if_true]

variable (hi : Issues n (start s) w d') (hk : reads k w = true) (he : (coreOf n (start s)).eact = false)
  (hr : runs SCHi d' = true)

include hi hk he hr

/-- What a dataflow instruction that SCH takes comes to. -/
theorem issue_flow : issue k n s (flowOp f) = .next (after s (cancelHere n (settle n (f (coreOf n (start s)) d') d'))) := by
  rw [issue, onDev_eq, issue_eq hi hk, flowOp_taken he hr]

theorem flow_done (hf : f (coreOf n (start s)) d' = .done c2 d2) :
    withTies (issue k n s (flowOp f)) = .next (after s (whenRuns SCHi (tiesDone s.pending) (retires n c2 d2))) := by
  rw [issue_flow hi hk he hr, hf, settle, ← retires, withTies_eq]

theorem flow_part (hf : f (coreOf n (start s)) d' = .part c2 d2) :
    withTies (issue k n s (flowOp f)) =
      .next (after s (whenRuns SCHi (tiesDone s.pending) (cancelHere n (coreSet n c2 d2)))) := by
  rw [issue_flow hi hk he hr, hf, settle, withTies_eq]

theorem flow_settled (hf : f (coreOf n (start s)) d' = .settled d2) :
    withTies (issue k n s (flowOp f)) = .next (after s (whenRuns SCHi (tiesDone s.pending) (cancelHere n d2))) := by
  rw [issue_flow hi hk he hr, hf, settle, withTies_eq]

theorem flow_trap (hf : f (coreOf n (start s)) d' = .trap t c2 d2) :
    withTies (issue k n s (flowOp f)) =
      .next (after s (whenRuns SCHi (tiesDone s.pending) (cancelHere n (takeTrap n t c2.x.pc (coreSet n c2 d2))))) := by
  rw [issue_flow hi hk he hr, hf, settle, withTies_eq]

end Flow

/-- Settles O43: a page instruction's last page ends it; a request is answered, or waits for what comes first in its raw count. -/
theorem pagesAndFlow : Obligations.PagesAndFlow := by
  unfold Obligations.PagesAndFlow
  rintro s _ n w d' _ rfl hi rfl
  refine ⟨?pgrel, ?pgrelPriv, ?pgpin, ?pgpinPriv, ?pgunpin, ?pgunpinPriv, ?dfready, ?dfreadyHeld, ?dfpost, ?dfpostHeld,
    ?dfcancel, ?dfcancelHeld, ?dfdone, ?dfdoneLocked, ?dfyield, ?dfreadyHandler⟩
  case pgrel | pgpin | pgunpin =>
    exact fun rd rs rt c0 c2 d2 hl hrd hrs hrt hds hdt hst ha h0 hleft hs hend hk =>
      issue_done hi hk (pageOp_last hl hrd hrs hrt hds hdt hst ha h0 hleft hs hend)
  case pgrelPriv | pgpinPriv | pgunpinPriv => exact fun rd rs rt count hl hk => issue_trap hi hk (pageOp_u hl)
  case dfready =>
    intro rd rs d2 he hr hfirst hreq hk
    exact flow_done hi hk he hr (by simp only [hfirst, hreq, Bool.false_eq_true, if_false, withStatus])
  case dfreadyHeld => exact fun rd rs he hr hahead hk => flow_part hi hk he hr (if_pos hahead)
  case dfpost =>
    intro rd rs slot d2 he hr hfirst hreq hk
    exact flow_done hi hk he hr (by simp only [hfirst, hreq, Bool.false_eq_true, if_false, withStatus])
  case dfpostHeld => exact fun rd rs slot he hr hahead hk => flow_part hi hk he hr (if_pos hahead)
  case dfcancel =>
    intro rd rs d2 he hr hfirst hreq hentry hk
    exact flow_done hi hk he hr (by simp only [hfirst, hreq, Bool.false_eq_true, if_false, if_pos hentry, withStatus])
  case dfcancelHeld =>
    rintro rd rs h he hr hahead rfl hk
    exact flow_part hi hk he hr (if_pos hahead)
  case dfdone =>
    intro rs d2 he hr hl hreq hk
    exact flow_settled hi hk he hr (by simp only [hl, Nat.lt_irrefl, if_false, hreq])
  case dfdoneLocked => exact fun rs he hr hl hk => flow_trap hi hk he hr (if_pos hl)
  case dfyield =>
    intro he hr hl hcan hpend hk
    refine (issue_flow hi hk he hr).trans ?_
    simp only [hl, Nat.lt_irrefl, if_false, hcan, hpend, Bool.not_false, Bool.and_self, if_true, settle]
  case dfreadyHandler =>
    intro rd rs he hk
    dsimp only [exec, execDfready]
    rw [issue_trap hi hk (flowOp_handler he), withTies_eq]

end Sys2Proof.Proofs
end

section
/-! Proofs/CycleInstructions.lean: the instructions of cycle programs (R340-R353, Table 10-3). -/

namespace Sys2Proof.Proofs

open Sys2Proof Sys2Proof.Machine Sys2Proof.Safety Sys2Proof.Laws

section Ops

variable {s : State} {r : Running} {c : COp} {f : Dev → Dev}

/-- The next instruction of the running program takes effect on the block that has fetched it (R340). -/
theorem onCtl_op (hi : isUp CTLi (start s) = true) (h : AtOp (start s) r c) :
    onCtl s (ctlOp c f) = .next (after s (f (fetched r (start s)))) := by
  rw [onCtl, onDev_eq, whenUp_up hi, ctlOp_eq h]

/-- The same with the effect as the caller knows it. -/
theorem onCtl_op_to {t : Dev} (hi : isUp CTLi (start s) = true) (h : AtOp (start s) r c) (hf : f (fetched r (start s)) = t) :
    onCtl s (ctlOp c f) = .next (after s t) := by
  rw [onCtl_op hi h, hf]

end Ops

section Effects

variable {x a u : Nat} {e : Ecc} {q : Running} {d : Dev}

theorem opEnd_running (h : d.ctl.run = some q) : opEnd d = progEnd q { d with ctl := { d.ctl with ovr := 0 } } := by
  rw [opEnd, h]

theorem opLd_number {cell : Nat} (h : cBad (rd (CTL.DMEM cell) d) = false) : opLd x cell d = fSet x (rd (CTL.DMEM cell) d) d := by
  simp only [opLd, h, Bool.false_eq_true, if_false]

theorem opFilt2_ok (h : filtOk u d = true) : opFilt2 x a u d = fPut x (filt2 u (fGet a d) d).1 (filt2 u (fGet a d) d).2 := by
  simp only [opFilt2, h, Bool.not_true, Bool.false_eq_true, if_false]

/-- What ECC finds, where that is no double error, is at most counted (R356). -/
theorem ctlEcc_heeds {code : Nat} {f : Dev → Dev} (h : e ≠ .double) :
    ctlEcc e code f d = f (if e = .single then inc CTL.ECCCNT d else d) := by
  cases e with
  | clean => rfl
  | single => rfl
  | double => exact absurd rfl h

theorem opProfile_off (h : axState u d = 0) : opProfile x u d = fSet (x + 2) 0 (fSet (x + 1) 0 (fSet x 0 d)) := if_pos h

theorem opProfile_classS {y : Dev} (h : axState u d ≠ 0) (hy : y = profile u (axRules u d)) (hc : axClass u y = 0) :
    opProfile x u d = fSet (x + 2) (cFixed ((axOf u y).p - (axOf u y).ofs - (axInp u y).actPos) 16)
      (fSet (x + 1) (cFixed (axOf u y).a 16) (fSet x (cFixed (axOf u y).v 16) y)) := by
  subst hy
  simp only [opProfile, if_neg h, if_pos hc]

theorem opLoadang_off (h : axState u d = 0) : opLoadang x u d = fSet (x + 1) 0 (fSet x 0 d) := if_pos h

theorem opModesw_off (h : axState u d = 0) : opModesw x u d = fSet x 0 d := if_pos h

theorem opModesw_on (h : axState u d ≠ 0) :
    opModesw x u d = fSet x (cBool (on (CTL.AXSTAT.CMODE u) (modeSwitch u d))) (modeSwitch u d) := if_neg h

end Effects

/-- Settles O49: each instruction takes effect on the block that has fetched it. -/
theorem cycleInstructions : Obligations.CycleInstructions := by
  unfold Obligations.CycleInstructions
  rintro s _ _ r rfl hi rfl
  refine ⟨?mov, ?add, ?sub, ?mul, ?mad, ?div, ?sqrt, ?min, ?max, ?abs, ?neg, ?clt, ?cle, ?ceq, ?sel, ?limit, ?ldk, ?end_,
    ?skz, ?sknz, ?every, ?st, ?ld, ?ldDouble, ?in_, ?out⟩
  case mov | add | sub | mul | mad | div | sqrt | min | max | abs | neg | clt | cle | ceq | sel | limit =>
    exact fun x a b h => onCtl_op hi h
  case ldk => exact fun x imm h => onCtl_op hi h
  case end_ => exact fun x a b q h hq => onCtl_op_to hi h (opEnd_running hq)
  case skz | sknz => exact fun a n h => onCtl_op hi h
  case every => exact fun k ph n h => onCtl_op hi h
  case st => exact fun x cell h => onCtl_op hi h
  case ld => exact fun x cell h hv => onCtl_op_to hi h (opLd_number hv)
  case ldDouble => exact fun x cell h => onCtl_op hi h
  case in_ => exact fun x m off ty bt h => onCtl_op hi h
  case out => exact fun x m off ty bt h _ _ => onCtl_op hi h

/-- Settles O50: a block whose cells are numbers does its step, an axis instruction goes by whether the axis is off. -/
theorem cycleBlocksRun : Obligations.CycleBlocksRun := by
  unfold Obligations.CycleBlocksRun
  rintro s _ _ r rfl hi rfl
  refine ⟨?pidstep, ?filt2, ?filt2Single, ?ffapply, ?profileOff, ?profile, ?loadang, ?loadangOff, ?modesw, ?modeswOff⟩
  case pidstep => exact fun x a b u h hop _ _ => onCtl_op hi hop
  case filt2 => exact fun x a b u h hok => onCtl_op_to hi h (opFilt2_ok hok)
  case filt2Single => exact fun x a b u h hok => onCtl_op_to hi h (opFilt2_ok hok)
  case ffapply => exact fun x a b u e h _ he => onCtl_op_to hi h (ctlEcc_heeds he)
  case profileOff => exact fun x a b u h h0 => onCtl_op_to hi h (opProfile_off h0)
  case profile => exact fun x a b u y h h0 hy hc => onCtl_op_to hi h (opProfile_classS h0 hy hc)
  case loadang => exact fun x a b u h _ => onCtl_op hi h
  case loadangOff => exact fun x a b u h h0 => onCtl_op_to hi h (opLoadang_off h0)
  case modesw => exact fun x a b u h h0 => onCtl_op_to hi h (opModesw_on h0)
  case modeswOff => exact fun x a b u h h0 => onCtl_op_to hi h (opModesw_off h0)

end Sys2Proof.Proofs
end

section
/-! Proofs/TrackCommands.lean: commands of the reservation engine (R233-R264). -/

namespace Sys2Proof.Proofs

open Sys2Proof Sys2Proof.Machine Sys2Proof.Safety Sys2Proof.Laws

/-! ## The command at the head of SQ25 -/

section Command

variable {s : State} {code : Nat} {x : W64} {r : List W64} {f : Nat → W64 → List W64 → Dev → Dev} {t : Dev}

theorem onSch_runs {f : Nat → Dev → Dev} (hr : runs SCHi (start s) = true) :
    onSch s f = .next (after s (f (baseId s.fuses) (start s))) := by
  rw [onSch, onDev_eq, whenRuns_runs hr]

/-- A command that the engine takes has its effect on the block that has taken it (R233). -/
theorem onSch_command (hr : runs SCHi (start s) = true) (h : AsksTrack (start s) code x r)
    (hf : f (baseId s.fuses) x r (hwTaken 25 (start s)) = t) :
    onSch s (fun own => command (· == code) (f own)) = .next (after s t) := by
  rw [onSch_runs hr, command_eq h, hf]

end Command

/-! ## What the commands come to -/

section Effects

variable {own k seg i n : Nat} {x : W64} {r : List W64} {d z : Dev} {m : Memb} {vs : List Resv}

/-- A command for a registered member, with its items (R233). -/
theorem forMember_registered {f : Nat → Memb → Dev → Dev} (hn : r.length = n) (hk : mslot (hMem x) d = some k)
    (hm : membOf k d = some m) : forMember x r n f d = f k m d := by
  simp only [forMember, hn, ne_eq, not_true_eq_false, if_false, hk, hm]

section Permit

variable (hz : z = permitSeen d) (hvs : vs = permitLegs x r z) (hk : mslot (hMem x) z = some k)
  (hc : permitCheck own x r (membOf k z) vs z = none)

include hz hvs hk hc

/-- A permit that passes its checks, all of its legs this base's (R234). -/
theorem permit_granted (hown : vs.all (fun v => segOwner v.seg z == own) = true) :
    permit own x r d = grant k (hPid x) (vs.getD 0 (legResv (hMem x) (sfNow z) 0)) (resvNews (vs.drop 1) z).1
      (resvNews (vs.drop 1) z).2 := by
  subst hz hvs
  simp only [permit, hk, Option.bind_some, hc, hown, if_true]

/-- A permit that passes its checks, with legs of peers that are there (R252). -/
theorem permit_held (hown : vs.all (fun v => segOwner v.seg z == own) = false)
    (hpeer : vs.any (fun v => bit (rd SCH.TRKSTAT.PEERLOST z) (segOwner v.seg z)) = false) (hroom : z.sch.cross.length < 16) :
    permit own x r d = holdOut own k (hMem x) (hPid x) vs r z := by
  subst hz hvs
  simp only [permit, hk, Option.bind_some, hc, hown, Bool.false_eq_true, if_false, hpeer, if_neg (Nat.not_le.mpr hroom)]

end Permit

theorem pass_ok (h0 : r = []) (hk : mslot (hMem x) d = some k) (hm : membOf k d = some m) (hp : m.pid = hPid x)
    (hl : hLeg x < m.legs.length) :
    pass own x r d = status x 0 (releases own k 32 (membSet k (some { m with passed := max m.passed (hLeg x + 1) }) d)) := by
  have hno : ¬ (m.pid ≠ hPid x ∨ m.legs.length ≤ hLeg x) := by simp [hp, hl]
  rw [Machine.pass, forMember_registered (List.length_eq_zero_iff.mpr h0) hk hm, if_neg hno]

theorem cutAck_awaited (h0 : r = []) (hk : mslot (hMem x) d = some k) (hm : membOf k d = some m)
    (hdl : m.cutDl.isSome = true) (hp : m.cutPid = hPid x) :
    cutAck x r d = status x 0 (membSet k (some { m with cutDl := none }) d) := by
  rw [cutAck, forMember_registered (List.length_eq_zero_iff.mpr h0) hk hm, if_pos ⟨hdl, hp⟩]

theorem register_ok {a : Resv} (hn : r.length = 1) (hnew : mslot (hMem x) d = none)
    (hk : freeIx 128 (fun k => (membOf k d).isSome) d = some k) (hz : z = drawn d) (hseg : seg = bits (r.getD 0 0).toNat 48 14)
    (ha : a = { enter := sfNow d, exit := 0, seg := seg, opn := true, mem := hMem x }) (hroom : resvRoom 1 z = true)
    (hvalid : segValid seg z = true) (hfree : firstConflict a z = none) :
    register x r d = status x 0 (membSet k (some
      { id := hMem x, foot := bits (r.getD 0 0).toNat 32 16, cap := (r.getD 0 0).toNat % 2 ^ 32,
        legs := [some (resvNew a z).1], testSf := sfNow (drawn d) }) (resvNew a z).2) := by
  subst hz hseg ha
  simp only [register, hn, ne_eq, not_true_eq_false, if_false, hnew, Option.isSome_none, Bool.false_eq_true, hk, hroom, hvalid,
    hfree, Bool.not_true]

theorem deregister_ok (h0 : r = []) (hk : mslot (hMem x) d = some k) (hm : membOf k d = some m) (hl : m.lost = false)
    (hmv : moving m = false) (hc : m.cross = false) :
    deregister own x r d = status x 0 (membSet k none (forAll (entries m) (entryGone own m.pid) d)) := by
  rw [deregister, forMember_registered (List.length_eq_zero_iff.mpr h0) hk hm]
  simp only [hl, hmv, hc, Bool.or_self, Bool.false_eq_true, if_false]

theorem solin_ok (hn : r.length = 4) : solin own x r d = status x 0 (solutionItem own r d) := if_neg (not_not_intro hn)

section Unfreeze

variable (hn : r.length = 1) (hk : mslot (hMem x) d = some k) (hm : membOf k d = some m) (hl : m.lost = true)
  (hj : rejoined m.id d = true) (hf : frozenOn m (bits (r.getD 0 0).toNat 0 14) d = some i)

include hn hk hm hl hj hf

/-- On an indoor segment a release is decided at once (R247). -/
theorem unfreezeCmd_indoor (hin : segIndoor (bits (r.getD 0 0).toNat 0 14) d = true) :
    unfreezeCmd own x r d = status x 0 (unfreeze own k (bits (r.getD 0 0).toNat 0 14) d) := by
  rw [unfreezeCmd, forMember_registered hn hk hm]
  simp only [hl, hj, hf, hin, Option.isNone_some, Bool.not_true, Bool.or_self, Bool.false_eq_true, if_false, if_true]

/-- On any other the next solution decides it (R247). -/
theorem unfreezeCmd_outdoor (hin : segIndoor (bits (r.getD 0 0).toNat 0 14) d = false) :
    unfreezeCmd own x r d = membSet k (some { m with unfrz := some (bits (r.getD 0 0).toNat 0 14) }) d := by
  rw [unfreezeCmd, forMember_registered hn hk hm]
  simp only [hl, hj, hf, hin, Option.isNone_some, Bool.not_true, Bool.or_self, Bool.false_eq_true, if_false]

end Unfreeze

end Effects

/-- Settles O56: each command is taken from SQ25 and has its effect. -/
theorem trackCommandsRun : Obligations.TrackCommandsRun := by
  unfold Obligations.TrackCommandsRun
  rintro s _ _ x r _ rfl hr rfl rfl
  refine ⟨?permit, ?permitHold, ?cancel, ?pass, ?cutack, ?register, ?deregister, ?query, ?solin, ?unfreeze, ?unfreezeLater⟩
  case permit =>
    exact fun vs k z h hz hvs hk hc hown => onSch_command (f := permit) hr h (permit_granted hz hvs hk hc hown)
  case permitHold =>
    exact fun vs k z h hz hvs hk hc hown hpeer hroom =>
      onSch_command (f := permit) hr h (permit_held hz hvs hk hc hown hpeer hroom)
  case cancel => exact fun k m h _ _ _ _ _ _ => onSch_command (f := cancel) hr h rfl
  case pass => exact fun k m h h0 hk hm hp hl => onSch_command (f := pass) hr h (pass_ok h0 hk hm hp hl)
  case cutack => exact fun k m h h0 hk hm hdl hp => onSch_command (f := fun _ => cutAck) hr h (cutAck_awaited h0 hk hm hdl hp)
  case register =>
    exact fun k seg a z h hn hnew hk hz hseg ha hroom hvalid hfree =>
      onSch_command (f := fun _ => register) hr h (register_ok hn hnew hk hz hseg ha hroom hvalid hfree)
  case deregister =>
    exact fun k m h h0 hk hm hl hmv hc => onSch_command (f := deregister) hr h (deregister_ok h0 hk hm hl hmv hc)
  case query => exact fun k m h _ _ _ => onSch_command (f := fun _ => query) hr h rfl
  case solin => exact fun h hn => onSch_command (f := solin) hr h (solin_ok hn)
  case unfreeze =>
    exact fun k i m h hn hk hm hl hj hf hin =>
      onSch_command (f := unfreezeCmd) hr h (unfreezeCmd_indoor hn hk hm hl hj hf hin)
  case unfreezeLater =>
    exact fun k i m h hn hk hm hl hj hf hin =>
      onSch_command (f := unfreezeCmd) hr h (unfreezeCmd_outdoor hn hk hm hl hj hf hin)

end Sys2Proof.Proofs
end

section
/-! Proofs/PeerPackets.lean: peer packets of cross-cell permits (R252-R264). -/

namespace Sys2Proof.Proofs

open Sys2Proof Sys2Proof.Machine Sys2Proof.Safety Sys2Proof.Laws

/-- A peer packet for this base has its effect on the block that has taken it (R255). -/
theorem onSch_peerIn {s : State} {typ : Nat} {x : W64} {r : List W64} {f : Nat → W64 → List W64 → Dev → Dev} {t : Dev}
    (hr : runs SCHi (start s) = true) (h : PeerSays (start s) (baseId s.fuses) typ x r)
    (hf : f (baseId s.fuses) x r (hwTaken 28 (start s)) = t) :
    onSch s (fun own => peerIn own typ (f own)) = .next (after s t) := by
  rw [onSch_runs hr, peerIn_eq h, hf]

section Effects

variable {own : Nat} {x : W64} {r : List W64} {d : Dev} {c : Cross} {f : Fgn}

theorem hold_refused {q : Refn} (h : holdCheck own (pSrc x) (pMem x) r d = some q) :
    hold own x r d = peerOut own (pSrc x) 0x03 (pMem x) 0 (pPid x) [BitVec.ofNat 64 q.item] (drawn d) := by
  simp only [hold, h]

theorem holdRef_known (h : crossOf x d = some c) :
    holdRef own x r d = abortCross own c
      { reason := 0x10, leg := bits (r.getD 0 0).toNat 8 6, hold := bits (r.getD 0 0).toNat 14 10,
        fgn := bit (r.getD 0 0).toNat 24, pid := (r.getD 0 0).toNat / 2 ^ 32 } d := by
  simp only [holdRef, h]

theorem commit_late (h : fgnFor x d = some f) (hd : f.done = false) (hl : 0 ≤ sfDiff (sfNow d) f.till) :
    commit_ own x r d = peerOut own (pSrc x) 0x06 (pMem x) 0 (pPid x) [] (inc SCH.HOLDEXP (fgnDrop f.ents d)) := by
  simp only [commit_, h, hd, hl, Bool.not_false, decide_true, Bool.and_self, if_true]

theorem commitLate_known (h : crossOf x d = some c) : commitLate own x r d = abortCross own c { reason := 0x10 } d := by
  simp only [commitLate, h]

theorem abort_known (h : fgnFor x d = some f) : abort x r d = fgnDrop (f.ents.filter (fun i => !isFrozen i d)) d := by
  simp only [abort, h]

end Effects

/-- Settles O57: each packet is taken from SQ28 and has its effect. -/
theorem peerPacketsRun : Obligations.PeerPacketsRun := by
  unfold Obligations.PeerPacketsRun
  rintro s _ _ x r _ rfl hr rfl rfl
  refine ⟨?hold, ?holdRefused, ?holdOk, ?holdRef, ?commit, ?commitLateHere, ?commitOk, ?commitLate, ?abort, ?release, ?peerCut,
    ?single, ?peerHb⟩
  case hold => exact fun h _ => onSch_peerIn (f := hold) hr h rfl
  case holdRefused => exact fun q h hq => onSch_peerIn (f := hold) hr h (hold_refused hq)
  case holdOk => exact fun c h _ _ => onSch_peerIn (f := holdOk) hr h rfl
  case holdRef => exact fun c h hc => onSch_peerIn (f := holdRef) hr h (holdRef_known hc)
  case commit => exact fun f h _ _ => onSch_peerIn (f := commit_) hr h rfl
  case commitLateHere => exact fun f h hf hd hl => onSch_peerIn (f := commit_) hr h (commit_late hf hd hl)
  case commitOk => exact fun c h _ _ => onSch_peerIn (f := commitOk) hr h rfl
  case commitLate => exact fun c h hc => onSch_peerIn (f := commitLate) hr h (commitLate_known hc)
  case abort => exact fun f h hf => onSch_peerIn (f := fun _ => abort) hr h (abort_known hf)
  case release => exact fun h => onSch_peerIn (f := fun _ => peerRelease) hr h rfl
  case peerCut => exact fun k m h _ _ => onSch_peerIn (f := peerCut) hr h rfl
  case single => exact fun k h _ => onSch_peerIn (f := peerSingle) hr h rfl
  case peerHb => exact fun h => onSch_peerIn (f := fun _ => peerHb) hr h rfl

end Sys2Proof.Proofs
end

section
/-! Proofs/StepsAndReset.lean: a step, a count with no command waiting, and the state after reset. -/

namespace Sys2Proof.Proofs

open Sys2Proof Sys2Proof.Machine Sys2Proof.Safety Sys2Proof.Laws

/-! ## A step -/

theorem step_front {s : State} {c : Instr} {r : List Instr} (h : s.pending = c :: r) :
    step s = exec c { s with pending := r } := by
  rw [step, h]

theorem step_idle {s : State} (h : s.pending = []) : step s = .next { s with dev := tick s.fuses s.dev } := by
  rw [step, h]

/-- Settles O1. -/
theorem stepRunsFront : Obligations.StepRunsFront := by
  unfold Obligations.StepRunsFront
  exact fun s c r h => step_front h

/-! ## A count of the raw counter -/

theorem tick_off {fu : Fuses} {d : Dev} (h : isUp AONi d = false) : tick fu d = d := if_neg (Bool.eq_false_iff.mp h)

theorem tick_powered {fu : Fuses} {d : Dev} (h : isUp AONi d = true) :
    tick fu d = captureTime fu (dmaTime fu (timePasses (memEvents
      { countEnds d with raw := ((countEnds d).raw + 1) % 2 ^ 64 }))) := if_pos h

/-- Settles O2: a count passes where AON has power, and none where it has not. -/
theorem idleTick : Obligations.IdleTick := by
  unfold Obligations.IdleTick
  refine fun s h => ⟨step_idle h, fun hoff => ?_, ?_⟩
  · rw [step_idle h, tick_off hoff]
  · rintro hon _ rfl
    exact ⟨rfl, rfl, tick_powered hon⟩

/-! ## After reset -/

/-- The fuses of a module that has never been provisioned are legal. -/
theorem lifeLegal_blank : LifeLegal {} where
  deployed h := absurd h Bool.false_ne_true
  settings := ⟨fun h => absurd rfl h, fun h => absurd h Bool.false_ne_true⟩
  owner h := absurd rfl h
  images h := absurd rfl h
  service h := absurd rfl h
  retired h := absurd h Bool.false_ne_true
  svc := Nat.zero_le _
  secver := Nat.zero_le _
  slots := Nat.zero_le _

theorem rd_reset {f : Fld} (h : f.rst < 2 ^ 64) : rd f State.reset.dev = f.rst := by
  change (BitVec.ofNat 64 f.rst).toNat = f.rst
  rw [BitVec.toNat_ofNat, Nat.mod_eq_of_lt h]

/-- Settles O3. -/
theorem resetState : Obligations.ResetState := by
  unfold Obligations.ResetState
  exact ⟨rfl, lifeLegal_blank, rfl, fun _ => rfl, fun _ h => rd_reset h, fun _ => rfl, rfl, rfl⟩

end Sys2Proof.Proofs
end

section
/-! Proofs/Lifts.lean: what a command answers whose effect is on an island that runs (R357, R359). -/

namespace Sys2Proof.Proofs

open Sys2Proof Sys2Proof.Machine Sys2Proof.Safety Sys2Proof.Laws

section Lifts

variable {s : State} {t : Dev} {i : Nat} {b : Bool} {g : Dev → Dev}

/-- An effect on the block, as the caller knows it. -/
theorem onDev_to {f : Fuses → Dev → Dev} (hf : f s.fuses (start s) = t) : onDev s f = .next (after s t) := by
  rw [onDev_eq, hf]

/-- An effect that an island has while it is up. -/
theorem onDev_up {f : Fuses → Dev → Dev} (hi : isUp i (start s) = true) (hf : f s.fuses (start s) = t) :
    onDev s (fun fu => whenUp i (f fu)) = .next (after s t) := by
  rw [onDev_eq, whenUp_up hi, hf]

/-- An effect that an island has while it runs. -/
theorem onDev_runs {f : Fuses → Dev → Dev} (hr : runs i (start s) = true) (hf : f s.fuses (start s) = t) :
    onDev s (fun fu => whenRuns i (f fu)) = .next (after s t) := by
  rw [onDev_eq, whenRuns_runs hr, hf]

/-- An effect on AON. -/
theorem onAon_to {f : Fuses → Dev → Dev} (hi : isUp AONi (start s) = true) (hf : f s.fuses (start s) = t) :
    onAon s f = .next (after s t) := onDev_up hi hf

theorem whenB_true (hb : b = true) (d : Dev) : whenB b g d = g d := by rw [whenB, if_pos hb]

theorem whenB_false (hb : b = false) (d : Dev) : whenB b g d = d := by rw [whenB, hb, if_neg Bool.false_ne_true]

end Lifts

end Sys2Proof.Proofs
end

section
/-! Proofs/TimeBases.lean: rates, corrections, steps, trigger units and the time pulse (R42-R72). -/

namespace Sys2Proof.Proofs

open Sys2Proof Sys2Proof.Machine Sys2Proof.Safety Sys2Proof.Laws

/-! ## Rates (R46, R47) -/

section Rates

variable {p : RateNext} {d x : Dev}

theorem applyW_none (h : d.aon.wPend = none) : applyW d = d := by rw [applyW, h]

theorem applyC_none (h : d.aon.cPend = none) : applyC d = d := by rw [applyC, h]

theorem applyW_due (h : d.aon.wPend = some p) (hlt : ¬ d.raw < p.at_) (hx : x = { d with aon := { d.aon with wPend := none } }) :
    applyW d = if p.late then raise AON.WSTAT.RATELATE (noted x (takeWrate p.rate x)) else inTime (takeWrate p.rate) x := by
  subst hx
  simp only [applyW, h, if_neg hlt]

theorem applyC_due (h : d.aon.cPend = some p) (hlt : ¬ d.raw < p.at_) (hx : x = { d with aon := { d.aon with cPend := none } }) :
    applyC d = if p.late then raise AON.CCTL.RATELATE (noted x (takeCrate p.rate x)) else inTime (takeCrate p.rate) x := by
  subst hx
  simp only [applyC, h, if_neg hlt]

end Rates

/-! ## Corrections and steps (R49-R61) -/

section Corrections

variable {src : Nat} {fw : Bool} {amt : Int} {d : Dev} {p : List Instr}

theorem correction_heeded (hsrc : rd AON.WCTL.SRC d = src) (h0 : src ≠ 0) (hfw : fw = true → src ≠ 1) :
    correction src fw amt d = noted d (checkDiverged (received amt d)) := by
  refine if_neg ?_
  rintro (h | h | ⟨hf, h⟩)
  · exact h0 (hsrc.symm.trans h)
  · exact h hsrc.symm
  · exact hfw hf h

/-- A slew in progress ends with WALL at its base rate (R51). -/
theorem endSlew_slewing {w : Slew} (h : d.aon.slew = some w) :
    endSlew d = wrB AON.WSTAT.SLEWING false { rebaseWall d with aon := { (rebaseWall d).aon with slew := none } } :=
  if_neg (by simp [h])

theorem ties_accHold : (ties p d).aon.accHold = p.any (bringsCorrection d) := rfl

/-- A STEPACC with no correction of its raw count behind it (R53). -/
theorem stepAsk_ties (h : p.any (bringsCorrection d) = false) : stepAsk (ties p d) = stepAcc (ties p d) := by
  rw [stepAsk, ties_accHold, h, if_neg Bool.false_ne_true]

/-- A STEPACC that waits for a correction of its raw count (R53). -/
theorem stepAsk_ties_waits (h : p.any (bringsCorrection d) = true) :
    stepAsk (ties p d) = { ties p d with aon := { (ties p d).aon with accDue := true } } := by
  rw [stepAsk, ties_accHold, h, if_pos rfl]

theorem stepAcc_none (h : on AON.WSTAT.STEPPEND d = false) : stepAcc d = raise AON.WSTAT.ACCNONE d := by
  rw [stepAcc, h, Bool.not_false, if_pos rfl]

theorem holdover_entered (hv : on AON.WSTAT.VALID d = true) (hh : on AON.WSTAT.HOLDOVER d = false) :
    holdover d = lichen 0 0x0105 [] ((fun x =>
      { x with aon := { x.aon with lockFrom := none, holdRaw := x.raw, holdUnc := wunc d } })
        (wrB AON.WSTAT.LOCKED false (wrB AON.WSTAT.HOLDOVER true d))) := by
  rw [holdover, if_neg (by simp [hv, hh])]

/-- A step of CYCLE, while STEPEN is 1 (R60, R61). -/
theorem coffWrite_enabled {v : W64} {y z r : Dev} (hen : on AON.CCTL.STEPEN d = true) (hy : y = wr AON.COFF v.toNat d)
    (hz : z = realignAll false (cycle d) (cycle y) y) (hr : r = ctlStep (cycle d) (cycle y) (cycNs z) z) :
    coffWrite v d = noted d (checkDiverged (radStep (cycle d) (cycle y) { r with net := { r.net with
      cycLast := if cycle y % (cycNs z : Int) = 0 then none else some (ofS 64 (cycle y) / cycNs z) } })) := by
  rw [coffWrite, hen, Bool.not_true, if_neg Bool.false_ne_true]
  dsimp only
  rw [← hy, ← hz, ← hr]

end Corrections

/-! ## Trigger units (R64-R68) -/

section Triggers

variable {n : Nat} {d z : Dev}

/-- A trigger unit with no lower one of its destination fires by itself (R66). -/
theorem fireUpTo_first
    (h : (List.range n).filter (fun m => rd (AON.TRIGCTL.DEST m) d == rd (AON.TRIGCTL.DEST n) d) = []) :
    fireUpTo n d = fire n d := by
  simp only [fireUpTo, h, forAll, List.foldl_nil]

theorem fire_not (h : fires n d = false) : fire n d = d := by
  simp only [fire, h, Bool.not_false, if_true]

/-- A unit that is not periodic fires once and is disabled (R67). -/
theorem fire_once (h : fires n d = true) (hz : z = fireLater n (inc (AON.FIRECNT n) (raise (AON.TRIGCTL.FIRED n) d)))
    (hp : on (AON.TRIGCTL.PER n) z = false) : fire n d = deliver n (rd (AON.TRIGTGT n) d) (wrB (AON.TRIGCTL.EN n) false z) := by
  subst hz
  simp only [fire, h, Bool.not_true, Bool.false_eq_true, if_false, hp]

end Triggers

/-! ## The time pulse (R70-R72) -/

section Pulse

variable {d : Dev} {r : Nat}

theorem ppsRise_first (hs : (wall d).fdiv 1000000000 ≠ d.aon.ppsSec) (hr : d.aon.ppsRaw = none) :
    ppsRise d = tpulsePin (inc AON.TPSTAT.PULSECNT { d with aon := { d.aon with
      ppsSec := (wall d).fdiv 1000000000, ppsHigh := true, ppsRaw := some d.raw,
      ppsPin := on SEC.J6CTL.TPEN d && !on SEC.J6STAT.TPOVLD d } }) := by
  simp only [ppsRise, if_neg hs, hr, Bool.false_eq_true, if_false]
  rfl

theorem ppsFall_due (hr : d.aon.ppsRaw = some r) (hh : d.aon.ppsHigh = true) (ht : r + rawPerS / 10 ≤ d.raw) :
    ppsFall d = tpulsePin { d with aon := { d.aon with ppsHigh := false } } := by
  simp only [ppsFall, hr, hh, ht, decide_true, Bool.and_self, if_true]

end Pulse

/-- Settles O20. -/
theorem timeBasesRun : Obligations.TimeBasesRun := by
  unfold Obligations.TimeBasesRun
  rintro s _ rfl
  dsimp only [exec]
  refine ⟨?tsnap, ?rarm, ?rateChange, ?wallCorrection, ?slewEnd, ?stepacc, ?stepaccWaits, ?stepaccNone, ?wallHoldover,
    ?srcChange, ?cycleFollow, ?stepenWrite, ?coffWrite, ?trigctlWrite, ?triggerFire, ?triggerFireOnce, ?triggerFireCleared,
    ?tpulseRise, ?tpulseFall, ?rateLearned⟩
  case tsnap => exact fun hi => onAon_to hi rfl
  case rarm =>
    intro onWall hi hp
    refine onAon_to hi (congrArg wrateGuard ?_)
    cases onWall with
    | true => rw [if_pos rfl, armW, applyW_none hp]; rfl
    | false => rw [if_neg Bool.false_ne_true, armC, applyC_none hp]; rfl
  case rateChange =>
    intro onWall p x hi hp hlt hx
    refine onAon_to hi (congrArg wrateGuard ?_)
    cases onWall with
    | true => exact applyW_due hp hlt hx
    | false => exact applyC_due hp hlt hx
  case wallCorrection =>
    rintro src fw amt y hi rfl hsrc h0 hfw
    exact onAon_to hi (by rw [correction_heeded hsrc h0 hfw])
  case slewEnd =>
    intro w hi hw hdone
    refine onAon_to hi ?_
    simp only [hw, hdone, if_true, endSlew_slewing hw]
  case stepacc =>
    rintro y hi rfl hno hpend
    exact onAon_to hi (stepAsk_ties hno)
  case stepaccWaits =>
    rintro y hi rfl hcorr
    exact onAon_to hi (stepAsk_ties_waits hcorr)
  case stepaccNone =>
    rintro y hi rfl hno hpend
    exact onAon_to hi ((stepAsk_ties hno).trans (stepAcc_none hpend))
  case wallHoldover =>
    intro hi hto hv hh
    exact onAon_to hi (by rw [if_pos hto, holdover_entered hv hh])
  case srcChange => exact fun src hi hne => onAon_to hi (if_neg hne)
  case cycleFollow =>
    rintro x hi rfl hfol hlock hdiv hdue
    refine onAon_to hi ?_
    simp only [hfol, hlock, hdiv, hdue, decide_true, Bool.not_false, Bool.and_self, if_true]
  case stepenWrite =>
    intro v hi hv
    refine onAon_to hi (if_neg ?_)
    cases v with
    | true => simp [hv rfl]
    | false => simp
  case coffWrite =>
    rintro v x y z r hi rfl hen hy hz hr
    exact onAon_to hi (coffWrite_enabled hen hy hz hr)
  case trigctlWrite => exact fun n v hi => onAon_to hi rfl
  case triggerFire => exact fun n hi => onAon_to hi rfl
  case triggerFireOnce =>
    rintro n y z hi rfl hfirst hf hz hp
    exact onAon_to hi ((fireUpTo_first hfirst).trans (fire_once hf hz hp))
  case triggerFireCleared =>
    rintro n y hi rfl hfirst hcl
    exact onAon_to hi ((fireUpTo_first hfirst).trans (fire_not (ties_fires n.isLt hcl)))
  case tpulseRise => exact fun hi hs hr => onAon_to hi (ppsRise_first hs hr)
  case tpulseFall => exact fun r hi hr hh ht => onAon_to hi (ppsFall_due hr hh ht)
  case rateLearned =>
    intro r hi hr hlock ht
    refine onAon_to hi ?_
    simp only [hr, hlock, ht, decide_true, Bool.and_self, if_true]

end Sys2Proof.Proofs
end

section
/-! Proofs/LichenRecorder.lean: records taken, written, limited and erased (R536-R553). -/

namespace Sys2Proof.Proofs

open Sys2Proof Sys2Proof.Machine Sys2Proof.Safety Sys2Proof.Laws

section Records

variable {d x : Dev}

/-- A record that SQ34 presents is stamped and goes through its bucket. -/
theorem lTake_record {p : Packet} (hs : on AON.LSTAT.SCAN d = false) (hp : hwPeek 34 d = some p) (he : p.ecc ≠ .double)
    (hx : x = hwTaken 34 (heeded 34 p.ecc d)) :
    lTake d = lLimit (lStamp ((p.items.getD 0 0).toNat % 2 ^ 16) p.who
      (leBytes 8 (p.items.getD 1 0).toNat ++ leBytes 4 (p.items.getD 2 0).toNat) x) x := by
  subst hx
  rw [lTake, hs, if_neg Bool.false_ne_true, hp, Option.isSome_some, if_pos rfl, hwTry_heeds hp he]

theorem lWriteDone_next {r : LRec} {l : List LRec} (hw : lWritable d = true) (hb : d.aon.lich.buf = r :: l) :
    lWriteDone d = lGapOut (lWriteRec r (withLich (fun x => { x with buf := l }) d)) := by
  rw [lWriteDone, hw, Bool.not_true, if_neg Bool.false_ne_true, hb]

theorem lDigReady_ready (hs : on AON.LSTAT.SCAN d = false) (hd : on AON.LSTAT.DIGOK d = false) :
    lDigReady d = if on AON.LSTAT.CLRPEND (wrB AON.LSTAT.DIGOK true d) then lClose (wrB AON.LSTAT.DIGOK true d)
      else wrB AON.LSTAT.DIGOK true d := by
  rw [lDigReady, hs, hd, Bool.or_self, if_neg Bool.false_ne_true]

/-- The erasure of a block that is not the first goes on with the next. -/
theorem lEraseDone_next (he : on AON.LSTAT.ERASING d = true) (hb : rd AON.LERASE d ≠ 0) :
    lEraseDone d = lEraseFrom (rd AON.LERASE d + 1) (lEraseBlk (rd AON.LERASE d) d) := by
  rw [lEraseDone, he, Bool.not_true, if_neg Bool.false_ne_true]
  exact if_neg fun ⟨h, _⟩ => hb h

end Records

/-- Settles O21. -/
theorem lichenKeeps : Obligations.LichenKeeps := by
  unfold Obligations.LichenKeeps
  rintro s _ rfl
  dsimp only [exec]
  refine ⟨?record, ?writeDone, ?scan, ?refill, ?read, ?digest, ?erased⟩
  case record => exact fun p x hi hs hp he hx => onAon_to hi (lTake_record hs hp he hx)
  case writeDone => exact fun r l hi hw hb => onAon_to hi (lWriteDone_next hw hb)
  case scan => exact fun hi _ => onAon_to hi rfl
  case refill => exact fun b hi hc hl => onAon_to hi (if_pos ⟨hc, hl⟩)
  case read => exact fun idx w hi hl => onAon_to hi (whenB_true (bne_iff_ne.mpr hl) _)
  case digest => exact fun hi hs hd => onAon_to hi (lDigReady_ready hs hd)
  case erased => exact fun hi he hb => onAon_to hi (lEraseDone_next he hb)

end Sys2Proof.Proofs
end

section
/-! Proofs/RadioFrames.lean: the superframe, events and frames of the radio (R73-R121). -/

namespace Sys2Proof.Proofs

open Sys2Proof Sys2Proof.Machine Sys2Proof.Safety Sys2Proof.Laws

/-- An effect on RAD. -/
theorem onRad_to {s : State} {t : Dev} {f : Fuses → Dev → Dev} (hi : isUp RADi (start s) = true)
    (hf : f s.fuses (start s) = t) : onRad s f = .next (after s t) := onDev_up hi hf

section Frames

variable {fu : Fuses} {c : Nat} {d : Dev}

/-- A superframe begins at its first slot (R79). -/
theorem superframe_begins {skew : Bool} (hn : d.rad.sfLast ≠ some (sfNow d)) (hr : ¬ d.raw < d.rad.relRaw + 20 * rawPerMs)
    (hs : atSlot 0 d = true) :
    superframe fu skew d = sfBeacon fu (sfNow d) (beacon (sfNow d) (sfBoundary (sfNow d) skew d))
      (sfBoundary (sfNow d) skew d) := by
  refine if_neg ?_
  rintro (h | h | h)
  · exact hn h
  · exact hr h
  · exact Bool.false_ne_true (h.symm.trans hs)

section Event

variable (hdue : eventDue c d = true) (hdis : displaced c (atInstant c d) = false)

include hdue hdis

/-- A join takes the context's event (R110). -/
theorem connEvent_join (hj : joinTakes c (atInstant c d) = true) : connEvent fu c d = passEvent c (atInstant c d) := by
  simp only [connEvent, hdue, hdis, hj, Bool.not_true, Bool.false_eq_true, if_false, if_true]

variable (hj : joinTakes c (atInstant c d) = false)

include hj

/-- A context that goes on sends its down part and opens for its up part (R88, R93). -/
theorem connEvent_sends (ht : (ctxOf c (atInstant c d)).term = false) :
    connEvent fu c d = (fun x => if bcast c x then endEvent c false x else x)
      ((fun x => ctxSet c { ctxOf c x with isOpen := true } x) (sendDown fu c (atInstant c d))) := by
  simp only [connEvent, hdue, hdis, hj, ht, Bool.not_true, Bool.false_and, Bool.false_eq_true, if_false]

/-- A context that is to end tells its member and is free (R121). -/
theorem connEvent_ends (ht : (ctxOf c (atInstant c d)).term = true) (hh : termHeld fu c (atInstant c d) = false) :
    connEvent fu c d = freeCtx c (sendTerminate fu c (atInstant c d)) := by
  simp only [connEvent, hdue, hdis, hj, ht, hh, Bool.not_true, Bool.not_false, Bool.and_self, Bool.false_eq_true, if_false,
    if_true]

end Event

/-- A frame in the up part that the context hears (R100). -/
theorem frameReceive_heard {frame : List Nat} {acc rssi : Nat} {pair : Bool} {off : Int} (hh : hears d = true)
    (hj : joinCuts c d = false) (ho : (ctxOf c d).isOpen = true) (ha : ¬ 2 < acc) (hw : rxWindow c off d = true)
    (hd : divHears (laneOf c d) pair d = true) :
    frameReceive fu c frame acc pair rssi off d = frameHeard fu c frame pair rssi (divCount (laneOf c d) pair d) := by
  simp only [frameReceive, hh, hj, ho, ha, hw, hd, decide_false, Bool.not_true, Bool.or_self, Bool.false_eq_true, if_false]

theorem txPacket_taken {p : Packet} (hp : hwPeek 8 d = some p) (he : p.ecc ≠ .double) :
    txPacket d = txItems p.items (hwTaken 8 (heeded 8 p.ecc d)) := hwTry_heeds hp he

theorem loopback_due {res : Nat → Option Nat} (hdue : d.rad.lbDue = true) (hs : lbSlot fu d = true) :
    loopback fu res d = forAll (List.range 4) (fun l => laneLoop (res l) l) { d with rad := { d.rad with lbDue := false } } := by
  simp only [loopback, hdue, hs, Bool.not_true, Bool.or_self, Bool.false_eq_true, if_false]

end Frames

/-- Settles O22. -/
theorem radioSends : Obligations.RadioSends := by
  unfold Obligations.RadioSends
  rintro s _ rfl
  dsimp only [exec]
  refine ⟨?superframe, ?event, ?eventEnds, ?eventJoin, ?frame, ?tx, ?fence, ?loopback⟩
  case superframe => exact fun skew hi hn hr hs => onRad_to hi (superframe_begins hn hr hs)
  case event => exact fun c hi hdue hdis ht hj => onRad_to hi (connEvent_sends hdue hdis hj ht)
  case eventEnds => exact fun c hi hdue hdis ht hj hh => onRad_to hi (connEvent_ends hdue hdis hj ht hh)
  case eventJoin => exact fun c hi hdue hdis hj => onRad_to hi (connEvent_join hdue hdis hj)
  case frame =>
    exact fun c frame acc pair rssi off hi hh hj ho ha hw hd => onRad_to hi (frameReceive_heard hh hj ho ha hw hd)
  case tx => exact fun p hi hp he => onRad_to hi (txPacket_taken hp he)
  case fence => exact fun l v hi => onRad_to hi rfl
  case loopback => exact fun r0 r1 r2 r3 hi hdue hs => onRad_to hi (loopback_due hdue hs)

end Sys2Proof.Proofs
end

section
/-! Proofs/RadioContexts.lean: power, dwell, joins, and the arming, updating and ending of contexts (R73-R121). -/

namespace Sys2Proof.Proofs

open Sys2Proof Sys2Proof.Machine Sys2Proof.Safety Sys2Proof.Laws

section Contexts

variable {fu : Fuses} {c l : Nat} {d x : Dev}

theorem powerWrite_eq {bcn : Bool} {v : Int} :
    powerWrite fu l bcn v d = (fun c => (if c = v then id else wrB (RAD.LSTAT.PWRCLAMP l) true)
      (wrS (if bcn then RAD.BCNPWR l else RAD.TXPWR l) c d)) (max (-10) (min v (pwrCap fu d))) := by
  dsimp only [powerWrite]
  split <;> rfl

theorem rejoinWrite_taken {v : Nat} (hm : on RAD.RADCTL.MOSS d = true) (hv : v ≤ 36) :
    rejoinWrite v false d = wr RAD.REJOINCH v { d with aon := { d.aon with mapCopy := some (rd RAD.CHMAP d, v) } } := by
  simp only [rejoinWrite, hm, hv, Bool.not_false, decide_true, Bool.and_self, if_true]

theorem mapArm_good (h : mapBad d = false) : mapArm d = mapTake d := by
  rw [mapArm, h, if_neg Bool.false_ne_true]

/-- A join event answers the first request that waits (R110). -/
theorem joinEvent_answers {q : JoinReq} {rest : List JoinReq} (hdue : joinDue fu l d = true)
    (hx : x = joinHeld l (forAll (List.range 144) (fun c d => if joinCuts c d then endEvent c false d else d) d))
    (hq : x.rad.joinQ = q :: rest) (hok : dwellOk (chanOf fu l (sfNow x) x) 184 x = true) :
    joinEvent fu l d = joinAnswer fu l q { x with rad := { x.rad with joinQ := rest } } := by
  rw [joinEvent, if_pos hdue, ← hx, joinServe, hq]
  exact if_pos hok

theorem joinReq_heard {frame : List Nat} {ctr rssi : Nat} {pair : Bool} (hh : hears d = true) (ho : joinOpen fu l d = true)
    (hs : fromSlot 78 d = true) (hn : (List.range 4).any (fun l => sending l d) = false) (hd : divHears l pair d = true) :
    joinReq fu l frame ctr pair rssi d = joinHeard l frame ctr pair rssi (divCount l pair d) := by
  simp only [joinReq, hh, ho, hs, hn, hd, Bool.not_false, Bool.and_self, if_true]

/-- A context whose place is good is armed (R96). -/
theorem armCtx_placed (ha : armed c d = false)
    (hp : placeErr c (placeWord c d) (timersWord c d) (rd (RAD.FIRSTSF c) d) d = 0) :
    armCtx c d = (fun x => mapRetell c (setLink c (if bcast c x then lActive else lJoining)
      (wr (RAD.NEXTSF c) (rd (RAD.FIRSTSF c) x) x))) (linkReset c (wrB (RAD.CTXCTL.ARM c) true d)) := by
  rw [armCtx, ha, if_neg Bool.false_ne_true]
  exact if_neg (not_not_intro hp)

theorem termCtx_armed (ha : armed c d = true) : termCtx c d = ctxSet c { ctxOf c d with term := true } d := if_pos ha

/-- An update of a context that runs waits for its instant (R94). -/
theorem updArm_later (ha : armed c d = true) (hdis : displaced c d = false) (hu : (ctxOf c d).upd = none)
    (hi : ¬ toS 16 (ofS 16 ((rd (RAD.EVC.INSTANT c) d : Int) - rd (RAD.EVC.EVENT c) d)) < 6)
    (hp : placeErr c (placeNxt c d) (timersNxt c d) (instSf c (rd (RAD.EVC.INSTANT c) d) d) d = 0) :
    updArm c d = (fun u => (fun x => mapRetell c (queueCtl c (paramUpdate c u x) x)) (wrB (RAD.STATE.UPDPEND c) true
      (ctxSet c { ctxOf c d with upd := some u } d))) ⟨placeNxt c d, timersNxt c d, rd (RAD.EVC.INSTANT c) d⟩ := by
  simp only [updArm, ha, hdis, hu, hi, hp, Option.isSome_none, Bool.not_true, Bool.false_eq_true, ne_eq, not_true_eq_false,
    if_false]

/-- An update of a displaced context places it anew at once (R118). -/
theorem updArm_displaced (ha : armed c d = true) (hdis : displaced c d = true)
    (hp : placeErr c (placeNxt c d) (timersNxt c d) (rd (RAD.FIRSTSF c) d) d = 0) :
    updArm c d = (fun x => mapRetell c (setLink c lJoining (wr (RAD.NEXTSF c) (rd (RAD.FIRSTSF c) x) (linkReset c x))))
      ((fun x => if (ctxOf c x).keyUsed then wrB (RAD.KEYH.VALID c) false x else x)
        (setTimers c (timersNxt c d) (setPlace c (placeNxt c d) d))) := by
  simp only [updArm, ha, hdis, hp, Bool.not_true, Bool.false_eq_true, ne_eq, not_true_eq_false, if_false, if_true]

/-- At its instant an update takes effect (R94, R95). -/
theorem atInstant_update {u : Upd} (hm : (ctxOf c d).mapAt = none) (hu : (ctxOf c d).upd = some u)
    (hi : u.inst = rd (RAD.EVC.EVENT c) d) :
    atInstant c d = (fun x => if on (RAD.LSTAT.FENCED (laneOf c x)) x then toMigrating c x else x)
      (setTimers c u.timers (setPlace c u.place (wrB (RAD.STATE.UPDPEND c) false
        (ctxSet c { ctxOf c d with upd := none } d)))) := by
  have hno : ¬ (none = some (rd (RAD.EVC.EVENT c) d)) := nofun
  simp only [atInstant, hm, if_neg hno, hu, hi, ne_eq, not_true_eq_false, if_false]

/-- A link whose supervision has run out is reported lost once (R98). -/
theorem linkLost_told {i : Nat} (hs : supDue c d = true) (hl : link c d = lActive ∨ link c d = lMigrating)
    (ht : (ctxOf c d).told = false) (hi : i = rd (RAD.CTXCTL.ID c) d)
    (hx : x = setLink c lLost (ctxSet c { ctxOf c d with told := true, adrift := link c d == lMigrating } d)) :
    linkLost c d = lichen 7 0x0801 ([c] ++ leBytes 2 i) (token 5 7 0xEB (c + i % 1024 * 2 ^ 16)
      (if rd (RAD.CTXCTL.KIND c) x = 0 then hwPush 18 [BitVec.ofNat 64 (i % 1024)] x else x)) := by
  have hj : (link c d == lJoining) = false := by obtain h | h := hl <;> rw [h] <;> rfl
  have hlost : (link c d == lLost) = false := by obtain h | h := hl <;> rw [h] <;> rfl
  subst hi hx
  rw [linkLost, hs, hj, hlost, ht, Bool.not_true, Bool.or_self, Bool.or_self, Bool.or_self, if_neg Bool.false_ne_true]

theorem joinTimeout_due (hs : supDue c d = true) (hl : link c d = lJoining) : joinTimeout c d = freeCtx c d := by
  rw [joinTimeout, hs, hl, beq_self_eq_true, Bool.and_self, if_pos rfl]

end Contexts

/-- Settles O23. -/
theorem radioContextsRun : Obligations.RadioContextsRun := by
  unfold Obligations.RadioContextsRun
  rintro s _ rfl
  dsimp only [exec]
  refine ⟨?txpwr, ?pwrcap, ?dwellwin, ?dwelllim, ?rejoin, ?mapArm, ?joinEvent, ?joinReq, ?arm, ?armTerm, ?term, ?updarm,
    ?updarmDisplaced, ?updateInstant, ?linkLost, ?joiningTimeout⟩
  case txpwr => exact fun l bcn v hi => onRad_to hi powerWrite_eq
  case pwrcap => exact fun v hi => onRad_to hi rfl
  case dwellwin => exact fun v hi h0 => onRad_to hi (if_neg h0)
  case dwelllim => exact fun v hi h0 => onRad_to hi (if_neg h0)
  case rejoin =>
    intro v hi hm ha hv
    exact onRad_to hi (by rw [ha, rejoinWrite_taken hm hv]; rfl)
  case mapArm => exact fun hi h => onRad_to hi (mapArm_good h)
  case joinEvent => exact fun l x q rest hi hdue hx hq hok => onRad_to hi (joinEvent_answers hdue hx hq hok)
  case joinReq => exact fun l frame ctr pair rssi hi hh ho hs hn hd => onRad_to hi (joinReq_heard hh ho hs hn hd)
  case arm => exact fun c hi ha hp => onRad_to hi (armCtx_placed ha hp)
  case armTerm | term => exact fun c hi ha => onRad_to hi (termCtx_armed ha)
  case updarm => exact fun c hi ha hdis hu hinst hp => onRad_to hi (updArm_later ha hdis hu hinst hp)
  case updarmDisplaced => exact fun c hi ha hdis hp => onRad_to hi (updArm_displaced ha hdis hp)
  case updateInstant =>
    intro c u hi ha ho hm hu hinst
    exact onRad_to hi ((if_pos (by rw [ha, ho]; rfl)).trans (atInstant_update hm hu hinst))
  case linkLost => exact fun c i x hi hs hl ht hid hx => onRad_to hi (linkLost_told hs hl ht hid hx)
  case joiningTimeout => exact fun c hi hs hl => onRad_to hi (joinTimeout_due hs hl)

end Sys2Proof.Proofs
end

section
/-! Proofs/StopChain.lean: stop requests, withdrawals and tokens (R130-R137, R559, R560, R572). -/

namespace Sys2Proof.Proofs

open Sys2Proof Sys2Proof.Machine Sys2Proof.Safety Sys2Proof.Laws

/-- An effect on SEC. -/
theorem onSec_to {s : State} {t : Dev} {f : Fuses → Dev → Dev} (hi : isUp SECi (start s) = true)
    (hf : f s.fuses (start s) = t) : onSec s f = .next (after s t) := onDev_up hi hf

section Chain

variable {fu : Fuses} {e : Ecc} {p : Packet} {d : Dev}

/-- A stop request that a queue presents (R133, Table 04-14). -/
theorem stopVia_packet {via : StopVia} {kind zone member cause : Nat} (hv : via ≠ .reg)
    (hp : hwPeek (if via = .sch then 16 else 17) d = some p) (he : p.ecc ≠ .double)
    (hk : bits (p.items.getD 0 0).toNat 0 2 = kind) :
    stopVia via kind zone member cause d = radStop kind (bits (p.items.getD 0 0).toNat 2 6) (bits (p.items.getD 0 0).toNat 8 10)
      (bits (p.items.getD 0 0).toNat 18 8) (hwTaken (if via = .sch then 16 else 17)
        (heeded (if via = .sch then 16 else 17) p.ecc d)) := by
  cases via with
  | reg => exact absurd rfl hv
  | sch => exact (hwTry_heeds hp he).trans (if_pos hk)
  | ctl => exact (hwTry_heeds hp he).trans (if_pos hk)

theorem chainTry_heeds {q : Nat} {lost : Dev → Dev} {f : Packet → Dev → Dev} (hp : hwPeek q d = some p)
    (he : worseEcc e p.ecc ≠ .double) : chainTry q e lost f d = f p (heeded q (worseEcc e p.ecc) d) := eccTry_heeds hp he

theorem chainTry_loses {q : Nat} {lost : Dev → Dev} {f : Packet → Dev → Dev} (hp : hwPeek q d = some p)
    (he : worseEcc e p.ecc = .double) : chainTry q e lost f d = lost (chainLost (sqEcc q (hwTaken q d))) := eccTry_loses hp he

theorem tokenDelivery_heeds (hp : hwPeek 10 d = some p) (he : worseEcc e p.ecc ≠ .double) :
    tokenDelivery e d = tokenArrives (tokOf p.items) (hwTaken 10 (heeded 10 (worseEcc e p.ecc) d)) := by
  rw [tokenDelivery, chainTry_heeds hp he]

theorem tokenDelivery_loses (hp : hwPeek 10 d = some p) (he : worseEcc e p.ecc = .double) :
    tokenDelivery e d = toksVoid (chainLost (sqEcc 10 (hwTaken 10 d))) := by
  rw [tokenDelivery, chainTry_loses hp he]

theorem radWithdrawal_heeds (hp : hwPeek 11 d = some p) (he : worseEcc e p.ecc ≠ .double) (h0 : p.items.getD 0 0 = 0) :
    radWithdrawal fu e d = taken fu 11 ((fun x => { x with rad := { x.rad with
      wd := some ((p.items.getD 1 0).toNat, (p.items.getD 2 0) != 0, (p.items.getD 3 0).toNat),
      cause := some (p.items.getD 1 0).toNat } }) (hwTaken 11 (heeded 11 (worseEcc e p.ecc) d))) := by
  rw [radWithdrawal, chainTry_heeds hp he, if_neg (by rw [h0]; decide)]

theorem ctlWithdrawal_heeds (hp : hwPeek 12 d = some p) (he : worseEcc e p.ecc ≠ .double) (h0 : p.items.getD 0 0 = 0) :
    ctlWithdrawal e d = ctlStop none (hwTaken 12 (heeded 12 (worseEcc e p.ecc) d)) := by
  rw [ctlWithdrawal, chainTry_heeds hp he, if_pos h0]

theorem ctlSnapshot_heeds (hp : hwPeek 12 d = some p) (he : worseEcc e p.ecc ≠ .double) (h1 : p.items.getD 0 0 = 1) :
    ctlSnapshot e d = wr CTL.ZGMIR (p.items.getD 1 0).toNat (hwTaken 12 (heeded 12 (worseEcc e p.ecc) d)) := by
  rw [ctlSnapshot, chainTry_heeds hp he, if_pos h1]

theorem secForwarded_heeds (hp : hwPeek 13 d = some p) (he : worseEcc e p.ecc ≠ .double) (hl : p.items.length = 4) :
    secForwarded fu e d = taken fu 13 (secStop (p.items.getD 0 0).toNat (p.items.getD 1 0).toNat (p.items.getD 2 0).toNat
      (p.items.getD 3 0).toNat (hwTaken 13 (heeded 13 (worseEcc e p.ecc) d))) := by
  rw [secForwarded, chainTry_heeds hp he, if_pos hl]

theorem ctlForwarded_heeds (hp : hwPeek 14 d = some p) (he : worseEcc e p.ecc ≠ .double) :
    ctlForwarded e d = (if (p.items.getD 0 0).toNat = 1 then ctlStop none
      else if (p.items.getD 0 0).toNat = 2 then ctlStop (some (p.items.getD 1 0).toNat) else id)
        (hwTaken 14 (heeded 14 (worseEcc e p.ecc) d)) := by
  rw [ctlForwarded, eccTry_heeds hp he]
  dsimp only
  split
  · rfl
  · split <;> rfl

theorem secReport_heeds (hp : hwPeek 13 d = some p) (he : worseEcc e p.ecc ≠ .double) (hl : p.items.length = 2) :
    secReport fu e d = taken fu 13 (bcnReport ((p.items.getD 0 0).toNat % 2 ^ 32) ((p.items.getD 0 0).toNat / 2 ^ 32)
      ((p.items.getD 1 0).toNat % 2 ^ 32) (bit (p.items.getD 1 0).toNat 32) (hwTaken 13 (heeded 13 (worseEcc e p.ecc) d))) := by
  rw [secReport, chainTry_heeds hp he, if_pos hl]

end Chain

/-- Settles O24. -/
theorem stopChainRuns : Obligations.StopChainRuns := by
  unfold Obligations.StopChainRuns
  rintro s _ rfl
  dsimp only [exec]
  refine ⟨?gstop, ?gstopPacket, ?zone, ?zonePacket, ?single, ?singlePacket, ?token, ?tokenLost, ?withdrawal, ?withdrawalCtl,
    ?snapshot, ?forwarded, ?forwardedCtl, ?report, ?missing⟩
  case gstop => exact fun cause hi => onDev_up hi rfl
  case gstopPacket => exact fun cause via p hi hv hp he hk => onDev_up hi (stopVia_packet hv hp he hk)
  case zone => exact fun z hi => onDev_up hi rfl
  case zonePacket => exact fun z via p hi hv hp he hk => onDev_up hi (stopVia_packet hv hp he hk)
  case single => exact fun m z hi => onDev_up hi rfl
  case singlePacket => exact fun m z via p hi hv hp he hk => onDev_up hi (stopVia_packet hv hp he hk)
  case token => exact fun e p hi hp he => onDev_up hi (tokenDelivery_heeds hp he)
  case tokenLost => exact fun e p hi hp he => onDev_up hi (tokenDelivery_loses hp he)
  case withdrawal => exact fun e p hi hp he h0 => onDev_up hi (radWithdrawal_heeds hp he h0)
  case withdrawalCtl => exact fun e p hi hp he h0 => onDev_up hi (ctlWithdrawal_heeds hp he h0)
  case snapshot => exact fun e p hi hp he h1 => onDev_up hi (ctlSnapshot_heeds hp he h1)
  case forwarded => exact fun e p hi hp he hl => onDev_up hi (secForwarded_heeds hp he hl)
  case forwardedCtl => exact fun e p hi hp he => onDev_up hi (ctlForwarded_heeds hp he)
  case report => exact fun e p hi hp he hl => onSec_to hi (secReport_heeds hp he hl)
  case missing => exact fun hi hl => onSec_to hi (if_pos hl)

end Sys2Proof.Proofs
end

section
/-! Proofs/PermissionMonitor.lean: decisions, heartbeats, grace and firmware's writes (R122-R154). -/

namespace Sys2Proof.Proofs

open Sys2Proof Sys2Proof.Machine Sys2Proof.Safety Sys2Proof.Laws

section Monitor

variable {v : W32} {e : Ecc} {p : Packet} {r : Nat} {d x : Dev}

theorem appHb_first (h : d.sec.hbLast = none) : appHb v d = hbAccept v d := by rw [appHb, h]

theorem appHb_next {w : W32} (h : d.sec.hbLast = some w) (hv : d.sec.hbAny = true ∨ v = w + 1) :
    appHb v d = hbAccept v d := by
  have hok : (d.sec.hbAny || v == w + 1) = true := by simpa using hv
  simp only [appHb, h, hok, if_true]

theorem schHeartbeat_heeds (hp : hwPeek 15 d = some p) (he : worseEcc e p.ecc ≠ .double)
    (hx : x = hwTaken 15 (heeded 15 (worseEcc e p.ecc) d)) :
    schHeartbeat e d = pmMirror { x with sec := { x.sec with schRaw := some x.raw } } := by
  rw [schHeartbeat, chainTry_heeds hp he, ← hx]

theorem zgrantWrite_taken {z : Nat} (hg : on SEC.PMSTAT.GRACE d = false) :
    zgrantWrite z d = (if d.sec.cutRaw = some d.raw then d.sec.cutZones else []).foldl
      (fun x z => wrBit SEC.ZGRANT z false x) (wr SEC.ZGRANT z d) := by
  rw [zgrantWrite, hg, if_neg Bool.false_ne_true]

/-- A member that no cut of this raw count singles is let go (R135). -/
theorem unsingleWrite_taken {m : Nat} (hg : on SEC.PMSTAT.GRACE d = false)
    (hm : d.sec.cutRaw ≠ some d.raw ∨ m ∉ d.sec.cutMembs) :
    unsingleWrite m d = { d with sec := { d.sec with unsingle := d.sec.unsingle ++ [m] } } := by
  refine if_neg ?_
  simpa [hg, imp_iff_not_or] using hm

theorem graceReq_armed (hb : appHbOk d = true) (hs : d.sec.hbSteady + rawPerS ≤ d.raw)
    (hc : ∀ r, d.sec.graceEnd = some r → r + 10 * rawPerS ≤ d.raw) :
    graceReq d = wrB SEC.PMSTAT.GRACEARM true { d with sec := { d.sec with graceArm := some d.raw } } := by
  refine if_pos ?_
  rw [hb, Bool.true_and, decide_eq_true hs, Bool.true_and]
  cases hg : d.sec.graceEnd with
  | none => rfl
  | some r => exact decide_eq_true (hc r hg)

theorem graceLapse_due (ha : d.sec.graceArm = some r) (ht : r + 100 * rawPerMs < d.raw) :
    graceLapse d = wrB SEC.PMSTAT.GRACEARM false { d with sec := { d.sec with graceArm := none } } := by
  simp only [graceLapse, ha, if_pos ht]

theorem graceTimeout_due (ha : d.sec.graceAt = some r) (ht : r + 500 * rawPerMs ≤ d.raw) :
    graceTimeout d = latchStop cGraceEnd (wrB SEC.PMSTAT.GRACE false
      { d with sec := { d.sec with graceAt := none, graceEnd := some d.raw } }) := by
  simp only [graceTimeout, ha, if_pos ht]

section Bkey

variable {c : Nat} {k : List Nat} (ha : armed c d = true) (hk : rd (RAD.CTXCTL.KIND c) d = 0)

include ha hk

theorem bkeyFor_current (hs : slotKey 2 d = some k) :
    bkeyFor c false d = bkeySend c (rd SEC.BKGEN.CUR d) d.keep.nor.genSf k (redraw 2 d) := by
  simp only [bkeyFor, hs, ha, hk, Bool.false_eq_true, if_false, Bool.not_true, bne_self_eq_false, Bool.false_and, Bool.or_self]

theorem bkeyFor_next (hs : slotKey 3 d = some k) (hn : on SEC.BKGEN.NEXTPEND d = true) :
    bkeyFor c true d = bkeySend c (rd SEC.BKGEN.NEXT d) (rd SEC.BKFIRST d) k (redraw 3 d) := by
  simp only [bkeyFor, hs, ha, hk, hn, Bool.false_eq_true, if_false, if_true, Bool.not_true, bne_self_eq_false, Bool.and_false,
    Bool.or_self]

end Bkey

end Monitor

/-- Settles O25. -/
theorem permissionRuns : Obligations.PermissionRuns := by
  unfold Obligations.PermissionRuns
  rintro s _ rfl
  dsimp only [exec]
  refine ⟨?decision, ?grantEval, ?heartbeatFirst, ?heartbeat, ?schHeartbeat, ?zgrant, ?unsingle, ?gstop, ?full, ?graceReq,
    ?graceLapse, ?graceTimeout, ?bkey, ?bkeyNext⟩
  case decision => exact fun flt hi => onSec_to hi rfl
  case grantEval => exact fun flt hi => onSec_to hi rfl
  case heartbeatFirst => exact fun v w hi hw h => onSec_to hi ((whenB_true hw _).trans (appHb_first h))
  case heartbeat => exact fun v p w hi hw h hv => onSec_to hi ((whenB_true hw _).trans (appHb_next h hv))
  case schHeartbeat => exact fun e p x hi hp he hx => onSec_to hi (schHeartbeat_heeds hp he hx)
  case zgrant => exact fun v w hi hw hg => onSec_to hi ((whenB_true hw _).trans (zgrantWrite_taken hg))
  case unsingle => exact fun m w hi hw hg hm => onSec_to hi ((whenB_true hw _).trans (unsingleWrite_taken hg hm))
  case gstop => exact fun cause w hi hw => onSec_to hi (whenB_true hw _)
  case full => exact fun w hi hw hf hg => onSec_to hi (if_pos (by rw [hw, hf, hg]; rfl))
  case graceReq => exact fun w hi hw hb hs hc => onSec_to hi ((whenB_true hw _).trans (graceReq_armed hb hs hc))
  case graceLapse => exact fun r hi ha ht => onSec_to hi (graceLapse_due ha ht)
  case graceTimeout => exact fun r hi ha ht => onSec_to hi (graceTimeout_due ha ht)
  case bkey => exact fun c k hi hr hs ha hk => onSec_to hi ((whenUp_up hr).trans (bkeyFor_current ha hk hs))
  case bkeyNext => exact fun c k hi hr hs ha hk hn => onSec_to hi ((whenUp_up hr).trans (bkeyFor_next ha hk hs hn))

end Sys2Proof.Proofs
end

section
/-! Proofs/StartUp.lean: start-up, boot, spore, enrolment and moss service (R475-R512). -/

namespace Sys2Proof.Proofs

open Sys2Proof Sys2Proof.Machine Sys2Proof.Safety Sys2Proof.Laws

section Boot

variable {fu : Fuses} {n port src : Nat} {b : List Nat} {d : Dev}

theorem aonDone_starting (h : d.aon.power = .starting) :
    aonDone d = forAll [1, 2, 3, 4, 5, 6, 7, 8] startIsl (inc AON.STARTCNT { d with aon := { d.aon with power := .run } }) :=
  if_neg (not_not_intro h)

theorem firmwareEntry_passed {im : Image} (hb : d.app.boot = .passed) (hi : d.app.img = some im) :
    firmwareEntry d = coresEnter (coresNow d) im.entry { d with app := { d.app with boot := .firmware } } := by
  rw [firmwareEntry, hb, hi]

theorem bootFailed_failed (h : d.app.boot = .failed) :
    bootFailed d = lichen 2 0x0303 [] (wr AON.BOOTSTAT.SLOT 2 { d with app := { d.app with boot := .recovery 0 } }) :=
  if_neg (not_not_intro h)

section Recovery

variable (hb : d.app.boot = .recovery n) (hty : ofBe (b.take 2) = 0x0010)

include hb hty

/-- The chunk that recovery waits for (R486). -/
theorem recovery_next (hoff : ofBe (sub b 2 4) = n) (hn : n % 1024 = 0) (h0 : ofBe (sub b 6 2) ≠ 0)
    (hl : ofBe (sub b 6 2) ≤ 1024) :
    recovery port src b fu d = recoveryChunk port src n (sub b 8 (ofBe (sub b 6 2))) fu d := by
  simp only [recovery, hb, hty, hoff, ne_eq, not_true_eq_false, if_false]
  exact if_neg (by simp [hn, h0, hl])

/-- Another chunk is answered with the one waited for (R486). -/
theorem recovery_other (hoff : ofBe (sub b 2 4) ≠ n) : recovery port src b fu d = recoveryAck port src n 0 d := by
  simp only [recovery, hb, hty, ne_eq, not_true_eq_false, if_false]
  exact if_pos (.inl hoff)

end Recovery

end Boot

section Spore

variable {fu : Fuses} {puf : BitVec 3570} {d : Dev}

theorem sporeReady_read {sp : List Nat × Nat} (hdue : sporeDue d = true) (hsp : sporeOf puf d = some sp) :
    sporeReady fu puf d = deriveRoots fu sp.1 (wr SEC.SPORESTAT.CORR sp.2 (wrB SEC.SPORESTAT.READY true
      { d with sec := { d.sec with spore := some sp.1 } })) := by
  rw [sporeReady, if_pos hdue, sporeTake, hsp]

theorem sporeReady_fails (hdue : sporeDue d = true) (hh : d.keep.nor.helper.isSome = true) (hsp : sporeOf puf d = none) :
    sporeReady fu puf d = sporeFail d := by
  rw [sporeReady, if_pos hdue, sporeTake, hsp]
  exact if_neg (by simp [Option.isSome_iff_ne_none.mp hh])

theorem sporeRetry_fails (hdue : sporeDue d = true) (hh : d.keep.nor.helper.isSome = true) (hsp : sporeOf puf d = none) :
    sporeRetry puf d = sporeFail d := if_pos ⟨hdue, hh, by rw [hsp]; rfl⟩

/-- A blank module that runs its ROM is enrolled (R512). -/
theorem enrol_blank {sp : List Nat} {nor : NorS} (hi : isUp SECi d = true) (hr : romRuns d = true) (hl : lcState fu = 0)
    (hsp : sp = sha256 (freeBytes 32 d))
    (hnor : nor = { d.keep.nor with helper := some (pufHelper puf (beNat (freeBytes 32 d))), check := checkOf sp }) :
    enrol puf true fu d =
      ({ fu with devid := beNat ((frond sp (label [0x57, 0x44, 0x49, 0x44] []) 256).take 8), provisioned := true },
        resetAsk 0 (lichen 1 0x0204 [0, 1] (drawnN 32 { d with keep := { d.keep with nor := nor } }))) := by
  subst hnor hsp
  exact if_neg (by simp [hi, hr, hl])

end Spore

section Moss

variable {fu : Fuses} {d : Dev}

theorem mossLeave_allowed (hm : on SEC.PMSTAT.MOSS d = true) (he : d.sec.enterRaw ≠ some d.raw) (hw : leaveWhy fu d = 0) :
    mossLeave fu d = (fun x => { x with rad := { x.rad with mossNext := some false } })
      (wrB SEC.PMSTAT.CRAWL true (wrB SEC.PMSTAT.MOSS false d)) := by
  have hok : (!on SEC.PMSTAT.MOSS d || d.sec.enterRaw == some d.raw) = false := by simp [hm, he]
  rw [mossLeave, hok, if_neg Bool.false_ne_true]
  exact if_neg (not_not_intro hw)

/-- A LEAVE while an ENTER of its raw count waits does nothing (R481). -/
theorem onSec_leave_waits {s : State} {w : Who} (h : s.pending.any enters = true) :
    onSec s (fun fu => whenB (atM w) (fun d => if s.pending.any enters then d else mossLeave fu d)) =
      .next (after s (start s)) := by
  simp only [onSec, onDev_eq, h, if_true, whenB, whenUp, ite_self]

end Moss

/-- Settles O26. -/
theorem startUpRuns : Obligations.StartUpRuns := by
  unfold Obligations.StartUpRuns
  rintro s _ rfl
  dsimp only [exec]
  refine ⟨?aon, ?boot, ?entry, ?bootFail, ?recovery, ?recoveryOther, ?spore, ?sporeRetry, ?sporeFails, ?leave, ?leaveWaits,
    ?leaveEnter, ?enter, ?enrolment⟩
  case aon => exact fun hi h => onAon_to hi (aonDone_starting h)
  case boot => exact fun hi _ _ _ _ => onDev_up hi rfl
  case entry => exact fun im hi hb him => onDev_up hi (firmwareEntry_passed hb him)
  case bootFail => exact fun hi h => onDev_up hi (bootFailed_failed h)
  case recovery =>
    exact fun f n hi hp hb hty hoff hn h0 hl => onDev_up hi ((whenB_true hp _).trans (recovery_next hb hty hoff hn h0 hl))
  case recoveryOther =>
    exact fun f n hi hp hb hty hoff => onDev_up hi ((whenB_true hp _).trans (recovery_other hb hty hoff))
  case spore => exact fun puf sp hi hdue hsp => onSec_to hi (sporeReady_read hdue hsp)
  case sporeRetry => exact fun puf hi hdue hh hsp => onSec_to hi (sporeRetry_fails hdue hh hsp)
  case sporeFails => exact fun puf hi hdue hh hsp => onSec_to hi (sporeReady_fails hdue hh hsp)
  case leave =>
    intro w hi hw hno hm he hwhy
    refine onSec_to hi ((whenB_true hw _).trans ?_)
    simp only [hno, Bool.false_eq_true, if_false]
    exact mossLeave_allowed hm he hwhy
  case leaveWaits => exact fun w h => onSec_leave_waits h
  case leaveEnter => exact fun w hi hw => onSec_to hi (whenB_true hw _)
  case enter => exact fun w hi hw => onSec_to hi (whenB_true hw _)
  case enrolment =>
    intro puf sp nor hi hr hl hsp hnor
    rw [execEnrolment, onFuses_eq, enrol_blank hi hr hl hsp hnor, both]

end Sys2Proof.Proofs
end

section
/-! Proofs/ResetsAndLowPower.lean: resets of the module and of islands, watchdogs, low power and the capture (R487-R503). -/

namespace Sys2Proof.Proofs

open Sys2Proof Sys2Proof.Machine Sys2Proof.Safety Sys2Proof.Laws

/-! ## Resets (R489, R492) -/

section Resets

variable {s : State} {q : List Instr} {k i : Nat} {b : Bool} {d : Dev} {f g : Dev → Dev}

/-- A reset that no deeper one of its raw count takes the place of. -/
theorem rstAsk_taken (h : deeper q k d = false) : rstAsk q k f d = f (rstNote k d) := by
  rw [rstAsk, h, if_neg Bool.false_ne_true]

theorem rstAsk_deeper (h : deeper q k d = true) : rstAsk q k f d = d := by rw [rstAsk, h, if_pos rfl]

/-- A reset that gives way leaves the block as it is, whether it would be taken or not. -/
theorem onAon_rstAsk_deeper {b : Dev → Bool} (h : deeper s.pending k (start s) = true) :
    onAon s (fun _ d => whenB (b d) (rstAsk s.pending k f) d) = .next (after s (start s)) := by
  simp only [onAon, onDev_eq, whenUp, whenB, rstAsk_deeper h, ite_self]

theorem onAon_rstAsk_taken {b : Dev → Bool} (hi : isUp AONi (start s) = true) (hb : b (start s) = true)
    (h : deeper s.pending k (start s) = false) :
    onAon s (fun _ d => whenB (b d) (rstAsk s.pending k f) d) = .next (after s (f (rstNote k (start s)))) :=
  onAon_to hi ((whenB_true hb _).trans (rstAsk_taken h))

theorem rstTaken_key {w : Who} (hw : atM w = true) (hp : d.aon.power = .run) : rstTaken 0x5A w d = true := by
  rw [rstTaken, hw, hp]
  rfl

variable (hb : on AON.DUMPCTL.BUSY d = false)

include hb

theorem resetAsk_wrm : resetAsk 0 d = wrm d := by rw [resetAsk, hb, if_neg Bool.false_ne_true, if_pos rfl]

theorem resetAsk_app : resetAsk APPi d = appReset d := by
  rw [resetAsk, hb, if_neg Bool.false_ne_true, if_neg (by decide), if_pos rfl]

theorem resetAsk_island (h0 : i ≠ 0) (ha : i ≠ APPi) : resetAsk i d = islReset i d := by
  rw [resetAsk, hb, if_neg Bool.false_ne_true, if_neg h0, if_neg ha]

end Resets

theorem islTaken_island {i : Nat} (h1 : 1 ≤ i) (h8 : i ≤ 8) : islTaken i = true := decide_eq_true ⟨h1, h8⟩

theorem release_over {i u : Nat} {d : Dev} (h : tget d.isl i .off = .held u) (hu : u ≤ d.raw) (hh : tget d.aon.holds i 0 = 0) :
    release i d = startIsl i d := by
  simp only [release, h, if_pos (And.intro hu hh)]

/-! ## The watchdogs (R490, R491) -/

section Watchdog

variable {v p : W32} {d : Dev} {q : List Instr}

theorem wdKick_first (he : on AON.WDCTL.EN d = true) (hl : d.aon.wdLast = none) :
    wdKick v d = wdArm { d with aon := { d.aon with wdLast := some v } } := by
  simp only [wdKick, he, hl, Bool.and_self, if_true]

theorem wdKick_next (he : on AON.WDCTL.EN d = true) (hl : d.aon.wdLast = some p) (hv : v = p + 1) :
    wdKick v d = wdArm { d with aon := { d.aon with wdLast := some v } } := by
  simp only [wdKick, he, hl, hv, beq_self_eq_true, Bool.and_self, if_true]

theorem wdCtl_unlocked {n : Nat} (hl : on AON.WDCTL.LOCK d = false) (h10 : 10 ≤ bits n 0 16) (hmax : bits n 0 16 ≤ 10000) :
    wdCtl n d = (fun x => if bit n 16 = true ∧ on AON.WDCTL.EN (wr AON.WDCTL.PERIOD (bits n 0 16) d) = false
        then wdArm { x with aon := { x.aon with wdLast := none } } else x)
      (wrB AON.WDCTL.LOCK (bit n 18) (wrB AON.WDCTL.CAPEN (bit n 17) (wrB AON.WDCTL.EN (bit n 16)
        (wr AON.WDCTL.PERIOD (bits n 0 16) d)))) := by
  simp only [wdCtl, hl, Bool.false_eq_true, if_false, if_pos (And.intro h10 hmax), Bool.and_eq_true, Bool.not_eq_true']

theorem wdrNow_capture (hc : on AON.WDCTL.CAPEN d = true) (hok : captureOk d = true) : wdrNow d = false := by
  rw [wdrNow, hc, hok, Bool.and_self, Bool.not_true, Bool.and_false]

end Watchdog

/-! ## Low power and the capture (R493-R502) -/

section LowPower

variable {hib : Bool} {src : Nat} {fu : Fuses} {r cause rq : Nat} {d : Dev}

theorem lpAsk_allowed (hp : d.aon.power = .run) (hw : lpWhy hib d = 0) :
    lpAsk hib d = if hib then hibernate d else standby d := by
  rw [lpAsk, if_neg (not_not_intro hp)]
  exact if_neg (not_not_intro hw)

theorem standbyWake_wakes {f : Option PortFrame} {puf : BitVec 3570} (hp : d.aon.power = .standby) (hw : wakes src d = true)
    (hh : wakeHeard src f d = true) :
    standbyWake src f puf fu d = (if (wakeIslands src fu d).keep.tampHold ∨ (wakeIslands src fu d).aon.power ≠ .run then id
      else wakeFirmware puf fu) (wakeIslands src fu d) := by
  rw [standbyWake, if_neg (by simp [hp, hw, hh]), ite_apply, id]

theorem hibernateWake_wakes (hp : d.aon.power = .hibernate) (hw : wakes src d = true) (hs : src ≠ 16)
    (hh : wakeHeard src none d = true) :
    hibernateWake src fu d = grantAgain (lStart (inc AON.STARTCNT (levelAgain (holdAll (raise AON.RSTCAUSE.HIBWAKE
      (tamperAtWake fu (wr AON.LPSTAT.WAKESRC src d))))))) :=
  if_neg (by simp [hp, hw, hs, hh])

theorem captureStart_ok (h : captureOk d = true) :
    captureStart cause rq d = (fun x => { x with aon := { x.aon with
      capFrom := some x.raw, capRq := rq, capIsl := 0, capSec := x.raw, capLen := 0 } })
        (wrB AON.DUMPCTL.BUSY true (wr AON.DUMPCTL.CAUSE cause (wrB MEM.CAPSTAT.BUSY true
          (whenUp RADi (radStop 1 0 0 cFwStop) d)))) :=
  if_neg (by rw [h]; exact Bool.false_ne_true)

section Done

variable (hf : d.aon.capFrom = some r) (hi : 9 ≤ d.aon.capIsl)

include hf hi

theorem captureDone_asked (hc : rd AON.DUMPCTL.CAUSE d ≠ 2) : captureDone d = serveWaiting (dumpStore r d) := by
  simp only [captureDone, hf, if_neg (Nat.not_lt.mpr hi), if_neg hc]

theorem captureDone_watchdog (hc : rd AON.DUMPCTL.CAUSE d = 2) :
    captureDone d = wdr (raise AON.RSTCAUSE.WDCAP (dumpStore r d)) := by
  simp only [captureDone, hf, if_neg (Nat.not_lt.mpr hi), if_pos hc]

end Done

end LowPower

/-- Settles O27. -/
theorem resetsAndLowPower : Obligations.ResetsAndLowPower := by
  unfold Obligations.ResetsAndLowPower
  rintro s _ rfl
  dsimp only [exec]
  refine ⟨?wrm, ?wrmDeeper, ?islgo, ?islgoApp, ?islgoDeeper, ?islandRelease, ?appReset, ?tmp, ?kickFirst, ?kick, ?wdctl,
    ?expiryCapture, ?expiryNow, ?expiryLate, ?secWatchdog, ?standby, ?hibernate, ?standbyWake, ?hibernateWake, ?capture,
    ?captureAsked, ?captureWatchdog, ?dumpClear⟩
  case wrm =>
    intro w hi hw hp hb hno
    exact (onAon_rstAsk_taken hi (rstTaken_key hw hp) hno).trans (by rw [resetAsk_wrm hb])
  case wrmDeeper => exact fun key w h => onAon_rstAsk_deeper h
  case islgo =>
    intro isl w hi hw hp hb h1 h8 ha hno
    refine (onAon_rstAsk_taken hi ?_ hno).trans (by rw [resetAsk_island hb (Nat.one_le_iff_ne_zero.mp h1) ha])
    rw [rstTaken_key hw hp, islTaken_island h1 h8, Bool.and_self]
  case islgoApp =>
    intro w hi hw hp hb hno
    refine (onAon_rstAsk_taken (f := resetAsk APPi) hi ?_ hno).trans (by rw [resetAsk_app hb])
    rw [rstTaken_key hw hp]
    rfl
  case islgoDeeper => exact fun isl key w h => onAon_rstAsk_deeper h
  case islandRelease => exact fun isl u hi h hu hh => onAon_to hi (release_over h hu hh)
  case appReset =>
    intro w hi hw hp ha hb hno
    refine (onAon_rstAsk_taken hi ?_ hno).trans (by rw [resetAsk_app hb])
    rw [hw, hp, ha]
    rfl
  case tmp => exact fun hi hdue hno => onAon_rstAsk_taken hi hdue hno
  case kickFirst => exact fun v w hi hw he hl => onAon_to hi ((whenB_true hw _).trans (wdKick_first he hl))
  case kick => exact fun v p w hi hw he hl hv => onAon_to hi ((whenB_true hw _).trans (wdKick_next he hl hv))
  case wdctl => exact fun v w hi hw hl h10 hmax => onAon_to hi ((whenB_true hw _).trans (wdCtl_unlocked hl h10 hmax))
  case expiryCapture =>
    intro hi he hc hok hlate
    refine onAon_to hi ?_
    rw [wdrNow_capture hc hok, hlate, Bool.or_self, if_neg Bool.false_ne_true, if_pos he]
  case expiryNow =>
    intro hi hnow hno
    exact onAon_to hi ((if_pos (by rw [hnow, Bool.true_or])).trans (rstAsk_taken hno))
  case expiryLate =>
    intro hi hlate hno
    exact onAon_to hi ((if_pos (by rw [hlate, Bool.or_true])).trans (rstAsk_taken hno))
  case secWatchdog => exact fun hi hs hno => onAon_rstAsk_taken hi hs hno
  case standby => exact fun w hi hw hp hwhy => onAon_to hi ((whenB_true hw _).trans (lpAsk_allowed hp hwhy))
  case hibernate => exact fun w hi hw hp hwhy => onAon_to hi ((whenB_true hw _).trans (lpAsk_allowed hp hwhy))
  case standbyWake => exact fun src f puf hi hp hw hh => onAon_to hi (standbyWake_wakes hp hw hh)
  case hibernateWake => exact fun src hi hp hw hs hh => onAon_to hi (hibernateWake_wakes hp hw hs hh)
  case capture => exact fun w hi hw hok => onDev_up hi ((whenB_true hw _).trans (captureStart_ok hok))
  case captureAsked => exact fun r hi hf h9 hc => onAon_to hi (captureDone_asked hf h9 hc)
  case captureWatchdog => exact fun r hi hf h9 hc => onAon_to hi (captureDone_watchdog hf h9 hc)
  case dumpClear => exact fun w hi hw => onAon_to hi (whenB_true hw _)

end Sys2Proof.Proofs
end

section
/-! Proofs/PowerAndJ6.lean: power grants, brown-out, J6's channels, PERMIT and the antenna bias (R14-R41). -/

namespace Sys2Proof.Proofs

open Sys2Proof Sys2Proof.Machine Sys2Proof.Safety Sys2Proof.Laws

section Power

variable {d : Dev} {rail : Bool}

/-- The grants say nothing of what APP runs. -/
theorem setLimited_app (v : Bool) (d : Dev) : (setLimited v d).app = d.app := rfl

theorem restore_noFirmware (hf : on AON.PWRSTAT.FULLAVL d = true) (hb : d.app.boot ≠ .firmware) :
    restore d = setLimited false d := by
  simp only [restore, hf, Bool.not_true, Bool.false_eq_true, if_false, setLimited_app]
  split
  next hfw _ => exact absurd hfw hb
  · rfl

theorem restore_firmware {im : Image} (hf : on AON.PWRSTAT.FULLAVL d = true) (hb : d.app.boot = .firmware)
    (hi : d.app.img = some im) : restore d = coresEnter [4, 5, 6, 7] im.entry (setLimited false d) := by
  simp only [restore, hf, Bool.not_true, Bool.false_eq_true, if_false, setLimited_app, hb, hi]

theorem brownOut_taken (h : rail = true ∨ holdUpOver d = true) :
    brownOut rail d = noPower (permitFollow (wrB SEC.PMSTAT.GRANT false ((if rail then lTear else lBrownOut) d))) := by
  have hno : ¬ (!rail && !holdUpOver d) = true := by simpa [← Bool.not_eq_true, imp_iff_not_or] using h
  rw [brownOut, if_neg hno]
  cases rail <;> rfl

end Power

section J6

variable {chB closed : Bool} {d : Dev} {r : Nat}

theorem filterChange_other (hc : (if chB then on SEC.J6STAT.BCLOSED d else on SEC.J6STAT.ACLOSED d) ≠ closed)
    (hd : filterDue chB d = true) : filterChange chB closed d = j6Change chB closed d := by
  simp only [filterChange, beq_false_of_ne hc, hd, Bool.and_false, Bool.not_true, Bool.or_self, Bool.false_eq_true, if_false]

theorem filterChange_first (hs : (if chB then d.sec.setB else d.sec.setA) = false) (hd : filterDue chB d = true) :
    filterChange chB closed d = j6Change chB closed d := by
  simp only [filterChange, hs, hd, Bool.false_and, Bool.not_true, Bool.or_self, Bool.false_eq_true, if_false]

theorem windowCheck_due {own other before aft : Bool} {w : Nat} (hw : windowPart chB d = some w)
    (hl : (if chB then d.sec.winB else d.sec.winA).any (w ≤ ·) = false) :
    windowCheck chB own other before aft d = testWindow chB own other before aft (w % 2 == 1)
      (if chB then { d with sec := { d.sec with winB := some w } } else { d with sec := { d.sec with winA := some w } }) := by
  simp only [windowCheck, hw, hl, Bool.false_eq_true, if_false]

theorem discrepancy_latches (hf : d.sec.discFrom = some r) (ht : r + 50 * rawPerMs < d.raw)
    (hd : on SEC.J6STAT.DISCREP d = false) : discrepancy d = j6FaultLatch (wrB SEC.J6STAT.DISCREP true d) := by
  simp only [discrepancy, hf, ht, hd, decide_true, Bool.not_false, Bool.and_self, if_true]

theorem permitStuck_found (hp : d.sec.permit = false) (ht : ¬ d.raw ≤ d.sec.permLow + rawPerMs) :
    permitStuck d = critSet SEC.CRITSTAT.PSTUCK (permitFollow (wrB SEC.J6STAT.PSTUCK true
      { d with sec := { d.sec with pinHigh := true } })) :=
  if_neg (by simp [hp, ht])

end J6

/-- Settles O28. -/
theorem powerAndJ6Run : Obligations.PowerAndJ6Run := by
  unfold Obligations.PowerAndJ6Run
  rintro s _ rfl
  dsimp only [exec]
  refine ⟨?good, ?goodAgain, ?low, ?loss, ?restore, ?restoreFirmware, ?brownOut, ?antFault, ?biasRetry, ?filter, ?filterFirst,
    ?window, ?discrepancy, ?stuck, ?permitOvld, ?tpulseOvld, ?povclr, ?tpovclr, ?tpen, ?ioSupply⟩
  case good | goodAgain => exact fun a b hab hp => onDev_to (by simp only [if_neg (Nat.not_lt.mpr hab), hp])
  case low => exact fun a b hab hp => onDev_to (if_neg (by simp [hab, hp]))
  case loss => exact fun a b hi => onAon_to hi rfl
  case restore =>
    exact fun w hi hw hf hb => onAon_to hi ((whenB_true (bne_iff_ne.mpr hw) _).trans (restore_noFirmware hf hb))
  case restoreFirmware =>
    exact fun w im hi hw hf hb him => onAon_to hi ((whenB_true (bne_iff_ne.mpr hw) _).trans (restore_firmware hf hb him))
  case brownOut => exact fun rail hi h => onAon_to hi (brownOut_taken h)
  case antFault =>
    intro cur hi hb hsh
    exact onDev_up hi (by simp only [hb, hsh, Bool.not_true, Bool.or_self, Bool.false_eq_true, if_false])
  case biasRetry =>
    intro cur r hi hc hb ht hcur
    refine onDev_up hi ?_
    simp only [hc, hb, ht, if_neg (Nat.not_lt.mpr hcur), decide_false, Bool.not_true, Bool.or_self, Bool.false_eq_true, if_false]
  case filter => exact fun chB closed hi hc hd => onDev_up hi (filterChange_other hc hd)
  case filterFirst => exact fun chB closed hi hs hd => onDev_up hi (filterChange_first hs hd)
  case window => exact fun chB own other before aft w hi hw hl => onDev_up hi (windowCheck_due hw hl)
  case discrepancy => exact fun r hi hf ht hd => onDev_up hi (discrepancy_latches hf ht hd)
  case stuck => exact fun hi hp ht => onDev_up hi (permitStuck_found hp ht)
  case permitOvld => exact fun hi hp => onDev_up hi (if_pos hp)
  case tpulseOvld => exact fun hi => onDev_up hi rfl
  case povclr | tpovclr => exact fun w hi hw => onDev_up hi (whenB_true (bne_iff_ne.mpr hw) _)
  case tpen =>
    intro v w hi hw
    refine onDev_up hi ((whenB_true (bne_iff_ne.mpr hw) _).trans ?_)
    cases v <;> rfl
  case ioSupply => exact fun inReg => onDev_to rfl

end Sys2Proof.Proofs
end

section
/-! Proofs/SecurityRequests.lean: requests on keys, signed commands and provisioning (R504-R535). -/

namespace Sys2Proof.Proofs

open Sys2Proof Sys2Proof.Machine Sys2Proof.Safety Sys2Proof.Laws

/-! ## A request that SEC serves (R524) -/

section Serve

variable {s : State} {r : Req} {x : Res} {want : Req → Bool} {act : Req → Fuses → Dev → Res} {fu : Fuses} {d : Dev}

/-- The request whose turn it is, of the kind a command serves. -/
theorem serve_taken (hr : runs SECi d = true) (hn : nextReq d = some r) (hw : want r = true) :
    serve want act fu d = served r (act r fu d) := by
  simp only [serve, hn, hw, hr, Bool.and_self, if_true, served]

theorem onFuses_served (hr : runs SECi (start s) = true) (hn : nextReq (start s) = some r) (hw : want r = true)
    (hx : act r s.fuses (start s) = x) : onFuses s (serve want act) = .next (both s (served r x)) := by
  rw [onFuses_eq, serve_taken hr hn hw, hx]

/-- A request that may change the life cycle, which then resets the module (R507). -/
theorem onFuses_served_wrm (hr : runs SECi (start s) = true) (hn : nextReq (start s) = some r) (hw : want r = true)
    (hx : act r s.fuses (start s) = x) :
    onFuses s (fun fu d => withWrm (serve want act fu d) fu d) =
      .next (both s (withWrm (served r x) s.fuses (start s))) := by
  rw [onFuses_eq, serve_taken hr hn hw, hx]

/-- A request that waits for what opens in its raw count (R146). -/
theorem onFuses_served_after {y : Dev} (hy : openFirst s.pending (start s) = y) (hr : runs SECi y = true)
    (hn : nextReq y = some r) (hw : want r = true) (hx : act r s.fuses y = x) :
    onFuses s (fun fu d => serve want act fu (openFirst s.pending d)) = .next (both s (served r x)) := by
  rw [onFuses_eq, hy, serve_taken hr hn hw, hx]

end Serve

/-! ## Requests on keys -/

section Requests

variable {r : Req} {fu : Fuses} {d : Dev}

theorem reqSha_ok (hl : r.w.length = 3) (hd : ¬ dramSize < r.word 1 + r.word 2) :
    reqSha r fu d = ⟨fu, eccLook (r.word 1) (r.word 2) d, sOk, 0, wordsOf (sha256 (dramView (r.word 1) (r.word 2) d))⟩ :=
  if_neg (not_or.mpr ⟨not_not_intro hl, hd⟩)

theorem reqVerify_ok (hl : r.w.length = 14) (hd : ¬ dramSize < r.word 1 + 64)
    (hs : ecdsaOk (dramView (r.word 1) 64 d) (((r.w.drop 2).take 4).flatMap (leBytes 8))
      (((r.w.drop 6).take 8).flatMap (leBytes 8)) = true) : reqVerify r fu d = ok fu (eccLook (r.word 1) 64 d) := by
  rw [reqVerify, if_neg (not_or.mpr ⟨not_not_intro hl, hd⟩)]
  exact if_pos hs

theorem reqRandom_ok (hl : r.w.length = 1) (hz : bits (r.word 0) 4 60 = 0) (hn : bits (r.word 0) 0 4 ≠ 0)
    (hd : drbgOk d = true) :
    reqRandom r fu d = ⟨fu, drbgUsed (drawnN (8 * bits (r.word 0) 0 4) d), sOk, 0,
      wordsOf (freeBytes (8 * bits (r.word 0) 0 4) d)⟩ := by
  simp only [reqRandom, hl, hz, hn, hd, ne_eq, not_true_eq_false, or_self, Bool.not_true, Bool.false_eq_true, if_false]

theorem reqChallenge_ok (hl : r.w = []) (hd : drbgOk d = true) :
    reqChallenge r fu d = ⟨fu, newNonce d, sOk, 0, [ofLe (freeBytes 8 d)]⟩ := by
  simp only [reqChallenge, hl, List.length_nil, hd, ne_eq, not_true_eq_false, Bool.not_true, Bool.false_eq_true, if_false]

theorem reqResume_ok (hl : r.w.length = 1) (hw : ¬ 2 ^ 32 ≤ r.word 0) (hlc : lcState fu = 2)
    (hok : resumeOk (r.word 0) d = true) : reqResume r fu d = ok fu (resume (r.word 0) d) := by
  rw [reqResume, if_neg (not_not_intro hlc), if_neg (not_or.mpr ⟨not_not_intro hl, hw⟩)]
  dsimp only
  rw [if_pos hok, ok]

/-- At its first superframe the next generation becomes the current one (R517). -/
theorem beaconSwitch_due {k : List Nat} (hp : on SEC.BKGEN.NEXTPEND d = true)
    (hsf : 0 ≤ toS 32 (ofS 32 ((sfNow d : Int) - rd SEC.BKFIRST d))) (hk : slotKey 3 d = some k) :
    beaconSwitch d = (fun x => { x with keep := { x.keep with nor := { x.keep.nor with
        gen := rd SEC.BKGEN.NEXT d, genSf := rd SEC.BKFIRST d, genNxt := none } } })
      (wrB SEC.BKGEN.NEXTPEND false (wr SEC.BKGEN.CUR (rd SEC.BKGEN.NEXT d) (emptySlot 3 (fillSlot 2 0 2 k d)))) := by
  simp only [beaconSwitch, hp, hsf, decide_true, Bool.and_self, if_true, hk]

end Requests

/-- Settles O29. -/
theorem keyRequestsRun : Obligations.KeyRequestsRun := by
  unfold Obligations.KeyRequestsRun
  rintro s _ rfl
  dsimp only [exec]
  refine ⟨?derive, ?discard, ?aes, ?hmac, ?sha, ?verify, ?random, ?challenge, ?session, ?ringkey, ?beaconGen, ?resume,
    ?networkResume, ?bad, ?beaconSwitch⟩
  case derive | discard | aes | hmac | session | ringkey | beaconGen =>
    exact fun r hr hn hc _ => onFuses_served hr hn hc rfl
  case sha => exact fun r hr hn hc hl hd => onFuses_served hr hn hc (reqSha_ok hl hd)
  case verify => exact fun r hr hn hc hl hd hs => onFuses_served hr hn hc (reqVerify_ok hl hd hs)
  case random => exact fun r hr hn hc hl hz h0 hd => onFuses_served hr hn hc (reqRandom_ok hl hz h0 hd)
  case challenge => exact fun r hr hn hc hl hd => onFuses_served hr hn (beq_iff_eq.mpr hc) (reqChallenge_ok hl hd)
  case resume => exact fun r x hx hr hn hc hl hw hlc hok => onFuses_served_after hx hr hn hc (reqResume_ok hl hw hlc hok)
  case networkResume =>
    exact fun r x hx hr hn hs hc _ => onFuses_served_after hx hr hn (by rw [hs, hc]; rfl) rfl
  case bad => exact fun r hr hn hc => onFuses_served hr hn (by rw [hc]; rfl) rfl
  case beaconSwitch => exact fun k hi hp hsf hk => onSec_to hi (beaconSwitch_due hp hsf hk)

/-! ## Signed commands (R526-R529) -/

section Signed

variable {r : Req} {b : List Nat} {fu : Fuses} {d : Dev}

/-- A signed command that passes its checks is carried out. -/
theorem reqSigned_passed (hl : r.w.length = 15) (hc : signedCheck r.secure false (r.bytes 120) fu d = sOk) :
    reqSigned r fu d = signedAct (r.bytes 120) fu (signedUsed (r.bytes 120) d) := by
  simp only [reqSigned, hl, hc, ne_eq, not_true_eq_false, if_false]

theorem signedAct_serviceEnter (h : b.getD 0 0 = 1) : signedAct b fu d = actServiceEnter fu d := by
  simp only [signedAct, h]

theorem signedAct_serviceExit (h : b.getD 0 0 = 2) (hs : fu.svc < 254) :
    signedAct b fu d = transition 3 { fu with svc := fu.svc + 1 } d := by
  simp only [signedAct, h, actServiceExit, if_neg (Nat.not_le.mpr hs)]

theorem signedAct_retire (h : b.getD 0 0 = 3) : signedAct b fu d = retire fu d := by
  simp only [signedAct, h]

theorem signedAct_imageKey (h : b.getD 0 0 = 4) (hk : fu.imgKeys.length < 4) :
    signedAct b fu d = ok { fu with imgKeys := fu.imgKeys ++ [sub b 24 32] } d := by
  simp only [signedAct, h, actImageKey, if_neg (Nat.not_le.mpr hk)]

theorem signedAct_secver {v : Nat} (h : b.getD 0 0 = 5) (hv : v = (sub b 24 32).getD 0 0) (hlt : fu.secver < v) (hmax : v ≤ 64) :
    signedAct b fu d = ok { fu with secver := v } d := by
  subst hv
  simp only [signedAct, h, actSecver, if_neg (not_or.mpr ⟨Nat.not_le.mpr hlt, Nat.not_lt.mpr hmax⟩)]

theorem signedAct_tamperClear (h : b.getD 0 0 = 6) : signedAct b fu d = actTamperClear fu d := by
  simp only [signedAct, h]

theorem signedAct_debugUnlock (h : b.getD 0 0 = 7) : signedAct b fu d = actDebugUnlock (sub b 24 32) fu d := by
  simp only [signedAct, h]

theorem signedAct_lichenClear (h : b.getD 0 0 = 8) (he : on AON.LSTAT.ERASING d = false) :
    signedAct b fu d = ok fu (lClear d) := by
  simp only [signedAct, h, actLichenClear, he, Bool.false_eq_true, if_false]

/-- A signed TAMPER_CLEAR in a frame at a port, while the module is held (R532). -/
theorem tamperFrame_passed {port src : Nat} {body : List Nat} (ht : d.keep.tampHold = true) (hty : ofBe (body.take 2) = 0x13)
    (hc : signedCheck true true (body.drop 2) fu d = sOk) :
    tamperFrame port src body fu d =
      ((actTamperClear fu (signedUsed (body.drop 2) (ethOut port src [0x00, 0x14, sOk] d))).fu,
        resetAsk 0 (actTamperClear fu (signedUsed (body.drop 2) (ethOut port src [0x00, 0x14, sOk] d))).d) := by
  have hnone : ¬ (sOk = sBadAuth ∨ sOk = sReplay) := by decide
  simp only [tamperFrame, ht, hty, hc, if_neg hnone, Bool.not_true, Bool.false_eq_true, ne_eq, not_true_eq_false, or_self,
    if_false]

end Signed

/-- Settles O30. -/
theorem signedCommandsRun : Obligations.SignedCommandsRun := by
  unfold Obligations.SignedCommandsRun
  rintro s _ rfl
  dsimp only [exec]
  refine ⟨?signed, ?serviceEnter, ?serviceExit, ?retire, ?imagekey, ?secver, ?tamperClear, ?tamperFrame, ?debugUnlock,
    ?lichenClear⟩
  case signed => exact fun r hr hn hc hl hok _ => onFuses_served_wrm hr hn (beq_iff_eq.mpr hc) (reqSigned_passed hl hok)
  case serviceEnter =>
    exact fun r hr hn hc hl hok h _ =>
      onFuses_served_wrm hr hn hc ((reqSigned_passed hl hok).trans (signedAct_serviceEnter h))
  case serviceExit =>
    exact fun r hr hn hc hl hok h hs =>
      onFuses_served_wrm hr hn hc ((reqSigned_passed hl hok).trans (signedAct_serviceExit h hs))
  case retire =>
    exact fun r hr hn hc hl hok h => onFuses_served_wrm hr hn hc ((reqSigned_passed hl hok).trans (signedAct_retire h))
  case imagekey =>
    exact fun r hr hn hc hl hok h hk => onFuses_served hr hn hc ((reqSigned_passed hl hok).trans (signedAct_imageKey h hk))
  case secver =>
    exact fun r v hr hn hc hl hok h hv hlt hmax =>
      onFuses_served hr hn hc ((reqSigned_passed hl hok).trans (signedAct_secver h hv hlt hmax))
  case tamperClear =>
    exact fun r hr hn hc hl hok h =>
      onFuses_served_wrm hr hn hc ((reqSigned_passed hl hok).trans (signedAct_tamperClear h))
  case tamperFrame =>
    intro f hs ha hety hty ht _ hok
    rw [execTamperClear, onFuses_eq, hs, ha, hety, if_pos (by decide), tamperFrame_passed ht hty hok]
  case debugUnlock =>
    exact fun r hr hn hc hl hok h _ => onFuses_served hr hn hc ((reqSigned_passed hl hok).trans (signedAct_debugUnlock h))
  case lichenClear =>
    exact fun r hr hn hc hl hok h he =>
      onFuses_served hr hn hc ((reqSigned_passed hl hok).trans (signedAct_lichenClear h he))

/-! ## Provisioning, nonces and answers (R505-R508, R520-R525) -/

section Provisioning

variable {r : Req} {fu : Fuses} {a : Answer} {d : Dev}

theorem reqSetOwner_ok (hl : r.w.length = 8) (hlc : lcState fu = 1) (ho : fu.owner = none) :
    reqSetOwner r fu d = ok { fu with owner := some (r.bytes 64) } d := by
  simp only [reqSetOwner, hlc, ho, hl, ne_eq, not_true_eq_false, Option.isSome_none, Bool.false_eq_true, if_false]

theorem reqSetImageKey_ok (hl : r.w.length = 4) (hlc : lcState fu = 1) (hk : fu.imgKeys = []) :
    reqSetImageKey r fu d = ok { fu with imgKeys := [r.bytes 32] } d := by
  simp only [reqSetImageKey, hlc, hk, hl, ne_eq, not_true_eq_false, if_false]

theorem reqRetireLocal_ok (hl : r.w.length = 1) (hlc : lcState fu = 1) (ho : fu.owner = none) (hd : r.word 0 = fu.devid) :
    reqRetireLocal r fu d = retire fu d := by
  simp only [reqRetireLocal, hlc, ho, hl, hd, ne_eq, not_true_eq_false, Option.isSome_none, Bool.false_eq_true, or_self,
    if_false]

theorem nonceNow_old {n : List Nat} {t : Nat} (hn : d.sec.nonce = some (n, t)) (ht : t + 60 * rawPerS ≤ d.raw) :
    nonceNow d = none := by
  simp only [nonceNow, hn, if_neg (Nat.not_lt.mpr ht)]

theorem answerWait_sent (ha : d.sec.ans = some a) (hf : (ferryOf a.ferry d).full = false)
    (ht : d.raw ≤ a.from_ + 10 * rawPerMs) :
    answerWait d = secSend a.ferry a.hdr a.words { d with sec := { d.sec with ans := none } } := by
  simp only [answerWait, ha, hf, ht, decide_true, Bool.not_false, Bool.and_self, if_true]

theorem answerWait_dropped (ha : d.sec.ans = some a) (hf : (ferryOf a.ferry d).full = true)
    (ht : a.from_ + 10 * rawPerMs ≤ d.raw) :
    answerWait d = inc SEC.ANSDROP { d with sec := { d.sec with ans := none } } := by
  simp only [answerWait, ha, hf, ht, Bool.not_true, Bool.false_and, Bool.false_eq_true, if_false, if_true]

end Provisioning

/-- Settles O31. -/
theorem provisioningRuns : Obligations.ProvisioningRuns := by
  unfold Obligations.ProvisioningRuns
  rintro s _ rfl
  dsimp only [exec]
  refine ⟨?setowner, ?setimagekey, ?deploy, ?retireLocal, ?nonce, ?answer, ?answerDrop, ?redraw, ?drbgFail, ?tamper, ?info,
    ?debugClosed⟩
  case setowner => exact fun r hr hn hc hl hlc ho => onFuses_served hr hn hc (reqSetOwner_ok hl hlc ho)
  case setimagekey => exact fun r hr hn hc hl hlc hk => onFuses_served hr hn hc (reqSetImageKey_ok hl hlc hk)
  case deploy => exact fun r hr hn hc _ => onFuses_served_wrm hr hn hc rfl
  case retireLocal =>
    exact fun r hr hn hc hl hlc ho hd => onFuses_served_wrm hr hn hc (reqRetireLocal_ok hl hlc ho hd)
  case nonce => exact fun n t hi hn ht => onSec_to hi (if_pos (by rw [nonceNow_old hn ht]; rfl))
  case answer => exact fun a hi ha hf ht => onSec_to hi (answerWait_sent ha hf ht)
  case answerDrop => exact fun a hi ha hf ht => onSec_to hi (answerWait_dropped ha hf ht)
  case redraw => exact fun hi ht => onSec_to hi (if_pos ht)
  case drbgFail => exact fun hi hf => onSec_to hi (if_neg (by rw [hf]; exact Bool.false_ne_true))
  case tamper => exact fun src keyop hi _ => onAon_to hi rfl
  case info => exact fun hi _ => onDev_up hi rfl
  case debugClosed =>
    intro e sc hi he ht
    exact onSec_to hi (by simp only [he, if_pos ht])

end Sys2Proof.Proofs
end

section
/-! Proofs/Straits.lean: strait queues, locks, ferries and doorbells (R357-R385). -/

namespace Sys2Proof.Proofs

open Sys2Proof Sys2Proof.Machine Sys2Proof.Safety Sys2Proof.Laws

section Queues

variable {q : Nat} {w : Who} {e : Ecc} {d : Dev} {f : Dev → Dev}

theorem qCmd_allowed (hl : lvlOk (qAtM q) w = true) (hu : qWinUp q d = true) : qCmd q w f d = f d :=
  whenB_true (by rw [hl, hu]; rfl) d

theorem qWin_allowed (hl : lvlOk (qAtM q) w = true) (hu : qWinUp q d = true) : qWin q w f d = f d := by
  rw [qWin, hl, hu, if_pos (by rfl)]

/-- A push that a queue of firmware has room for: the held low word goes, and the item joins its packet (R369, R371). -/
theorem fwPush_taken {who : Nat} (hi : W32) (hp : qProd q = .fw) (hv : qLive q d = true)
    (hf : ¬ qDepth q ≤ (qGet q d).fill) (ho : ¬ 64 ≤ (qGet q d).opn.length) :
    fwPush q hi who d =
      (fun it pri own x => if on (SQ.QCTL.END q) d then
        wr (SQ.QCTL.END q) 0 (qSet q { qGet q d with opn := [], pkts := (qGet q d).pkts ++
          [{ items := (qGet q d).opn ++ [it], pri := pri, who := own }] } x)
        else qSet q { qGet q d with opn := (qGet q d).opn ++ [it], opri := pri, owho := own } x)
      (BitVec.ofNat 64 ((tget d.held (SQ.QPUSHLO q).addr 0).toNat + hi.toNat * 2 ^ 32))
      (if (qGet q d).opn = [] then rd (SQ.QCTL.PRI q) d else (qGet q d).opri)
      (if (qGet q d).opn = [] then who else (qGet q d).owho)
      { d with held := tset d.held (SQ.QPUSHLO q).addr 0 0 } := by
  have hn : qProd q ≠ .nobody := fun h => nomatch hp.symm.trans h
  have hr : ¬ (qProd q ≠ .fw ∨ !qLive q d) := by rw [hp, hv]; decide
  exact (if_neg hn).trans ((if_neg hr).trans ((if_neg hf).trans (if_neg ho)))

theorem showNext_at {i : Nat} {p : Packet} (hi : findIx (fun p => !p.shown) (qGet q d).pkts = some i)
    (hp : (qGet q d).pkts[i]? = some p) :
    showNext q e d = qSet q { qGet q d with
      pkts := (qGet q d).pkts.set i { p with shown := true, at_ := d.raw, ecc := e } } d := by
  simp only [showNext, hi, hp]

theorem fwPop_item {it : W64} {fin : Bool} {v : Queue} (hc : qCons q = .fw) (ht : (qGet q d).take = some (it, fin, v))
    (he : worseEcc e (headEcc q d) ≠ .double) :
    fwPop q e d = (fun x => { qSet q v x with rdata := BitVec.ofNat 64 (it.toNat % 2 ^ 32), latch := tset x.latch (SQ.QPOPHI q).addr (BitVec.ofNat 32 (it.toNat / 2 ^ 32)) 0 })
      (heeded q (worseEcc e (headEcc q d)) d) := by
  rw [fwPop, if_neg (not_not_intro hc)]
  simp only [ht]
  cases hw : worseEcc e (headEcc q d) with
  | double => exact absurd hw he
  | clean | single => rfl

theorem fwPop_lost {it : W64} {fin : Bool} {v : Queue} (hc : qCons q = .fw) (ht : (qGet q d).take = some (it, fin, v))
    (he : worseEcc e (headEcc q d) = .double) :
    fwPop q e d = (fun x => { x with rdata := 0, latch := tset x.latch (SQ.QPOPHI q).addr 0 0 })
      (sqEcc q (qSet q { (qGet q d).skip with lastEnd := fin } d)) := by
  rw [fwPop, if_neg (not_not_intro hc)]
  simp only [ht, he]

theorem qMark_between (hr : fwReads q = true) (hp : (qGet q d).inPkt = false) : qMark q d = qSet q (qGet q d).mark d := by
  simp only [qMark, hr, hp, Bool.not_true, Bool.false_eq_true, if_false]

theorem qRewind_marked (hr : fwReads q = true) (hm : (qGet q d).marked = true) :
    qRewind q d = qSet q (qGet q d).rewind d := by
  simp only [qRewind, hr, hm, Bool.not_true, Bool.false_eq_true, if_false, if_true]

theorem qRelease_read (hr : fwReads q = true) :
    qRelease q d = qSet q (drain q (qGet q d).release.backlog.length (qGet q d).release) d := by
  simp only [qRelease, hr, Bool.not_true, Bool.false_eq_true, if_false]

end Queues

section Ferries

variable {f r : Nat} {d : Dev}

theorem ferryTake_full {rq : Nat} (hr : ferryRecv f (ferryOf f d).hdr.toNat d = rq) (hf : (ferryOf f d).full = true) :
    ferryTake f rq d = answerWait (ferryTaken f d) := by
  simp only [ferryTake, hr, hf, Bool.not_true, Bool.false_and, Bool.false_eq_true, if_false, ne_eq, not_true]

end Ferries

/-- Settles O32: each command on a strait queue, a lock, a ferry or a doorbell has the effect its table row names. -/
theorem straitsRun : Obligations.StraitsRun := by
  unfold Obligations.StraitsRun
  rintro s _ rfl
  dsimp only [exec]
  refine ⟨?pushEnd, ?push, ?present, ?pop, ?popLost, ?mark, ?rewind, ?release, ?lockRead, ?lockWrite, ?lockfree,
    ?ferryWrite, ?send, ?take, ?dbmask, ?bell⟩
  case pushEnd =>
    intro q hi w hl hu hp hv hf ho he
    refine onDev_to ?_
    rw [whenB_true hl, whenB_true hu, fwPush_taken hi hp hv hf ho]
    exact if_pos he
  case push =>
    intro q hi w hl hu hp hv hf ho he
    refine onDev_to ?_
    rw [whenB_true hl, whenB_true hu, fwPush_taken hi hp hv hf ho]
    exact if_neg (by rw [he]; exact Bool.false_ne_true)
  case present => exact fun q e i p hv hi hp => onDev_to (by rw [whenB_true hv, showNext_at hi hp])
  case pop => exact fun q e w it fin v hl hu hc ht he => onDev_to ((qWin_allowed hl hu).trans (fwPop_item hc ht he))
  case popLost => exact fun q e w it fin v hl hu hc ht he => onDev_to ((qWin_allowed hl hu).trans (fwPop_lost hc ht he))
  case mark => exact fun q w hl hu hr hp => onDev_to ((qCmd_allowed hl hu).trans (qMark_between hr hp))
  case rewind => exact fun q w hl hu hr hm => onDev_to ((qCmd_allowed hl hu).trans (qRewind_marked hr hm))
  case release => exact fun q w hl hu hr => onDev_to ((qCmd_allowed hl hu).trans (qRelease_read hr))
  case lockRead => exact fun n w hi hl => exec_lockRead_singleton hi hl
  case lockWrite =>
    rintro n r w hi hl rfl ho
    refine (exec_lockWrite_up hi hl).trans ?_
    rw [lockWrite_owner ⟨ho, rfl⟩]
  case lockfree => exact fun n w hi hl => onDev_to ((whenB_true hl _).trans (whenUp_up hi))
  case ferryWrite =>
    intro f i v w hi hf hs
    exact onDev_up hi (if_neg (by rw [hf, hs]; decide))
  case send =>
    intro f hdr w hi hb
    exact onDev_up hi (if_neg (by rw [hb]; exact Bool.false_ne_true))
  case take =>
    intro f w hi hl hr hf
    exact onDev_to ((if_pos (by rw [hl, hi]; rfl)).trans (ferryTake_full hr hf))
  case dbmask =>
    intro r m w hi hl hw
    exact onDev_up hi (whenB_true (by rw [hl]; simpa using hw) _)
  case bell => exact fun r hi hb => onDev_up hi (if_neg hb)

end Sys2Proof.Proofs
end

section
/-! Proofs/MemoryUnits.lean: the frame pool, retirement, the scrubber and the DMA channels (R446-R474). -/

namespace Sys2Proof.Proofs

open Sys2Proof Sys2Proof.Machine Sys2Proof.Safety Sys2Proof.Laws

section Units

variable {fu : Fuses} {c : Nat} {d d1 : Dev} {x : Desc}

theorem tlbInv_room (h : d.mem.inval < 8) : tlbInv d = { d with mem := { d.mem with inval := d.mem.inval + 1 } } :=
  if_neg (Nat.not_le_of_lt h)

theorem poolEn_on (h : on MEM.MEMCTL.POOLEN d = false) :
    poolEn true d = wrB MEM.MEMSTAT.SWEEP true (wrB MEM.MEMCTL.POOLEN true d) :=
  if_pos (by rw [h]; rfl)

/-- A start of a channel that is open, at a level that the writer may give (R466, R467). -/
theorem chCtl_start {level : Nat} {wl : Level} (ho : chOpen c d = true) (hl : level ≤ wl.num) (h3 : level < 3) :
    chCtl c true level wl d = (fun x => chanSet c {} (wr (MEM.CHSTAT.STATE c) chRun (wr (MEM.CHCUR c) (rd (MEM.CHDESC c) x)
      (wr (MEM.CHDONE c) 0 x)))) (wr (MEM.CHCTL.LEVEL c) level (wrB (MEM.CHCTL.EN c) true d)) := by
  simp only [chCtl, if_neg (Nat.not_le_of_lt h3), ho, decide_eq_false (Nat.not_lt_of_le hl), Bool.not_true, Bool.or_self,
    Bool.false_eq_true, if_false]

/-- A running channel with a descriptor works until it has done with it or stops. -/
theorem chWork_runs (hr : rd (MEM.CHSTAT.STATE c) d = chRun) (hd : chDesc fu c d = (some x, d1)) :
    chWork fu c d = dmaUntil fu (fun _ => none) (fun y => !(rd (MEM.CHSTAT.STATE c) y == chRun && (chanOf_ c y).desc.isSome))
      (roundsFor d1) d1 := by
  have hs : (fun y => rd (MEM.CHSTAT.STATE c) y != chRun || (chanOf_ c y).desc.isNone) =
      fun y => !(rd (MEM.CHSTAT.STATE c) y == chRun && (chanOf_ c y).desc.isSome) := by
    funext y
    rw [Bool.not_and, Option.not_isSome, bne]
  rw [chWork, if_neg (not_not_intro hr), hd, ← hs]

/-- A channel that meets an error in the descriptor it is about to read (R469). -/
theorem chFail_descriptor {at_ : Nat} {emmc w : Bool} (hr : rd (MEM.CHSTAT.STATE c) d = chRun)
    (hn : (chanOf_ c d).desc = none) :
    chFail fu c at_ emmc w true d = (chDesc fu c (chStrike c .load (rd (MEM.CHCUR c) d + at_ % 32) d)).2 := by
  rw [chFail, if_neg (not_not_intro hr), if_pos rfl, hn, Option.isSome_none, if_neg Bool.false_ne_true]

theorem chSkip_descriptor (hp : rd (MEM.CHSTAT.STATE c) d = chParked) (hx : (chanOf_ c d).desc = some x) :
    chSkip c d = descEnd c x false d := by
  rw [chSkip, if_neg (not_not_intro hp)]
  simp only [hx]

theorem chSkip_none (hp : rd (MEM.CHSTAT.STATE c) d = chParked) (hx : (chanOf_ c d).desc = none) :
    chSkip c d = chanSet c { chanOf_ c d with skip := true } (wr (MEM.CHSTAT.STATE c) chRun d) := by
  rw [chSkip, if_neg (not_not_intro hp)]
  simp only [hx]

end Units

/-- What a command of MEM does while MEM is up and the requester may give it. -/
theorem onMem_to {s : State} {b : Bool} {f : Dev → Dev} {t : Dev} (hi : isUp MEMi (start s) = true) (hb : b = true)
    (hf : f (start s) = t) : onMem s (whenB b f) = .next (after s t) := by
  rw [onMem_up f hi hb, hf]

/-- Settles O44: each command of the pool, the scrubber and the DMA channels has the effect its table row names. -/
theorem memoryUnits : Obligations.MemoryUnits := by
  unfold Obligations.MemoryUnits
  rintro s _ rfl
  dsimp only [exec]
  refine ⟨?tlbinv, ?poolOn, ?poolOff, ?sweep, ?take, ?takeNone, ?give, ?retire, ?retClear, ?scrub, ?start, ?work, ?park,
    ?parkEmmc, ?parkDesc, ?resume, ?resumeAborted, ?skip, ?skipNone, ?abort⟩
  case tlbinv => rintro hi w x hu hw rfl hx; exact onMem_to hu hw (tlbInv_room hx)
  case poolOn => exact fun w hi hw hp => onMem_to hi hw (poolEn_on hp)
  case poolOff | retire | retClear => intros; exact onMem_to ‹_› ‹_› rfl
  case sweep => exact fun hi _ => onDev_up (f := fun _ => sweepDone) hi rfl
  case take => exact fun w f hi hw hp => onMem_to hi hw (poolTake_some hp)
  case takeNone => exact fun w hi hw hp => onMem_to hi hw (poolTake_none hp)
  case give => exact fun f w hi hw hf hs => onMem_to hi hw (poolGive_taken hf hs)
  case scrub => exact fun e hi _ _ => onDev_up (f := fun _ => scrub e) hi rfl
  case start => exact fun c level w hi hw ho hl h3 => onMem_to hi hw (chCtl_start ho hl h3)
  case work => exact fun c x d1 hi hr hd => onDev_up hi (chWork_runs hr hd)
  case park =>
    exact fun c at_ wr_ x d1 d2 y hi hr hd hl hn hs h2 hr2 ha hh hy =>
      onDev_up hi ((chFail_at hr hd hl hn (.inl rfl) hs h2 hr2 ha hh hy).trans (if_neg Bool.false_ne_true))
  case parkEmmc =>
    exact fun c at_ wr_ x d1 d2 y hi hr hd hl hn hs hop h2 hr2 ha hh hy =>
      onDev_up hi ((chFail_at hr hd hl hn (.inr hop) hs h2 hr2 ha hh hy).trans (if_pos rfl))
  case parkDesc => exact fun c at_ emmc wr_ hi hr hn => onDev_up hi (chFail_descriptor hr hn)
  case resume => exact fun c w hi hw ha hp => onMem_to hi (by rw [hw, ha]; rfl) (if_pos hp)
  case resumeAborted =>
    intro c w ha
    refine onDev_to (f := fun _ => whenUp MEMi (whenB (atS w && !s.pending.any (aborts c)) (chResume c))) ?_
    rw [ha, Bool.not_true, Bool.and_false, whenUp, whenB, if_neg Bool.false_ne_true, ite_self]
  case skip => exact fun c w x hi hw hp hx => onMem_to hi hw (chSkip_descriptor hp hx)
  case skipNone => exact fun c w hi hw hp hx => onMem_to hi hw (chSkip_none hp hx)
  case abort => exact fun c w hi hw hs => onMem_to hi hw (if_pos hs)

end Sys2Proof.Proofs
end

section
/-! Proofs/MonitorsAndRing.lean: critical faults, the monitors (R554-R572) and the drive ring (R265-R292). -/

namespace Sys2Proof.Proofs

open Sys2Proof Sys2Proof.Machine Sys2Proof.Safety Sys2Proof.Laws

section Monitors

variable {q : List Instr} {i k b : Nat} {f g : Fld} {d : Dev}

theorem critClear_cleared (hb : critBit b = some f) (hf : on f d = true) (hc : critCause b d = false)
    (ht : tget d.sec.critRaw b 0 + rawPerS ≤ d.raw) : critClear b d = pmMirror (wrB f false d) := by
  simp only [critClear, hb, hf, hc, decide_eq_false (Nat.not_lt_of_le ht), Bool.not_true, Bool.or_self, Bool.false_eq_true,
    if_false]

/-- A fault that a monitor finds in an island that is on resets the island and is noted in CRITSTAT. -/
theorem monitor_bad (hi : i ≠ 0) (ho : tget d.isl i .off ≠ .off) :
    monitor q i k f g true d = whenUp SECi (fun x => wr g i (critSet f x)) (rstAsk q 1 (resetAsk i) (holdSet i k true d)) :=
  (if_neg (not_or.2 ⟨hi, ho⟩)).trans (if_pos rfl)

theorem monitor_good (hi : i ≠ 0) (ho : tget d.isl i .off ≠ .off) (hh : bit (tget d.aon.holds i 0) k = true) :
    monitor q i k f g false d =
      (fun x => { x with sec := { x.sec with critRaw := tset x.sec.critRaw f.lo x.raw 0 } }) (holdSet i k false d) :=
  (if_neg (not_or.2 ⟨hi, ho⟩)).trans ((if_neg Bool.false_ne_true).trans (if_pos hh))

theorem tcxoCheck_lost (hp : d.aon.power = .run) (hh : bit (tget d.aon.holds 1 0) 4 = false) :
    tcxoCheck false d = forAll [1, 2, 3, 4, 5, 6, 7, 8] (fun i x => resetAsk i (holdSet i 4 true x))
      (whenUp SECi (critSet SEC.CRITSTAT.TCXO) d) :=
  (if_neg (not_not_intro hp)).trans ((if_pos rfl).trans (if_neg (by rw [hh]; exact Bool.false_ne_true)))

end Monitors

/-- Settles O45: each monitor and the clearing of a critical fault have the effect the spec names. -/
theorem monitorsRun : Obligations.MonitorsRun := by
  unfold Obligations.MonitorsRun
  rintro s _ rfl
  dsimp only [exec]
  refine ⟨?clear, ?clockBad, ?clockGood, ?railBad, ?railAon, ?tcxoLost, ?tcxoBack⟩
  case clear => exact fun b w f hi hw hb hf hc ht => onSec_to hi ((whenB_true hw _).trans (critClear_cleared hb hf hc ht))
  case clockBad => exact fun i hi h0 ho => onAon_to hi (monitor_bad h0 ho)
  case clockGood => exact fun i hi h0 ho hh => onAon_to hi (monitor_good h0 ho hh)
  case railBad => exact fun i hi h0 ho => onAon_to hi ((congrFun (if_neg h0) _).trans (monitor_bad h0 ho))
  case railAon => exact fun hi => onAon_to hi rfl
  case tcxoLost => exact fun hi hp hh => onAon_to hi (tcxoCheck_lost hp hh)
  case tcxoBack => exact fun hi _ _ => onAon_to (f := fun _ => tcxoCheck true) hi rfl

section Ring

variable {d : Dev} {l : List Instr} {f : PortFrame}

theorem onNet_to {s : State} {g : Dev → Dev} {t : Dev} (hi : isUp NETi (start s) = true) (hg : g (start s) = t) :
    onNet s g = .next (after s t) := onDev_up hi hg

theorem ringFrame_heard {g : Dev → Dev} (h : f.etype = 0x88B5) : ringFrame f g d = g d :=
  whenB_true (beq_iff_eq.2 h) d

theorem ringFrame_other {g : Dev → Dev} (h : f.etype ≠ 0x88B5) : ringFrame f g d = d :=
  whenB_false (beq_eq_false_iff_ne.2 h) d

theorem cycenWrite_on (ho : on NET.NETCTL.CYCEN d = false) :
    cycenWrite true d = if cycFits d then wrB NET.NETCTL.CYCEN true d else wrB NET.RINGSTAT.FITERR true d := by
  rw [cycenWrite, Bool.not_true, if_neg Bool.false_ne_true, ho, if_neg Bool.false_ne_true]

theorem ringenWrite_on (ho : on NET.NETCTL.RINGEN d = false) : ringenWrite true d = ringOn d :=
  (if_neg (by rw [ho]; decide)).trans (if_pos rfl)

theorem ringenWrite_off (ho : on NET.NETCTL.RINGEN d = true) : ringenWrite false d = releaseWaiting (ringOff false d) :=
  (if_neg (by rw [ho]; decide)).trans (if_neg Bool.false_ne_true)

theorem announceOnce_first (hn : d.net.annDone = 0) (he : f.etype = 0x88B5) :
    announceOnce f d = announce f.port f.dst.toNat f.src.toNat (f.body.map BitVec.toNat) d := by
  rw [announceOnce, if_pos hn, announceAt, ringFrame_heard he]

end Ring

/-- Settles O46: each event and control of the drive ring has the effect the spec names. -/
theorem ringRuns : Obligations.RingRuns := by
  unfold Obligations.RingRuns
  rintro s _ rfl
  dsimp only [exec]
  refine ⟨?cycle, ?test, ?link, ?input, ?inputOther, ?deadline, ?hold, ?cycOn, ?cycUnfit, ?cycOff, ?ringOn, ?ringOff,
    ?frame, ?own, ?ownLost, ?address, ?announceA, ?announceB⟩
  case cycle => exact fun rtt hi _ => onNet_to (g := ringCycle (rtt.map BitVec.toNat)) hi rfl
  case test => exact fun a b hi _ => onNet_to (g := Machine.testDeadline a b) hi rfl
  case link => exact fun p l hi => onAon_to (f := fun _ => linkChange p l) hi rfl
  case input => exact fun f fcs he hi _ _ => onNet_to hi (ringFrame_heard he)
  case inputOther =>
    intro f fcs he
    exact onDev_to (f := fun _ => whenUp NETi (ringFrame f _)) (by rw [whenUp, ringFrame_other he, ite_self])
  case deadline => exact fun hi _ => onNet_to (g := Machine.inputDeadline) hi rfl
  case hold => exact fun hi _ => onNet_to (g := Machine.holdFrame) hi rfl
  case cycOn =>
    exact fun w hi hw ho hf => onNet_to hi ((whenB_true hw _).trans ((cycenWrite_on ho).trans (if_pos hf)))
  case cycUnfit =>
    exact fun w hi hw ho hf => onNet_to hi ((whenB_true hw _).trans ((cycenWrite_on ho).trans
      (if_neg (by rw [hf]; exact Bool.false_ne_true))))
  case cycOff => exact fun w hi hw => onNet_to hi (whenB_true hw _)
  case ringOn => exact fun w hi hw ho => onNet_to hi ((whenB_true hw _).trans (ringenWrite_on ho))
  case ringOff => exact fun w hi hw ho => onNet_to hi ((whenB_true hw _).trans (ringenWrite_off ho))
  case frame => exact fun f hi => onNet_to (g := ordinary (some f)) hi rfl
  case own => exact fun p hi hp he => onNet_to (g := ordOut) hi (hwTry_heeds hp he)
  case ownLost => exact fun p hi hp he => onNet_to (g := ordOut) hi (hwTry_loses hp he)
  case address => exact fun hi _ => onNet_to (g := addressAll) hi rfl
  case announceA =>
    intro f hi he hn _ _ _ hp
    refine onNet_to hi ((if_pos hp).trans ((announceOnce_first hn he).trans ?_))
    rw [hp, Fin.val_zero]
  case announceB =>
    intro f hi he hp
    refine onNet_to hi ((if_neg (by rw [hp]; decide)).trans ((ringFrame_heard he).trans ?_))
    rw [hp, Fin.val_one]

end Sys2Proof.Proofs
end

section
/-! Proofs/RegistersAndScheduler.lean: registers by address (R4-R11, R383, R384) and the scheduler (R419-R445). -/

namespace Sys2Proof.Proofs

open Sys2Proof Sys2Proof.Machine Sys2Proof.Safety Sys2Proof.Laws

section Registers

variable {s : State} {err : Dev → Dev} {f : Fuses → Dev → Option Dev} {y : Dev}

theorem regAccess_answered (h : f s.fuses (start s) = some y) : regAccess err f s = .next (after s y) := by
  rw [regAccess, onDev_eq, h, Option.getD_some]

theorem regAccess_refused (h : f s.fuses (start s) = none) : regAccess err f s = .next (after s (err (start s))) := by
  rw [regAccess, onDev_eq, h, Option.getD_none]

theorem writeAccess_taken {a : BitVec 40} {v : W32} {w : Who}
    (h : mmioWrite s.fuses w 4 a.toNat v.toNat (ties s.pending (start s)) = some y) :
    writeAccess a v w s = .next (after s y) := regAccess_answered h

theorem writeAccess_refused {a : BitVec 40} {v : W32} {w : Who}
    (h : mmioWrite s.fuses w 4 a.toNat v.toNat (ties s.pending (start s)) = none) :
    writeAccess a v w s = .next (after s { busNote w 4 a.toNat (start s) with rdata := 0 }) := regAccess_refused h

end Registers

/-- Settles O47: an access by address does what the register there does, and one that no register takes shows 0. -/
theorem registersByAddress : Obligations.RegistersByAddress := by
  unfold Obligations.RegistersByAddress
  rintro s _ rfl
  dsimp only [exec]
  refine ⟨?write, ?writeRefused, ?low, ?lowRefused, ?high, ?highRefused, ?read, ?readRefused, ?readLow, ?readLowRefused, ?batch⟩
  case write | low | high => exact fun a v w y h => writeAccess_taken h
  case writeRefused | lowRefused | highRefused => rintro a v w _ rfl h; exact writeAccess_refused h
  case read | readLow => exact fun a w y h => regAccess_answered (err := readErr) (f := fun fu => mmioRead fu w 4 a.toNat) h
  case readRefused | readLowRefused =>
    exact fun a w h => regAccess_refused (err := readErr) (f := fun fu => mmioRead fu w 4 a.toNat) h
  case batch =>
    rintro f _ rfl hw hd hi
    exact onDev_to (whenB_true (by rw [hw, hd, hi]; rfl) _)

section Scheduler

variable {s : State} {n : Nat} {e : Ecc} {q : List Instr} {d t : Dev}

theorem withTies_onDev {f : Fuses → Dev → Dev} (hf : f s.fuses (start s) = t) :
    withTies (onDev s f) = .next (after s (whenRuns SCHi (tiesDone s.pending) t)) := by
  rw [onDev_eq, hf, withTies_eq]

theorem takeTied_first (ha : ahead 1 q = false) : takeTied q e d = takeEvent e d :=
  if_neg (by rw [ha]; exact Bool.false_ne_true)

theorem takeTied_waits (ha : ahead 1 q = true) :
    takeTied q e d = { d with sch := { d.sch with evLate := d.sch.evLate ++ [e] } } := if_pos ha

theorem chooseTied_first (hc : choiceWaits q d = false) : chooseTied q d = choose d :=
  if_neg (by rw [hc]; exact Bool.false_ne_true)

theorem chooseTied_waits (hc : choiceWaits q d = true) :
    chooseTied q d = { d with sch := { d.sch with chooseLate := d.sch.chooseLate + 1 } } := if_pos hc

theorem napEntry_naps (hr : (coreOf n d).run = .idle) (hh : bit (rd SCH.NAPHOLD d) n = false)
    (ht : (coreOf n d).from_ + rd SCH.NAPDLY d * 26 ≤ d.raw) :
    napEntry n d = coreSet n { coreOf n d with run := .nap } d :=
  if_pos ⟨hr, by rw [hh]; rfl, ht⟩

/-- A DFREADY that has waited its time at a full queue answers BUSY (R403, R438). -/
theorem busyTimeout_ready {r x from_ : Nat} (hs : (coreOf n d).stall = some (.ready r x from_)) (ht : from_ + 52 ≤ d.raw)
    (hf : full d = true) :
    busyTimeout n d = inc SCH.BUSYCNT (coreSet n
      { ((coreOf n d).put r (BitVec.ofNat 64 dfBusy)).next with stall := none, iret := (coreOf n d).iret + 1 } d) := by
  simp only [busyTimeout, hf, if_true, hs, if_pos ht]

/-- A DFPOST that has waited its time at a full queue answers BUSY (R403, R438). -/
theorem busyTimeout_post {r x p from_ : Nat} {v : W64} (hs : (coreOf n d).stall = some (.post r x p v from_))
    (ht : from_ + 52 ≤ d.raw) (hf : full d = true) :
    busyTimeout n d = inc SCH.BUSYCNT (coreSet n
      { ((coreOf n d).put r (BitVec.ofNat 64 dfBusy)).next with stall := none, iret := (coreOf n d).iret + 1 } d) := by
  simp only [busyTimeout, hf, if_true, hs, if_pos ht]

theorem testTurn_begins (he : on APP.STCTL.EN d = true) (hc : d.app.stCur = none) (ht : d.app.stTry = none)
    (hd : (d.app.stAt.map (· + turnEach)).getD 0 ≤ d.raw) : testTurn d = turnTake d.raw (turnBegin d) := by
  simp only [testTurn, he, hc, ht, if_pos hd, Bool.not_true, Option.isSome_none, Bool.or_self, Bool.false_eq_true, if_false]

theorem testTurn_again {from_ : Nat} (he : on APP.STCTL.EN d = true) (hc : d.app.stCur = none)
    (ht : d.app.stTry = some from_) : testTurn d = turnTake from_ d := by
  simp only [testTurn, he, hc, ht, Bool.not_true, Option.isSome_none, Bool.or_self, Bool.false_eq_true, if_false]

theorem npTime_traps (hi : canIssue n d = true) (hl : (coreOf n d).nplim < (coreOf n d).npcnt d.raw) :
    npTime n d = cancelHere n (takeTrap n ⟨xNpTime, (coreOf n d).npcnt d.raw, false⟩ (coreOf n d).x.pc d) :=
  if_pos (by rw [hi, decide_eq_true hl]; rfl)

theorem onApp_sch {f : Dev → Dev} (ha : runs APPi (start s) = true) (hs : runs SCHi (start s) = true)
    (hf : f (start s) = t) : onDev s (fun _ => whenRuns APPi (whenRuns SCHi f)) = .next (after s t) :=
  onDev_runs ha ((whenRuns_runs hs).trans hf)

end Scheduler

/-- Settles O48: each event of the scheduler has the effect the spec names. -/
theorem schedulerRuns : Obligations.SchedulerRuns := by
  unfold Obligations.SchedulerRuns
  rintro s _ rfl
  dsimp only [exec]
  refine ⟨?preempt, ?preemptFenced, ?event, ?eventLate, ?evcfg, ?choose, ?chooseLate, ?nap, ?busyReady, ?busyPost, ?fence,
    ?enable, ?turn, ?turnAgain, ?tested, ?nptime⟩
  case preempt =>
    intro n ha hs hp _ _
    refine onDev_to ((if_neg (by rw [hp]; exact Bool.false_ne_true)).trans ?_)
    rw [whenRuns_runs ha, whenRuns_runs hs]
  case preemptFenced => exact fun n hp => onDev_to (if_pos hp)
  case event =>
    exact fun e hs ha _ => withTies_onDev ((whenRuns_runs hs).trans (takeTied_first ha))
  case eventLate => exact fun e hs ha => withTies_onDev ((whenRuns_runs hs).trans (takeTied_waits ha))
  case evcfg => exact fun ev v w hi hw => onDev_up hi (whenB_true hw _)
  case choose => exact fun ha hs hc _ _ => onApp_sch ha hs (chooseTied_first hc)
  case chooseLate => exact fun ha hs hc => onApp_sch ha hs (chooseTied_waits hc)
  case nap => exact fun n ha hs hr hh ht => onApp_sch ha hs (napEntry_naps hr hh ht)
  case busyReady => exact fun n r x t ha hs hst ht hf => onApp_sch ha hs (busyTimeout_ready hst ht hf)
  case busyPost => exact fun n r x q t v ha hs hst ht hf => onApp_sch ha hs (busyTimeout_post hst ht hf)
  case fence => exact fun v w hi hw => withTies_onDev ((whenUp_up hi).trans (whenB_true hw _))
  case enable => exact fun v w hi hw => onDev_up hi (whenB_true hw _)
  case turn =>
    exact fun ha hs he hc ht hd => withTies_onDev ((whenRuns_runs ha).trans ((whenRuns_runs hs).trans
      (testTurn_begins he hc ht hd)))
  case turnAgain =>
    exact fun t ha hs he hc ht => withTies_onDev ((whenRuns_runs ha).trans ((whenRuns_runs hs).trans (testTurn_again he hc ht)))
  case tested => exact fun pass n ha _ => onDev_runs (f := fun _ => testDone pass) ha rfl
  case nptime => exact fun n hi hl => onDev_to (npTime_traps hi hl)

end Sys2Proof.Proofs
end

section
/-! Proofs/ControlEvents.lean: the servo cycle, CTL's register commands and the axis commands (R293-R356). -/

namespace Sys2Proof.Proofs

open Sys2Proof Sys2Proof.Machine Sys2Proof.Safety Sys2Proof.Laws

section Events

variable {s : State} {d t : Dev} {f : Dev → Dev} {a b x p : Nat}

theorem onCtl_to (hi : isUp CTLi (start s) = true) (hf : f (start s) = t) : onCtl s f = .next (after s t) := onDev_up hi hf

theorem onCtl_write {c : Bool} (hi : isUp CTLi (start s) = true) (hc : c = true) (hf : f (start s) = t) :
    onCtl s (whenB c f) = .next (after s t) := onCtl_to hi ((whenB_true hc _).trans hf)

/-- The triggered program starts in a cycle whose inputs are handed over and in which none has run (R331, R332). -/
theorem programStart_clean (ht : d.ctl.trig = some p) (hr : ctlRuns d = true) (hh : d.ctl.handed = some (cycIdx d))
    (hn : d.ctl.run = none) (hran : d.ctl.ran = false) (hd : pastDl d = false) (hv : on (CTL.PROGTAB.VALID p) d = true) :
    programStart .clean d = progStart p d := by
  simp only [programStart, ht, hr, hh, hn, hran, hd, hv, Bool.not_true, bne_self_eq_false, Bool.or_self, Bool.false_eq_true,
    if_false, ctlEcc]

theorem pmemWrite_free {v : Nat} (h : (List.range 16).any (fun p => on (CTL.PROGTAB.VALID p) d && decide (rd (CTL.PROGTAB.START p) d ≤ x ∧
    x < rd (CTL.PROGTAB.START p) d + rd (CTL.PROGTAB.LEN p) d)) = false) : pmemWrite x v d = wr (CTL.PMEM x) v d :=
  if_neg (by rw [h]; exact Bool.false_ne_true)

theorem ctlEn_starts (ho : on CTL.CTLCTL.EN d = false) :
    ctlEn true d = forAll blocks64 lbReset { wr CTL.CTLSTAT.FCODE 0 (wrB CTL.CTLSTAT.FAULT false (wrB CTL.CTLSTAT.RUN true
      (wrB CTL.CTLCTL.EN true d))) with ctl := { d.ctl with holdClr := true, ovr := 0 } } :=
  (if_neg (by rw [ho]; decide)).trans (if_pos rfl)

theorem ctlEn_stops (ho : on CTL.CTLCTL.EN d = true) (ha : axes.any (fun a => axState a d != 0) = false) :
    ctlEn false d = wrB CTL.CTLSTAT.BUSY false (wrB CTL.CTLSTAT.RUN false (wrB CTL.CTLCTL.EN false
      { d with ctl := { d.ctl with run := none, trig := none, shadow := [] } })) := by
  simp only [ctlEn, ho, ha, Bool.and_false, Bool.false_eq_true, if_false]

/-- A deadline that passes with no program run in the cycle is a cycle with none (R332-R335). -/
theorem cycleDeadline_noProgram (hdue : d.ctl.dlDue = false) (hp : pastDl d = true) (hd : d.ctl.dl ≠ some (cycIdx d))
    (hr : ctlRuns d = true) (hn : d.ctl.run = none) (hran : d.ctl.ran = false) (ht : d.ctl.trig = none) :
    cycleDeadline d = nextCycle (commit (implicitPass (takeAll (inc CTL.NOPROG
      { d with ctl := { d.ctl with dl := some (cycIdx d), ovr := 0 } })))) := by
  have hc : ctlRuns { d with ctl := { d.ctl with dl := some (cycIdx d) } } = true := hr
  rw [cycleDeadline, hdue, if_neg Bool.false_ne_true, hp, beq_eq_false_iff_ne.2 hd, Bool.not_true, Bool.or_self,
    if_neg Bool.false_ne_true, deadline, hc, Bool.not_true, if_neg Bool.false_ne_true]
  dsimp only
  rw [hn]
  dsimp only
  rw [hran, if_neg Bool.false_ne_true, ht, Option.isSome_none, whenB_false rfl]

end Events

/-- Settles O51: each event of the servo cycle and each register command of CTL has the effect the spec names. -/
theorem cycleEventsRun : Obligations.CycleEventsRun := by
  unfold Obligations.CycleEventsRun
  rintro s _ rfl
  dsimp only [exec]
  refine ⟨?handoff, ?start, ?deadline, ?progtab, ?pmem, ?enable, ?disable, ?lbcfg, ?modereq, ?noProgram⟩
  case handoff => exact fun hi => onCtl_to (f := Machine.inputHandoff) hi rfl
  case start => exact fun p hi ht hr hh hn hran hd hv => onCtl_to hi (programStart_clean ht hr hh hn hran hd hv)
  case deadline => exact fun hi => onCtl_to (f := Machine.cycleDeadline) hi rfl
  case progtab => exact fun p x e w hi hw => onCtl_write (f := Machine.progtabWrite p x.toNat e) hi hw rfl
  case pmem => exact fun x v w hi hw h => onCtl_write hi hw (pmemWrite_free h)
  case enable => exact fun w hi hw ho => onCtl_write hi hw (ctlEn_starts ho)
  case disable => exact fun w hi hw ho ha => onCtl_write hi hw (ctlEn_stops ho ha)
  case lbcfg => exact fun b w hi hw => onCtl_write (f := lbcfgReset b) hi hw rfl
  case modereq => exact fun a m w hi hw _ => onCtl_write (f := Machine.modereq a m) hi hw rfl
  case noProgram => exact fun hi hdue hp hd hr hn hran ht => onCtl_to hi (cycleDeadline_noProgram hdue hp hd hr hn hran ht)

section AxisCommands

variable {s : State} {d : Dev} {a c : Nat} {w : Who}

/-- A command that AXCMD takes while no STOP waits there waits in turn (R305). -/
theorem cmdPost_waits (he : c = 1 → on CTL.CTLCTL.EN d = true) (h5 : (axOf a d).cmd ≠ some 5) :
    cmdPost a c d = axSet a { axOf a d with cmd := some c } d :=
  (if_neg fun h => Bool.false_ne_true (h.2.symm.trans (he h.1))).trans (if_neg h5)

theorem onAxis_waits (hi : isUp CTLi (start s) = true) (hw : atS w = true) (he : c = 1 → on CTL.CTLCTL.EN (start s) = true)
    (h5 : (axOf a (start s)).cmd ≠ some 5) :
    onAxis a c w s = .next (after s (axSet a { axOf a (start s) with cmd := some c } (start s))) :=
  onCtl_write hi hw (cmdPost_waits he h5)

theorem idleDown_off (hp : on (CTL.IDLECFG.PDEN a) d = true) (hs : on (CTL.AXSTAT.STANDSTILL a) d = true)
    (h0 : axState a d ≠ 0) (hm : (axOf a d).mv = .still)
    (ht : rd (CTL.IDLECFG.IDLEDLY a) d * 1000000 ≤ ((axOf a d).still - 1) * cycNs d) :
    idleDown a d = wrB (CTL.AXSTAT.DRVOFF a) true d :=
  if_pos (by rw [hp, hs, bne_iff_ne.2 h0, decide_eq_true ⟨hm, ht⟩]; rfl)

end AxisCommands

/-- Settles O52: each command waits in AXCMD, and a drive that has stood still its delay is switched off. -/
theorem axisCommandsWait : Obligations.AxisCommandsWait := by
  unfold Obligations.AxisCommandsWait
  rintro s _ rfl
  dsimp only [exec]
  refine ⟨?enable, ?disable, ?move, ?jog, ?stop, ?home, ?frst, ?idle⟩
  case enable => exact fun a w hi hw he h5 => onAxis_waits hi hw (fun _ => he) h5
  case disable | move | jog | stop | home | frst => exact fun a w hi hw h5 => onAxis_waits hi hw (fun h => absurd h (by decide)) h5
  case idle => exact fun a hi hp hs h0 hm ht => onDev_up hi (idleDown_off hp hs h0 hm ht)

end Sys2Proof.Proofs
end

section
/-! Proofs/Baseband.lean: the GNSS baseband, the base's epochs and its position (R155-R183). -/

namespace Sys2Proof.Proofs

open Sys2Proof Sys2Proof.Machine Sys2Proof.Safety Sys2Proof.Laws

section Channels

variable {s : State} {d t : Dev} {f : Dev → Dev} {c v : Nat}

theorem posOwn_to (hr : runs POSi (start s) = true) (hf : f (start s) = t) : posOwn s f = .next (after s t) := onDev_runs hr hf

theorem onPos_write {b : Bool} (hi : isUp POSi (start s) = true) (hb : b = true) (hf : f (start s) = t) :
    onPos s (whenB b f) = .next (after s t) := onDev_up hi ((whenB_true hb _).trans hf)

theorem bbCtl_starts (h0 : bit v 0 = true) (h1 : bit v 1 = false) (he : on POS.BBCTL.EN d = false) :
    bbCtl v d = bbStart (wrB POS.BBCTL.EN true d) := by
  simp only [bbCtl, h0, h1, he, Bool.not_false, Bool.and_self, Bool.false_eq_true, if_true, if_false]

theorem bbCtl_stops (h0 : bit v 0 = false) (h1 : bit v 1 = false) (he : on POS.BBCTL.EN d = true) :
    bbCtl v d = bbStop (wrB POS.BBCTL.EN false d) := by
  simp only [bbCtl, h0, h1, he, Bool.not_true, Bool.not_false, Bool.and_self, Bool.false_eq_true, if_true, if_false]

/-- The carrier is locked from pull-in, or again while the channel tracks (R164, R168). -/
theorem pllHandover_locks (h : chState c d = cPullin ∨ chState c d = cTrack ∧ on (POS.CHSTAT.CARRIER c) d = false) :
    pllHandover c d = (fun x => chGSet c { chG c x with lock := x.raw, loss := 0 } x) (wrB (POS.CHSTAT.CARRIER c) true
      (wrB (POS.CHSTAT.TRACK c) true (wr (POS.CHSTAT.STATE c) cTrack d))) :=
  if_pos (h.imp_right (And.imp_right fun hc => by rw [hc]; rfl))

theorem pullinTimeout_over (hs : chState c d = cPullin) (ht : (chG c d).pull + (chG c d).set.limit * 10 * rawPerMs ≤ d.raw) :
    pullinTimeout c d = toReacq c d := if_pos ⟨hs, ht⟩

theorem bitSync_found (hs : chState c d = cTrack) (hb : on (POS.CHSTAT.BSYNC c) d = false) :
    bitSync c d = chInt c (wrB (POS.CHSTAT.BSYNC c) true (chGSet c { chG c d with intAt := d.raw } d)) :=
  if_pos ⟨hs, by rw [hb]; rfl⟩

theorem carrierLoss_lost (hs : chState c d = cTrack) (hc : on (POS.CHSTAT.CARRIER c) d = true) :
    carrierLoss c d = (fun x => inc (POS.SLIPCNT c) (chGSet c { chG c x with slip := true } x))
      (wrB (POS.CHSTAT.HALF c) false (wrB (POS.CHSTAT.CARRIER c) false d)) := if_pos ⟨hs, hc⟩

theorem codeLoss_lost (hs : chState c d = cTrack) : codeLoss c d = toReacq c d := if_pos hs

theorem reacqTimeout_over (hs : chState c d = cReacq) (ht : (chG c d).loss + rd POS.REACQWIN d * rawPerS ≤ d.raw) :
    reacqTimeout c d = chRest c d := if_pos ⟨hs, ht⟩

end Channels

/-- Settles O53: each event of the search engine and of a channel has the effect the spec names. -/
theorem basebandRuns : Obligations.BasebandRuns := by
  unfold Obligations.BasebandRuns
  rintro s _ rfl
  dsimp only [exec]
  refine ⟨?starts, ?stops, ?dwell, ?pin, ?release, ?pullinLock, ?trackLock, ?pullinOver, ?bitSync, ?frameSync, ?carrier, ?code,
    ?reacqOver, ?word⟩
  case starts => exact fun v w hi hw h0 h1 he => onPos_write hi hw (bbCtl_starts h0 h1 he)
  case stops => exact fun v w hi hw h0 h1 he => onPos_write hi hw (bbCtl_stops h0 h1 he)
  case dwell => exact fun p n l hr _ _ => posOwn_to (f := Machine.acqDwell p.toNat n.toNat l) hr rfl
  case pin => exact fun c prn w hi hw => onPos_write (f := chPin c prn.toNat) hi hw rfl
  case release => exact fun c rel w hi hw => onPos_write (f := chRelease c rel) hi hw rfl
  case pullinLock => exact fun c hr hs => posOwn_to hr (pllHandover_locks (.inl hs))
  case trackLock => exact fun c hr hs hc => posOwn_to hr (pllHandover_locks (.inr ⟨hs, hc⟩))
  case pullinOver => exact fun c hr hs ht => posOwn_to hr (pullinTimeout_over hs ht)
  case bitSync => exact fun c hr hs hb => posOwn_to hr (bitSync_found hs hb)
  case frameSync => exact fun c n hr _ _ _ _ => posOwn_to (f := Machine.frameSync c) hr rfl
  case carrier => exact fun c hr hs hc => posOwn_to hr (carrierLoss_lost hs hc)
  case code => exact fun c hr hs => posOwn_to hr (codeLoss_lost hs)
  case reacqOver => exact fun c hr hs ht => posOwn_to hr (reacqTimeout_over hs ht)
  case word => exact fun c word hr _ _ => posOwn_to (f := Machine.navWord c word.toNat) hr rfl

section Base

variable {d : Dev} {l : Latch} {p : Packet}

theorem baseValid_on : baseValid true d = wrB POS.BASECTL.VALID true d := by
  rw [baseValid, Bool.not_true, Bool.and_false, if_neg Bool.false_ne_true]

theorem baseValid_off (hv : on POS.BASECTL.VALID d = true) :
    baseValid false d = forAll chans (fun c x => wr (POS.ELAZ.AZIM c) 0xFF (wr (POS.ELAZ.ELEV c) 0x80 x))
      (withPos (fun p => { p with resets := List.range 128 }) (wrB POS.BASECTL.VALID false d)) := if_pos (by rw [hv]; rfl)

theorem fixqTake_clean (hp : hwPeek 20 d = some p) (he : p.ecc = .clean) :
    fixqTake .clean d = (fun x => { x with sec := { x.sec with fixq := bit (p.items.getD 0 0).toNat 0 } }) (hwTaken 20 d) :=
  hwTry_clean hp he

theorem fixqTake_lost (hp : hwPeek 20 d = some p) : fixqTake .double d = sqEcc 20 (hwTaken 20 d) :=
  eccTry_loses hp rfl

theorem keepUpdate_runs (h : on POS.BBSTAT.RUN d = true) : keepUpdate d = keepAll (ephSeen d) := if_pos h

end Base

/-- Settles O54: each measurement epoch, correction and report has the effect the spec names. -/
theorem baseEpochsRun : Obligations.BaseEpochsRun := by
  unfold Obligations.BaseEpochsRun
  rintro s _ rfl
  dsimp only [exec]
  refine ⟨?iono, ?baseOn, ?baseOff, ?latchFirst, ?latchNext, ?record, ?correct, ?fixq, ?fixqLost, ?keep⟩
  case iono => exact fun v w hi hw => onPos_write (f := wrB POS.IONOCTL.VALID v) hi hw rfl
  case baseOn => exact fun w hi hw => onPos_write hi hw baseValid_on
  case baseOff => exact fun w hi hw hv => onPos_write hi hw (baseValid_off hv)
  case latchFirst => exact fun m hr _ _ _ => posOwn_to (f := Machine.measLatch m) hr rfl
  case latchNext => exact fun m t hr _ _ _ _ => posOwn_to (f := Machine.measLatch m) hr rfl
  case record => exact fun l hr _ _ => posOwn_to (f := epochComplete) hr rfl
  case correct =>
    exact fun l hr _ _ _ _ => posOwn_to (f := fun d => accAfter (Machine.timeCorrection (ties s.pending d))) hr rfl
  case fixq => exact fun p hi hp he => onSec_to hi (fixqTake_clean hp he)
  case fixqLost => exact fun p hi hp => onSec_to hi (fixqTake_lost hp)
  case keep => exact fun hr hb => posOwn_to hr (keepUpdate_runs hb)

end Sys2Proof.Proofs
end

section
/-! Proofs/RoverSolver.lean: the rover solver's records and controls (R184-R225). -/

namespace Sys2Proof.Proofs

open Sys2Proof Sys2Proof.Machine Sys2Proof.Safety Sys2Proof.Laws

section Controls

variable {d : Dev}

theorem siteValid_on (he : on POS.SOLCTL.EN d = false) :
    siteValid true d = if rotOk d then wrB POS.SITECTL.VALID true d else wrB POS.SITECTL.REFUSED true d :=
  (if_neg (by rw [he]; exact Bool.false_ne_true)).trans (if_neg Bool.false_ne_true)

theorem siteValid_off (he : on POS.SOLCTL.EN d = false) : siteValid false d = wrB POS.SITECTL.VALID false d :=
  (if_neg (by rw [he]; exact Bool.false_ne_true)).trans (if_pos rfl)

theorem solverEnable_starts (he : on POS.SOLCTL.EN d = false) (hv : on POS.SITECTL.VALID d = true) :
    solverEnable true d = resetRovers ((List.range 128).filter (fun r => roven r d)) (wrB POS.SOLCTL.EN true d) :=
  (if_pos (by rw [he]; rfl)).trans (if_pos hv)

theorem solverEnable_stops (he : on POS.SOLCTL.EN d = true) :
    solverEnable false d = addTo POS.RECNOEN d.pos.store.length (wrB POS.SOLCTL.EN false
      (withPos (fun p => { p with store := [] }) d)) := by
  simp only [solverEnable, he, Bool.false_and, Bool.not_false, Bool.and_self, Bool.false_eq_true, if_false, if_true]

end Controls

/-- Settles O55: each record, solution and control of the rover solver has the effect the spec names. -/
theorem roverSolverRuns : Obligations.RoverSolverRuns := by
  unfold Obligations.RoverSolverRuns
  rintro s _ rfl
  dsimp only [exec]
  refine ⟨?recordIn, ?dispatch, ?waitEnd, ?solved, ?enable, ?reset, ?site, ?siteRefused, ?siteOff, ?starts, ?stops⟩
  case recordIn => exact fun p hr _ _ _ => posOwn_to (f := Machine.recordIn) hr rfl
  case dispatch => exact fun hr => posOwn_to (f := recDispatch) hr rfl
  case waitEnd => exact fun i hr _ => posOwn_to (f := waitEnd) hr rfl
  case solved => exact fun p x hr _ => posOwn_to (f := Machine.solveDone p) hr rfl
  case enable => exact fun g v w hi hw => onPos_write (f := rovEnable g v.toNat) hi hw rfl
  case reset => exact fun r w hi hw => onPos_write (f := resetRovers [r.val]) hi hw rfl
  case site => exact fun w hi hw he hr => onPos_write hi hw ((siteValid_on he).trans (if_pos hr))
  case siteRefused =>
    exact fun w hi hw he hr => onPos_write hi hw ((siteValid_on he).trans (if_neg (by rw [hr]; exact Bool.false_ne_true)))
  case siteOff => exact fun w hi hw he => onPos_write hi hw (siteValid_off he)
  case starts => exact fun w hi hw he hv => onPos_write hi hw (solverEnable_starts he hv)
  case stops => exact fun w hi hw he => onPos_write hi hw (solverEnable_stops he)

end Sys2Proof.Proofs
end

section
/-! Proofs/TrackEvents.lean: what the reservation engine does by itself, and the auction engine (R226-R264). -/

namespace Sys2Proof.Proofs

open Sys2Proof Sys2Proof.Machine Sys2Proof.Safety Sys2Proof.Laws

section Lifts

variable {s : State} {t : Dev}

theorem onSch_to {f : Nat → Dev → Dev} (hr : runs SCHi (start s) = true) (hf : f (baseId s.fuses) (start s) = t) :
    onSch s f = .next (after s t) := by
  rw [onSch_runs hr, hf]

theorem schReg_to {w : Who} {f : Dev → Dev} (hi : isUp SCHi (start s) = true) (hw : atS w = true) (hf : f (start s) = t) :
    schReg s w f = .next (after s t) := onDev_up hi ((whenB_true hw _).trans hf)

end Lifts

section Engine

variable {own k : Nat} {d : Dev} {p : Packet} {x : W64} {m : Memb}

/-- A command whose code names none is answered with status 01 and counted (R233). -/
theorem command_bad {r : List W64} (ho : cmdsOpen d = true) (hp : hwPeek 25 d = some p) (he : p.ecc = .clean)
    (hx : p.items = x :: r) (hc : hCode x = 0 ∨ 0x09 < hCode x) :
    command (fun c => c == 0 || decide (0x09 < c)) commandBad d = status x 0x01 (inc SCH.CMDBAD (hwTaken 25 d)) := by
  have hbad : (hCode x == 0 || decide (0x09 < hCode x)) = true := by
    rwa [Bool.or_eq_true, beq_iff_eq, decide_eq_true_iff]
  rw [command, ho, Bool.not_true, if_neg Bool.false_ne_true, hwTry_clean hp he]
  simp only [hx, hbad, if_true, commandBad]

theorem cutTimeout_due {t : Nat} (hm : membOf k d = some m) (hc : m.cutDl = some t) (ht : m.cutTold = false)
    (hd : 0 ≤ sfDiff (sfNow d) t) : cutTimeout k d = single k 4 (membSet k (some { m with cutTold := true }) d) := by
  simp only [cutTimeout, hm, hc, ht, Option.any_some, decide_eq_true hd, Bool.not_false, Bool.and_self, if_true]

theorem solFromPos_clean (hp : hwPeek 24 d = some p) (he : p.ecc = .clean) :
    solFromPos own d = solutionItem own p.items (hwTaken 24 d) := hwTry_clean hp he

theorem nofix_due (hm : membOf k d = some m) (he : on SCH.TRKCTL.NOFIXEN d = true) (hv : moving m = true)
    (hs : (currentSegs m d).any (fun s => !segIndoor s d) = true)
    (ht : (d.sch.times.nofix : Int) ≤ sfDiff (sfNow d) m.testSf) : nofix k d = single k 2 d := by
  simp only [nofix, hm, he, hv, hs, decide_eq_true ht, Bool.and_self, if_true]

theorem holdExpiry_foreign {f : Fgn} (hf : d.sch.fgn.find? (fun f => !f.done && decide (0 ≤ sfDiff (sfNow d) f.till)) = some f) :
    holdExpiry own d = inc SCH.HOLDEXP (fgnDrop f.ents d) := by
  simp only [holdExpiry, hf]

theorem holdExpiry_own {c : Cross} (hf : d.sch.fgn.find? (fun f => !f.done && decide (0 ≤ sfDiff (sfNow d) f.till)) = none)
    (hc : d.sch.cross.find? (fun c => decide ((d.sch.times.holdTo : Int) ≤ sfDiff (sfNow d) c.asked)) = some c) :
    holdExpiry own d = abortCross own c { reason := 0x11 } d := by
  simp only [holdExpiry, hf, hc]

theorem peerBad_elsewhere (hp : hwPeek 28 d = some p) (he : p.ecc = .clean) (hd : pDst (p.items.getD 0 0) ≠ own) :
    peerBad own d = hwTaken 28 d := (hwTry_clean hp he).trans (if_pos hd)

theorem peerBad_unknown (hp : hwPeek 28 d = some p) (he : p.ecc = .clean) (hd : pDst (p.items.getD 0 0) = own)
    (ht : pTyp (p.items.getD 0 0) = 0 ∨ 0x0B < pTyp (p.items.getD 0 0)) : peerBad own d = inc SCH.CMDBAD (hwTaken 28 d) :=
  (hwTry_clean hp he).trans ((if_neg (not_not_intro hd)).trans (if_pos ht))

theorem graphWrite_idle {o v : Nat} (ho : o < 0xA0000) (h4 : o % 4 = 0) (he : on SCH.TRKCTL.EN d = false) :
    graphWrite o v d = withSch (fun q => { q with
      sram := ((leBytes 4 v).zipIdx).foldl (fun t e => tset t (o + e.2) (BitVec.ofNat 8 e.1) 0) q.sram }) d := by
  rw [graphWrite, if_neg (not_or.2 ⟨Nat.not_le_of_lt ho, not_not_intro h4⟩), he]
  exact if_neg (by rw [Bool.false_and]; exact Bool.false_ne_true)

end Engine

section Auction

variable {d e : Dev} {l : List Nat} {p : List Int} {ph : Nat}

theorem auctDone_optimal (hb : on SCH.AUCTSTAT.BUSY d = true) (hl : auctLate d = false) (hr : auctReach true d = (true, e))
    (ho : auctOk e = true) (ha : assigned l e = true) (hw : withinBound l p (epsAt e (phases e - 1)) e = true) :
    auctDone l p d = auctEnd 1 (auctWrite l p (epsAt e (phases e - 1)) (phases e) e) := by
  simp only [auctDone, hb, hl, hr, ho, ha, hw, Bool.not_true, Bool.or_self, Bool.and_self, Bool.false_eq_true, if_false, if_true]

theorem auctDone_fault (hb : on SCH.AUCTSTAT.BUSY d = true) (hl : auctLate d = false) (hr : auctReach true d = (false, e)) :
    auctDone l p d = auctEnd 4 e := by
  simp only [auctDone, hb, hl, hr, Bool.not_true, Bool.or_self, Bool.false_eq_true, if_false]

theorem auctTimeout_phase (hb : on SCH.AUCTSTAT.BUSY d = true) (hl : auctLate d = true) (h0 : ph ≠ 0)
    (hr : auctReach true d = (true, e)) (ho : auctOk e = true) (hp : ph < phases e) (ha : assigned l e = true)
    (hw : withinBound l p (epsAt e (ph - 1)) e = true) :
    auctTimeout ph l p d = auctEnd 2 (auctWrite l p (epsAt e (ph - 1)) ph e) := by
  simp only [auctTimeout, hb, hl, bne_iff_ne.2 h0, hr, ho, ha, hw, decide_eq_true hp, if_neg h0, Bool.not_true, Bool.or_self,
    Bool.and_self, Bool.false_eq_true, if_false, if_true]

theorem auctTimeout_none (hb : on SCH.AUCTSTAT.BUSY d = true) (hl : auctLate d = true)
    (hr : auctReach false d = (true, e)) (ho : auctOk e = true) : auctTimeout 0 l p d = auctEnd 2 e := by
  simp only [auctTimeout, hb, hl, bne_self_eq_false, hr, ho, Bool.not_true, Bool.or_self, Bool.false_eq_true, if_false, if_true]

end Auction

/-- Settles O58: each event of the reservation engine and of the auction has the effect the spec names. -/
theorem trackEventsRun : Obligations.TrackEventsRun := by
  unfold Obligations.TrackEventsRun
  rintro s _ rfl
  dsimp only [exec]
  refine ⟨?bad, ?eval, ?evalLost, ?cut, ?solution, ?nofix, ?lost, ?release, ?releaseReq, ?beat, ?foreign, ?own, ?peerLost,
    ?elsewhere, ?unknown, ?room, ?enable, ?graph, ?start, ?abort, ?done, ?late, ?lateNone, ?fault⟩
  case bad => exact fun p x r hr ho hp he hx hc => onSch_to hr (command_bad ho hp he hx hc)
  case eval => exact fun e hr _ _ _ _ => onSch_to (f := fun own => Machine.trackEval own e) hr rfl
  case evalLost => exact fun hr _ _ _ => onSch_to (f := fun own => Machine.trackEval own .double) hr rfl
  case cut => exact fun k m t hr hm hc ht hd => onSch_to hr (cutTimeout_due hm hc ht hd)
  case solution => exact fun p hr hp he => onSch_to hr (solFromPos_clean hp he)
  case nofix => exact fun k m hr hm he hv hs ht => onSch_to hr (nofix_due hm he hv hs ht)
  case lost => exact fun p k hr _ _ => onSch_to (f := trackLost) hr rfl
  case release => exact fun p hr _ => onSch_to (f := Machine.operatorRelease) hr rfl
  case releaseReq => exact fun r hr hn hs hc _ => onFuses_served hr hn (by rw [hs, hc]; rfl) rfl
  case beat => exact fun hr _ => onSch_to (f := Machine.peerHbSend) hr rfl
  case foreign => exact fun f hr hf => onSch_to hr (holdExpiry_foreign hf)
  case own => exact fun c hr hf hc => onSch_to hr (holdExpiry_own hf hc)
  case peerLost => exact fun b hr _ _ _ _ => onSch_to (f := fun own => Machine.peerLost own b) hr rfl
  case elsewhere => exact fun p hr hp he hd => onSch_to hr (peerBad_elsewhere hp he hd)
  case unknown => exact fun p hr hp he hd ht => onSch_to hr (peerBad_unknown hp he hd ht)
  case room => exact fun hr => onSch_to (f := fun _ => reportRoom) hr rfl
  case enable => exact fun v w hi hw => schReg_to (f := wrB SCH.TRKCTL.EN v) hi hw rfl
  case graph => exact fun off v w hi hw ho h4 he => schReg_to hi hw (graphWrite_idle ho h4 he)
  case start => exact fun w hi hw _ => schReg_to (f := auctStart) hi hw rfl
  case abort => exact fun w hi hw hb => schReg_to hi hw (if_pos hb)
  case done =>
    rintro asg prices _ _ e hr hb hl hreach ho rfl rfl ha hw
    exact onSch_to hr (auctDone_optimal hb hl hreach ho ha hw)
  case late =>
    rintro ph asg prices _ _ e hr hb hl h0 hreach ho rfl rfl hp ha hw
    exact onSch_to hr (auctTimeout_phase hb hl h0 hreach ho hp ha hw)
  case lateNone =>
    intro ph asg prices e hr hb hl h0 hreach ho
    refine onSch_to hr ?_
    rw [h0]
    exact auctTimeout_none hb hl hreach ho
  case fault => exact fun asg prices e hr hb hl hreach => onSch_to hr (auctDone_fault hb hl hreach)

end Sys2Proof.Proofs
end
